-- ==== Sys2Proof/Word.lean ====
section
/-! DEFINITION. The word types of the part (R5, R6) and the plain shape of sparse data: a list of key and value pairs. -/

namespace Sys2Proof

/-- An instruction word (R6). -/
abbrev Word := BitVec 32

/-- A register value or a generic address (R12, R90). -/
abbrev Addr := BitVec 64

/-- A byte of memory. -/
abbrev Byte := BitVec 8

/-- Sparse data by key. -/
abbrev Tbl (α : Type) := List (Nat × α)

end Sys2Proof
end

