-- ==== Sys2Proof/Syntax.lean ====
section
/-! DEFINITION. The instruction set: one constructor per row of the opcode table (spec/opcode_table.json).
A row with a word (R42-R48) keeps the word's fields; a row without one is a step the part makes on its own or an
input it is given, and its operands name the unit that moves and what the input carries. -/

namespace Sys2Proof

/-- The two programs of a core (R6, R240). -/
inductive Side where
  | ap
  | xp
  deriving DecidableEq, Repr, Inhabited

/-- Where a correctable error was counted (R409, R410): an HBM channel, a bank of a core's pool (R245), a bank of a die's shared
SRAM, a die's remote-line cache, the boathouse. -/
inductive ErrSite where
  | hbm (ch : Nat)
  | pool (c bank : Nat)
  | sram (die bank : Nat)
  | rlc (die : Nat)
  | boathouse
  deriving DecidableEq, Repr, Inhabited

/-- The owner key and ML-DSA-44 signature that a signed command carries (R401). -/
structure OwnerSig where
  pk  : List (BitVec 8)
  sig : List (BitVec 8)
  deriving DecidableEq, Repr, Inhabited

/-- The arguments of CTX_CONFIG (R401): die-SRAM windows, save area, quota in bytes (none: no quota), lanes reserved. -/
structure CtxCfg where
  wshS     : Nat
  wshB     : Nat
  saveBase : Nat
  saveSize : Nat
  quota    : Option Nat
  lanes    : BitVec 128
  deriving DecidableEq, Repr, Inhabited

/-- The arguments of MAP (R401, R263). -/
structure MapArgs where
  va   : Nat
  n    : Nat
  page : Nat
  r    : Bool
  w    : Bool
  deriving DecidableEq, Repr, Inhabited

/-- The arguments of INTAKE (R299, R401). -/
structure IntakeCfg where
  enable  : Bool
  ctx     : Nat
  prio    : Nat
  block   : Nat
  base    : Nat
  size    : Nat
  sem     : Nat
  semCore : Option Nat
  high    : Nat
  low     : Nat
  deriving DecidableEq, Repr, Inhabited

/-- State of a region (R267). -/
inductive RegState where
  | priv
  | frozen
  | commons
  deriving DecidableEq, Repr, Inhabited

/-- Spread of a region over the channels (R264). -/
inductive Spread where
  | dev
  | dieS
  | dieB
  deriving DecidableEq, Repr, Inhabited

/-- A region entry (R41): first address, number of 2 MiB regions, state, spread, owner of a PRIVATE region. -/
structure RegionEntry where
  base   : Nat
  count  : Nat
  st     : RegState
  spread : Spread
  owner  : Nat
  deriving DecidableEq, Repr, Inhabited

/-- The arguments of LAUNCH (R286, R401): the 128-byte heat record, its region entries, the ring image that the loader
places in ring 0 of every core (R41), and whether cox firmware submits it (R20, R287). -/
structure LaunchArgs where
  hr      : List (BitVec 8)
  regions : List RegionEntry
  ring    : List (BitVec 512)
  fw      : Bool
  deriving DecidableEq, Repr, Inhabited

/-- What HEAT_CONTINUE does with one stopped ring (R407). -/
inductive RingAct where
  | leave
  | res
  | drop
  deriving DecidableEq, Repr, Inhabited

/-- The actions of HEAT_CONTINUE (R407): per stopped ring (core, ring, action) and per stopped walk (core, stream) to
continue. -/
structure HeatActs where
  rings : List (Nat × Nat × RingAct)
  walks : List (Nat × Nat)
  deriving DecidableEq, Repr, Inhabited

/-- One constructor per row of the opcode table. -/
inductive Instr where
  /-- ADD (R77): AP register add, d := a + b modulo 2^64. -/
  | add (d : Nat) (a : Nat) (b : Nat)
  /-- SUB (R77): AP register subtract, d := a - b. -/
  | sub (d : Nat) (a : Nat) (b : Nat)
  /-- AND (R77): AP bitwise AND of two registers. -/
  | and (d : Nat) (a : Nat) (b : Nat)
  /-- OR (R77): AP bitwise OR of two registers. -/
  | or (d : Nat) (a : Nat) (b : Nat)
  /-- XOR (R77): AP bitwise XOR of two registers. -/
  | xor (d : Nat) (a : Nat) (b : Nat)
  /-- ANDN (R77): AP a AND NOT b. -/
  | andn (d : Nat) (a : Nat) (b : Nat)
  /-- SHL (R77): AP shift left by b[5:0]. -/
  | shl (d : Nat) (a : Nat) (b : Nat)
  /-- SHR (R77): AP logical shift right by b[5:0]. -/
  | shr (d : Nat) (a : Nat) (b : Nat)
  /-- SRA (R77): AP arithmetic shift right by b[5:0]. -/
  | sra (d : Nat) (a : Nat) (b : Nat)
  /-- MUL (R77): AP low 64 bits of the product. -/
  | mul (d : Nat) (a : Nat) (b : Nat)
  /-- MULH (R77): AP high 64 bits of the signed 128-bit product. -/
  | mulh (d : Nat) (a : Nat) (b : Nat)
  /-- MULHZ (R77): AP high 64 bits of the unsigned 128-bit product. -/
  | mulhz (d : Nat) (a : Nat) (b : Nat)
  /-- DIV (R78): AP signed division truncated toward zero, never faulting. -/
  | div (d : Nat) (a : Nat) (b : Nat)
  /-- REM (R78): AP signed remainder with the sign of a. -/
  | rem (d : Nat) (a : Nat) (b : Nat)
  /-- DIVZ (R78): AP unsigned division. -/
  | divz (d : Nat) (a : Nat) (b : Nat)
  /-- REMZ (R78): AP unsigned remainder. -/
  | remz (d : Nat) (a : Nat) (b : Nat)
  /-- MIN (R77): AP signed minimum. -/
  | min (d : Nat) (a : Nat) (b : Nat)
  /-- MAX (R77): AP signed maximum. -/
  | max (d : Nat) (a : Nat) (b : Nat)
  /-- MINZ (R77): AP unsigned minimum. -/
  | minz (d : Nat) (a : Nat) (b : Nat)
  /-- MAXZ (R77): AP unsigned maximum. -/
  | maxz (d : Nat) (a : Nat) (b : Nat)
  /-- SEL (R83): AP select a or b by a predicate. -/
  | sel (d : Nat) (a : Nat) (b : Nat) (p : Nat)
  /-- CMP (R82): AP register compare writing a predicate. -/
  | cmp (p : Nat) (a : Nat) (b : Nat) (c : Nat)
  /-- SEXT (R81): AP sign-extend from width w. -/
  | sext (d : Nat) (a : Nat) (w : Nat)
  /-- ZEXT (R81): AP zero-extend from width w. -/
  | zext (d : Nat) (a : Nat) (w : Nat)
  /-- CLZ (R81): AP count leading zeros. -/
  | clz (d : Nat) (a : Nat)
  /-- POPC (R81): AP population count. -/
  | popc (d : Nat) (a : Nat)
  /-- PAND (R84): Predicate AND. -/
  | pand (d : Nat) (a : Nat) (b : Nat)
  /-- POR (R84): Predicate OR. -/
  | por (d : Nat) (a : Nat) (b : Nat)
  /-- PXOR (R84): Predicate XOR. -/
  | pxor (d : Nat) (a : Nat) (b : Nat)
  /-- PNOT (R84): Predicate NOT. -/
  | pnot (d : Nat) (a : Nat)
  /-- CSRR (R89): AP read of a control and status register. -/
  | csrr (d : Nat) (c : Nat)
  /-- CSRW (R89): AP write of a CSR from a register. -/
  | csrw (a : Nat) (c : Nat)
  /-- ADDI (R79): AP add of a sign-extended immediate. -/
  | addi (d : Nat) (a : Nat) (i : BitVec 13)
  /-- ANDI (R79): AP AND with immediate. -/
  | andi (d : Nat) (a : Nat) (i : BitVec 13)
  /-- ORI (R79): AP OR with immediate. -/
  | ori (d : Nat) (a : Nat) (i : BitVec 13)
  /-- XORI (R79): AP XOR with immediate. -/
  | xori (d : Nat) (a : Nat) (i : BitVec 13)
  /-- SHLI (R79): AP shift left by immediate. -/
  | shli (d : Nat) (a : Nat) (s : Nat)
  /-- SHRI (R79): AP logical shift right by immediate. -/
  | shri (d : Nat) (a : Nat) (s : Nat)
  /-- SRAI (R79): AP arithmetic shift right by immediate. -/
  | srai (d : Nat) (a : Nat) (s : Nat)
  /-- LI (R80): AP load of a 13-bit sign-extended constant. -/
  | li (d : Nat) (i : BitVec 13)
  /-- CMPI_EQ (R82): AP compare with immediate, equal. -/
  | cmpiEq (p : Nat) (a : Nat) (i : BitVec 13)
  /-- CMPI_NE (R82): AP compare with immediate, not equal. -/
  | cmpiNe (p : Nat) (a : Nat) (i : BitVec 13)
  /-- CMPI_LT (R82): AP compare with immediate, signed less than. -/
  | cmpiLt (p : Nat) (a : Nat) (i : BitVec 13)
  /-- CMPI_GE (R82): AP compare with immediate, signed greater or equal. -/
  | cmpiGe (p : Nat) (a : Nat) (i : BitVec 13)
  /-- CMPI_LTZ (R82): AP compare with immediate, unsigned less than. -/
  | cmpiLtz (p : Nat) (a : Nat) (i : BitVec 13)
  /-- CMPI_GEZ (R82): AP compare with immediate, unsigned greater or equal. -/
  | cmpiGez (p : Nat) (a : Nat) (i : BitVec 13)
  /-- B (R85): AP unconditional branch, popping loop entries whose body it leaves. -/
  | br (o : BitVec 18)
  /-- BP (R85): AP branch when a predicate is 1. -/
  | bp (p : Nat) (o : BitVec 18)
  /-- BNP (R85): AP branch when a predicate is 0. -/
  | bnp (p : Nat) (o : BitVec 18)
  /-- CALL (R85): AP call, writing the return address to a31. -/
  | call (o : BitVec 18)
  /-- LOOP (R87): AP opens a zero-overhead counted loop. -/
  | loop (c : Nat) (o : BitVec 18)
  /-- JR (R86): AP indirect jump with link, also ret. -/
  | jr (d : Nat) (a : Nat)
  /-- LIL (R80): AP LONG load of a 32-bit sign-extended constant. -/
  | lil (d : Nat) (i : BitVec 32)
  /-- ADDIL (R80): AP LONG add of a 32-bit immediate. -/
  | addil (d : Nat) (a : Nat) (i : BitVec 32)
  /-- CSRW_LONG (R48): AP LONG write of a CSR with a 32-bit immediate. -/
  | csrwLong (c : Nat) (i : BitVec 32)
  /-- LD (R92): AP load of 1, 2, 4 or 8 bytes, optionally zero-extended or invariant. -/
  | ld (n : Bool) (z : Bool) (w : Nat) (d : Nat) (a : Nat) (i : BitVec 13)
  /-- LDS (R95): AP speculative load that poisons instead of faulting. -/
  | lds (z : Bool) (w : Nat) (d : Nat) (a : Nat) (i : BitVec 13)
  /-- LDS_DATA_ARRIVE (R95): The data or poison of an outstanding speculative load arrives in its register. -/
  | ldsDataArrive (c : Nat) (d : Nat)
  /-- ST (R93): AP store of 1, 2, 4 or 8 bytes. -/
  | st (w : Nat) (d : Nat) (a : Nat) (i : BitVec 13)
  /-- LD_ACQ (R98): AP acquire load at a scope. -/
  | ldAcq (w : Nat) (d : Nat) (a : Nat) (z : Bool) (s : Nat)
  /-- ST_REL (R98): AP release store at a scope. -/
  | stRel (w : Nat) (d : Nat) (a : Nat) (s : Nat)
  /-- CHK (R96): AP traps with POISON when a register is poisoned. -/
  | chk (a : Nat)
  /-- CVTA_TO (R100): AP converts an aperture offset to a generic address. -/
  | cvtaTo (d : Nat) (a : Nat) (p : Nat)
  /-- CVTA_OF (R100): AP converts a generic address to its aperture offset. -/
  | cvtaOf (d : Nat) (a : Nat) (p : Nat)
  /-- ISAP (R101): AP tests whether an address is valid in an aperture. -/
  | isap (d : Nat) (a : Nat) (p : Nat)
  /-- QPUT (R102): AP appends a register to an AP-to-XP queue, blocking while full. -/
  | qput (q : Nat) (a : Nat)
  /-- QGET (R102): AP removes the oldest entry of an XP-to-AP queue, blocking while empty. -/
  | qget (d : Nat) (q : Nat)
  /-- SHAPE (R114): Reads and checks a shape record and stores it as a port's shape. -/
  | shape (k : Nat) (a : Nat)
  /-- SOPEN (R115): Binds a port to a new stream ring. -/
  | sopen (k : Nat) (a : Nat) (b : Nat)
  /-- SLD (R117): Appends one run of the shape to a MEM source stream. -/
  | sld (k : Nat) (a : Nat) (b : Nat)
  /-- SFILL (R118): Starts a filler or drainer walk of the port's shape. -/
  | sfill (k : Nat) (a : Nat)
  /-- SFILL_RES (R119): Resumes a stopped walk at WALK_RUN. -/
  | sfillRes (k : Nat)
  /-- SFORK (R120): Adds a reader entry to a source stream. -/
  | sfork (n : Nat) (m : Nat) (s : Bool) (t : Bool) (w : Nat)
  /-- SMARK (R121): Sets a reader entry's mark at its read position. -/
  | smark (k : Nat)
  /-- SMARK_CLR (R121): Removes a reader entry's mark. -/
  | smarkClr (k : Nat)
  /-- SREW (R121): Rewinds a reader entry to its mark. -/
  | srew (k : Nat)
  /-- SCLOSE (R123): Unbinds a port, ending the reader entry or the sink's writer side. -/
  | sclose (k : Nat)
  /-- SCLOSE_FIN (R123): Sets END on a MEM source once reserved runs have committed. -/
  | scloseFin (k : Nat)
  /-- SDRAIN (R124): Waits until a sink has drained its committed bytes. -/
  | sdrain (d : Nat) (k : Nat)
  /-- SSTAT (R122): Returns a stream's status word and fills SSTAT0–SSTAT3. -/
  | sstat (d : Nat) (k : Nat)
  /-- SSAVE (R125): Writes a whole stream as an image and unbinds it. -/
  | ssave (k : Nat) (a : Nat)
  /-- SREST (R126): Recreates a stream from an image. -/
  | srest (a : Nat)
  /-- CMD (R134): Checks a 64-byte engine record and enqueues it into a ring. -/
  | cmd (d : Nat) (a : Nat) (r : Nat)
  /-- CENG_STAT (R135): Returns a ring's status word. -/
  | cengStat (d : Nat) (r : Nat)
  /-- CENG_SEQ (R135): Returns a ring's RP. -/
  | cengSeq (d : Nat) (r : Nat)
  /-- CENG_WAIT (R135): Waits until a given record has retired. -/
  | cengWait (d : Nat) (a : Nat) (r : Nat)
  /-- CENG_RES (R135): Resumes a stopped ring head at CHUNK. -/
  | cengRes (d : Nat) (r : Nat)
  /-- CENG_DROP (R135): Retires a stopped ring head FAULTED. -/
  | cengDrop (d : Nat) (r : Nat)
  /-- XP_ADD (R161): XP register add. -/
  | xpAdd (d : Nat) (a : Nat) (b : Nat)
  /-- XP_SUB (R161): XP register subtract. -/
  | xpSub (d : Nat) (a : Nat) (b : Nat)
  /-- XP_AND (R161): XP bitwise AND. -/
  | xpAnd (d : Nat) (a : Nat) (b : Nat)
  /-- XP_OR (R161): XP bitwise OR. -/
  | xpOr (d : Nat) (a : Nat) (b : Nat)
  /-- XP_XOR (R161): XP bitwise XOR. -/
  | xpXor (d : Nat) (a : Nat) (b : Nat)
  /-- XP_SHL (R161): XP shift left. -/
  | xpShl (d : Nat) (a : Nat) (b : Nat)
  /-- XP_SHR (R161): XP logical shift right. -/
  | xpShr (d : Nat) (a : Nat) (b : Nat)
  /-- XP_SRA (R161): XP arithmetic shift right. -/
  | xpSra (d : Nat) (a : Nat) (b : Nat)
  /-- XP_MUL (R161): XP low 64 bits of the product. -/
  | xpMul (d : Nat) (a : Nat) (b : Nat)
  /-- XP_MIN (R161): XP signed minimum. -/
  | xpMin (d : Nat) (a : Nat) (b : Nat)
  /-- XP_MAX (R161): XP signed maximum. -/
  | xpMax (d : Nat) (a : Nat) (b : Nat)
  /-- XP_SEL (R161): XP select by a register tested for nonzero. -/
  | xpSel (d : Nat) (a : Nat) (b : Nat) (c : Nat)
  /-- XP_CMP (R161): XP compare writing 1 or 0. -/
  | xpCmp (d : Nat) (a : Nat) (b : Nat) (c : Nat)
  /-- XP_CSRR (R168): XP CSR read. -/
  | xpCsrr (d : Nat) (c : Nat)
  /-- XP_CSRW (R168): XP CSR write from a register. -/
  | xpCsrw (a : Nat) (c : Nat)
  /-- XP_ADDI (R161): XP add immediate. -/
  | xpAddi (d : Nat) (a : Nat) (i : BitVec 13)
  /-- XP_LI (R161): XP load 13-bit constant. -/
  | xpLi (d : Nat) (i : BitVec 13)
  /-- XP_B (R163): XP unconditional branch. -/
  | xpB (o : BitVec 18)
  /-- XP_BP (R163): XP branch when a register is nonzero. -/
  | xpBp (c : Nat) (o : BitVec 18)
  /-- XP_LOOP (R164): XP opens a zero-overhead counted loop. -/
  | xpLoop (c : Nat) (o : BitVec 18)
  /-- XFENCE (R169): Waits until the three XP queues are empty and their engines idle. -/
  | xfence
  /-- XP_QGET (R167): XP removes the oldest entry of an AP-to-XP queue. -/
  | xpQget (d : Nat) (q : Nat)
  /-- XP_QPUT (R167): XP appends to an XP-to-AP queue. -/
  | xpQput (q : Nat) (a : Nat)
  /-- FADD (R162): XP scalar f32 add with rounding mode. -/
  | fadd (d : Nat) (a : Nat) (b : Nat) (r : Nat)
  /-- FMUL (R162): XP scalar f32 multiply. -/
  | fmul (d : Nat) (a : Nat) (b : Nat) (r : Nat)
  /-- FMA (R162): XP scalar f32 fused multiply-add into d. -/
  | fma (d : Nat) (a : Nat) (b : Nat) (r : Nat)
  /-- LSP (R165): XP opens a software-pipelined loop with stage predicates and rotation. -/
  | lsp (c : Nat) (o : BitVec 18)
  /-- VSET (R170): Sets VT element type and mask, leaving rotation. -/
  | vset (m : Nat) (e : Nat)
  /-- VSET_ROT (R170): Sets VT element type, mask and rotation fields from a register. -/
  | vsetRot (a : Nat) (m : Nat) (e : Nat)
  /-- NSET (R171): Loads the Beneš control word into n0–n7. -/
  | nset (c : Nat)
  /-- XP_LIL (R161): XP LONG load of a 32-bit constant. -/
  | xpLil (d : Nat) (i : BitVec 32)
  /-- XP_ADDIL (R161): XP LONG add of a 32-bit immediate. -/
  | xpAddil (d : Nat) (a : Nat) (i : BitVec 32)
  /-- XP_CSRW_LONG (R168): XP LONG CSR write with a 32-bit immediate. -/
  | xpCsrwLong (c : Nat) (i : BitVec 32)
  /-- XP_STEER (R9): The sequencer steers a class-011 or class-100 word into its queue, capturing VT and G. -/
  | xpSteer (c : Nat)
  /-- VADD (R174): Vector integer add, wrapping or saturating. -/
  | vadd (d : Nat) (a : Nat) (b : Nat) (s : Bool) (m : Bool)
  /-- VSUB (R174): Vector integer subtract. -/
  | vsub (d : Nat) (a : Nat) (b : Nat) (s : Bool) (m : Bool)
  /-- VMUL (R174): Vector integer multiply. -/
  | vmul (d : Nat) (a : Nat) (b : Nat) (s : Bool) (m : Bool)
  /-- VMULH (R174): Vector high half of the integer product. -/
  | vmulh (d : Nat) (a : Nat) (b : Nat) (m : Bool)
  /-- VMAD (R174): Vector integer multiply-add into D. -/
  | vmad (d : Nat) (a : Nat) (b : Nat) (s : Bool) (m : Bool)
  /-- VMIN (R174): Vector integer minimum. -/
  | vmin (d : Nat) (a : Nat) (b : Nat) (m : Bool)
  /-- VMAX (R174): Vector integer maximum. -/
  | vmax (d : Nat) (a : Nat) (b : Nat) (m : Bool)
  /-- VABS (R174): Vector integer absolute value. -/
  | vabs (d : Nat) (a : Nat) (s : Bool) (m : Bool)
  /-- VAND (R177): Vector bitwise AND. -/
  | vand (d : Nat) (a : Nat) (b : Nat) (m : Bool)
  /-- VOR (R177): Vector bitwise OR, also vmov. -/
  | vor (d : Nat) (a : Nat) (b : Nat) (m : Bool)
  /-- VXOR (R177): Vector bitwise XOR. -/
  | vxor (d : Nat) (a : Nat) (b : Nat) (m : Bool)
  /-- VNOT (R177): Vector bitwise NOT. -/
  | vnot (d : Nat) (a : Nat) (m : Bool)
  /-- VSHL (R175): Vector shift left, wrapping or saturating. -/
  | vshl (d : Nat) (a : Nat) (b : Nat) (s : Bool) (m : Bool)
  /-- VSHR (R175): Vector logical shift right, optionally rounding. -/
  | vshr (d : Nat) (a : Nat) (b : Nat) (s : Bool) (m : Bool)
  /-- VSRA (R175): Vector arithmetic shift right, optionally rounding. -/
  | vsra (d : Nat) (a : Nat) (b : Nat) (s : Bool) (m : Bool)
  /-- VCMP (R176): Vector integer compare writing a mask register. -/
  | vcmp (d : Nat) (a : Nat) (b : Nat) (c : Nat)
  /-- VSEL (R177): Vector select by the active mask. -/
  | vsel (d : Nat) (a : Nat) (b : Nat)
  /-- VWADD (R179): Vector widening add. -/
  | vwadd (d : Nat) (a : Nat) (b : Nat) (s : Bool) (q : Bool) (m : Bool)
  /-- VWMUL (R179): Vector widening multiply. -/
  | vwmul (d : Nat) (a : Nat) (b : Nat) (s : Bool) (q : Bool) (m : Bool)
  /-- VWMAD (R179): Vector widening multiply-add. -/
  | vwmad (d : Nat) (a : Nat) (b : Nat) (s : Bool) (q : Bool) (m : Bool)
  /-- VNARROW (R180): Vector narrowing, wrapping or saturating. -/
  | vnarrow (d : Nat) (a : Nat) (s : Bool) (q : Bool) (m : Bool)
  /-- VCVT (R181): Vector type conversion under R64. -/
  | vcvt (d : Nat) (a : Nat) (f : Bool) (e : Nat) (r : Nat) (m : Bool)
  /-- VFADD (R178): Vector float add. -/
  | vfadd (d : Nat) (a : Nat) (b : Nat) (r : Nat) (m : Bool)
  /-- VFSUB (R178): Vector float subtract. -/
  | vfsub (d : Nat) (a : Nat) (b : Nat) (r : Nat) (m : Bool)
  /-- VFMUL (R178): Vector float multiply. -/
  | vfmul (d : Nat) (a : Nat) (b : Nat) (r : Nat) (m : Bool)
  /-- VFMA (R178): Vector float fused multiply-add. -/
  | vfma (d : Nat) (a : Nat) (b : Nat) (r : Nat) (m : Bool)
  /-- VFMIN (R178): Vector float minimum or minimumNumber. -/
  | vfmin (d : Nat) (a : Nat) (b : Nat) (n : Bool) (m : Bool)
  /-- VFMAX (R178): Vector float maximum or maximumNumber. -/
  | vfmax (d : Nat) (a : Nat) (b : Nat) (n : Bool) (m : Bool)
  /-- VFCMP (R176): Vector float compare writing a mask register. -/
  | vfcmp (d : Nat) (a : Nat) (b : Nat) (c : Nat)
  /-- VFSGN (R178): Vector sign injection. -/
  | vfsgn (d : Nat) (a : Nat) (b : Nat) (s : Nat) (m : Bool)
  /-- VRED (R182): Vector reduction by a balanced pairwise tree. -/
  | vred (d : Nat) (a : Nat) (r : Nat) (o : Nat) (s : Bool) (m : Bool)
  /-- VCOMPRESS (R183): Packs masked elements to the front and writes VCNT. -/
  | vcompress (d : Nat) (a : Nat)
  /-- VEXPAND (R183): Spreads leading elements to masked positions. -/
  | vexpand (d : Nat) (a : Nat)
  /-- VPERM (R184): Routes 512 bytes through the Beneš network. -/
  | vperm (d : Nat) (a : Nat) (m : Bool)
  /-- VSLIDE (R185): Vector slide by a signed element count. -/
  | vslide (d : Nat) (a : Nat) (i : BitVec 10)
  /-- VBCAST (R185): Broadcasts one element to all. -/
  | vbcast (d : Nat) (a : Nat) (j : Nat)
  /-- MAND (R186): Mask AND. -/
  | mand (d : Nat) (a : Nat) (b : Nat)
  /-- MOR (R186): Mask OR. -/
  | mor (d : Nat) (a : Nat) (b : Nat)
  /-- MNOT (R186): Mask NOT. -/
  | mnot (d : Nat) (a : Nat)
  /-- MPOP (R186): Counts set mask bits into an x register. -/
  | mpop (d : Nat) (a : Nat)
  /-- SEAT (R192): Requests the crew array seat and waits for the grant. -/
  | seat (x : Nat)
  /-- UNSEAT (R194): Ends the core's stint and releases the seat. -/
  | unseat
  /-- WLOAD (R196): Fills the shadow weight plane from a port, with scales. -/
  | wload (k : Nat) (m : Bool) (t : Nat)
  /-- WSWAP (R197): Exchanges active and shadow planes at a drain point. -/
  | wswap
  /-- SCLQ (R198): Appends one port unit of scales to the scale queue. -/
  | sclq (k : Nat)
  /-- MMUL (R200): Multiplies activation rows by the active plane into a tile. -/
  | mmul (t : Nat) (k : Nat) (m : Bool) (h : Bool) (e : Nat)
  /-- MMULG (R201): Gathers rows by index and multiplies them into a tile. -/
  | mmulg (t : Nat) (k : Nat) (x : Nat) (m : Bool) (h : Bool) (e : Nat)
  /-- AZERO (R202): Zeroes an accumulator tile. -/
  | azero (t : Nat)
  /-- DRAIN (R203): Converts tile entries and pushes them to the result queue. -/
  | drain (t : Nat) (x : Nat) (s : Bool) (f : Nat)
  /-- RPOP (R204): Moves the oldest result-queue entry into a vector register. -/
  | rpop (v : Nat)
  /-- RSEND (R204): Writes the oldest result-queue entry to a sink port. -/
  | rsend (k : Nat)
  /-- EXP2 (R205): Elementwise 2^x. -/
  | exp2 (d : Nat) (a : Nat) (m : Bool)
  /-- LOG2 (R205): Elementwise log2 x. -/
  | log2 (d : Nat) (a : Nat) (m : Bool)
  /-- RCP (R205): Elementwise reciprocal. -/
  | rcp (d : Nat) (a : Nat) (m : Bool)
  /-- RSQRT (R205): Elementwise reciprocal square root. -/
  | rsqrt (d : Nat) (a : Nat) (m : Bool)
  /-- SINPI (R205): Elementwise sin(πx). -/
  | sinpi (d : Nat) (a : Nat) (m : Bool)
  /-- COSPI (R205): Elementwise cos(πx). -/
  | cospi (d : Nat) (a : Nat) (m : Bool)
  /-- TANH (R205): Elementwise tanh. -/
  | tanh (d : Nat) (a : Nat) (m : Bool)
  /-- SIGM (R205): Elementwise logistic sigmoid. -/
  | sigm (d : Nat) (a : Nat) (m : Bool)
  /-- STINT_END_COUNT (R193): The holder's sixteenth seat-needing word completes and the stint ends by count. -/
  | stintEndCount (crew : Nat)
  /-- SEAT_GRANT (R193): The seat passes to the next requester in cyclic order. -/
  | seatGrant (crew : Nat)
  /-- NOP (R47): No operation. -/
  | nop
  /-- SPAWN_AP (R211): Creates a task on the AP of a core. -/
  | spawnAp (d : Nat) (a : Nat) (b : Nat)
  /-- SPAWN_XP (R211): Creates a task on the XP of a core. -/
  | spawnXp (d : Nat) (a : Nat) (b : Nat)
  /-- END (R212): Waits for the task's work and ends the task. -/
  | endTask
  /-- WAIT (R214): Waits on a semaphore of the own core, registering a continuation if unsatisfied. -/
  | wait (d : Nat) (a : Nat) (c : Nat) (s : Nat)
  /-- RAISE (R215): Adds to a semaphore and serves its waiters. -/
  | raise (a : Nat) (c : Nat) (s : Nat)
  /-- FWAIT (R217): Waits on a future word. -/
  | fwait (d : Nat) (a : Nat) (b : Nat)
  /-- FRES (R218): Resolves a future and enqueues its waiters. -/
  | fres (a : Nat) (b : Nat)
  /-- FFAULT (R218): Faults a future with a code and enqueues its waiters. -/
  | ffault (a : Nat) (b : Nat)
  /-- HBAR_HEAT (R220): Arrives at the barrier covering the whole heat. -/
  | hbarHeat (a : Nat)
  /-- HBAR_GROUP (R220): Arrives at the barrier of a w × h subgroup. -/
  | hbarGroup (a : Nat) (h : Nat) (w : Nat)
  /-- BARM (R222): Arms a stage barrier with a byte target. -/
  | barm (a : Nat) (b : Nat)
  /-- BARM_CLR (R222): Clears a stage barrier's count and phase, then arms it. -/
  | barmClr (a : Nat) (b : Nat)
  /-- BWAIT (R223): Waits for a stage barrier phase. -/
  | bwait (d : Nat) (a : Nat) (p : Bool) (b : Nat)
  /-- HAND (R225): Passes a private region to another core. -/
  | hand (a : Nat) (b : Nat)
  /-- FENCE (R278): Orders earlier against later accesses at a scope. -/
  | fence (s : Nat)
  /-- TSR (R227): Reads the timebase. -/
  | tsr (d : Nat)
  /-- TRAP (R228): Takes BREAK. -/
  | trap (n : Nat)
  /-- RTT (R320): Ends a fault task and lets the stopped side continue. -/
  | rtt
  /-- SYS_XPAGE (R229): Drops the translations of one page from every translation cache. -/
  | sysXpage (d : Nat) (a : Nat)
  /-- SYS_XCTX (R229): Drops every translation of a context. -/
  | sysXctx (d : Nat) (a : Nat)
  /-- SYS_RLC (R229): Writes back and invalidates both remote-line caches. -/
  | sysRlc (d : Nat) (a : Nat)
  /-- SYS_TBSYNC (R283): Realigns die B's timebase to die S. -/
  | sysTbsync (d : Nat) (a : Nat)
  /-- SLIP (R230): Sets the slip limit and waits for occupancy to fall to it. -/
  | slip (a : Nat)
  /-- HALT (R230): Stops every side of the heat, leaving it halted. -/
  | halt
  /-- PIXR (R231): Reads one progress index. -/
  | pixr (d : Nat) (e : Nat)
  /-- PIXW (R231): Sets the step at which an engine's next long instruction begins. -/
  | pixw (a : Nat) (e : Nat)
  /-- MUST (R233): Checks and admits a must-save set, committing the manifest. -/
  | must (d : Nat) (a : Nat)
  /-- UNMUST (R234): Releases a must-save set. -/
  | unmust (a : Nat)
  /-- TASK_START (R210): An idle side starts the oldest queued task from its continuation record. -/
  | taskStart (c : Nat) (sd : Side)
  /-- ENGINE_HEAD_START (R139): A ring head's await is satisfied and the record begins. -/
  | engineHeadStart (c : Nat) (r : Nat)
  /-- COPY (R146): A COPY record chunk copies one run of its nest. -/
  | copy (c : Nat) (r : Nat) (k : Nat)
  /-- COPY_DECODE (R146): A COPY record with DECODE copies or decodes one 4 KiB unit. -/
  | copyDecode (c : Nat) (r : Nat) (k : Nat)
  /-- FILL (R147): A FILL record chunk writes a pattern over one run. -/
  | fill (c : Nat) (r : Nat) (k : Nat)
  /-- RAGGED (R148): A RAGGED record chunk copies one row into a padded box. -/
  | ragged (c : Nat) (r : Nat) (k : Nat)
  /-- GATHER (R149): A GATHER record chunk copies one indexed row. -/
  | gather (c : Nat) (r : Nat) (k : Nat)
  /-- SCATTER (R149): A SCATTER record chunk writes one row to an indexed place. -/
  | scatter (c : Nat) (r : Nat) (k : Nat)
  /-- ACCW_ADD (R151): ACCW chunk applies wrapping integer add at memory ports. -/
  | accwAdd (c : Nat) (r : Nat) (k : Nat)
  /-- ACCW_ADDS (R151): ACCW chunk applies saturating integer add. -/
  | accwAdds (c : Nat) (r : Nat) (k : Nat)
  /-- ACCW_FADD (R151): ACCW chunk applies f32 add. -/
  | accwFadd (c : Nat) (r : Nat) (k : Nat)
  /-- ACCW_XADD (R73): ACCW chunk applies exact-window adds to xw words and sidebands. -/
  | accwXadd (c : Nat) (r : Nat) (k : Nat)
  /-- ACCW_OR (R151): ACCW chunk applies bitwise OR. -/
  | accwOr (c : Nat) (r : Nat) (k : Nat)
  /-- ACCW_AND (R151): ACCW chunk applies bitwise AND. -/
  | accwAnd (c : Nat) (r : Nat) (k : Nat)
  /-- ACCW_XOR (R151): ACCW chunk applies bitwise XOR. -/
  | accwXor (c : Nat) (r : Nat) (k : Nat)
  /-- ACCW_MIN (R151): ACCW chunk applies integer minimum. -/
  | accwMin (c : Nat) (r : Nat) (k : Nat)
  /-- ACCW_MAX (R151): ACCW chunk applies integer maximum. -/
  | accwMax (c : Nat) (r : Nat) (k : Nat)
  /-- ACCW_FMIN (R151): ACCW chunk applies float minimum. -/
  | accwFmin (c : Nat) (r : Nat) (k : Nat)
  /-- ACCW_FMAX (R151): ACCW chunk applies float maximum. -/
  | accwFmax (c : Nat) (r : Nat) (k : Nat)
  /-- ACCW_SWAP (R151): ACCW chunk swaps in operands. -/
  | accwSwap (c : Nat) (r : Nat) (k : Nat)
  /-- ACCW_CAS (R151): ACCW chunk applies compare-and-swap. -/
  | accwCas (c : Nat) (r : Nat) (k : Nat)
  /-- LANE_LOAD (R153): A LANE.LOAD chunk writes 4 KiB into a lane's table store. -/
  | laneLoad (c : Nat) (r : Nat) (k : Nat)
  /-- LANE_RUN (R154): A LANE.RUN record takes its stream and lane and starts a run. -/
  | laneRun (c : Nat) (r : Nat)
  /-- NET (R155): A NET record is taken by its die's netting engine for one message-passing step. -/
  | net (c : Nat) (r : Nat)
  /-- QFENCE (R156): A QFENCE completes when earlier records of named rings have retired. -/
  | qfence (c : Nat) (r : Nat)
  /-- SEMA_SIGNAL (R157): A SEMA record with OP 0 performs only its await and raise. -/
  | semaSignal (c : Nat) (r : Nat)
  /-- SEMA_SET (R157): A SEMA record with OP 1 sets a semaphore's count and clears its FAULT and OVER bits. -/
  | semaSet (c : Nat) (r : Nat)
  /-- FILLER_COMMIT (R117): A filler's fetched run returns and commits whole at HEAD. -/
  | fillerCommit (c : Nat) (n : Nat)
  /-- DRAINER_WRITE (R118): A sink's drainer writes committed bytes to the walk's runs. -/
  | drainerWrite (c : Nat) (n : Nat) (len : Nat)
  /-- CORE_SLOT_TRANSFER (R116): A full slot of a CORE sink moves to its paired CORE source. -/
  | coreSlotTransfer (c : Nat) (n : Nat)
  /-- LANE_STEP (R342): A bobbin lane makes one transducer step on its pricking. -/
  | laneStep (lane : Nat)
  /-- LANE_LOOP_LIMIT (R342): 1,024 steps pass without progress and the run ends with LOOP. -/
  | laneLoopLimit (lane : Nat)
  /-- NET_RECEIVER_DONE (R367): A receiver's messages are summed and its aggregate row written or committed. -/
  | netReceiverDone (die : Nat) (i : Nat)
  /-- NET_SEAT_RELEASE (R255): The netting engine releases a seat after its sixteenth word or the layer's work. -/
  | netSeatRelease (die : Nat) (crew : Nat)
  /-- RLC_WRITEBACK (R273): A dirty remote-line cache line is written back to home. -/
  | rlcWriteback (die : Nat) (ctx : Nat) (line : Nat)
  /-- RLC_INVALIDATE (R272): An invalidation arrives and the other die's cache drops its clean copy. -/
  | rlcInvalidate (die : Nat) (ctx : Nat) (line : Nat)
  /-- FAULT_DELIVERY (R318): A pending fault delivery starts the fault task on the fault side. -/
  | faultDelivery (c : Nat)
  /-- HEAT_LAUNCH (R293): The scheduler selects a head, claims its rectangle and launches or restores it. -/
  | heatLaunch
  /-- PREEMPT (R291): The scheduler pre-empts lower-priority holders of needed cores and stops their units. -/
  | preempt
  /-- PREEMPT_SAVE_DONE (R323): A pre-empted heat's image is written and its cores freed. -/
  | preemptSaveDone (num : Nat)
  /-- HEAT_COMPLETE (R296): A heat with all sides idle and no pending work completes and is posted. -/
  | heatComplete (num : Nat)
  /-- STALL (R301): A heat quiet for STALL_US is reported with a snapshot. -/
  | stall (num : Nat)
  /-- INTAKE_RECORD (R300): A record header arrives on an intake window and the whole record is accepted or dropped. -/
  | intakeRecord (ch : Nat) (hdr : List (BitVec 8)) (pay : List (BitVec 8))
  /-- INTAKE_COMMIT (R300): An accepted data record is fully written, WP advances and the semaphore is raised or held. -/
  | intakeCommit (ch : Nat)
  /-- HOST_BAR4_WRITE (R405): A host write reaches global memory of the windowed context. -/
  | hostBar4Write (off : Nat) (bytes : List (BitVec 8))
  /-- HOST_BAR4_READ (R405): A host read of global memory of the windowed context. -/
  | hostBar4Read (off : Nat) (n : Nat)
  /-- REGISTER_WRITE (R405): A host write to a BAR0 register with no behaviour of its own. -/
  | registerWrite (off : Nat) (bytes : List (BitVec 8))
  /-- LINK_LOST (R313): A bridge flit fails 16 consecutive replays and its link leaves service. -/
  | linkLost (l : Nat)
  /-- LOST_READ_COMPLETE (R314): A read outstanding on a failed link completes carrying poison. -/
  | lostReadComplete (j : Nat)
  /-- LOST_WRITE_POISON (R315): A lost write's target line is poisoned at home and LINK_LOST posted. -/
  | lostWritePoison (j : Nat)
  /-- LINK_REPAIR_DONE (R408): A pre-authorised spare-lane repair retrains a link and returns it to service. -/
  | linkRepairDone (l : Nat)
  /-- HBM_LANE_REPAIR (R408): A pre-authorised HBM channel lane repair holds and then releases the channel. -/
  | hbmLaneRepair (ch : Nat)
  /-- ERROR_CORRECTABLE (R409): A single-bit soft error is corrected and counted. -/
  | errorCorrectable (site : ErrSite)
  /-- ERROR_UNCORRECTABLE (R409): An uncorrectable error poisons its granule and is reported. -/
  | errorUncorrectable (key : Nat)
  /-- TEMPERATURE_HIGH (R409): A die sensor reads above 100 °C and an error event is posted. -/
  | temperatureHigh (die : Nat)
  /-- BANK_OVERVOLTAGE (R412): BANK_CHG rises above 55 V, is clamped and reported. -/
  | bankOvervoltage
  /-- SUPPLY_LOSS (R380): Supply stays low for 2 µs; ports close and every unit takes POWER. -/
  | supplyLoss
  /-- QUIESCE_COMPLETE (R381): Quiescing completes at Q and the leader begins streaming the must-save sets. -/
  | quiesceComplete
  /-- SAVE_SET_WRITTEN (R382): A set's header, data and seal have been written to the save area. -/
  | saveSetWritten
  /-- DRILL_LIMIT_REACHED (R371): L bytes have been written and the hold-water sequence writes nothing more. -/
  | drillLimitReached
  /-- RESERVE_EXHAUSTED (R388): The reserve fails partway through the save, leaving later sets torn or absent. -/
  | reserveExhausted (n : Nat)
  /-- POWER_UP (R391): Supply restored for 10 ms; boot ROM starts and the part awaits its firmware. -/
  | powerUp (strap : Bool)
  /-- HEALTH_TEST (R376): The cox measures the bank, sets the budget and judges the save directory. -/
  | healthTest (pf : Nat)
  /-- BANK_CHARGE_TIMEOUT (R412): The bank fails to reach 53 V within 500 ms and is reported failed with B = 0. -/
  | bankChargeTimeout
  /-- LEASE_RENEW (R398): The leader sends its 1 ms lease renewal. -/
  | leaseRenew
  /-- LEASE_LAPSE (R398): 3 ms without an acknowledged renewal and the leader stops acting as leader. -/
  | leaseLapse
  /-- LEASE_TAKEOVER (R398): 4 ms without renewal and the follower takes the lease at a higher generation. -/
  | leaseTakeover
  /-- COX_RELOAD (R398): The new leader resets and reloads the lapsed cox. -/
  | coxReload
  /-- LIFETIME_WRITE (R410): The cox writes lifetime records every 10 s. -/
  | lifetimeWrite
  /-- FW_LOAD (R393): Checks the staged container and starts the firmware. -/
  | fwLoad (sl : Nat)
  /-- QUOTE (R395): Returns a signed quote of the measurement slots. -/
  | quote (sl : Nat) (nonce : BitVec 256) (mask : BitVec 8)
  /-- QUOTE_IDENTITY (R395): QUOTE with MASK 0 returns the identity public key and its certificate. -/
  | quoteIdentity (sl : Nat)
  /-- EXTEND (R394): Extends a host measurement slot with a digest. -/
  | extend (sl : Nat) (j : Nat) (dig : BitVec 256)
  /-- OWNER_INSTALL (R396): Fills owner slots of an unowned part. -/
  | ownerInstall (sl : Nat) (hs : List (BitVec 256))
  /-- OWNER_RELEASE (R397): Accepts an owner-signed release token and wipes the part. -/
  | ownerRelease (sl : Nat) (tok : List (BitVec 8))
  /-- OWNER_RECOVER (R397): Accepts a Galfort recovery token under the presence strap and wipes the part. -/
  | ownerRecover (sl : Nat) (tok : List (BitVec 8))
  /-- CTX_CONFIG (R401): Configures a context's windows, save area, quota and lane reservation. -/
  | ctxConfig (sl : Nat) (ctx : Nat) (cfg : CtxCfg)
  /-- MAP (R401): Maps fresh zeroed pages into a context. -/
  | map (sl : Nat) (ctx : Nat) (rg : MapArgs)
  /-- UNMAP (R401): Unmaps pages with a shootdown. -/
  | unmap (sl : Nat) (ctx : Nat) (va : Nat) (n : Nat)
  /-- META (R352): Sets a region's compression metadata block. -/
  | metaBlock (sl : Nat) (ctx : Nat) (rg : Nat) (blk : Nat)
  /-- INTAKE (R299): Configures an intake channel and the thresholds. -/
  | intake (sl : Nat) (ch : Nat) (cfg : IntakeCfg)
  /-- LAUNCH (R287): Checks a heat record with region entries and queues it. -/
  | launch (sl : Nat) (arg : LaunchArgs)
  /-- HEAT_STATUS (R407): Returns a heat's state and pending deliveries. -/
  | heatStatus (sl : Nat) (num : Nat)
  /-- HEAT_CONTINUE (R407): Continues a stopped heat with per-ring and per-walk actions. -/
  | heatContinue (sl : Nat) (num : Nat) (acts : HeatActs)
  /-- HEAT_END (R407): Removes a heat in any state. -/
  | heatEnd (sl : Nat) (num : Nat)
  /-- SAVE_DIR (R389): Returns records of the save directory. -/
  | saveDir (sl : Nat) (j : Nat)
  /-- RESTORE (R390): Restores a whole must-save set. -/
  | restore (sl : Nat) (setid : Nat) (ctx : Nat) (target : Nat)
  /-- SAVE_RELEASE (R389): Commits an empty manifest and reopens admission. -/
  | saveRelease (sl : Nat)
  /-- DRILL (R371): Sets the drill limit for the next supply loss. -/
  | drill (sl : Nat) (l : Nat) (auth : OwnerSig)
  /-- PREAUTH (R408): Sets the persistent repair pre-authorisation mask. -/
  | preauth (sl : Nat) (mask : BitVec 8) (auth : OwnerSig)
  /-- LIFE_READ (R410): Returns lifetime record bytes. -/
  | lifeRead (sl : Nat) (off : Nat) (n : Nat)
  /-- REJOIN (R399): Ends island mode with a new lease election. -/
  | rejoin (sl : Nat)
  /-- XSPI_READ (R392): xSPI read of mailbox or staging bytes. -/
  | xspiRead (addr : Nat) (n : Nat)
  /-- XSPI_WRITE (R392): xSPI write after WRITE ENABLE. -/
  | xspiWrite (addr : Nat) (bytes : List (BitVec 8))
  /-- XSPI_WRITE_ENABLE (R392): Sets the write-enable latch. -/
  | xspiWriteEnable
  /-- XSPI_READ_STATUS (R392): Returns the xSPI status byte. -/
  | xspiReadStatus
  /-- XSPI_WRITE_CONFIG (R392): Selects 1S or 8D mode. -/
  | xspiWriteConfig (v : BitVec 8)
  /-- XSPI_READ_SFDP (R392): Returns the JESD216 parameter table. -/
  | xspiReadSfdp (addr : Nat) (n : Nat)
  /-- XSPI_RESET_ENABLE (R392): Arms the xSPI reset. -/
  | xspiResetEnable
  /-- XSPI_RESET (R392): Returns the port to 1S mode. -/
  | xspiReset
  /-- LAUNCH_RECORD_TAKEN (R300): The cox takes an accepted intake launch record, checks it under R287 and queues it, and the record leaves its channel's occupancy, which may end shedding. -/
  | launchRecordTaken (ch : Nat)
  deriving DecidableEq, Repr, Inhabited

end Sys2Proof
end

