-- ==== Sys2Proof/Machine/State.lean ====
section
/-! DEFINITION. The state of the part as plain data: every piece of state the spec gives it (INVENTORY.md, ## State, names
the rule of each), why a step can stop, and `State.reset`. Sparse data is a list of key and value pairs; a key that is not
listed has the default its accessor in Machine/Access.lean names. -/

namespace Sys2Proof.Machine

/-! ### Scalars of one side -/

/-- An a register: its value and its poison bit (R12, R13). -/
structure Poi where
  val : Addr
  bad : Bool
  deriving DecidableEq, Repr, Inhabited

/-- An entry of a loop stack (R87, R165). `sl = 0` marks a plain `loop`; `started`, `n` and `sl` belong to `lsp`. -/
structure Loop where
  start   : Addr
  stop    : Addr
  left    : Nat
  started : Nat
  n       : Nat
  sl      : Nat
  deriving DecidableEq, Repr, Inhabited

/-- What a side is doing: between tasks, running one, or stopped by a fault (R294, R307). -/
inductive Run where
  | idle
  | run
  | stopped
  deriving DecidableEq, Repr, Inhabited

/-- A word in an engine queue, with what it captured when it was steered (R9-R11, R326). `seq` numbers steered words. -/
structure QWord where
  addr : Addr
  word : Word
  vt   : BitVec 64
  g    : BitVec 16
  seq  : Nat
  deriving DecidableEq, Repr, Inhabited

/-- The four values of one fault delivery (R318). -/
structure Delivery where
  w1 : Addr
  w2 : Addr
  w3 : Addr
  w4 : Addr
  deriving DecidableEq, Repr, Inhabited

/-- The frame a fault task's start saves (R318, R326). `land` is a landing check still due at `pc` (R51), `pix` what the `csrw` of PIX
that it interrupts has set (R26). -/
structure Frame where
  pc    : Addr
  run   : Run
  land  : Bool
  regs  : List Poi
  preds : BitVec 8
  loops : List Loop
  aside : List QWord
  del   : Delivery
  pix   : Nat
  deriving DecidableEq, Repr, Inhabited

/-- What both sides of a core have (R7, R21, R87, R211, R220, R294, R318). `land` says that the landing check of R51 is
due at `pc`; `hbars` counts arrivals by shape (R326 HBAR); `wait` is the HEAD that an `sdrain` that waits met (R124); `pix` the number of
fields that the `csrw` of PIX in progress has set (R26); `hand` what a `hand` that waits met: the order number that the next record
would take and the HEADs of the sinks (R225). -/
structure SideSt where
  pc    : Addr
  run   : Run
  land  : Bool
  loops : List Loop
  task  : BitVec 32
  next  : BitVec 32
  tq    : List Nat
  faddr : Addr
  fcode : Addr
  frame : Option Frame
  hbars : Tbl Nat
  wait  : Option Nat
  pix   : Nat
  hand  : Option (Nat × Tbl Nat)
  deriving DecidableEq, Repr, Inhabited

/-- A speculative load that has not returned (R95): destination, address, bytes, zero extension, and the bridge link that
carries it, when one that failed before it was acknowledged does (R314). -/
structure LdsWait where
  d    : Nat
  ea   : Addr
  n    : Nat
  z    : Bool
  link : Option Nat
  deriving DecidableEq, Repr, Inhabited

/-! ### Streams -/

/-- A reader entry (R104). `port = 255` is an entry whose port was closed; `mark = none` is no mark. -/
structure Reader where
  port  : Nat
  swz   : Nat
  tag   : Bool
  rdpos : Nat
  mark  : Option Nat
  deriving DecidableEq, Repr, Inhabited

/-- Per-slot bits (R104). -/
structure SlotBits where
  full   : Bool
  poison : Bool
  tag    : Nat
  deriving DecidableEq, Repr, Inhabited

/-- The FILL field of R122. -/
inductive Fill where
  | idle
  | run
  | stop
  | done
  deriving DecidableEq, Repr, Inhabited

/-- A stream (R104, R126). `slds` are runs that `sld` reserved and that have not committed (R117), with
their address, bytes and INV; `early` are positions of a sink's committed elements that a reader met before the drainer came to
them (R261); `holder` is the (core, ring) whose LANE.RUN holds the stream, `wants` are those that wait for it (R335). -/
structure Stream where
  openw    : BitVec 64
  ring     : Addr
  shape    : BitVec 512
  walkBase : Addr
  walkRun  : Nat
  walkOfs  : Nat
  head     : Nat
  fill     : Fill
  fin      : Bool
  err      : BitVec 8
  readers  : Tbl Reader
  slots    : Tbl SlotBits
  slds     : List (Addr × Nat × Bool)
  early    : List Nat
  holder   : Option (Nat × Nat)
  wants    : List (Nat × Nat)
  closed   : Bool
  deriving DecidableEq, Repr, Inhabited

/-! ### Copy engine -/

/-- STATE of a ring control block (R131). -/
inductive RingState where
  | idle
  | wait
  | run
  | stop
  deriving DecidableEq, Repr, Inhabited

/-- A ring entry: its 64 bytes, the TASK that enqueued it (R132), whether `cmd` checked it or the loader placed it
unchecked (R145), and the steering order of its enqueue (R156). -/
structure RecEntry where
  bytes   : BitVec 512
  task    : BitVec 32
  checked : Bool
  order   : Nat
  deriving DecidableEq, Repr, Inhabited

/-- What a head does once its delivery has entered a full pending list (R317), or once a lost write that its raise waits for has
become poison (R133, R315): it retires, DONE or with a fault of a code; or a retirement whose raise found its future resolved
ends (R140). -/
inductive Due where
  | done
  | fault (code : Nat)
  | raised
  deriving DecidableEq, Repr, Inhabited

/-- A command ring: its control block (R131), its records, its fault record (R159). `skip` is the code of an awaited
target found faulted (R139); `due` what waits for the head's delivery (R317); `carried` the lowest chunk that met poison and
its address (R143); `lost` that an ACCW element was lost (R315); `bytes` the bytes delivered so far (R158); `desc` the head's
descriptor as read at its start (R134). -/
structure Ring where
  rp      : BitVec 32
  wp      : BitVec 32
  st      : RingState
  fcode   : BitVec 8
  held    : Bool
  skip    : Option Nat
  due     : Option Due
  exc     : BitVec 6
  value   : BitVec 32
  chunk   : Nat
  marks   : BitVec 64
  recs    : Tbl RecEntry
  fault   : BitVec 512
  carried : Option (Nat × Addr)
  lost    : Bool
  bytes   : Nat
  desc    : Option (List Byte)
  deriving DecidableEq, Repr, Inhabited

/-! ### Synchronisation records -/

/-- A semaphore (R213). `waiters` lists record indices from HEAD to TAIL. -/
structure Sema where
  count   : Nat
  fault   : Bool
  overBit : Bool
  waiters : List Nat
  deriving DecidableEq, Repr, Inhabited

/-- A stage barrier (R221). -/
structure StageBar where
  last    : BitVec 32
  target  : BitVec 32
  count   : Nat
  armed   : Bool
  err     : Bool
  phase   : Bool
  waiters : List Nat
  deriving DecidableEq, Repr, Inhabited

/-- WKIND of a continuation record (R209). -/
inductive WKind where
  | spawn
  | wait
  | fwait
  | hbar
  | bwait
  deriving DecidableEq, Repr, Inhabited

/-- A continuation record (R209). `arg` is the count or phase waited for, which the record's word at RESUME - 4 holds. -/
structure ContRec where
  resume : Addr
  mask   : BitVec 32
  task   : BitVec 32
  link   : Option (Nat × Nat)
  kind   : WKind
  side   : Side
  dreg   : Nat
  preds  : BitVec 8
  poison : BitVec 16
  wvalue : Addr
  regs   : List Addr
  arg    : Nat
  deriving DecidableEq, Repr, Inhabited

/-! ### Engine words in progress -/

/-- A word that has started and not finished (R326 STARTED): steps completed (its PIX count), the units in its operand
latch, the scale bytes it took; `pos` is where the port of a `wload` stood when it began (R196). -/
structure Started where
  q      : QWord
  prog   : Nat
  pos    : Nat
  latch  : List (BitVec 4096)
  scales : List Byte
  deriving DecidableEq, Repr, Inhabited

/-- The four places a queued word can run (R9, R258). -/
inductive Eng where
  | vec
  | pass
  | load
  | func
  deriving DecidableEq, Repr, Inhabited

/-! ### A core -/

/-- One core, its words in progress among it; `kept` is what a word that faulted in the middle had taken (R200, R206), `faulted` the
steering numbers of words that had started, faulted and have not completed since (R242, R308), `done` the matrix words whose work is finished before an earlier one completes (R258) (R12, R15, R18, R104, R130, R209, R213, R221, R309, R317, R326). -/
structure Core where
  ap        : SideSt
  xp        : SideSt
  aregs     : Tbl Poi
  preds     : BitVec 8
  lds       : List LdsWait
  sstat     : Tbl Addr
  xregs     : Tbl Addr
  vregs     : Tbl (BitVec 4096)
  masks     : Tbl (BitVec 1024)
  nregs     : Tbl (BitVec 544)
  vt        : BitVec 64
  vcnt      : BitVec 11
  g         : BitVec 16
  flags     : BitVec 6
  slip      : BitVec 6
  aside     : List QWord
  faulted   : List Nat
  seq       : Nat
  vq        : List QWord
  mq        : List QWord
  fq        : List QWord
  inVec     : Option Started
  inPass    : Option Started
  inLoad    : Option Started
  inFun     : Option Started
  kept      : List Started
  done      : List QWord
  pixVec    : Nat
  pixMtx    : Nat
  pixFun    : Nat
  queues    : Tbl (List Addr)
  tiles     : Tbl (BitVec 262144)
  scaleq    : List Byte
  resultq   : List (BitVec 4096)
  rqRes     : Nat
  vregsCode : Nat
  acc       : Nat
  cont      : Nat
  shapes    : Tbl (BitVec 512)
  streams   : Tbl Stream
  sfault    : BitVec 512
  rings     : Tbl Ring
  order     : Nat
  hold      : List (List Byte × Bool)
  holdBad   : Option Addr
  holdRing  : Option Nat
  semas     : Tbl Sema
  bars      : Tbl StageBar
  pool      : Tbl ContRec
  pending   : List Delivery
  held      : List Delivery
  heat      : Nat
  ctx       : Option Nat
  hasSeat   : Bool
  stint     : Nat
  deriving DecidableEq, Repr, Inhabited

/-! ### Crews, dies, lanes -/

/-- A weight plane (R191). `ty` is the f5 of the wload that filled it; holder 7 is no owner; `net` the layer, K-row and column
of the netting engine's own load within its record, which it tracks apart from the tag (R365). -/
structure Plane where
  w      : BitVec 262144
  ty     : Option Nat
  scales : BitVec 16384
  tagH   : Nat
  holder : Nat
  stale  : Bool
  net    : Option (Nat × Nat × Nat)
  deriving DecidableEq, Repr, Inhabited

/-- A crew's array and seat (R191-R193). Holder 7 is none; `reqs` are the units that wait for a grant; `netStint` is the
netting engine's count. -/
structure Crew where
  active   : Plane
  shadow   : Plane
  holder   : Nat
  last     : Nat
  reqs     : List Nat
  netStint : Nat
  ctx      : Option Nat
  deriving DecidableEq, Repr, Inhabited

/-- A line of a remote-line cache (R272). -/
structure RlcLine where
  ctx    : Nat
  line   : Nat
  data   : BitVec 512
  dirty  : Bool
  poison : Bool
  deriving DecidableEq, Repr, Inhabited

/-- A mapped page (R263). -/
structure Page where
  ctx  : Nat
  va   : Nat
  size : Nat
  r    : Bool
  w    : Bool
  deriving DecidableEq, Repr, Inhabited

/-- How far an edge has come through the layers (R364, R365): its layer, and the planes of it that its row has passed. -/
structure NetRow where
  edge  : Nat
  layer : Nat
  done  : List (Nat × Nat)
  deriving DecidableEq, Repr, Inhabited

/-- The NET record a netting engine serves (R359): its core and ring, how far its edges have come, and the plane that each
crew's next pass needs (R365). -/
structure NetJob where
  core  : Nat
  ring  : Nat
  rows  : List NetRow
  goal  : Tbl (Nat × Nat × Nat)
  deriving DecidableEq, Repr, Inhabited

/-- What each die has beside its cores (R29, R263, R272, R359). `slow` says that its timebase runs at half rate (R283); `tlb`
are translations that a change of mapping has ended and its cache may still hold. -/
structure Die where
  tb   : BitVec 64
  slow : Bool
  tlb  : List Page
  rlc  : List RlcLine
  invs : List (Nat × Nat)
  net  : Option NetJob
  netq : List (Nat × Nat)
  deriving DecidableEq, Repr, Inhabited

/-- A canonical Huffman code: symbols with code length and code, the first-read bit most significant (R343). -/
abbrev HuffCode := List (Nat × Nat × Nat)

/-- What a lane still has to copy before its next step (R343 COPYIN, COPY), when the stream's window is full. -/
inductive LaneCopy where
  | none
  | input
  | window
  deriving DecidableEq, Repr, Inhabited

/-- A lane run in progress (R338). `out` is the output so far, last byte first; `drop` the bytes a replay drops (R145). -/
structure LaneRun where
  core   : Nat
  ring   : Nat
  src    : Addr
  inlen  : Nat
  dcore  : Nat
  dport  : Nat
  state  : Nat
  pos    : Nat
  val    : BitVec 32
  len    : BitVec 32
  dist   : BitVec 32
  cnt    : BitVec 32
  hc0    : HuffCode
  hc1    : HuffCode
  win    : List Byte
  out    : Nat
  quiet  : Nat
  copy   : LaneCopy
  drop   : Nat
  deriving DecidableEq, Repr, Inhabited

/-- A bobbin lane (R338, R345): table store, the context it last served, the context it is reserved to, its run,
and the rings whose requests wait, oldest first (R346). -/
structure Lane where
  table : Tbl (BitVec 32)
  ctx   : Option Nat
  owner : Option Nat
  run   : Option LaneRun
  reqs  : List (Nat × Nat)
  deriving DecidableEq, Repr, Inhabited

/-! ### Memory maps -/

/-- What the part holds for a context (R266-R268, R351, R401). -/
structure Ctx where
  conf    : Option CtxCfg
  regions : List RegionEntry
  meta2m  : Tbl Nat
  deriving DecidableEq, Repr, Inhabited

/-! ### Heats -/

/-- A heat record (R286), its fields as numbers. -/
structure HeatRec where
  ctx     : Nat
  prio    : Nat
  resume  : Bool
  system  : Bool
  any     : Bool
  faultXp : Bool
  die     : Nat
  x0      : Nat
  y0      : Nat
  w       : Nat
  h       : Nat
  part    : Nat
  apEntry : Addr
  xpEntry : Addr
  fEntry  : Addr
  number  : Nat
  stallUs : Nat
  image   : Nat
  hints   : List (Nat × Nat)
  deriving DecidableEq, Repr, Inhabited

/-- The state of a heat (R407); `saving` is a pre-empted heat whose image is not written (R323). -/
inductive HeatState where
  | queued
  | running
  | stopped
  | halted
  | saving
  | complete
  deriving DecidableEq, Repr, Inhabited

/-- A heat the cox knows. `accepted` and `launched` number acceptances and first launches (R288-R291); `was` is the state a
save took the heat from (R328) and `saveAt` the place of its image; `active` the time of the last event of R301; `snapshot`
the last one taken (R302); `bridge` a stop by the bridge going down; `lanes` the lanes it has used (R401); `descs` the metadata
blocks of its context's 2 MiB regions as they stood at its first launch, which it sees until it ends (R352). -/
structure Heat where
  hr       : HeatRec
  st       : HeatState
  was      : HeatState
  regions  : List RegionEntry
  ring     : List (BitVec 512)
  accepted : Nat
  launched : Nat
  active   : Nat
  stalled  : Bool
  bridge   : Bool
  lanes    : List Nat
  reports  : List Delivery
  snapshot : List Byte
  saveAt   : Nat
  descs    : Option (Tbl (List Byte))
  deriving DecidableEq, Repr, Inhabited

/-- One core of a save image (R325-R326): the core, its crew's plane tags and its pool bytes. -/
structure ImageCore where
  num    : Nat
  core   : Core
  actH   : Nat
  actP   : Nat
  shaH   : Nat
  shaP   : Nat
  pool   : List Host.Cell
  bad    : List Nat
  deriving DecidableEq, Repr, Inhabited

/-- A save image (R325): where it lies, what it holds, and its heat's first acceptance and first launch (R290, R291). -/
structure Image where
  ctx   : Nat
  base  : Nat
  time  : Nat
  hr    : HeatRec
  was   : HeatState
  accepted : Nat
  launched : Nat
  cores : List ImageCore
  deriving DecidableEq, Repr, Inhabited

/-! ### Intake -/

/-- A data record accepted and not yet committed, or a launch record not yet taken (R299, R300). `order` numbers acceptances of data
records over all channels. -/
structure IntakeRec where
  ch    : Nat
  pos   : Nat
  len   : Nat
  total : Nat
  order : Nat
  bytes : List Byte
  deriving DecidableEq, Repr, Inhabited

/-- An intake channel (R299). `resv` is the byte position up to which ring bytes are reserved. -/
structure Channel where
  conf     : IntakeCfg
  wp       : Nat
  resv     : Nat
  shed     : BitVec 32
  full     : BitVec 32
  accepted : BitVec 32
  pend     : Nat
  data     : List IntakeRec
  launches : List IntakeRec
  deriving DecidableEq, Repr, Inhabited

/-! ### Host interface -/

/-- STATE of a mailbox slot (R400). -/
inductive SlotState where
  | idle
  | pend
  | run
  | done
  deriving DecidableEq, Repr, Inhabited

/-- A mailbox slot (R400). -/
structure Slot where
  seq     : BitVec 32
  cmd     : BitVec 16
  alen    : BitVec 16
  st      : SlotState
  result  : BitVec 8
  rlen    : BitVec 16
  doneSeq : BitVec 32
  data    : Tbl Byte
  deriving DecidableEq, Repr, Inhabited

/-- An event record (R403). -/
structure Event where
  kind   : Nat
  ctx    : Nat
  number : Nat
  time   : Nat
  code   : Nat
  data   : Nat
  deriving DecidableEq, Repr, Inhabited

/-- The host side of the part (R392, R400-R405). `rung` are the slots with a doorbell, oldest first; `out` the bytes the
last host read returned; `msix` the MSI-X vectors signalled. -/
structure HostIf where
  slots    : Tbl Slot
  rung     : List Nat
  evRing   : Tbl Event
  evHead   : BitVec 32
  evTail   : BitVec 32
  evOver   : BitVec 32
  winCtx   : Nat
  winBase  : Nat
  nonces   : Nat
  ddr      : Bool
  wel      : Bool
  rstArm   : Bool
  out      : List Byte
  msix     : List Nat
  deriving DecidableEq, Repr, Inhabited

/-- One cox core (R398): whether it runs, whether it holds the lease, whether its lease has lapsed, its generation, the time of
the last acknowledged renewal. -/
structure Cox where
  up     : Bool
  lead   : Bool
  lapsed : Bool
  gen    : Nat
  acked  : Nat
  deriving DecidableEq, Repr, Inhabited

/-! ### Holding water -/

/-- A must-save set (R232, R385). A range is BASE, SIZE and CORE (0xFFFF for a global range). -/
structure MustSet where
  ctx    : Nat
  prio   : Nat
  st     : Bool
  setid  : Nat
  heat   : Nat
  handle : Nat
  charge : Nat
  cores  : BitVec 192
  ranges : List (Nat × Nat × Nat)
  deriving DecidableEq, Repr, Inhabited

/-- A manifest copy (R385). -/
structure Manifest where
  gen   : Nat
  epoch : Nat
  sets  : List MustSet
  deriving DecidableEq, Repr, Inhabited

/-- Verdict on a set (R387). -/
inductive Judged where
  | whole
  | torn
  | absent
  deriving DecidableEq, Repr, Inhabited

/-- A directory record (R389). -/
structure DirRec where
  set    : MustSet
  st     : Judged
  p      : Nat
  deriving DecidableEq, Repr, Inhabited

/-- Where the part stands in its power cycle (R380-R383, R391): in boot ROM, firmware started, ready, quiescing, writing
the save area, off. -/
inductive Power where
  | rom
  | firmware
  | ready
  | quiesce
  | saving
  | off
  deriving DecidableEq, Repr, Inhabited

/-- A restore waiting for the next launch (R390): the scratchpad ranges of a set, each with its core and offset. -/
structure Restore where
  ctx   : Nat
  parts : List (Nat × Nat × List Byte)
  deriving DecidableEq, Repr, Inhabited

/-- Lifetime counters (R410). `corrBank` counts by bank of an SRAM (R409), `secs` the seconds in the histogram of each die;
`rowErrs` are the HBM rows with a recorded uncorrectable error, by channel and granule (R408). -/
structure Life where
  corrHbm   : Tbl Nat
  corrPool  : Tbl Nat
  corrBank  : Tbl Nat
  secs      : Tbl Nat
  corrBoat  : Nat
  retrains  : Tbl Nat
  linkReps  : Tbl Nat
  laneReps  : Tbl Nat
  rowReps   : Tbl Nat
  rowErrs   : List (Nat × Nat)
  powerUps  : Nat
  powerFail : Nat
  temps     : Tbl Nat
  trend     : Tbl Nat
  trendIdx  : Nat
  log       : Tbl Event
  logIdx    : Nat
  deriving DecidableEq, Repr, Inhabited

/-- The reserve, the must-save manifest and the hold-water sequence (R375-R390, R371), with what the boathouse keeps
across power-ups (R396, R402, R408, R410). `handles` are the (heat, handle) pairs given out (R233); `kept` the core sections
in the save area by the offset of their set's header; `epoch` the power-up in force; `judged` the sets of the last save in
the order written, `skipped` those left out for die B (R384), `cut` where it stopped before its end (R388); `degraded` the HBM
channels that a failed repair holds so (R408). -/
structure Water where
  power    : Power
  strap    : Bool
  healthy  : Bool
  cMeas    : Nat
  energy   : Nat
  budget   : Nat
  epoch    : Nat
  man0     : Manifest
  man1     : Manifest
  handles  : List (Nat × Nat)
  lossRan  : Bool
  awaiting : Bool
  judged   : List MustSet
  skipped  : List MustSet
  cut      : Option Nat
  degraded : List Nat
  dir      : List DirRec
  lossAt   : Nat
  lossEpo  : Nat
  left     : List MustSet
  pos      : Nat
  written  : Nat
  drill    : Option Nat
  restores : List Restore
  kept     : List (Nat × Image)
  owners   : List (BitVec 256)
  minSvn   : Nat
  preauth  : BitVec 3
  ms       : Tbl (BitVec 256)
  life     : Life
  saved    : Life
  deriving DecidableEq, Repr, Inhabited

/-! ### The bridge -/

/-- Who waits for a read that a failed link carries (R314). -/
inductive LostReader where
  | ap (c : Nat) (ea : Addr)
  | lds (c d : Nat)
  | filler (c n : Nat)
  | chunk (c r k : Nat)
  deriving DecidableEq, Repr, Inhabited

/-- A read that a link carried and lost (R314). -/
structure LostRead where
  link : Nat
  who  : LostReader
  deriving DecidableEq, Repr, Inhabited

/-- A write that a link carried and lost (R315): the die that made it, the granule key of its target line, its address, the cores
told. -/
structure LostWrite where
  link  : Nat
  die   : Nat
  key   : Nat
  addr  : Addr
  cores : List Nat
  deriving DecidableEq, Repr, Inhabited

/-- The bridge (R313-R316): links 0-7 mesh-row, 8-11 memory. -/
structure Bridge where
  failed  : List Nat
  spares  : Tbl Nat
  reads   : List LostRead
  writes  : List LostWrite
  island  : Bool
  deriving DecidableEq, Repr, Inhabited

/-! ### Turns: the model's own account of which unit moves next -/

/-- What moves in a step: a side takes its next word, a unit of a core starts or continues its word, or a step of the
opcode table without a word happens. -/
inductive Act where
  | side (c : Nat) (sd : Side)
  | eng (c : Nat) (e : Eng)
  | ev (i : Instr)
  deriving DecidableEq, Repr, Inhabited

/-- A turn: what moves, how far the timebases of die S and die B advance, how many steps of a long word it may make, and
the bridge link that carries its accesses across the bridge when that link fails before it acknowledges them. -/
structure Turn where
  act   : Act
  dt    : Nat
  dtB   : Nat
  steps : Nat
  link  : Option Nat
  deriving DecidableEq, Repr, Inhabited

/-- The unit that moves in this step: its core and side, the address of its word, the VT and G the word captured, the
engine it runs in (none: on the side itself), the word's steering number, the step budget and link of the turn, and whether
that link has lost a read in this step, so that writes take another. -/
structure Cur where
  core  : Nat
  side  : Side
  addr  : Addr
  vt    : BitVec 64
  g     : BitVec 16
  eng   : Option Eng
  seq   : Nat
  steps : Nat
  link  : Option Nat
  lost  : Bool
  deriving DecidableEq, Repr, Inhabited

/-! ### The whole -/

/-- The forms the part is sold in (R1). -/
inductive Form where
  | la2p
  | la2m
  | la2h
  deriving DecidableEq, Repr, Inhabited

/-- The part. `past` are contents that lines of global memory have had during the heats that run, each with how many heats had been
launched when its line last had it (R99), `turns` counts steps;
`resv` is the head that cores are reserved for (R290); `claims` are the heads that have pre-empted heats and
not launched (R291); `again` are resume records accepted
while a heat of their NUMBER is unfinished (R287); `acted` the cores at which something that the stall detector counts has happened in this step (R301). -/
structure State where
  form    : Form
  cores   : Tbl Core
  crews   : Tbl Crew
  dies    : Tbl Die
  lanes   : Tbl Lane
  mem     : List Host.Cell
  bad     : List Nat
  past    : List (Nat × RlcLine)
  turns   : Nat
  pages   : List Page
  ctxs    : Tbl Ctx
  heats   : List Heat
  queues  : Tbl (List Nat)
  again   : List Heat
  nextNum : Nat
  accepts : Nat
  launches : Nat
  lastAt  : Tbl Nat
  resv    : Option Nat
  claims  : List Nat
  images  : List Image
  chans   : Tbl Channel
  high    : Nat
  low     : Nat
  shed    : Option Nat
  host    : HostIf
  coxS    : Cox
  coxB    : Cox
  water   : Water
  bridge  : Bridge
  plan    : List Turn
  count   : Nat
  acted   : List Nat
  cur     : Cur
  deriving DecidableEq, Repr, Inhabited

/-! ### Why a step can stop -/

/-- A step that ends the run. Every trap the spec describes is TAKEN (a next state); none of them is here. -/
inductive Fault where
  /-- Raised by `step` for a planned turn of a unit that this form of the part lacks: a core, crew, die or lane of die B on
  an LA2-H (R2). Safe: nothing of the part moves. -/
  | absentUnit
  deriving DecidableEq, Repr

/-- No meaning for what the step was asked to do. -/
inductive Refusal where
  /-- An arm of `exec` that has no meaning yet. Safe. -/
  | notModelled (mnemonic : String)
  /-- Raised by `step` for a planned turn that is no turn of any form of the part: an event that fails `Instr.wf`, or an
  instruction word given as an event. Safe: nothing of the part moves. -/
  | illFormed
  deriving DecidableEq, Repr

/-! ### Reset -/

/-- A side before any heat (R12, R21; DESIGN CHOICE, log 5). -/
def SideSt.reset : SideSt :=
  { pc := 0, run := .idle, land := false, loops := [], task := 0, next := 1, tq := [], faddr := 0, fcode := 0,
    frame := none, hbars := [], wait := none, pix := 0, hand := none }

/-- A core at reset (R12, R21: every register at its reset value; DESIGN CHOICE, log 5). -/
def Core.reset : Core :=
  { ap := SideSt.reset, xp := SideSt.reset, aregs := [], preds := 0, lds := [], sstat := [], xregs := [], vregs := [],
    masks := [], nregs := [], vt := 0, vcnt := 0, g := 0, flags := 0, slip := 32, aside := [], faulted := [], seq := 0, vq := [], mq := [],
    fq := [], inVec := none, inPass := none, inLoad := none, inFun := none, kept := [], done := [], pixVec := 0, pixMtx := 0, pixFun := 0,
    queues := [], tiles := [], scaleq := [], resultq := [], rqRes := 0, vregsCode := 0, acc := 0, cont := 0, shapes := [],
    streams := [], sfault := 0, rings := [], order := 0, hold := [], holdBad := none, holdRing := none, semas := [], bars := [], pool := [],
    pending := [], held := [], heat := 0, ctx := none, hasSeat := false, stint := 0 }

/-- A plane at power-up: bytes zero, tag none (R191). -/
def Plane.reset : Plane := { w := 0, ty := none, scales := 0, tagH := 0, holder := 7, stale := false, net := none }

/-- A crew at power-up: no holder, the netting engine last (R191, R193). -/
def Crew.reset : Crew :=
  { active := Plane.reset, shadow := Plane.reset, holder := 7, last := 4, reqs := [], netStint := 0, ctx := none }

/-- A die at power-up (DESIGN CHOICE, log 6). -/
def Die.reset : Die := { tb := 0, slow := false, tlb := [], rlc := [], invs := [], net := none, netq := [] }

/-- A lane at power-up. -/
def Lane.reset : Lane := { table := [], ctx := none, owner := none, run := none, reqs := [] }

/-- An empty ring (R131). -/
def Ring.reset : Ring :=
  { rp := 0, wp := 0, st := .idle, fcode := 0, held := false, skip := none, due := none, exc := 0, value := 0, chunk := 0, marks := 0, recs := [],
    fault := 0, carried := none, lost := false, bytes := 0, desc := none }

/-- A semaphore at reset (R213). -/
def Sema.reset : Sema := { count := 0, fault := false, overBit := false, waiters := [] }

/-- A stage barrier at reset (R221). -/
def StageBar.reset : StageBar :=
  { last := 0, target := 0, count := 0, armed := false, err := false, phase := false, waiters := [] }

/-- A context that no CTX_CONFIG has configured (R401). -/
def Ctx.reset : Ctx := { conf := none, regions := [], meta2m := [] }

/-- A channel before INTAKE configures it (R299). -/
def Channel.reset : Channel :=
  { conf := { enable := false, ctx := 0, prio := 0, block := 0, base := 0, size := 0, sem := 0, semCore := none, high := 0,
              low := 0 },
    wp := 0, resv := 0, shed := 0, full := 0, accepted := 0, pend := 0, data := [], launches := [] }

/-- A mailbox slot at power-up (R400). -/
def Slot.reset : Slot :=
  { seq := 0, cmd := 0, alen := 0, st := .idle, result := 0, rlen := 0, doneSeq := 0, data := [] }

/-- The host interface at power-up: xSPI in 1S mode (R391 step 1, R392). -/
def HostIf.reset : HostIf :=
  { slots := [], rung := [], evRing := [], evHead := 0, evTail := 0, evOver := 0, winCtx := 0, winBase := 0, nonces := 0,
    ddr := false, wel := false, rstArm := false, out := [], msix := [] }

/-- Lifetime counters of a new part (DESIGN CHOICE, log 7). -/
def Life.reset : Life :=
  { corrHbm := [], corrPool := [], corrBank := [], secs := [], corrBoat := 0, retrains := [], linkReps := [], laneReps := [], rowReps := [], rowErrs := [],
    powerUps := 0, powerFail := 0, temps := [], trend := [], trendIdx := 0, log := [], logIdx := 0 }

/-- An empty manifest copy (DESIGN CHOICE, log 7). -/
def Manifest.reset : Manifest := { gen := 0, epoch := 0, sets := [] }

/-- The boathouse and reserve of a new part in its boot ROM (R391 step 1; DESIGN CHOICE, log 7). -/
def Water.reset : Water :=
  { power := .rom, strap := false, healthy := false, cMeas := 0, energy := 0, budget := 0, epoch := 0,
    man0 := Manifest.reset, man1 := Manifest.reset, handles := [], lossRan := false, awaiting := false, judged := [], skipped := [],
    cut := none, degraded := [], dir := [],
    lossAt := 0, lossEpo := 0, left := [], pos := 0, written := 0, drill := none, restores := [], kept := [], owners := [], minSvn := 0,
    preauth := 0, ms := [], life := Life.reset, saved := Life.reset }

/-- A cox before firmware starts (R391). -/
def Cox.reset : Cox := { up := false, lead := false, lapsed := false, gen := 0, acked := 0 }

/-- Every link in service (R313). -/
def Bridge.reset : Bridge := { failed := [], spares := [], reads := [], writes := [], island := false }

/-- No unit has moved yet. -/
def Cur.reset : Cur :=
  { core := 0, side := .ap, addr := 0, vt := 0, g := 0, eng := none, seq := 0, steps := 0, link := none, lost := false }

/-- The part right after power-up, in its boot ROM: no firmware, no heat, nothing mapped (R391 step 1; DESIGN CHOICE, logs 3, 4, 5, 7). -/
def State.reset : State :=
  { form := .la2m, cores := [], crews := [], dies := [], lanes := [], mem := [], bad := [], past := [], turns := 0, pages := [], ctxs := [],
    heats := [], queues := [], again := [], nextNum := 1, accepts := 0, launches := 1, lastAt := [], resv := none, claims := [], images := [], chans := [], high := 0, low := 0,
    shed := none, host := HostIf.reset, coxS := Cox.reset, coxB := Cox.reset, water := Water.reset, bridge := Bridge.reset,
    plan := [], count := 0, acted := [], cur := Cur.reset }

end Sys2Proof.Machine
end

