-- ==== Sys2Proof/Config.lean ====
section
/-! DEFINITION. What the spec leaves open: constants without a body, so that nothing can be proved of their values. -/

namespace Sys2Proof

/-- The turn that comes when none is planned, by a count of such turns: the order between units is free (DESIGN CHOICE, log 1). -/
opaque Config.turn : Nat → Machine.Turn

/-- Which of several eligible waiters is served first (R139, R214), by a count of such choices (DESIGN CHOICE, log 19). -/
opaque Config.pick : Nat → Nat

/-- Which of the admitted values a special function returns, by function, element type, operand (R74; DESIGN CHOICE, log 12). -/
opaque Config.sfPick : Nat → Nat → Nat → Nat

/-- Whether an access that races a change of mapping still uses the old translation, by the step and the die that makes it
(R263; DESIGN CHOICE, log 25). -/
opaque Config.oldPage : Nat → Nat → Bool

/-- ADDR of a fault record whose fault concerns no address, by a count of such records (R159; DESIGN CHOICE, log 23). -/
opaque Config.noAddr : Nat → Addr

/-- What a poisoned byte without a source stands for: one that a failed link lost, or decoded from poison, by its place
(R311, R314; DESIGN CHOICE, log 24). -/
opaque Config.lostByte : Nat → Byte

/-- A number the spec leaves open, by a count of such numbers: a `must` handle, the detail of an event, a field without stated
content (DESIGN CHOICE, log 26). -/
opaque Config.free : Nat → Nat

/-- DATA of the event that reports the reserve as derated or, with budget 0, as failed (R376, R403; DESIGN CHOICE, log 84). -/
opaque Config.reserveDetail : Nat → Nat

/-- DATA of the power-up event, which reports C_MEAS, E and B (R376, R403; DESIGN CHOICE, log 84). -/
opaque Config.powerDetail : Nat → Nat → Nat → Nat

/-- Whether die B's boot ROM passes the container, by a count of such checks (R391; DESIGN CHOICE, log 85). -/
opaque Config.dieBPasses : Nat → Bool

/-- The part's serial number (R405; DESIGN CHOICE, log 15). -/
opaque Config.serial : Nat

/-- The nonce read by a program or token, by number (R405; DESIGN CHOICE, log 15). -/
opaque Config.nonce : Nat → BitVec 256

/-- Whether an ML-DSA signature verifies: key, message, signature (R393-R401; DESIGN CHOICE, log 14). -/
opaque Config.verifies : List Byte → List Byte → List Byte → Bool

/-- The signature of the device identity key over a message (R395; DESIGN CHOICE, log 14). -/
opaque Config.deviceSign : List Byte → List Byte

/-- Public keys held in the part: 0 the maker's firmware key, 1 its recovery key, 2 the device identity (R393, R395, R397). -/
opaque Config.pubKey : Nat → List Byte

/-- The certificate of the device identity key (R395). -/
opaque Config.certificate : List Byte

/-- Digest of the boot ROM of a die (R394; DESIGN CHOICE, log 15). -/
opaque Config.romDigest : Nat → BitVec 256

/-- The JESD216 parameter table, byte by byte (R392; DESIGN CHOICE, log 13). -/
opaque Config.sfdp : Nat → Byte

end Sys2Proof
end

