-- ==== Sys2Proof/WellFormed.lean ====
section
/-! DEFINITION. When a term of `Instr` is an instruction or a step of the part: every field fits its place (R8), every
selector is one a table lists (R42-R48), and an event names a unit the part can have (R4, R130, R264, R299, R400). -/

namespace Sys2Proof

/-- A place of R409 that exists: 128 channels, 64 banks of each of 192 pools (R245), two dies; how many banks a die's shared SRAM
has is not stated (DESIGN CHOICE, log 83). -/
def ErrSite.wf : ErrSite → Bool
  | .hbm ch => decide (ch < 128)
  | .pool c bank => decide (c < 192 ∧ bank < 64)
  | .sram die bank => decide (die < 2 ∧ bank < 2 ^ 20)
  | .rlc die => decide (die < 2)
  | .boathouse => true

/-- The well-formedness check. -/
def Instr.wf : Instr → Bool
  | .add d a b => decide (d < 32 ∧ a < 32 ∧ b < 32)
  | .sub d a b => decide (d < 32 ∧ a < 32 ∧ b < 32)
  | .and d a b => decide (d < 32 ∧ a < 32 ∧ b < 32)
  | .or d a b => decide (d < 32 ∧ a < 32 ∧ b < 32)
  | .xor d a b => decide (d < 32 ∧ a < 32 ∧ b < 32)
  | .andn d a b => decide (d < 32 ∧ a < 32 ∧ b < 32)
  | .shl d a b => decide (d < 32 ∧ a < 32 ∧ b < 32)
  | .shr d a b => decide (d < 32 ∧ a < 32 ∧ b < 32)
  | .sra d a b => decide (d < 32 ∧ a < 32 ∧ b < 32)
  | .mul d a b => decide (d < 32 ∧ a < 32 ∧ b < 32)
  | .mulh d a b => decide (d < 32 ∧ a < 32 ∧ b < 32)
  | .mulhz d a b => decide (d < 32 ∧ a < 32 ∧ b < 32)
  | .div d a b => decide (d < 32 ∧ a < 32 ∧ b < 32)
  | .rem d a b => decide (d < 32 ∧ a < 32 ∧ b < 32)
  | .divz d a b => decide (d < 32 ∧ a < 32 ∧ b < 32)
  | .remz d a b => decide (d < 32 ∧ a < 32 ∧ b < 32)
  | .min d a b => decide (d < 32 ∧ a < 32 ∧ b < 32)
  | .max d a b => decide (d < 32 ∧ a < 32 ∧ b < 32)
  | .minz d a b => decide (d < 32 ∧ a < 32 ∧ b < 32)
  | .maxz d a b => decide (d < 32 ∧ a < 32 ∧ b < 32)
  | .sel d a b p => decide (d < 32 ∧ a < 32 ∧ b < 32 ∧ p < 8)
  | .cmp p a b c => decide (p < 8 ∧ a < 32 ∧ b < 32 ∧ c < 256 ∧ c < 6)
  | .sext d a w => decide (d < 32 ∧ a < 32 ∧ w < 256 ∧ 1 ≤ w ∧ w ≤ 64)
  | .zext d a w => decide (d < 32 ∧ a < 32 ∧ w < 256 ∧ 1 ≤ w ∧ w ≤ 64)
  | .clz d a => decide (d < 32 ∧ a < 32)
  | .popc d a => decide (d < 32 ∧ a < 32)
  | .pand d a b => decide (d < 8 ∧ a < 8 ∧ b < 8)
  | .por d a b => decide (d < 8 ∧ a < 8 ∧ b < 8)
  | .pxor d a b => decide (d < 8 ∧ a < 8 ∧ b < 8)
  | .pnot d a => decide (d < 8 ∧ a < 8)
  | .csrr d c => decide (d < 32 ∧ c < 4096)
  | .csrw a c => decide (a < 32 ∧ c < 4096)
  | .addi d a _ => decide (d < 32 ∧ a < 32)
  | .andi d a _ => decide (d < 32 ∧ a < 32)
  | .ori d a _ => decide (d < 32 ∧ a < 32)
  | .xori d a _ => decide (d < 32 ∧ a < 32)
  | .shli d a s => decide (d < 32 ∧ a < 32 ∧ s < 64)
  | .shri d a s => decide (d < 32 ∧ a < 32 ∧ s < 64)
  | .srai d a s => decide (d < 32 ∧ a < 32 ∧ s < 64)
  | .li d _ => decide (d < 32)
  | .cmpiEq p a _ => decide (p < 8 ∧ a < 32)
  | .cmpiNe p a _ => decide (p < 8 ∧ a < 32)
  | .cmpiLt p a _ => decide (p < 8 ∧ a < 32)
  | .cmpiGe p a _ => decide (p < 8 ∧ a < 32)
  | .cmpiLtz p a _ => decide (p < 8 ∧ a < 32)
  | .cmpiGez p a _ => decide (p < 8 ∧ a < 32)
  | .br _ => true
  | .bp p _ => decide (p < 8)
  | .bnp p _ => decide (p < 8)
  | .call _ => true
  | .loop c _ => decide (c < 32)
  | .jr d a => decide (d < 32 ∧ a < 32)
  | .lil d _ => decide (d < 32)
  | .addil d a _ => decide (d < 32 ∧ a < 32)
  | .csrwLong c _ => decide (c < 1024)
  | .ld _ z w d a _ => decide (w < 4 ∧ d < 32 ∧ a < 32 ∧ (w ≠ 3 ∨ z = false))
  | .lds z w d a _ => decide (w < 4 ∧ d < 32 ∧ a < 32 ∧ (w ≠ 3 ∨ z = false))
  | .ldsDataArrive c d => decide (c < 192 ∧ d < 32)
  | .st w d a _ => decide (w < 4 ∧ d < 32 ∧ a < 32)
  | .ldAcq w d a z s => decide (w < 4 ∧ d < 32 ∧ a < 32 ∧ s < 8 ∧ (w ≠ 3 ∨ z = false) ∧ s < 5)
  | .stRel w d a s => decide (w < 4 ∧ d < 32 ∧ a < 32 ∧ s < 8 ∧ s < 5)
  | .chk a => decide (a < 32)
  | .cvtaTo d a p => decide (d < 32 ∧ a < 32 ∧ p < 4)
  | .cvtaOf d a p => decide (d < 32 ∧ a < 32 ∧ p < 4)
  | .isap d a p => decide (d < 8 ∧ a < 32 ∧ p < 4)
  | .qput q a => decide (q < 8 ∧ a < 32)
  | .qget d q => decide (d < 32 ∧ q < 8)
  | .shape k a => decide (k < 32 ∧ a < 32)
  | .sopen k a b => decide (k < 32 ∧ a < 32 ∧ b < 32)
  | .sld k a b => decide (k < 32 ∧ a < 32 ∧ b < 32)
  | .sfill k a => decide (k < 32 ∧ a < 32)
  | .sfillRes k => decide (k < 32)
  | .sfork n m _ _ w => decide (n < 32 ∧ m < 32 ∧ w < 4)
  | .smark k => decide (k < 32)
  | .smarkClr k => decide (k < 32)
  | .srew k => decide (k < 32)
  | .sclose k => decide (k < 32)
  | .scloseFin k => decide (k < 32)
  | .sdrain d k => decide (d < 32 ∧ k < 32)
  | .sstat d k => decide (d < 32 ∧ k < 32)
  | .ssave k a => decide (k < 32 ∧ a < 32)
  | .srest a => decide (a < 32)
  | .cmd d a r => decide (d < 32 ∧ a < 32 ∧ r < 4)
  | .cengStat d r => decide (d < 32 ∧ r < 4)
  | .cengSeq d r => decide (d < 32 ∧ r < 4)
  | .cengWait d a r => decide (d < 32 ∧ a < 32 ∧ r < 4)
  | .cengRes d r => decide (d < 32 ∧ r < 4)
  | .cengDrop d r => decide (d < 32 ∧ r < 4)
  | .xpAdd d a b => decide (d < 32 ∧ a < 32 ∧ b < 32)
  | .xpSub d a b => decide (d < 32 ∧ a < 32 ∧ b < 32)
  | .xpAnd d a b => decide (d < 32 ∧ a < 32 ∧ b < 32)
  | .xpOr d a b => decide (d < 32 ∧ a < 32 ∧ b < 32)
  | .xpXor d a b => decide (d < 32 ∧ a < 32 ∧ b < 32)
  | .xpShl d a b => decide (d < 32 ∧ a < 32 ∧ b < 32)
  | .xpShr d a b => decide (d < 32 ∧ a < 32 ∧ b < 32)
  | .xpSra d a b => decide (d < 32 ∧ a < 32 ∧ b < 32)
  | .xpMul d a b => decide (d < 32 ∧ a < 32 ∧ b < 32)
  | .xpMin d a b => decide (d < 32 ∧ a < 32 ∧ b < 32)
  | .xpMax d a b => decide (d < 32 ∧ a < 32 ∧ b < 32)
  | .xpSel d a b c => decide (d < 32 ∧ a < 32 ∧ b < 32 ∧ c < 32)
  | .xpCmp d a b c => decide (d < 32 ∧ a < 32 ∧ b < 32 ∧ c < 256 ∧ c < 6)
  | .xpCsrr d c => decide (d < 32 ∧ c < 4096)
  | .xpCsrw a c => decide (a < 32 ∧ c < 4096)
  | .xpAddi d a _ => decide (d < 32 ∧ a < 32)
  | .xpLi d _ => decide (d < 32)
  | .xpB _ => true
  | .xpBp c _ => decide (c < 32)
  | .xpLoop c _ => decide (c < 32)
  | .xfence => true
  | .xpQget d q => decide (d < 32 ∧ q < 8)
  | .xpQput q a => decide (q < 8 ∧ a < 32)
  | .fadd d a b r => decide (d < 32 ∧ a < 32 ∧ b < 32 ∧ r < 4)
  | .fmul d a b r => decide (d < 32 ∧ a < 32 ∧ b < 32 ∧ r < 4)
  | .fma d a b r => decide (d < 32 ∧ a < 32 ∧ b < 32 ∧ r < 4)
  | .lsp c _ => decide (c < 32)
  | .vset m e => decide (m < 8 ∧ e < 32)
  | .vsetRot a m e => decide (a < 32 ∧ m < 8 ∧ e < 32)
  | .nset c => decide (c < 128)
  | .xpLil d _ => decide (d < 32)
  | .xpAddil d a _ => decide (d < 32 ∧ a < 32)
  | .xpCsrwLong c _ => decide (c < 1024)
  | .xpSteer c => decide (c < 192)
  | .vadd d a b _ _ => decide (d < 128 ∧ a < 128 ∧ b < 128)
  | .vsub d a b _ _ => decide (d < 128 ∧ a < 128 ∧ b < 128)
  | .vmul d a b _ _ => decide (d < 128 ∧ a < 128 ∧ b < 128)
  | .vmulh d a b _ => decide (d < 128 ∧ a < 128 ∧ b < 128)
  | .vmad d a b _ _ => decide (d < 128 ∧ a < 128 ∧ b < 128)
  | .vmin d a b _ => decide (d < 128 ∧ a < 128 ∧ b < 128)
  | .vmax d a b _ => decide (d < 128 ∧ a < 128 ∧ b < 128)
  | .vabs d a _ _ => decide (d < 128 ∧ a < 128)
  | .vand d a b _ => decide (d < 128 ∧ a < 128 ∧ b < 128)
  | .vor d a b _ => decide (d < 128 ∧ a < 128 ∧ b < 128)
  | .vxor d a b _ => decide (d < 128 ∧ a < 128 ∧ b < 128)
  | .vnot d a _ => decide (d < 128 ∧ a < 128)
  | .vshl d a b _ _ => decide (d < 128 ∧ a < 128 ∧ b < 128)
  | .vshr d a b _ _ => decide (d < 128 ∧ a < 128 ∧ b < 128)
  | .vsra d a b _ _ => decide (d < 128 ∧ a < 128 ∧ b < 128)
  | .vcmp d a b c => decide (d < 8 ∧ a < 128 ∧ b < 128 ∧ c < 8 ∧ c < 6)
  | .vsel d a b => decide (d < 128 ∧ a < 128 ∧ b < 128)
  | .vwadd d a b _ _ _ => decide (d < 128 ∧ a < 128 ∧ b < 128)
  | .vwmul d a b _ _ _ => decide (d < 128 ∧ a < 128 ∧ b < 128)
  | .vwmad d a b _ _ _ => decide (d < 128 ∧ a < 128 ∧ b < 128)
  | .vnarrow d a _ _ _ => decide (d < 128 ∧ a < 128)
  | .vcvt d a _ e r _ => decide (d < 128 ∧ a < 128 ∧ e < 32 ∧ r < 4)
  | .vfadd d a b r _ => decide (d < 128 ∧ a < 128 ∧ b < 128 ∧ r < 4)
  | .vfsub d a b r _ => decide (d < 128 ∧ a < 128 ∧ b < 128 ∧ r < 4)
  | .vfmul d a b r _ => decide (d < 128 ∧ a < 128 ∧ b < 128 ∧ r < 4)
  | .vfma d a b r _ => decide (d < 128 ∧ a < 128 ∧ b < 128 ∧ r < 4)
  | .vfmin d a b _ _ => decide (d < 128 ∧ a < 128 ∧ b < 128)
  | .vfmax d a b _ _ => decide (d < 128 ∧ a < 128 ∧ b < 128)
  | .vfcmp d a b c => decide (d < 8 ∧ a < 128 ∧ b < 128 ∧ c < 8)
  | .vfsgn d a b s _ => decide (d < 128 ∧ a < 128 ∧ b < 128 ∧ s < 4 ∧ s ≠ 3)
  | .vred d a r o _ _ => decide (d < 128 ∧ a < 128 ∧ r < 4 ∧ o < 8 ∧ o < 6)
  | .vcompress d a => decide (d < 128 ∧ a < 128)
  | .vexpand d a => decide (d < 128 ∧ a < 128)
  | .vperm d a _ => decide (d < 128 ∧ a < 128)
  | .vslide d a _ => decide (d < 128 ∧ a < 128)
  | .vbcast d a j => decide (d < 128 ∧ a < 128 ∧ j < 1024)
  | .mand d a b => decide (d < 8 ∧ a < 8 ∧ b < 8)
  | .mor d a b => decide (d < 8 ∧ a < 8 ∧ b < 8)
  | .mnot d a => decide (d < 8 ∧ a < 8)
  | .mpop d a => decide (d < 32 ∧ a < 8)
  | .seat x => decide (x < 32)
  | .unseat => true
  | .wload k _ t => decide (k < 32 ∧ t < 8)
  | .wswap => true
  | .sclq k => decide (k < 32)
  | .mmul t k _ _ e => decide (t < 16 ∧ k < 32 ∧ e < 8)
  | .mmulg t k x _ _ e => decide (t < 16 ∧ k < 32 ∧ x < 32 ∧ e < 8)
  | .azero t => decide (t < 16)
  | .drain t x _ f => decide (t < 16 ∧ x < 32 ∧ f < 8)
  | .rpop v => decide (v < 128)
  | .rsend k => decide (k < 32)
  | .exp2 d a _ => decide (d < 128 ∧ a < 128)
  | .log2 d a _ => decide (d < 128 ∧ a < 128)
  | .rcp d a _ => decide (d < 128 ∧ a < 128)
  | .rsqrt d a _ => decide (d < 128 ∧ a < 128)
  | .sinpi d a _ => decide (d < 128 ∧ a < 128)
  | .cospi d a _ => decide (d < 128 ∧ a < 128)
  | .tanh d a _ => decide (d < 128 ∧ a < 128)
  | .sigm d a _ => decide (d < 128 ∧ a < 128)
  | .stintEndCount crew => decide (crew < 48)
  | .seatGrant crew => decide (crew < 48)
  | .nop => true
  | .spawnAp d a b => decide (d < 32 ∧ a < 32 ∧ b < 32)
  | .spawnXp d a b => decide (d < 32 ∧ a < 32 ∧ b < 32)
  | .endTask => true
  | .wait d a c s => decide (d < 32 ∧ a < 32 ∧ c < 128 ∧ s < 64)
  | .raise a c s => decide (a < 32 ∧ c < 128 ∧ s < 64)
  | .fwait d a b => decide (d < 32 ∧ a < 32 ∧ b < 32)
  | .fres a b => decide (a < 32 ∧ b < 32)
  | .ffault a b => decide (a < 32 ∧ b < 32)
  | .hbarHeat a => decide (a < 32)
  | .hbarGroup a h w => decide (a < 32 ∧ h < 8 ∧ w < 8 ∧ h < 4 ∧ w < 5)
  | .barm a b => decide (a < 32 ∧ b < 32)
  | .barmClr a b => decide (a < 32 ∧ b < 32)
  | .bwait d a _ b => decide (d < 32 ∧ a < 32 ∧ b < 32)
  | .hand a b => decide (a < 32 ∧ b < 32)
  | .fence s => decide (s < 8 ∧ s < 5)
  | .tsr d => decide (d < 32)
  | .trap n => decide (n < 4096)
  | .rtt => true
  | .sysXpage d a => decide (d < 32 ∧ a < 32)
  | .sysXctx d a => decide (d < 32 ∧ a < 32)
  | .sysRlc d a => decide (d < 32 ∧ a < 32)
  | .sysTbsync d a => decide (d < 32 ∧ a < 32)
  | .slip a => decide (a < 32)
  | .halt => true
  | .pixr d e => decide (d < 32 ∧ e < 4)
  | .pixw a e => decide (a < 32 ∧ e < 4)
  | .must d a => decide (d < 32 ∧ a < 32)
  | .unmust a => decide (a < 32)
  | .taskStart c _ => decide (c < 192)
  | .engineHeadStart c r => decide (c < 192 ∧ r < 4)
  | .copy c r _ => decide (c < 192 ∧ r < 4)
  | .copyDecode c r _ => decide (c < 192 ∧ r < 4)
  | .fill c r _ => decide (c < 192 ∧ r < 4)
  | .ragged c r _ => decide (c < 192 ∧ r < 4)
  | .gather c r _ => decide (c < 192 ∧ r < 4)
  | .scatter c r _ => decide (c < 192 ∧ r < 4)
  | .accwAdd c r _ => decide (c < 192 ∧ r < 4)
  | .accwAdds c r _ => decide (c < 192 ∧ r < 4)
  | .accwFadd c r _ => decide (c < 192 ∧ r < 4)
  | .accwXadd c r _ => decide (c < 192 ∧ r < 4)
  | .accwOr c r _ => decide (c < 192 ∧ r < 4)
  | .accwAnd c r _ => decide (c < 192 ∧ r < 4)
  | .accwXor c r _ => decide (c < 192 ∧ r < 4)
  | .accwMin c r _ => decide (c < 192 ∧ r < 4)
  | .accwMax c r _ => decide (c < 192 ∧ r < 4)
  | .accwFmin c r _ => decide (c < 192 ∧ r < 4)
  | .accwFmax c r _ => decide (c < 192 ∧ r < 4)
  | .accwSwap c r _ => decide (c < 192 ∧ r < 4)
  | .accwCas c r _ => decide (c < 192 ∧ r < 4)
  | .laneLoad c r _ => decide (c < 192 ∧ r < 4)
  | .laneRun c r => decide (c < 192 ∧ r < 4)
  | .net c r => decide (c < 192 ∧ r < 4)
  | .qfence c r => decide (c < 192 ∧ r < 4)
  | .semaSignal c r => decide (c < 192 ∧ r < 4)
  | .semaSet c r => decide (c < 192 ∧ r < 4)
  | .fillerCommit c n => decide (c < 192 ∧ n < 32)
  | .drainerWrite c n _ => decide (c < 192 ∧ n < 32)
  | .coreSlotTransfer c n => decide (c < 192 ∧ n < 32)
  | .laneStep lane => decide (lane < 128)
  | .laneLoopLimit lane => decide (lane < 128)
  | .netReceiverDone die _ => decide (die < 2)
  | .netSeatRelease die crew => decide (die < 2 ∧ crew < 48)
  | .rlcWriteback die ctx _ => decide (die < 2 ∧ ctx < 16)
  | .rlcInvalidate die ctx _ => decide (die < 2 ∧ ctx < 16)
  | .faultDelivery c => decide (c < 192)
  | .heatLaunch => true
  | .preempt => true
  | .preemptSaveDone _ => true
  | .heatComplete _ => true
  | .stall _ => true
  | .intakeRecord ch hdr _ => decide (ch < 16 ∧ hdr.length = 16)
  | .intakeCommit ch => decide (ch < 16)
  | .hostBar4Write _ _ => true
  | .hostBar4Read _ _ => true
  | .registerWrite _ _ => true
  | .linkLost l => decide (l < 12)
  | .lostReadComplete _ => true
  | .lostWritePoison _ => true
  | .linkRepairDone l => decide (l < 12)
  | .hbmLaneRepair ch => decide (ch < 128)
  | .errorCorrectable site => site.wf
  | .errorUncorrectable _ => true
  | .temperatureHigh die => decide (die < 2)
  | .bankOvervoltage => true
  | .supplyLoss => true
  | .quiesceComplete => true
  | .saveSetWritten => true
  | .drillLimitReached => true
  | .reserveExhausted _ => true
  | .powerUp _ => true
  | .healthTest _ => true
  | .bankChargeTimeout => true
  | .leaseRenew => true
  | .leaseLapse => true
  | .leaseTakeover => true
  | .coxReload => true
  | .lifetimeWrite => true
  | .fwLoad sl => decide (sl < 2)
  | .quote sl _ _ => decide (sl < 2)
  | .quoteIdentity sl => decide (sl < 2)
  | .extend sl _ _ => decide (sl < 2)
  | .ownerInstall sl _ => decide (sl < 2)
  | .ownerRelease sl _ => decide (sl < 2)
  | .ownerRecover sl _ => decide (sl < 2)
  | .ctxConfig sl _ _ => decide (sl < 2)
  | .map sl _ _ => decide (sl < 2)
  | .unmap sl _ _ _ => decide (sl < 2)
  | .metaBlock sl _ _ _ => decide (sl < 2)
  | .intake sl _ _ => decide (sl < 2)
  | .launch sl arg => decide (sl < 2 ∧ arg.hr.length = 128 ∧ arg.ring.length ≤ 64)
  | .heatStatus sl _ => decide (sl < 2)
  | .heatContinue sl _ _ => decide (sl < 2)
  | .heatEnd sl _ => decide (sl < 2)
  | .saveDir sl _ => decide (sl < 2)
  | .restore sl _ _ _ => decide (sl < 2)
  | .saveRelease sl => decide (sl < 2)
  | .drill sl _ _ => decide (sl < 2)
  | .preauth sl _ _ => decide (sl < 2)
  | .lifeRead sl _ _ => decide (sl < 2)
  | .rejoin sl => decide (sl < 2)
  | .xspiRead _ _ => true
  | .xspiWrite _ _ => true
  | .xspiWriteEnable => true
  | .xspiReadStatus => true
  | .xspiWriteConfig _ => true
  | .xspiReadSfdp _ _ => true
  | .xspiResetEnable => true
  | .xspiReset => true
  | .launchRecordTaken ch => decide (ch < 16)

end Sys2Proof
end

