-- ==== Sys2Proof/Decode.lean ====
section
/-! DEFINITION. The decoder and, after it, the encoder, both written from the encoding tables of R8 and R42-R48. A word
that is no instruction is rejected by name; every rejection is the ILLEGAL of R49. -/

namespace Sys2Proof

/-- Why a word is no instruction (R49 items 1, 3 and 4). -/
inductive Reject where
  /-- fewer bytes than the instruction has (a fetch never gives this) -/
  | truncated
  /-- class 110, or an op6 or op5 that a table marks ILLEGAL -/
  | opcode
  /-- a selector value that no table lists -/
  | selector
  /-- a nonzero fixed or reserved field (R8) -/
  | reserved
  /-- a LONG word 0 whose tc3 and op6 name no instruction (R48) -/
  | longPair
  deriving DecidableEq, Repr

/-- Bits [lo+n-1:lo] of a word. -/
def fld (w lo n : Nat) : Nat := w / 2 ^ lo % 2 ^ n

/-- One-bit field as a Bool. -/
def flag (w lo : Nat) : Bool := decide (fld w lo 1 = 1)

/-- A Bool as a one-bit field. -/
def bit (b : Bool) : Nat := if b then 1 else 0

/-- An instruction when its selector is listed. -/
def selOk (c : Bool) (i : Instr) : Except Reject Instr := if c then .ok i else .error .selector

/-- Class 000, AP-ALU (R42). -/
def decodeApAlu (w : Nat) : Except Reject Instr :=
  match fld w 23 6 with
  | 0x01 =>
    if fld w 0 8 = 0 then .ok (.add (fld w 18 5) (fld w 13 5) (fld w 8 5))
    else .error .reserved
  | 0x02 =>
    if fld w 0 8 = 0 then .ok (.sub (fld w 18 5) (fld w 13 5) (fld w 8 5))
    else .error .reserved
  | 0x03 =>
    if fld w 0 8 = 0 then .ok (.and (fld w 18 5) (fld w 13 5) (fld w 8 5))
    else .error .reserved
  | 0x04 =>
    if fld w 0 8 = 0 then .ok (.or (fld w 18 5) (fld w 13 5) (fld w 8 5))
    else .error .reserved
  | 0x05 =>
    if fld w 0 8 = 0 then .ok (.xor (fld w 18 5) (fld w 13 5) (fld w 8 5))
    else .error .reserved
  | 0x06 =>
    if fld w 0 8 = 0 then .ok (.andn (fld w 18 5) (fld w 13 5) (fld w 8 5))
    else .error .reserved
  | 0x07 =>
    if fld w 0 8 = 0 then .ok (.shl (fld w 18 5) (fld w 13 5) (fld w 8 5))
    else .error .reserved
  | 0x08 =>
    if fld w 0 8 = 0 then .ok (.shr (fld w 18 5) (fld w 13 5) (fld w 8 5))
    else .error .reserved
  | 0x09 =>
    if fld w 0 8 = 0 then .ok (.sra (fld w 18 5) (fld w 13 5) (fld w 8 5))
    else .error .reserved
  | 0x0A =>
    if fld w 0 8 = 0 then .ok (.mul (fld w 18 5) (fld w 13 5) (fld w 8 5))
    else .error .reserved
  | 0x0B =>
    if fld w 0 8 = 0 then .ok (.mulh (fld w 18 5) (fld w 13 5) (fld w 8 5))
    else .error .reserved
  | 0x0C =>
    if fld w 0 8 = 0 then .ok (.mulhz (fld w 18 5) (fld w 13 5) (fld w 8 5))
    else .error .reserved
  | 0x0D =>
    if fld w 0 8 = 0 then .ok (.div (fld w 18 5) (fld w 13 5) (fld w 8 5))
    else .error .reserved
  | 0x0E =>
    if fld w 0 8 = 0 then .ok (.rem (fld w 18 5) (fld w 13 5) (fld w 8 5))
    else .error .reserved
  | 0x0F =>
    if fld w 0 8 = 0 then .ok (.divz (fld w 18 5) (fld w 13 5) (fld w 8 5))
    else .error .reserved
  | 0x10 =>
    if fld w 0 8 = 0 then .ok (.remz (fld w 18 5) (fld w 13 5) (fld w 8 5))
    else .error .reserved
  | 0x11 =>
    if fld w 0 8 = 0 then .ok (.min (fld w 18 5) (fld w 13 5) (fld w 8 5))
    else .error .reserved
  | 0x12 =>
    if fld w 0 8 = 0 then .ok (.max (fld w 18 5) (fld w 13 5) (fld w 8 5))
    else .error .reserved
  | 0x13 =>
    if fld w 0 8 = 0 then .ok (.minz (fld w 18 5) (fld w 13 5) (fld w 8 5))
    else .error .reserved
  | 0x14 =>
    if fld w 0 8 = 0 then .ok (.maxz (fld w 18 5) (fld w 13 5) (fld w 8 5))
    else .error .reserved
  | 0x15 =>
    if fld w 3 5 = 0 then .ok (.sel (fld w 18 5) (fld w 13 5) (fld w 8 5) (fld w 0 3))
    else .error .reserved
  | 0x16 =>
    if fld w 21 2 = 0 then selOk ((fld w 0 8) < 6) (.cmp (fld w 18 3) (fld w 13 5) (fld w 8 5) (fld w 0 8))
    else .error .reserved
  | 0x17 =>
    if fld w 8 5 = 0 then selOk (1 ≤ (fld w 0 8) ∧ (fld w 0 8) ≤ 64) (.sext (fld w 18 5) (fld w 13 5) (fld w 0 8))
    else .error .reserved
  | 0x18 =>
    if fld w 8 5 = 0 then selOk (1 ≤ (fld w 0 8) ∧ (fld w 0 8) ≤ 64) (.zext (fld w 18 5) (fld w 13 5) (fld w 0 8))
    else .error .reserved
  | 0x19 =>
    if fld w 0 13 = 0 then .ok (.clz (fld w 18 5) (fld w 13 5))
    else .error .reserved
  | 0x1A =>
    if fld w 0 13 = 0 then .ok (.popc (fld w 18 5) (fld w 13 5))
    else .error .reserved
  | 0x1B =>
    if fld w 21 2 = 0 ∧ fld w 16 2 = 0 ∧ fld w 11 2 = 0 ∧ fld w 0 8 = 0 then .ok (.pand (fld w 18 3) (fld w 13 3) (fld w 8 3))
    else .error .reserved
  | 0x1C =>
    if fld w 21 2 = 0 ∧ fld w 16 2 = 0 ∧ fld w 11 2 = 0 ∧ fld w 0 8 = 0 then .ok (.por (fld w 18 3) (fld w 13 3) (fld w 8 3))
    else .error .reserved
  | 0x1D =>
    if fld w 21 2 = 0 ∧ fld w 16 2 = 0 ∧ fld w 11 2 = 0 ∧ fld w 0 8 = 0 then .ok (.pxor (fld w 18 3) (fld w 13 3) (fld w 8 3))
    else .error .reserved
  | 0x1E =>
    if fld w 21 2 = 0 ∧ fld w 16 2 = 0 ∧ fld w 0 13 = 0 then .ok (.pnot (fld w 18 3) (fld w 13 3))
    else .error .reserved
  | 0x1F =>
    if fld w 12 6 = 0 then .ok (.csrr (fld w 18 5) (fld w 0 12))
    else .error .reserved
  | 0x20 =>
    if fld w 18 5 = 0 ∧ fld w 12 1 = 0 then .ok (.csrw (fld w 13 5) (fld w 0 12))
    else .error .reserved
  | 0x21 =>
    .ok (.addi (fld w 18 5) (fld w 13 5) (BitVec.ofNat 13 (fld w 0 13)))
  | 0x22 =>
    .ok (.andi (fld w 18 5) (fld w 13 5) (BitVec.ofNat 13 (fld w 0 13)))
  | 0x23 =>
    .ok (.ori (fld w 18 5) (fld w 13 5) (BitVec.ofNat 13 (fld w 0 13)))
  | 0x24 =>
    .ok (.xori (fld w 18 5) (fld w 13 5) (BitVec.ofNat 13 (fld w 0 13)))
  | 0x25 =>
    if fld w 6 7 = 0 then .ok (.shli (fld w 18 5) (fld w 13 5) (fld w 0 6))
    else .error .reserved
  | 0x26 =>
    if fld w 6 7 = 0 then .ok (.shri (fld w 18 5) (fld w 13 5) (fld w 0 6))
    else .error .reserved
  | 0x27 =>
    if fld w 6 7 = 0 then .ok (.srai (fld w 18 5) (fld w 13 5) (fld w 0 6))
    else .error .reserved
  | 0x28 =>
    if fld w 13 5 = 0 then .ok (.li (fld w 18 5) (BitVec.ofNat 13 (fld w 0 13)))
    else .error .reserved
  | 0x29 =>
    if fld w 21 2 = 0 then .ok (.cmpiEq (fld w 18 3) (fld w 13 5) (BitVec.ofNat 13 (fld w 0 13)))
    else .error .reserved
  | 0x2A =>
    if fld w 21 2 = 0 then .ok (.cmpiNe (fld w 18 3) (fld w 13 5) (BitVec.ofNat 13 (fld w 0 13)))
    else .error .reserved
  | 0x2B =>
    if fld w 21 2 = 0 then .ok (.cmpiLt (fld w 18 3) (fld w 13 5) (BitVec.ofNat 13 (fld w 0 13)))
    else .error .reserved
  | 0x2C =>
    if fld w 21 2 = 0 then .ok (.cmpiGe (fld w 18 3) (fld w 13 5) (BitVec.ofNat 13 (fld w 0 13)))
    else .error .reserved
  | 0x2D =>
    if fld w 21 2 = 0 then .ok (.cmpiLtz (fld w 18 3) (fld w 13 5) (BitVec.ofNat 13 (fld w 0 13)))
    else .error .reserved
  | 0x2E =>
    if fld w 21 2 = 0 then .ok (.cmpiGez (fld w 18 3) (fld w 13 5) (BitVec.ofNat 13 (fld w 0 13)))
    else .error .reserved
  | 0x30 =>
    if fld w 18 5 = 0 then .ok (.br (BitVec.ofNat 18 (fld w 0 18)))
    else .error .reserved
  | 0x31 =>
    if fld w 21 2 = 0 then .ok (.bp (fld w 18 3) (BitVec.ofNat 18 (fld w 0 18)))
    else .error .reserved
  | 0x32 =>
    if fld w 21 2 = 0 then .ok (.bnp (fld w 18 3) (BitVec.ofNat 18 (fld w 0 18)))
    else .error .reserved
  | 0x33 =>
    if fld w 18 5 = 0 then .ok (.call (BitVec.ofNat 18 (fld w 0 18)))
    else .error .reserved
  | 0x34 =>
    .ok (.loop (fld w 18 5) (BitVec.ofNat 18 (fld w 0 18)))
  | 0x35 =>
    if fld w 0 13 = 0 then .ok (.jr (fld w 18 5) (fld w 13 5))
    else .error .reserved
  | _ => .error .opcode

/-- Class 001, AP-MEM (R43). -/
def decodeApMem (w : Nat) : Except Reject Instr :=
  match fld w 23 6 with
  | 0x00 | 0x01 | 0x02 | 0x03 | 0x04 | 0x05 | 0x06 | 0x07 | 0x08 | 0x09 | 0x0A | 0x0B | 0x0C | 0x0D | 0x0E | 0x0F =>
    selOk ((fld w 23 2) ≠ 3 ∨ (flag w 25) = false) (.ld (flag w 26) (flag w 25) (fld w 23 2) (fld w 18 5) (fld w 13 5) (BitVec.ofNat 13 (fld w 0 13)))
  | 0x10 | 0x11 | 0x12 | 0x13 | 0x14 | 0x15 | 0x16 | 0x17 =>
    selOk ((fld w 23 2) ≠ 3 ∨ (flag w 25) = false) (.lds (flag w 25) (fld w 23 2) (fld w 18 5) (fld w 13 5) (BitVec.ofNat 13 (fld w 0 13)))
  | 0x18 | 0x19 | 0x1A | 0x1B =>
    .ok (.st (fld w 23 2) (fld w 18 5) (fld w 13 5) (BitVec.ofNat 13 (fld w 0 13)))
  | 0x1C | 0x1D | 0x1E | 0x1F =>
    if fld w 4 9 = 0 then selOk (((fld w 23 2) ≠ 3 ∨ (flag w 3) = false) ∧ (fld w 0 3) < 5) (.ldAcq (fld w 23 2) (fld w 18 5) (fld w 13 5) (flag w 3) (fld w 0 3))
    else .error .reserved
  | 0x20 | 0x21 | 0x22 | 0x23 =>
    if fld w 3 10 = 0 then selOk ((fld w 0 3) < 5) (.stRel (fld w 23 2) (fld w 18 5) (fld w 13 5) (fld w 0 3))
    else .error .reserved
  | 0x24 =>
    if fld w 18 5 = 0 ∧ fld w 0 13 = 0 then .ok (.chk (fld w 13 5))
    else .error .reserved
  | 0x25 =>
    if fld w 2 11 = 0 then .ok (.cvtaTo (fld w 18 5) (fld w 13 5) (fld w 0 2))
    else if fld w 2 11 = 32 then .ok (.cvtaOf (fld w 18 5) (fld w 13 5) (fld w 0 2))
    else .error .reserved
  | 0x26 =>
    if fld w 21 2 = 0 ∧ fld w 2 11 = 0 then .ok (.isap (fld w 18 3) (fld w 13 5) (fld w 0 2))
    else .error .reserved
  | 0x27 =>
    if fld w 21 2 = 0 ∧ fld w 0 13 = 0 then .ok (.qput (fld w 18 3) (fld w 13 5))
    else .error .reserved
  | 0x28 =>
    if fld w 16 2 = 0 ∧ fld w 0 13 = 0 then .ok (.qget (fld w 18 5) (fld w 13 3))
    else .error .reserved
  | 0x29 =>
    if fld w 0 13 = 0 then .ok (.shape (fld w 18 5) (fld w 13 5))
    else .error .reserved
  | 0x2A =>
    if fld w 0 8 = 0 then .ok (.sopen (fld w 18 5) (fld w 13 5) (fld w 8 5))
    else .error .reserved
  | 0x2B =>
    if fld w 0 8 = 0 then .ok (.sld (fld w 18 5) (fld w 13 5) (fld w 8 5))
    else .error .reserved
  | 0x2C =>
    if fld w 0 13 = 0 then .ok (.sfill (fld w 18 5) (fld w 13 5))
    else if fld w 0 18 = 1 then .ok (.sfillRes (fld w 18 5))
    else .error .reserved
  | 0x2D =>
    if fld w 13 5 = 0 ∧ fld w 4 4 = 0 then .ok (.sfork (fld w 18 5) (fld w 8 5) (flag w 3) (flag w 2) (fld w 0 2))
    else .error .reserved
  | 0x2E =>
    if fld w 0 18 = 0 then .ok (.smark (fld w 18 5))
    else if fld w 0 18 = 1 then .ok (.smarkClr (fld w 18 5))
    else .error .reserved
  | 0x2F =>
    if fld w 0 18 = 0 then .ok (.srew (fld w 18 5))
    else .error .reserved
  | 0x30 =>
    if fld w 0 18 = 0 then .ok (.sclose (fld w 18 5))
    else if fld w 0 18 = 1 then .ok (.scloseFin (fld w 18 5))
    else .error .reserved
  | 0x31 =>
    if fld w 13 5 = 0 ∧ fld w 0 8 = 0 then .ok (.sdrain (fld w 18 5) (fld w 8 5))
    else .error .reserved
  | 0x32 =>
    if fld w 13 5 = 0 ∧ fld w 0 8 = 0 then .ok (.sstat (fld w 18 5) (fld w 8 5))
    else .error .reserved
  | 0x33 =>
    if fld w 0 13 = 0 then .ok (.ssave (fld w 18 5) (fld w 13 5))
    else .error .reserved
  | 0x34 =>
    if fld w 18 5 = 0 ∧ fld w 0 13 = 0 then .ok (.srest (fld w 13 5))
    else .error .reserved
  | 0x35 =>
    if fld w 2 11 = 0 then .ok (.cmd (fld w 18 5) (fld w 13 5) (fld w 0 2))
    else .error .reserved
  | 0x36 =>
    if fld w 2 16 = 0 then .ok (.cengStat (fld w 18 5) (fld w 0 2))
    else if fld w 2 16 = 1 then .ok (.cengSeq (fld w 18 5) (fld w 0 2))
    else if fld w 2 11 = 2 then .ok (.cengWait (fld w 18 5) (fld w 13 5) (fld w 0 2))
    else if fld w 2 16 = 3 then .ok (.cengRes (fld w 18 5) (fld w 0 2))
    else if fld w 2 16 = 4 then .ok (.cengDrop (fld w 18 5) (fld w 0 2))
    else .error .reserved
  | _ => .error .opcode

/-- Class 010, XP-CTL (R44). -/
def decodeXpCtl (w : Nat) : Except Reject Instr :=
  match fld w 23 6 with
  | 0x01 =>
    if fld w 0 8 = 0 then .ok (.xpAdd (fld w 18 5) (fld w 13 5) (fld w 8 5))
    else .error .reserved
  | 0x02 =>
    if fld w 0 8 = 0 then .ok (.xpSub (fld w 18 5) (fld w 13 5) (fld w 8 5))
    else .error .reserved
  | 0x03 =>
    if fld w 0 8 = 0 then .ok (.xpAnd (fld w 18 5) (fld w 13 5) (fld w 8 5))
    else .error .reserved
  | 0x04 =>
    if fld w 0 8 = 0 then .ok (.xpOr (fld w 18 5) (fld w 13 5) (fld w 8 5))
    else .error .reserved
  | 0x05 =>
    if fld w 0 8 = 0 then .ok (.xpXor (fld w 18 5) (fld w 13 5) (fld w 8 5))
    else .error .reserved
  | 0x07 =>
    if fld w 0 8 = 0 then .ok (.xpShl (fld w 18 5) (fld w 13 5) (fld w 8 5))
    else .error .reserved
  | 0x08 =>
    if fld w 0 8 = 0 then .ok (.xpShr (fld w 18 5) (fld w 13 5) (fld w 8 5))
    else .error .reserved
  | 0x09 =>
    if fld w 0 8 = 0 then .ok (.xpSra (fld w 18 5) (fld w 13 5) (fld w 8 5))
    else .error .reserved
  | 0x0A =>
    if fld w 0 8 = 0 then .ok (.xpMul (fld w 18 5) (fld w 13 5) (fld w 8 5))
    else .error .reserved
  | 0x11 =>
    if fld w 0 8 = 0 then .ok (.xpMin (fld w 18 5) (fld w 13 5) (fld w 8 5))
    else .error .reserved
  | 0x12 =>
    if fld w 0 8 = 0 then .ok (.xpMax (fld w 18 5) (fld w 13 5) (fld w 8 5))
    else .error .reserved
  | 0x15 =>
    if fld w 5 3 = 0 then .ok (.xpSel (fld w 18 5) (fld w 13 5) (fld w 8 5) (fld w 0 5))
    else .error .reserved
  | 0x16 =>
    selOk ((fld w 0 8) < 6) (.xpCmp (fld w 18 5) (fld w 13 5) (fld w 8 5) (fld w 0 8))
  | 0x1F =>
    if fld w 12 6 = 0 then .ok (.xpCsrr (fld w 18 5) (fld w 0 12))
    else .error .reserved
  | 0x20 =>
    if fld w 18 5 = 0 ∧ fld w 12 1 = 0 then .ok (.xpCsrw (fld w 13 5) (fld w 0 12))
    else .error .reserved
  | 0x21 =>
    .ok (.xpAddi (fld w 18 5) (fld w 13 5) (BitVec.ofNat 13 (fld w 0 13)))
  | 0x28 =>
    if fld w 13 5 = 0 then .ok (.xpLi (fld w 18 5) (BitVec.ofNat 13 (fld w 0 13)))
    else .error .reserved
  | 0x30 =>
    if fld w 18 5 = 0 then .ok (.xpB (BitVec.ofNat 18 (fld w 0 18)))
    else .error .reserved
  | 0x31 =>
    .ok (.xpBp (fld w 18 5) (BitVec.ofNat 18 (fld w 0 18)))
  | 0x34 =>
    .ok (.xpLoop (fld w 18 5) (BitVec.ofNat 18 (fld w 0 18)))
  | 0x35 =>
    if fld w 0 23 = 0 then .ok (.xfence)
    else .error .reserved
  | 0x36 =>
    if fld w 16 2 = 0 ∧ fld w 0 13 = 0 then .ok (.xpQget (fld w 18 5) (fld w 13 3))
    else .error .reserved
  | 0x37 =>
    if fld w 21 2 = 0 ∧ fld w 0 13 = 0 then .ok (.xpQput (fld w 18 3) (fld w 13 5))
    else .error .reserved
  | 0x38 =>
    if fld w 2 6 = 0 then .ok (.fadd (fld w 18 5) (fld w 13 5) (fld w 8 5) (fld w 0 2))
    else .error .reserved
  | 0x39 =>
    if fld w 2 6 = 0 then .ok (.fmul (fld w 18 5) (fld w 13 5) (fld w 8 5) (fld w 0 2))
    else .error .reserved
  | 0x3A =>
    if fld w 2 6 = 0 then .ok (.fma (fld w 18 5) (fld w 13 5) (fld w 8 5) (fld w 0 2))
    else .error .reserved
  | 0x3B =>
    .ok (.lsp (fld w 18 5) (BitVec.ofNat 18 (fld w 0 18)))
  | 0x3C =>
    if fld w 8 15 = 0 then .ok (.vset (fld w 5 3) (fld w 0 5))
    else if fld w 18 5 = 0 ∧ fld w 8 5 = 1 then .ok (.vsetRot (fld w 13 5) (fld w 5 3) (fld w 0 5))
    else .error .reserved
  | 0x3D =>
    if fld w 7 16 = 0 then .ok (.nset (fld w 0 7))
    else .error .reserved
  | _ => .error .opcode

/-- Class 011, XP-VEC (R45). -/
def decodeXpVec (w : Nat) : Except Reject Instr :=
  match fld w 24 5 with
  | 0x01 =>
    if fld w 2 1 = 0 then .ok (.vadd (fld w 17 7) (fld w 10 7) (fld w 3 7) (flag w 1) (flag w 0))
    else .error .reserved
  | 0x02 =>
    if fld w 2 1 = 0 then .ok (.vsub (fld w 17 7) (fld w 10 7) (fld w 3 7) (flag w 1) (flag w 0))
    else .error .reserved
  | 0x03 =>
    if fld w 2 1 = 0 then .ok (.vmul (fld w 17 7) (fld w 10 7) (fld w 3 7) (flag w 1) (flag w 0))
    else .error .reserved
  | 0x04 =>
    if fld w 1 2 = 0 then .ok (.vmulh (fld w 17 7) (fld w 10 7) (fld w 3 7) (flag w 0))
    else .error .reserved
  | 0x05 =>
    if fld w 2 1 = 0 then .ok (.vmad (fld w 17 7) (fld w 10 7) (fld w 3 7) (flag w 1) (flag w 0))
    else .error .reserved
  | 0x06 =>
    if fld w 1 2 = 0 then .ok (.vmin (fld w 17 7) (fld w 10 7) (fld w 3 7) (flag w 0))
    else .error .reserved
  | 0x07 =>
    if fld w 1 2 = 0 then .ok (.vmax (fld w 17 7) (fld w 10 7) (fld w 3 7) (flag w 0))
    else .error .reserved
  | 0x08 =>
    if fld w 2 8 = 0 then .ok (.vabs (fld w 17 7) (fld w 10 7) (flag w 1) (flag w 0))
    else .error .reserved
  | 0x09 =>
    if fld w 1 2 = 0 then .ok (.vand (fld w 17 7) (fld w 10 7) (fld w 3 7) (flag w 0))
    else if fld w 1 2 = 1 then .ok (.vor (fld w 17 7) (fld w 10 7) (fld w 3 7) (flag w 0))
    else if fld w 1 2 = 2 then .ok (.vxor (fld w 17 7) (fld w 10 7) (fld w 3 7) (flag w 0))
    else if fld w 1 9 = 3 then .ok (.vnot (fld w 17 7) (fld w 10 7) (flag w 0))
    else .error .reserved
  | 0x0A =>
    if fld w 2 1 = 0 then .ok (.vshl (fld w 17 7) (fld w 10 7) (fld w 3 7) (flag w 1) (flag w 0))
    else .error .reserved
  | 0x0B =>
    if fld w 2 1 = 0 then .ok (.vshr (fld w 17 7) (fld w 10 7) (fld w 3 7) (flag w 1) (flag w 0))
    else .error .reserved
  | 0x0C =>
    if fld w 2 1 = 0 then .ok (.vsra (fld w 17 7) (fld w 10 7) (fld w 3 7) (flag w 1) (flag w 0))
    else .error .reserved
  | 0x0D =>
    if fld w 20 4 = 0 then selOk ((fld w 0 3) < 6) (.vcmp (fld w 17 3) (fld w 10 7) (fld w 3 7) (fld w 0 3))
    else .error .reserved
  | 0x0E =>
    if fld w 0 3 = 0 then .ok (.vsel (fld w 17 7) (fld w 10 7) (fld w 3 7))
    else .error .reserved
  | 0x0F =>
    .ok (.vwadd (fld w 17 7) (fld w 10 7) (fld w 3 7) (flag w 2) (flag w 1) (flag w 0))
  | 0x10 =>
    .ok (.vwmul (fld w 17 7) (fld w 10 7) (fld w 3 7) (flag w 2) (flag w 1) (flag w 0))
  | 0x11 =>
    .ok (.vwmad (fld w 17 7) (fld w 10 7) (fld w 3 7) (flag w 2) (flag w 1) (flag w 0))
  | 0x12 =>
    if fld w 3 7 = 0 then .ok (.vnarrow (fld w 17 7) (fld w 10 7) (flag w 2) (flag w 1) (flag w 0))
    else .error .reserved
  | 0x13 =>
    if fld w 9 1 = 0 then .ok (.vcvt (fld w 17 7) (fld w 10 7) (flag w 8) (fld w 3 5) (fld w 1 2) (flag w 0))
    else .error .reserved
  | 0x14 =>
    .ok (.vfadd (fld w 17 7) (fld w 10 7) (fld w 3 7) (fld w 1 2) (flag w 0))
  | 0x15 =>
    .ok (.vfsub (fld w 17 7) (fld w 10 7) (fld w 3 7) (fld w 1 2) (flag w 0))
  | 0x16 =>
    .ok (.vfmul (fld w 17 7) (fld w 10 7) (fld w 3 7) (fld w 1 2) (flag w 0))
  | 0x17 =>
    .ok (.vfma (fld w 17 7) (fld w 10 7) (fld w 3 7) (fld w 1 2) (flag w 0))
  | 0x18 =>
    if fld w 1 1 = 0 then .ok (.vfmin (fld w 17 7) (fld w 10 7) (fld w 3 7) (flag w 2) (flag w 0))
    else if fld w 1 1 = 1 then .ok (.vfmax (fld w 17 7) (fld w 10 7) (fld w 3 7) (flag w 2) (flag w 0))
    else .error .reserved
  | 0x19 =>
    if fld w 20 4 = 0 then .ok (.vfcmp (fld w 17 3) (fld w 10 7) (fld w 3 7) (fld w 0 3))
    else .error .reserved
  | 0x1A =>
    selOk ((fld w 1 2) ≠ 3) (.vfsgn (fld w 17 7) (fld w 10 7) (fld w 3 7) (fld w 1 2) (flag w 0))
  | 0x1B =>
    if fld w 8 2 = 0 ∧ fld w 2 1 = 0 then selOk ((fld w 3 3) < 6) (.vred (fld w 17 7) (fld w 10 7) (fld w 6 2) (fld w 3 3) (flag w 1) (flag w 0))
    else .error .reserved
  | 0x1C =>
    if fld w 0 10 = 0 then .ok (.vcompress (fld w 17 7) (fld w 10 7))
    else if fld w 0 10 = 2 then .ok (.vexpand (fld w 17 7) (fld w 10 7))
    else if fld w 1 9 = 2 then .ok (.vperm (fld w 17 7) (fld w 10 7) (flag w 0))
    else .error .reserved
  | 0x1D =>
    .ok (.vslide (fld w 17 7) (fld w 10 7) (BitVec.ofNat 10 (fld w 0 10)))
  | 0x1E =>
    .ok (.vbcast (fld w 17 7) (fld w 10 7) (fld w 0 10))
  | 0x1F =>
    if fld w 20 4 = 0 ∧ fld w 13 4 = 0 ∧ fld w 6 4 = 0 ∧ fld w 0 3 = 0 then .ok (.mand (fld w 17 3) (fld w 10 3) (fld w 3 3))
    else if fld w 20 4 = 0 ∧ fld w 13 4 = 0 ∧ fld w 6 4 = 0 ∧ fld w 0 3 = 2 then .ok (.mor (fld w 17 3) (fld w 10 3) (fld w 3 3))
    else if fld w 20 4 = 0 ∧ fld w 13 4 = 0 ∧ fld w 0 10 = 4 then .ok (.mnot (fld w 17 3) (fld w 10 3))
    else if fld w 22 2 = 0 ∧ fld w 13 4 = 0 ∧ fld w 0 10 = 6 then .ok (.mpop (fld w 17 5) (fld w 10 3))
    else .error .reserved
  | _ => .error .opcode

/-- Class 100, XP-MTX (R46, R189, R205). -/
def decodeXpMtx (w : Nat) : Except Reject Instr :=
  match fld w 24 5 with
  | 0x01 =>
    if fld w 10 14 = 0 ∧ fld w 0 5 = 0 then .ok (.seat (fld w 5 5))
    else .error .reserved
  | 0x02 =>
    if fld w 0 24 = 0 then .ok (.unseat)
    else .error .reserved
  | 0x03 =>
    if fld w 20 4 = 0 ∧ fld w 5 10 = 0 ∧ fld w 3 1 = 0 then .ok (.wload (fld w 15 5) (flag w 4) (fld w 0 3))
    else .error .reserved
  | 0x04 =>
    if fld w 0 24 = 0 then .ok (.wswap)
    else .error .reserved
  | 0x05 =>
    if fld w 20 4 = 0 ∧ fld w 0 15 = 0 then .ok (.sclq (fld w 15 5))
    else .error .reserved
  | 0x06 =>
    if fld w 5 10 = 0 then .ok (.mmul (fld w 20 4) (fld w 15 5) (flag w 4) (flag w 3) (fld w 0 3))
    else .error .reserved
  | 0x07 =>
    if fld w 10 5 = 0 then .ok (.mmulg (fld w 20 4) (fld w 15 5) (fld w 5 5) (flag w 4) (flag w 3) (fld w 0 3))
    else .error .reserved
  | 0x08 =>
    if fld w 0 20 = 0 then .ok (.azero (fld w 20 4))
    else .error .reserved
  | 0x09 =>
    if fld w 10 10 = 0 ∧ fld w 4 1 = 0 then .ok (.drain (fld w 20 4) (fld w 5 5) (flag w 3) (fld w 0 3))
    else .error .reserved
  | 0x0A =>
    if fld w 17 7 = 0 ∧ fld w 0 10 = 0 then .ok (.rpop (fld w 10 7))
    else .error .reserved
  | 0x0B =>
    if fld w 20 4 = 0 ∧ fld w 0 15 = 0 then .ok (.rsend (fld w 15 5))
    else .error .reserved
  | 0x10 =>
    if fld w 1 9 = 0 then .ok (.exp2 (fld w 17 7) (fld w 10 7) (flag w 0))
    else if fld w 1 9 = 64 then .ok (.log2 (fld w 17 7) (fld w 10 7) (flag w 0))
    else if fld w 1 9 = 128 then .ok (.rcp (fld w 17 7) (fld w 10 7) (flag w 0))
    else if fld w 1 9 = 192 then .ok (.rsqrt (fld w 17 7) (fld w 10 7) (flag w 0))
    else if fld w 1 9 = 256 then .ok (.sinpi (fld w 17 7) (fld w 10 7) (flag w 0))
    else if fld w 1 9 = 320 then .ok (.cospi (fld w 17 7) (fld w 10 7) (flag w 0))
    else if fld w 1 9 = 384 then .ok (.tanh (fld w 17 7) (fld w 10 7) (flag w 0))
    else if fld w 1 9 = 448 then .ok (.sigm (fld w 17 7) (fld w 10 7) (flag w 0))
    else .error .reserved
  | _ => .error .opcode

/-- Class 101, SYNC (R47, R207). -/
def decodeSync (w : Nat) : Except Reject Instr :=
  match fld w 23 6 with
  | 0x01 =>
    if fld w 0 23 = 0 then .ok (.nop)
    else .error .reserved
  | 0x02 =>
    if fld w 0 8 = 0 then .ok (.spawnAp (fld w 18 5) (fld w 13 5) (fld w 8 5))
    else if fld w 0 8 = 1 then .ok (.spawnXp (fld w 18 5) (fld w 13 5) (fld w 8 5))
    else .error .reserved
  | 0x03 =>
    if fld w 0 23 = 0 then .ok (.endTask)
    else .error .reserved
  | 0x04 =>
    .ok (.wait (fld w 18 5) (fld w 13 5) (fld w 6 7) (fld w 0 6))
  | 0x05 =>
    if fld w 18 5 = 0 then .ok (.raise (fld w 13 5) (fld w 6 7) (fld w 0 6))
    else .error .reserved
  | 0x06 =>
    if fld w 0 8 = 0 then .ok (.fwait (fld w 18 5) (fld w 13 5) (fld w 8 5))
    else .error .reserved
  | 0x07 =>
    if fld w 18 5 = 0 ∧ fld w 0 8 = 0 then .ok (.fres (fld w 13 5) (fld w 8 5))
    else .error .reserved
  | 0x08 =>
    if fld w 18 5 = 0 ∧ fld w 0 8 = 0 then .ok (.ffault (fld w 13 5) (fld w 8 5))
    else .error .reserved
  | 0x09 =>
    if fld w 18 5 = 0 ∧ fld w 0 13 = 128 then .ok (.hbarHeat (fld w 13 5))
    else if fld w 18 5 = 0 ∧ fld w 6 7 = 0 then selOk ((fld w 3 3) < 4 ∧ (fld w 0 3) < 5) (.hbarGroup (fld w 13 5) (fld w 3 3) (fld w 0 3))
    else .error .reserved
  | 0x0A =>
    if fld w 18 5 = 0 ∧ fld w 5 8 = 0 then .ok (.barm (fld w 13 5) (fld w 0 5))
    else if fld w 18 5 = 0 ∧ fld w 5 8 = 1 then .ok (.barmClr (fld w 13 5) (fld w 0 5))
    else .error .reserved
  | 0x0B =>
    if fld w 6 7 = 0 then .ok (.bwait (fld w 18 5) (fld w 13 5) (flag w 5) (fld w 0 5))
    else .error .reserved
  | 0x0C =>
    if fld w 18 5 = 0 ∧ fld w 0 8 = 0 then .ok (.hand (fld w 13 5) (fld w 8 5))
    else .error .reserved
  | 0x0D =>
    if fld w 3 20 = 0 then selOk ((fld w 0 3) < 5) (.fence (fld w 0 3))
    else .error .reserved
  | 0x0E =>
    if fld w 0 18 = 0 then .ok (.tsr (fld w 18 5))
    else .error .reserved
  | 0x0F =>
    if fld w 12 11 = 0 then .ok (.trap (fld w 0 12))
    else .error .reserved
  | 0x10 =>
    if fld w 0 23 = 0 then .ok (.rtt)
    else .error .reserved
  | 0x11 =>
    if fld w 0 13 = 0 then .ok (.sysXpage (fld w 18 5) (fld w 13 5))
    else if fld w 0 13 = 1 then .ok (.sysXctx (fld w 18 5) (fld w 13 5))
    else if fld w 0 13 = 2 then .ok (.sysRlc (fld w 18 5) (fld w 13 5))
    else if fld w 0 13 = 3 then .ok (.sysTbsync (fld w 18 5) (fld w 13 5))
    else .error .reserved
  | 0x12 =>
    if fld w 18 5 = 0 ∧ fld w 0 13 = 0 then .ok (.slip (fld w 13 5))
    else .error .reserved
  | 0x13 =>
    if fld w 0 23 = 0 then .ok (.halt)
    else .error .reserved
  | 0x14 =>
    if fld w 2 16 = 0 then .ok (.pixr (fld w 18 5) (fld w 0 2))
    else .error .reserved
  | 0x15 =>
    if fld w 18 5 = 0 ∧ fld w 2 11 = 0 then .ok (.pixw (fld w 13 5) (fld w 0 2))
    else .error .reserved
  | 0x16 =>
    if fld w 0 13 = 0 then .ok (.must (fld w 18 5) (fld w 13 5))
    else .error .reserved
  | 0x17 =>
    if fld w 18 5 = 0 ∧ fld w 0 13 = 0 then .ok (.unmust (fld w 13 5))
    else .error .reserved
  | _ => .error .opcode

/-- Class 111, LONG (R48): word 0 and the immediate of word 1. -/
def decodeLong (w imm : Nat) : Except Reject Instr :=
  match fld w 10 3, fld w 23 6 with
  | 0, 0x01 => if fld w 13 5 = 0 ∧ fld w 0 10 = 0 then .ok (.lil (fld w 18 5) (BitVec.ofNat 32 imm)) else .error .reserved
  | 0, 0x02 => if fld w 0 10 = 0 then .ok (.addil (fld w 18 5) (fld w 13 5) (BitVec.ofNat 32 imm)) else .error .reserved
  | 0, 0x03 => if fld w 13 10 = 0 then .ok (.csrwLong (fld w 0 10) (BitVec.ofNat 32 imm)) else .error .reserved
  | 2, 0x01 => if fld w 13 5 = 0 ∧ fld w 0 10 = 0 then .ok (.xpLil (fld w 18 5) (BitVec.ofNat 32 imm)) else .error .reserved
  | 2, 0x02 => if fld w 0 10 = 0 then .ok (.xpAddil (fld w 18 5) (fld w 13 5) (BitVec.ofNat 32 imm)) else .error .reserved
  | 2, 0x03 => if fld w 13 10 = 0 then .ok (.xpCsrwLong (fld w 0 10) (BitVec.ofNat 32 imm)) else .error .reserved
  | _, _ => .error .longPair

/-- A LONG word 0 whose tc3 and op6 name an instruction takes a second word (R48, R50). -/
def longOk (w : Nat) : Bool :=
  decide ((fld w 10 3 = 0 ∨ fld w 10 3 = 2) ∧ (fld w 23 6 = 1 ∨ fld w 23 6 = 2 ∨ fld w 23 6 = 3))

/-- A one-word instruction by its class (R6). -/
def decodeWord (w : Nat) : Except Reject Instr :=
  match fld w 29 3 with
  | 0 => decodeApAlu w
  | 1 => decodeApMem w
  | 2 => decodeXpCtl w
  | 3 => decodeXpVec w
  | 4 => decodeXpMtx w
  | 5 => decodeSync w
  | _ => .error .opcode

/-- The little-endian number of a list of bytes (R5). -/
def leNat : List Byte → Nat
  | [] => 0
  | b :: bs => b.toNat + 256 * leNat bs

/-- The n low bytes of a number, little-endian (R5). -/
def leBytes : Nat → Nat → List Byte
  | 0, _ => []
  | n + 1, v => BitVec.ofNat 8 v :: leBytes n (v / 256)

/-- The decoder, on any bytes: the instruction at their start and the bytes after it. -/
def decode (bs : List Byte) : Except Reject (Instr × List Byte) :=
  if bs.length < 4 then .error .truncated
  else
    let w := leNat (bs.take 4)
    if fld w 29 3 = 7 then
      if longOk w then
        if bs.length < 8 then .error .truncated
        else (decodeLong w (leNat ((bs.drop 4).take 4))).map fun i => (i, bs.drop 8)
      else .error .longPair
    else (decodeWord w).map fun i => (i, bs.drop 4)

/-- A word with no field. -/
def enc0 (m : Nat) : List Nat := [m]

/-- A word with one field: value and lowest bit. -/
def enc1 (m v l : Nat) : List Nat := [m + v * 2 ^ l]

/-- A word with two fields. -/
def enc2 (m v l v2 l2 : Nat) : List Nat := [m + v * 2 ^ l + v2 * 2 ^ l2]

/-- A word with three fields. -/
def enc3 (m v l v2 l2 v3 l3 : Nat) : List Nat := [m + v * 2 ^ l + v2 * 2 ^ l2 + v3 * 2 ^ l3]

/-- A word with four fields. -/
def enc4 (m v l v2 l2 v3 l3 v4 l4 : Nat) : List Nat := [m + v * 2 ^ l + v2 * 2 ^ l2 + v3 * 2 ^ l3 + v4 * 2 ^ l4]

/-- A word with five fields. -/
def enc5 (m v l v2 l2 v3 l3 v4 l4 v5 l5 : Nat) : List Nat :=
  [m + v * 2 ^ l + v2 * 2 ^ l2 + v3 * 2 ^ l3 + v4 * 2 ^ l4 + v5 * 2 ^ l5]

/-- A word with six fields. -/
def enc6 (m v l v2 l2 v3 l3 v4 l4 v5 l5 v6 l6 : Nat) : List Nat :=
  [m + v * 2 ^ l + v2 * 2 ^ l2 + v3 * 2 ^ l3 + v4 * 2 ^ l4 + v5 * 2 ^ l5 + v6 * 2 ^ l6]

/-- The two words of a LONG pair: word 0 with two fields, then the immediate (R48). -/
def encLong (m v l v2 l2 : Nat) (i : BitVec 32) : List Nat := [m + v * 2 ^ l + v2 * 2 ^ l2, i.toNat]

/-- The words of an instruction (R8, R42-R48): one, two for a LONG pair, none for a row that has no word. -/
def encode : Instr → List Nat
  | .add d a b => enc3 0x00800000 d 18 a 13 b 8
  | .sub d a b => enc3 0x01000000 d 18 a 13 b 8
  | .and d a b => enc3 0x01800000 d 18 a 13 b 8
  | .or d a b => enc3 0x02000000 d 18 a 13 b 8
  | .xor d a b => enc3 0x02800000 d 18 a 13 b 8
  | .andn d a b => enc3 0x03000000 d 18 a 13 b 8
  | .shl d a b => enc3 0x03800000 d 18 a 13 b 8
  | .shr d a b => enc3 0x04000000 d 18 a 13 b 8
  | .sra d a b => enc3 0x04800000 d 18 a 13 b 8
  | .mul d a b => enc3 0x05000000 d 18 a 13 b 8
  | .mulh d a b => enc3 0x05800000 d 18 a 13 b 8
  | .mulhz d a b => enc3 0x06000000 d 18 a 13 b 8
  | .div d a b => enc3 0x06800000 d 18 a 13 b 8
  | .rem d a b => enc3 0x07000000 d 18 a 13 b 8
  | .divz d a b => enc3 0x07800000 d 18 a 13 b 8
  | .remz d a b => enc3 0x08000000 d 18 a 13 b 8
  | .min d a b => enc3 0x08800000 d 18 a 13 b 8
  | .max d a b => enc3 0x09000000 d 18 a 13 b 8
  | .minz d a b => enc3 0x09800000 d 18 a 13 b 8
  | .maxz d a b => enc3 0x0A000000 d 18 a 13 b 8
  | .sel d a b p => enc4 0x0A800000 d 18 a 13 b 8 p 0
  | .cmp p a b c => enc4 0x0B000000 p 18 a 13 b 8 c 0
  | .sext d a w => enc3 0x0B800000 d 18 a 13 w 0
  | .zext d a w => enc3 0x0C000000 d 18 a 13 w 0
  | .clz d a => enc2 0x0C800000 d 18 a 13
  | .popc d a => enc2 0x0D000000 d 18 a 13
  | .pand d a b => enc3 0x0D800000 d 18 a 13 b 8
  | .por d a b => enc3 0x0E000000 d 18 a 13 b 8
  | .pxor d a b => enc3 0x0E800000 d 18 a 13 b 8
  | .pnot d a => enc2 0x0F000000 d 18 a 13
  | .csrr d c => enc2 0x0F800000 d 18 c 0
  | .csrw a c => enc2 0x10000000 a 13 c 0
  | .addi d a i => enc3 0x10800000 d 18 a 13 i.toNat 0
  | .andi d a i => enc3 0x11000000 d 18 a 13 i.toNat 0
  | .ori d a i => enc3 0x11800000 d 18 a 13 i.toNat 0
  | .xori d a i => enc3 0x12000000 d 18 a 13 i.toNat 0
  | .shli d a s => enc3 0x12800000 d 18 a 13 s 0
  | .shri d a s => enc3 0x13000000 d 18 a 13 s 0
  | .srai d a s => enc3 0x13800000 d 18 a 13 s 0
  | .li d i => enc2 0x14000000 d 18 i.toNat 0
  | .cmpiEq p a i => enc3 0x14800000 p 18 a 13 i.toNat 0
  | .cmpiNe p a i => enc3 0x15000000 p 18 a 13 i.toNat 0
  | .cmpiLt p a i => enc3 0x15800000 p 18 a 13 i.toNat 0
  | .cmpiGe p a i => enc3 0x16000000 p 18 a 13 i.toNat 0
  | .cmpiLtz p a i => enc3 0x16800000 p 18 a 13 i.toNat 0
  | .cmpiGez p a i => enc3 0x17000000 p 18 a 13 i.toNat 0
  | .br o => enc1 0x18000000 o.toNat 0
  | .bp p o => enc2 0x18800000 p 18 o.toNat 0
  | .bnp p o => enc2 0x19000000 p 18 o.toNat 0
  | .call o => enc1 0x19800000 o.toNat 0
  | .loop c o => enc2 0x1A000000 c 18 o.toNat 0
  | .jr d a => enc2 0x1A800000 d 18 a 13
  | .lil d i => encLong 0xE0800000 d 18 0 13 i
  | .addil d a i => encLong 0xE1000000 d 18 a 13 i
  | .csrwLong c i => encLong 0xE1800000 0 18 c 0 i
  | .ld n z w d a i => enc6 0x20000000 (bit n) 26 (bit z) 25 w 23 d 18 a 13 i.toNat 0
  | .lds z w d a i => enc5 0x28000000 (bit z) 25 w 23 d 18 a 13 i.toNat 0
  | .ldsDataArrive _ _ => []
  | .st w d a i => enc4 0x2C000000 w 23 d 18 a 13 i.toNat 0
  | .ldAcq w d a z s => enc5 0x2E000000 w 23 d 18 a 13 (bit z) 3 s 0
  | .stRel w d a s => enc4 0x30000000 w 23 d 18 a 13 s 0
  | .chk a => enc1 0x32000000 a 13
  | .cvtaTo d a p => enc3 0x32800000 d 18 a 13 p 0
  | .cvtaOf d a p => enc3 0x32800080 d 18 a 13 p 0
  | .isap d a p => enc3 0x33000000 d 18 a 13 p 0
  | .qput q a => enc2 0x33800000 q 18 a 13
  | .qget d q => enc2 0x34000000 d 18 q 13
  | .shape k a => enc2 0x34800000 k 18 a 13
  | .sopen k a b => enc3 0x35000000 k 18 a 13 b 8
  | .sld k a b => enc3 0x35800000 k 18 a 13 b 8
  | .sfill k a => enc2 0x36000000 k 18 a 13
  | .sfillRes k => enc1 0x36000001 k 18
  | .sfork n m s t w => enc5 0x36800000 n 18 m 8 (bit s) 3 (bit t) 2 w 0
  | .smark k => enc1 0x37000000 k 18
  | .smarkClr k => enc1 0x37000001 k 18
  | .srew k => enc1 0x37800000 k 18
  | .sclose k => enc1 0x38000000 k 18
  | .scloseFin k => enc1 0x38000001 k 18
  | .sdrain d k => enc2 0x38800000 d 18 k 8
  | .sstat d k => enc2 0x39000000 d 18 k 8
  | .ssave k a => enc2 0x39800000 k 18 a 13
  | .srest a => enc1 0x3A000000 a 13
  | .cmd d a r => enc3 0x3A800000 d 18 a 13 r 0
  | .cengStat d r => enc2 0x3B000000 d 18 r 0
  | .cengSeq d r => enc2 0x3B000004 d 18 r 0
  | .cengWait d a r => enc3 0x3B000008 d 18 a 13 r 0
  | .cengRes d r => enc2 0x3B00000C d 18 r 0
  | .cengDrop d r => enc2 0x3B000010 d 18 r 0
  | .xpAdd d a b => enc3 0x40800000 d 18 a 13 b 8
  | .xpSub d a b => enc3 0x41000000 d 18 a 13 b 8
  | .xpAnd d a b => enc3 0x41800000 d 18 a 13 b 8
  | .xpOr d a b => enc3 0x42000000 d 18 a 13 b 8
  | .xpXor d a b => enc3 0x42800000 d 18 a 13 b 8
  | .xpShl d a b => enc3 0x43800000 d 18 a 13 b 8
  | .xpShr d a b => enc3 0x44000000 d 18 a 13 b 8
  | .xpSra d a b => enc3 0x44800000 d 18 a 13 b 8
  | .xpMul d a b => enc3 0x45000000 d 18 a 13 b 8
  | .xpMin d a b => enc3 0x48800000 d 18 a 13 b 8
  | .xpMax d a b => enc3 0x49000000 d 18 a 13 b 8
  | .xpSel d a b c => enc4 0x4A800000 d 18 a 13 b 8 c 0
  | .xpCmp d a b c => enc4 0x4B000000 d 18 a 13 b 8 c 0
  | .xpCsrr d c => enc2 0x4F800000 d 18 c 0
  | .xpCsrw a c => enc2 0x50000000 a 13 c 0
  | .xpAddi d a i => enc3 0x50800000 d 18 a 13 i.toNat 0
  | .xpLi d i => enc2 0x54000000 d 18 i.toNat 0
  | .xpB o => enc1 0x58000000 o.toNat 0
  | .xpBp c o => enc2 0x58800000 c 18 o.toNat 0
  | .xpLoop c o => enc2 0x5A000000 c 18 o.toNat 0
  | .xfence => enc0 0x5A800000
  | .xpQget d q => enc2 0x5B000000 d 18 q 13
  | .xpQput q a => enc2 0x5B800000 q 18 a 13
  | .fadd d a b r => enc4 0x5C000000 d 18 a 13 b 8 r 0
  | .fmul d a b r => enc4 0x5C800000 d 18 a 13 b 8 r 0
  | .fma d a b r => enc4 0x5D000000 d 18 a 13 b 8 r 0
  | .lsp c o => enc2 0x5D800000 c 18 o.toNat 0
  | .vset m e => enc2 0x5E000000 m 5 e 0
  | .vsetRot a m e => enc3 0x5E000100 a 13 m 5 e 0
  | .nset c => enc1 0x5E800000 c 0
  | .xpLil d i => encLong 0xE0800800 d 18 0 13 i
  | .xpAddil d a i => encLong 0xE1000800 d 18 a 13 i
  | .xpCsrwLong c i => encLong 0xE1800800 0 18 c 0 i
  | .xpSteer _ => []
  | .vadd d a b s m => enc5 0x61000000 d 17 a 10 b 3 (bit s) 1 (bit m) 0
  | .vsub d a b s m => enc5 0x62000000 d 17 a 10 b 3 (bit s) 1 (bit m) 0
  | .vmul d a b s m => enc5 0x63000000 d 17 a 10 b 3 (bit s) 1 (bit m) 0
  | .vmulh d a b m => enc4 0x64000000 d 17 a 10 b 3 (bit m) 0
  | .vmad d a b s m => enc5 0x65000000 d 17 a 10 b 3 (bit s) 1 (bit m) 0
  | .vmin d a b m => enc4 0x66000000 d 17 a 10 b 3 (bit m) 0
  | .vmax d a b m => enc4 0x67000000 d 17 a 10 b 3 (bit m) 0
  | .vabs d a s m => enc4 0x68000000 d 17 a 10 (bit s) 1 (bit m) 0
  | .vand d a b m => enc4 0x69000000 d 17 a 10 b 3 (bit m) 0
  | .vor d a b m => enc4 0x69000002 d 17 a 10 b 3 (bit m) 0
  | .vxor d a b m => enc4 0x69000004 d 17 a 10 b 3 (bit m) 0
  | .vnot d a m => enc3 0x69000006 d 17 a 10 (bit m) 0
  | .vshl d a b s m => enc5 0x6A000000 d 17 a 10 b 3 (bit s) 1 (bit m) 0
  | .vshr d a b s m => enc5 0x6B000000 d 17 a 10 b 3 (bit s) 1 (bit m) 0
  | .vsra d a b s m => enc5 0x6C000000 d 17 a 10 b 3 (bit s) 1 (bit m) 0
  | .vcmp d a b c => enc4 0x6D000000 d 17 a 10 b 3 c 0
  | .vsel d a b => enc3 0x6E000000 d 17 a 10 b 3
  | .vwadd d a b s q m => enc6 0x6F000000 d 17 a 10 b 3 (bit s) 2 (bit q) 1 (bit m) 0
  | .vwmul d a b s q m => enc6 0x70000000 d 17 a 10 b 3 (bit s) 2 (bit q) 1 (bit m) 0
  | .vwmad d a b s q m => enc6 0x71000000 d 17 a 10 b 3 (bit s) 2 (bit q) 1 (bit m) 0
  | .vnarrow d a s q m => enc5 0x72000000 d 17 a 10 (bit s) 2 (bit q) 1 (bit m) 0
  | .vcvt d a f e r m => enc6 0x73000000 d 17 a 10 (bit f) 8 e 3 r 1 (bit m) 0
  | .vfadd d a b r m => enc5 0x74000000 d 17 a 10 b 3 r 1 (bit m) 0
  | .vfsub d a b r m => enc5 0x75000000 d 17 a 10 b 3 r 1 (bit m) 0
  | .vfmul d a b r m => enc5 0x76000000 d 17 a 10 b 3 r 1 (bit m) 0
  | .vfma d a b r m => enc5 0x77000000 d 17 a 10 b 3 r 1 (bit m) 0
  | .vfmin d a b n m => enc5 0x78000000 d 17 a 10 b 3 (bit n) 2 (bit m) 0
  | .vfmax d a b n m => enc5 0x78000002 d 17 a 10 b 3 (bit n) 2 (bit m) 0
  | .vfcmp d a b c => enc4 0x79000000 d 17 a 10 b 3 c 0
  | .vfsgn d a b s m => enc5 0x7A000000 d 17 a 10 b 3 s 1 (bit m) 0
  | .vred d a r o s m => enc6 0x7B000000 d 17 a 10 r 6 o 3 (bit s) 1 (bit m) 0
  | .vcompress d a => enc2 0x7C000000 d 17 a 10
  | .vexpand d a => enc2 0x7C000002 d 17 a 10
  | .vperm d a m => enc3 0x7C000004 d 17 a 10 (bit m) 0
  | .vslide d a i => enc3 0x7D000000 d 17 a 10 i.toNat 0
  | .vbcast d a j => enc3 0x7E000000 d 17 a 10 j 0
  | .mand d a b => enc3 0x7F000000 d 17 a 10 b 3
  | .mor d a b => enc3 0x7F000002 d 17 a 10 b 3
  | .mnot d a => enc2 0x7F000004 d 17 a 10
  | .mpop d a => enc2 0x7F000006 d 17 a 10
  | .seat x => enc1 0x81000000 x 5
  | .unseat => enc0 0x82000000
  | .wload k m t => enc3 0x83000000 k 15 (bit m) 4 t 0
  | .wswap => enc0 0x84000000
  | .sclq k => enc1 0x85000000 k 15
  | .mmul t k m h e => enc5 0x86000000 t 20 k 15 (bit m) 4 (bit h) 3 e 0
  | .mmulg t k x m h e => enc6 0x87000000 t 20 k 15 x 5 (bit m) 4 (bit h) 3 e 0
  | .azero t => enc1 0x88000000 t 20
  | .drain t x s f => enc4 0x89000000 t 20 x 5 (bit s) 3 f 0
  | .rpop v => enc1 0x8A000000 v 10
  | .rsend k => enc1 0x8B000000 k 15
  | .exp2 d a m => enc3 0x90000000 d 17 a 10 (bit m) 0
  | .log2 d a m => enc3 0x90000080 d 17 a 10 (bit m) 0
  | .rcp d a m => enc3 0x90000100 d 17 a 10 (bit m) 0
  | .rsqrt d a m => enc3 0x90000180 d 17 a 10 (bit m) 0
  | .sinpi d a m => enc3 0x90000200 d 17 a 10 (bit m) 0
  | .cospi d a m => enc3 0x90000280 d 17 a 10 (bit m) 0
  | .tanh d a m => enc3 0x90000300 d 17 a 10 (bit m) 0
  | .sigm d a m => enc3 0x90000380 d 17 a 10 (bit m) 0
  | .stintEndCount _ => []
  | .seatGrant _ => []
  | .nop => enc0 0xA0800000
  | .spawnAp d a b => enc3 0xA1000000 d 18 a 13 b 8
  | .spawnXp d a b => enc3 0xA1000001 d 18 a 13 b 8
  | .endTask => enc0 0xA1800000
  | .wait d a c s => enc4 0xA2000000 d 18 a 13 c 6 s 0
  | .raise a c s => enc3 0xA2800000 a 13 c 6 s 0
  | .fwait d a b => enc3 0xA3000000 d 18 a 13 b 8
  | .fres a b => enc2 0xA3800000 a 13 b 8
  | .ffault a b => enc2 0xA4000000 a 13 b 8
  | .hbarHeat a => enc1 0xA4800080 a 13
  | .hbarGroup a h w => enc3 0xA4800000 a 13 h 3 w 0
  | .barm a b => enc2 0xA5000000 a 13 b 0
  | .barmClr a b => enc2 0xA5000020 a 13 b 0
  | .bwait d a p b => enc4 0xA5800000 d 18 a 13 (bit p) 5 b 0
  | .hand a b => enc2 0xA6000000 a 13 b 8
  | .fence s => enc1 0xA6800000 s 0
  | .tsr d => enc1 0xA7000000 d 18
  | .trap n => enc1 0xA7800000 n 0
  | .rtt => enc0 0xA8000000
  | .sysXpage d a => enc2 0xA8800000 d 18 a 13
  | .sysXctx d a => enc2 0xA8800001 d 18 a 13
  | .sysRlc d a => enc2 0xA8800002 d 18 a 13
  | .sysTbsync d a => enc2 0xA8800003 d 18 a 13
  | .slip a => enc1 0xA9000000 a 13
  | .halt => enc0 0xA9800000
  | .pixr d e => enc2 0xAA000000 d 18 e 0
  | .pixw a e => enc2 0xAA800000 a 13 e 0
  | .must d a => enc2 0xAB000000 d 18 a 13
  | .unmust a => enc1 0xAB800000 a 13
  | .taskStart _ _ => []
  | .engineHeadStart _ _ => []
  | .copy _ _ _ => []
  | .copyDecode _ _ _ => []
  | .fill _ _ _ => []
  | .ragged _ _ _ => []
  | .gather _ _ _ => []
  | .scatter _ _ _ => []
  | .accwAdd _ _ _ => []
  | .accwAdds _ _ _ => []
  | .accwFadd _ _ _ => []
  | .accwXadd _ _ _ => []
  | .accwOr _ _ _ => []
  | .accwAnd _ _ _ => []
  | .accwXor _ _ _ => []
  | .accwMin _ _ _ => []
  | .accwMax _ _ _ => []
  | .accwFmin _ _ _ => []
  | .accwFmax _ _ _ => []
  | .accwSwap _ _ _ => []
  | .accwCas _ _ _ => []
  | .laneLoad _ _ _ => []
  | .laneRun _ _ => []
  | .net _ _ => []
  | .qfence _ _ => []
  | .semaSignal _ _ => []
  | .semaSet _ _ => []
  | .fillerCommit _ _ => []
  | .drainerWrite _ _ _ => []
  | .coreSlotTransfer _ _ => []
  | .laneStep _ => []
  | .laneLoopLimit _ => []
  | .netReceiverDone _ _ => []
  | .netSeatRelease _ _ => []
  | .rlcWriteback _ _ _ => []
  | .rlcInvalidate _ _ _ => []
  | .faultDelivery _ => []
  | .heatLaunch => []
  | .preempt => []
  | .preemptSaveDone _ => []
  | .heatComplete _ => []
  | .stall _ => []
  | .intakeRecord _ _ _ => []
  | .intakeCommit _ => []
  | .hostBar4Write _ _ => []
  | .hostBar4Read _ _ => []
  | .registerWrite _ _ => []
  | .linkLost _ => []
  | .lostReadComplete _ => []
  | .lostWritePoison _ => []
  | .linkRepairDone _ => []
  | .hbmLaneRepair _ => []
  | .errorCorrectable _ => []
  | .errorUncorrectable _ => []
  | .temperatureHigh _ => []
  | .bankOvervoltage => []
  | .supplyLoss => []
  | .quiesceComplete => []
  | .saveSetWritten => []
  | .drillLimitReached => []
  | .reserveExhausted _ => []
  | .powerUp _ => []
  | .healthTest _ => []
  | .bankChargeTimeout => []
  | .leaseRenew => []
  | .leaseLapse => []
  | .leaseTakeover => []
  | .coxReload => []
  | .lifetimeWrite => []
  | .fwLoad _ => []
  | .quote _ _ _ => []
  | .quoteIdentity _ => []
  | .extend _ _ _ => []
  | .ownerInstall _ _ => []
  | .ownerRelease _ _ => []
  | .ownerRecover _ _ => []
  | .ctxConfig _ _ _ => []
  | .map _ _ _ => []
  | .unmap _ _ _ _ => []
  | .metaBlock _ _ _ _ => []
  | .intake _ _ _ => []
  | .launch _ _ => []
  | .heatStatus _ _ => []
  | .heatContinue _ _ _ => []
  | .heatEnd _ _ => []
  | .saveDir _ _ => []
  | .restore _ _ _ _ => []
  | .saveRelease _ => []
  | .drill _ _ _ => []
  | .preauth _ _ _ => []
  | .lifeRead _ _ _ => []
  | .rejoin _ => []
  | .xspiRead _ _ => []
  | .xspiWrite _ _ => []
  | .xspiWriteEnable => []
  | .xspiReadStatus => []
  | .xspiWriteConfig _ => []
  | .xspiReadSfdp _ _ => []
  | .xspiResetEnable => []
  | .xspiReset => []
  | .launchRecordTaken _ => []

/-- The bytes of an instruction as memory holds them: each word little-endian, the first lowest (R5, R6). -/
def encodeBytes (i : Instr) : List Byte := ((encode i).map (leBytes 4)).flatten

/-- Where a fetched instruction runs (R6, R46-R48). -/
inductive Unit where
  /-- the AP -/
  | ap
  /-- the XP sequencer -/
  | xp
  /-- the side that fetched it -/
  | both
  /-- steered into the vector queue -/
  | vec
  /-- steered into the matrix queue -/
  | mtx
  /-- steered into the function queue -/
  | func
  /-- no fetched word -/
  | event
  deriving DecidableEq, Repr

/-- The unit that runs each row. -/
def Instr.unit : Instr → Unit
  | .add _ _ _ => .ap
  | .sub _ _ _ => .ap
  | .and _ _ _ => .ap
  | .or _ _ _ => .ap
  | .xor _ _ _ => .ap
  | .andn _ _ _ => .ap
  | .shl _ _ _ => .ap
  | .shr _ _ _ => .ap
  | .sra _ _ _ => .ap
  | .mul _ _ _ => .ap
  | .mulh _ _ _ => .ap
  | .mulhz _ _ _ => .ap
  | .div _ _ _ => .ap
  | .rem _ _ _ => .ap
  | .divz _ _ _ => .ap
  | .remz _ _ _ => .ap
  | .min _ _ _ => .ap
  | .max _ _ _ => .ap
  | .minz _ _ _ => .ap
  | .maxz _ _ _ => .ap
  | .sel _ _ _ _ => .ap
  | .cmp _ _ _ _ => .ap
  | .sext _ _ _ => .ap
  | .zext _ _ _ => .ap
  | .clz _ _ => .ap
  | .popc _ _ => .ap
  | .pand _ _ _ => .ap
  | .por _ _ _ => .ap
  | .pxor _ _ _ => .ap
  | .pnot _ _ => .ap
  | .csrr _ _ => .ap
  | .csrw _ _ => .ap
  | .addi _ _ _ => .ap
  | .andi _ _ _ => .ap
  | .ori _ _ _ => .ap
  | .xori _ _ _ => .ap
  | .shli _ _ _ => .ap
  | .shri _ _ _ => .ap
  | .srai _ _ _ => .ap
  | .li _ _ => .ap
  | .cmpiEq _ _ _ => .ap
  | .cmpiNe _ _ _ => .ap
  | .cmpiLt _ _ _ => .ap
  | .cmpiGe _ _ _ => .ap
  | .cmpiLtz _ _ _ => .ap
  | .cmpiGez _ _ _ => .ap
  | .br _ => .ap
  | .bp _ _ => .ap
  | .bnp _ _ => .ap
  | .call _ => .ap
  | .loop _ _ => .ap
  | .jr _ _ => .ap
  | .lil _ _ => .ap
  | .addil _ _ _ => .ap
  | .csrwLong _ _ => .ap
  | .ld _ _ _ _ _ _ => .ap
  | .lds _ _ _ _ _ => .ap
  | .ldsDataArrive _ _ => .event
  | .st _ _ _ _ => .ap
  | .ldAcq _ _ _ _ _ => .ap
  | .stRel _ _ _ _ => .ap
  | .chk _ => .ap
  | .cvtaTo _ _ _ => .ap
  | .cvtaOf _ _ _ => .ap
  | .isap _ _ _ => .ap
  | .qput _ _ => .ap
  | .qget _ _ => .ap
  | .shape _ _ => .ap
  | .sopen _ _ _ => .ap
  | .sld _ _ _ => .ap
  | .sfill _ _ => .ap
  | .sfillRes _ => .ap
  | .sfork _ _ _ _ _ => .ap
  | .smark _ => .ap
  | .smarkClr _ => .ap
  | .srew _ => .ap
  | .sclose _ => .ap
  | .scloseFin _ => .ap
  | .sdrain _ _ => .ap
  | .sstat _ _ => .ap
  | .ssave _ _ => .ap
  | .srest _ => .ap
  | .cmd _ _ _ => .ap
  | .cengStat _ _ => .ap
  | .cengSeq _ _ => .ap
  | .cengWait _ _ _ => .ap
  | .cengRes _ _ => .ap
  | .cengDrop _ _ => .ap
  | .xpAdd _ _ _ => .xp
  | .xpSub _ _ _ => .xp
  | .xpAnd _ _ _ => .xp
  | .xpOr _ _ _ => .xp
  | .xpXor _ _ _ => .xp
  | .xpShl _ _ _ => .xp
  | .xpShr _ _ _ => .xp
  | .xpSra _ _ _ => .xp
  | .xpMul _ _ _ => .xp
  | .xpMin _ _ _ => .xp
  | .xpMax _ _ _ => .xp
  | .xpSel _ _ _ _ => .xp
  | .xpCmp _ _ _ _ => .xp
  | .xpCsrr _ _ => .xp
  | .xpCsrw _ _ => .xp
  | .xpAddi _ _ _ => .xp
  | .xpLi _ _ => .xp
  | .xpB _ => .xp
  | .xpBp _ _ => .xp
  | .xpLoop _ _ => .xp
  | .xfence => .xp
  | .xpQget _ _ => .xp
  | .xpQput _ _ => .xp
  | .fadd _ _ _ _ => .xp
  | .fmul _ _ _ _ => .xp
  | .fma _ _ _ _ => .xp
  | .lsp _ _ => .xp
  | .vset _ _ => .xp
  | .vsetRot _ _ _ => .xp
  | .nset _ => .xp
  | .xpLil _ _ => .xp
  | .xpAddil _ _ _ => .xp
  | .xpCsrwLong _ _ => .xp
  | .xpSteer _ => .event
  | .vadd _ _ _ _ _ => .vec
  | .vsub _ _ _ _ _ => .vec
  | .vmul _ _ _ _ _ => .vec
  | .vmulh _ _ _ _ => .vec
  | .vmad _ _ _ _ _ => .vec
  | .vmin _ _ _ _ => .vec
  | .vmax _ _ _ _ => .vec
  | .vabs _ _ _ _ => .vec
  | .vand _ _ _ _ => .vec
  | .vor _ _ _ _ => .vec
  | .vxor _ _ _ _ => .vec
  | .vnot _ _ _ => .vec
  | .vshl _ _ _ _ _ => .vec
  | .vshr _ _ _ _ _ => .vec
  | .vsra _ _ _ _ _ => .vec
  | .vcmp _ _ _ _ => .vec
  | .vsel _ _ _ => .vec
  | .vwadd _ _ _ _ _ _ => .vec
  | .vwmul _ _ _ _ _ _ => .vec
  | .vwmad _ _ _ _ _ _ => .vec
  | .vnarrow _ _ _ _ _ => .vec
  | .vcvt _ _ _ _ _ _ => .vec
  | .vfadd _ _ _ _ _ => .vec
  | .vfsub _ _ _ _ _ => .vec
  | .vfmul _ _ _ _ _ => .vec
  | .vfma _ _ _ _ _ => .vec
  | .vfmin _ _ _ _ _ => .vec
  | .vfmax _ _ _ _ _ => .vec
  | .vfcmp _ _ _ _ => .vec
  | .vfsgn _ _ _ _ _ => .vec
  | .vred _ _ _ _ _ _ => .vec
  | .vcompress _ _ => .vec
  | .vexpand _ _ => .vec
  | .vperm _ _ _ => .vec
  | .vslide _ _ _ => .vec
  | .vbcast _ _ _ => .vec
  | .mand _ _ _ => .vec
  | .mor _ _ _ => .vec
  | .mnot _ _ => .vec
  | .mpop _ _ => .vec
  | .seat _ => .mtx
  | .unseat => .mtx
  | .wload _ _ _ => .mtx
  | .wswap => .mtx
  | .sclq _ => .mtx
  | .mmul _ _ _ _ _ => .mtx
  | .mmulg _ _ _ _ _ _ => .mtx
  | .azero _ => .mtx
  | .drain _ _ _ _ => .mtx
  | .rpop _ => .mtx
  | .rsend _ => .mtx
  | .exp2 _ _ _ => .func
  | .log2 _ _ _ => .func
  | .rcp _ _ _ => .func
  | .rsqrt _ _ _ => .func
  | .sinpi _ _ _ => .func
  | .cospi _ _ _ => .func
  | .tanh _ _ _ => .func
  | .sigm _ _ _ => .func
  | .stintEndCount _ => .event
  | .seatGrant _ => .event
  | .nop => .both
  | .spawnAp _ _ _ => .both
  | .spawnXp _ _ _ => .both
  | .endTask => .both
  | .wait _ _ _ _ => .both
  | .raise _ _ _ => .both
  | .fwait _ _ _ => .both
  | .fres _ _ => .both
  | .ffault _ _ => .both
  | .hbarHeat _ => .both
  | .hbarGroup _ _ _ => .both
  | .barm _ _ => .both
  | .barmClr _ _ => .both
  | .bwait _ _ _ _ => .both
  | .hand _ _ => .ap
  | .fence _ => .both
  | .tsr _ => .both
  | .trap _ => .both
  | .rtt => .both
  | .sysXpage _ _ => .both
  | .sysXctx _ _ => .both
  | .sysRlc _ _ => .both
  | .sysTbsync _ _ => .both
  | .slip _ => .xp
  | .halt => .both
  | .pixr _ _ => .both
  | .pixw _ _ => .both
  | .must _ _ => .ap
  | .unmust _ => .ap
  | .taskStart _ _ => .event
  | .engineHeadStart _ _ => .event
  | .copy _ _ _ => .event
  | .copyDecode _ _ _ => .event
  | .fill _ _ _ => .event
  | .ragged _ _ _ => .event
  | .gather _ _ _ => .event
  | .scatter _ _ _ => .event
  | .accwAdd _ _ _ => .event
  | .accwAdds _ _ _ => .event
  | .accwFadd _ _ _ => .event
  | .accwXadd _ _ _ => .event
  | .accwOr _ _ _ => .event
  | .accwAnd _ _ _ => .event
  | .accwXor _ _ _ => .event
  | .accwMin _ _ _ => .event
  | .accwMax _ _ _ => .event
  | .accwFmin _ _ _ => .event
  | .accwFmax _ _ _ => .event
  | .accwSwap _ _ _ => .event
  | .accwCas _ _ _ => .event
  | .laneLoad _ _ _ => .event
  | .laneRun _ _ => .event
  | .net _ _ => .event
  | .qfence _ _ => .event
  | .semaSignal _ _ => .event
  | .semaSet _ _ => .event
  | .fillerCommit _ _ => .event
  | .drainerWrite _ _ _ => .event
  | .coreSlotTransfer _ _ => .event
  | .laneStep _ => .event
  | .laneLoopLimit _ => .event
  | .netReceiverDone _ _ => .event
  | .netSeatRelease _ _ => .event
  | .rlcWriteback _ _ _ => .event
  | .rlcInvalidate _ _ _ => .event
  | .faultDelivery _ => .event
  | .heatLaunch => .event
  | .preempt => .event
  | .preemptSaveDone _ => .event
  | .heatComplete _ => .event
  | .stall _ => .event
  | .intakeRecord _ _ _ => .event
  | .intakeCommit _ => .event
  | .hostBar4Write _ _ => .event
  | .hostBar4Read _ _ => .event
  | .registerWrite _ _ => .event
  | .linkLost _ => .event
  | .lostReadComplete _ => .event
  | .lostWritePoison _ => .event
  | .linkRepairDone _ => .event
  | .hbmLaneRepair _ => .event
  | .errorCorrectable _ => .event
  | .errorUncorrectable _ => .event
  | .temperatureHigh _ => .event
  | .bankOvervoltage => .event
  | .supplyLoss => .event
  | .quiesceComplete => .event
  | .saveSetWritten => .event
  | .drillLimitReached => .event
  | .reserveExhausted _ => .event
  | .powerUp _ => .event
  | .healthTest _ => .event
  | .bankChargeTimeout => .event
  | .leaseRenew => .event
  | .leaseLapse => .event
  | .leaseTakeover => .event
  | .coxReload => .event
  | .lifetimeWrite => .event
  | .fwLoad _ => .event
  | .quote _ _ _ => .event
  | .quoteIdentity _ => .event
  | .extend _ _ _ => .event
  | .ownerInstall _ _ => .event
  | .ownerRelease _ _ => .event
  | .ownerRecover _ _ => .event
  | .ctxConfig _ _ _ => .event
  | .map _ _ _ => .event
  | .unmap _ _ _ _ => .event
  | .metaBlock _ _ _ _ => .event
  | .intake _ _ _ => .event
  | .launch _ _ => .event
  | .heatStatus _ _ => .event
  | .heatContinue _ _ _ => .event
  | .heatEnd _ _ => .event
  | .saveDir _ _ => .event
  | .restore _ _ _ _ => .event
  | .saveRelease _ => .event
  | .drill _ _ _ => .event
  | .preauth _ _ _ => .event
  | .lifeRead _ _ _ => .event
  | .rejoin _ => .event
  | .xspiRead _ _ => .event
  | .xspiWrite _ _ => .event
  | .xspiWriteEnable => .event
  | .xspiReadStatus => .event
  | .xspiWriteConfig _ => .event
  | .xspiReadSfdp _ _ => .event
  | .xspiResetEnable => .event
  | .xspiReset => .event
  | .launchRecordTaken _ => .event

/-- Whether a side fetches and accepts an instruction of a unit (R7). -/
def Unit.onSide : Unit → Side → Bool
  | .ap, .ap => true
  | .ap, .xp => false
  | .xp, sd => decide (sd = .xp)
  | .both, _ => true
  | .vec, sd => decide (sd = .xp)
  | .mtx, sd => decide (sd = .xp)
  | .func, sd => decide (sd = .xp)
  | .event, _ => false

/-- The decoder on an instruction numbered as the opcode table numbers its bits: `w` holds `nbits` bits, the bits above
are zero, and the words lie in memory as R5 and R6 say. -/
def decodeTableWord (nbits w : Nat) : Option Instr :=
  match decode (leBytes 8 (w % 2 ^ nbits)) with
  | .ok (i, _) => some i
  | .error _ => none

end Sys2Proof
end

