-- ==== Sys2Proof/Machine/Bits.lean ====
section
/-! DEFINITION. Bit fields, byte order and the integer readings of words (R5, R53). -/

namespace Sys2Proof.Machine

/-- Bits [lo+n-1:lo] of a number. -/
def nfld (v lo n : Nat) : Nat := v / 2 ^ lo % 2 ^ n

/-- Sign extension of an immediate to 64 bits. -/
def sx {w : Nat} (i : BitVec w) : Addr := i.signExtend 64

/-- A number as an n-bit two's complement integer. -/
def toSigned (n v : Nat) : Int := if v % 2 ^ n < 2 ^ (n - 1) then (v % 2 ^ n : Int) else (v % 2 ^ n : Int) - 2 ^ n

/-- An integer as an n-bit word. -/
def ofInt (n : Nat) (v : Int) : Nat := (v % (2 ^ n : Int)).toNat

/-- Little-endian bytes as a number (R5). -/
def bytesNat (l : List Byte) : Nat := l.foldr (fun b acc => b.toNat + 256 * acc) 0

/-- The n low bytes of a number, least significant first (R5). -/
def natBytes (n v : Nat) : List Byte :=
  match n with
  | 0 => []
  | n + 1 => BitVec.ofNat 8 v :: natBytes n (v / 256)

/-- A bit vector's bytes, least significant first. -/
def bvBytes {w : Nat} (n : Nat) (v : BitVec w) : List Byte := natBytes n v.toNat

/-- The number of zero bits above the highest one bit of a 64-bit value; 64 for 0 (R81). -/
def clz64 (v : Addr) : Nat := if v.toNat = 0 then 64 else 63 - v.toNat.log2

/-- Number of one bits among the n low bits. -/
def popN (n v : Nat) : Nat := (List.range n).foldl (fun acc i => acc + v / 2 ^ i % 2) 0

/-- A field of a structured record: n bytes at an offset. -/
def fieldAt (l : List Byte) (off n : Nat) : Nat := bytesNat ((l.drop off).take n)

/-- The least multiple of m that is not below v. -/
def roundUp (v m : Nat) : Nat := (v + m - 1) / m * m

/-- Whether a number divides another; nothing but 0 is a multiple of 0. -/
def isMul (v m : Nat) : Bool := v % m == 0

end Sys2Proof.Machine
end

