-- ==== Sys2Proof/Machine/Access.lean ====
section
/-! DEFINITION. One home for every read and write of the state: sparse tables, the units of the part by number, placement
(R4, R22), the partition of a core's pool (R17-R19) and the register files (R12). -/

namespace Sys2Proof.Machine

/-! ### Tables -/

/-- The value a table lists for a key, or a default. -/
def tget {α : Type} (t : Tbl α) (k : Nat) (dflt : α) : α :=
  match t with
  | [] => dflt
  | (k', v) :: r => if k' = k then v else tget r k dflt

/-- The value a table lists for a key. -/
def tfind {α : Type} (t : Tbl α) (k : Nat) : Option α :=
  match t with
  | [] => none
  | (k', v) :: r => if k' = k then some v else tfind r k

/-- A table with one key given a value; keys stay in rising order. -/
def tset {α : Type} (t : Tbl α) (k : Nat) (v : α) : Tbl α :=
  match t with
  | [] => [(k, v)]
  | (k', v') :: r =>
    if k' = k then (k, v) :: r
    else if k < k' then (k, v) :: (k', v') :: r
    else (k', v') :: tset r k v

/-- A table without a key. -/
def tdel {α : Type} (t : Tbl α) (k : Nat) : Tbl α := t.filter (fun p => p.1 != k)

/-! ### Placement -/

/-- Column of a core (R4). -/
def coreX (c : Nat) : Nat := c % 24

/-- Row of a core (R4). -/
def coreY (c : Nat) : Nat := c / 24

/-- Die of a core: 0 is die S, 1 is die B (R4). -/
def dieOf (c : Nat) : Nat := if coreX c < 12 then 0 else 1

/-- Crew of a core (R22). -/
def crewOf (c : Nat) : Nat := coreY c / 2 * 12 + coreX c / 2

/-- Position of a core in its crew (R22). -/
def posOf (c : Nat) : Nat := coreX c % 2 + 2 * (coreY c % 2)

/-- The core at a position of a crew (R22). -/
def coreAt (crew pos : Nat) : Nat := (2 * (crew / 12) + pos / 2) * 24 + 2 * (crew % 12) + pos % 2

/-- Die of a crew. -/
def crewDie (crew : Nat) : Nat := if crew % 12 < 6 then 0 else 1

/-- Whether a form of the part has a die (R2). -/
def Form.hasDie (f : Form) (die : Nat) : Bool := die == 0 || (die == 1 && f != .la2h)

/-- Whether the part has a core (R2, R4). -/
def State.hasCore (s : State) (c : Nat) : Bool := decide (c < 192) && s.form.hasDie (dieOf c)

/-! ### Units by number -/

/-- A core of the part. -/
def State.core (s : State) (c : Nat) : Core := tget s.cores c Core.reset

/-- The part with one core replaced. -/
def State.setCore (s : State) (c : Nat) (k : Core) : State := { s with cores := tset s.cores c k }

/-- The part with one core changed. -/
def State.modCore (s : State) (c : Nat) (f : Core → Core) : State := s.setCore c (f (s.core c))

/-- The core that moves. -/
def State.me (s : State) : Core := s.core s.cur.core

/-- The part with the moving core changed. -/
def State.modMe (s : State) (f : Core → Core) : State := s.modCore s.cur.core f

/-- A side of a core. -/
def Core.side (k : Core) : Side → SideSt
  | .ap => k.ap
  | .xp => k.xp

/-- A core with one side changed. -/
def Core.modSide (k : Core) (sd : Side) (f : SideSt → SideSt) : Core :=
  match sd with
  | .ap => { k with ap := f k.ap }
  | .xp => { k with xp := f k.xp }

/-- The part with one side changed. -/
def State.modSide (s : State) (c : Nat) (sd : Side) (f : SideSt → SideSt) : State := s.modCore c (fun k => k.modSide sd f)

/-- The part with the moving side changed. -/
def State.modMySide (s : State) (f : SideSt → SideSt) : State := s.modSide s.cur.core s.cur.side f

/-- The moving side. -/
def State.mySide (s : State) : SideSt := s.me.side s.cur.side

/-- A crew. -/
def State.crew (s : State) (n : Nat) : Crew := tget s.crews n Crew.reset

/-- The part with one crew changed. -/
def State.modCrew (s : State) (n : Nat) (f : Crew → Crew) : State := { s with crews := tset s.crews n (f (s.crew n)) }

/-- A die. -/
def State.die (s : State) (n : Nat) : Die := tget s.dies n Die.reset

/-- The part with one die changed. -/
def State.modDie (s : State) (n : Nat) (f : Die → Die) : State := { s with dies := tset s.dies n (f (s.die n)) }

/-- A bobbin lane. -/
def State.lane (s : State) (n : Nat) : Lane := tget s.lanes n Lane.reset

/-- The part with one lane changed. -/
def State.modLane (s : State) (n : Nat) (f : Lane → Lane) : State := { s with lanes := tset s.lanes n (f (s.lane n)) }

/-- A context. -/
def State.ctx (s : State) (n : Nat) : Ctx := tget s.ctxs n Ctx.reset

/-- The part with one context changed. -/
def State.modCtx (s : State) (n : Nat) (f : Ctx → Ctx) : State := { s with ctxs := tset s.ctxs n (f (s.ctx n)) }

/-- An intake channel. -/
def State.chan (s : State) (n : Nat) : Channel := tget s.chans n Channel.reset

/-- The part with one channel changed. -/
def State.modChan (s : State) (n : Nat) (f : Channel → Channel) : State := { s with chans := tset s.chans n (f (s.chan n)) }

/-- A command ring of a core. -/
def Core.ring (k : Core) (r : Nat) : Ring := tget k.rings r Ring.reset

/-- The part with one ring changed. -/
def State.modRing (s : State) (c r : Nat) (f : Ring → Ring) : State :=
  s.modCore c (fun k => { k with rings := tset k.rings r (f (k.ring r)) })

/-- Whether every record that entered a ring before an order number has retired. -/
def doneBefore (k : Core) (r order : Nat) : Bool := (k.ring r).recs.all (fun p => decide (order ≤ p.2.order))

/-- A semaphore of a core. -/
def Core.sema (k : Core) (n : Nat) : Sema := tget k.semas n Sema.reset

/-- The part with one semaphore changed. -/
def State.modSema (s : State) (c n : Nat) (f : Sema → Sema) : State :=
  s.modCore c (fun k => { k with semas := tset k.semas n (f (k.sema n)) })

/-- A stage barrier of a core. -/
def Core.bar (k : Core) (n : Nat) : StageBar := tget k.bars n StageBar.reset

/-- The part with one stage barrier changed. -/
def State.modBar (s : State) (c n : Nat) (f : StageBar → StageBar) : State :=
  s.modCore c (fun k => { k with bars := tset k.bars n (f (k.bar n)) })

/-! ### Heats -/

/-- The heat that occupies a core. -/
def State.heatOf (s : State) (c : Nat) : Option Heat :=
  if (s.core c).heat = 0 then none
  else s.heats.find? (fun h => h.hr.number == (s.core c).heat && (h.st == .running || h.st == .stopped || h.st == .halted ||
    h.st == .saving))

/-- The heat with a number. -/
def State.heatNo (s : State) (n : Nat) : Option Heat := s.heats.find? (fun h => h.hr.number == n)

/-- The part with the heat of a number changed. -/
def State.modHeat (s : State) (n : Nat) (f : Heat → Heat) : State :=
  { s with heats := s.heats.map (fun h => if h.hr.number = n then f h else h) }

/-- Something that the stall detector counts happens at a core: an instruction or a chunk completes, a port moves a unit, a stream
commits or drains a byte, a raise, a resolution, an arrival or a completion (R301). -/
def State.act (c : Nat) (s : State) : State := { s with acted := if s.acted.contains c then s.acted else s.acted ++ [c] }

/-- The cores of a rectangle in increasing number (R238). -/
def rectCores (x0 y0 w h : Nat) : List Nat :=
  (List.range h).flatMap (fun j => (List.range w).map (fun i => (y0 + j) * 24 + x0 + i))

/-- The cores of a heat. -/
def HeatRec.cores (r : HeatRec) : List Nat := rectCores r.x0 r.y0 r.w r.h

/-- Whether a rectangle holds a core. -/
def HeatRec.has (r : HeatRec) (c : Nat) : Bool :=
  decide (r.x0 ≤ coreX c) && decide (coreX c < r.x0 + r.w) && decide (r.y0 ≤ coreY c) && decide (coreY c < r.y0 + r.h)

/-- Whether the heat of a core is running, so that the units of the core move. -/
def State.live (s : State) (c : Nat) : Bool :=
  match s.heatOf c with
  | some h => h.st == .running
  | none => false

/-- Whether the engines, rings, fillers and drainers of a core move: those of a halted heat go on, its sides do not (R230), until the
bridge going down stops the heat (R316). -/
def State.unitsLive (s : State) (c : Nat) : Bool :=
  match s.heatOf c with
  | some h => h.st == .running || (h.st == .halted && !h.bridge)
  | none => false

/-- Whether a core is in system mode (R20). -/
def State.sysMode (s : State) (c : Nat) : Bool :=
  match s.heatOf c with
  | some h => h.hr.system
  | none => false

/-- Context of a core's heat. -/
def State.ctxOf (s : State) (c : Nat) : Nat :=
  match s.heatOf c with
  | some h => h.hr.ctx
  | none => 0

/-! ### The pool (R17, R18) -/

/-- Number of vector registers (R17). -/
def Core.nv (k : Core) : Nat := 32 * (k.vregsCode + 1)

/-- Pool offset of the scratchpad (R18). -/
def Core.padBase (k : Core) : Nat := k.nv * 512 + k.acc * 32768 + k.cont * 4096

/-- Bytes of the scratchpad (R18). -/
def Core.spad (k : Core) : Nat := 1048576 - 32768 - k.padBase

/-! ### Register files (R12) -/

/-- An a register: a0 reads 0, not poisoned. -/
def Core.areg (k : Core) (n : Nat) : Poi := if n = 0 then ⟨0, false⟩ else tget k.aregs n ⟨0, false⟩

/-- A write of an a register; a write to a0 is discarded. -/
def Core.setAreg (k : Core) (n : Nat) (v : Poi) : Core := if n = 0 then k else { k with aregs := tset k.aregs n v }

/-- An x register: x0 reads 0. -/
def Core.xreg (k : Core) (n : Nat) : Addr := if n = 0 then 0 else tget k.xregs n 0

/-- A write of an x register; a write to x0 is discarded. -/
def Core.setXreg (k : Core) (n : Nat) (v : Addr) : Core := if n = 0 then k else { k with xregs := tset k.xregs n v }

/-- A predicate: p0 reads 1. -/
def Core.pred (k : Core) (n : Nat) : Bool := n == 0 || k.preds.getLsbD n

/-- A write of a predicate; a write to p0 is discarded. -/
def Core.setPred (k : Core) (n : Nat) (v : Bool) : Core :=
  if n = 0 then k
  else { k with preds := if v then k.preds ||| (1#8 <<< n) else k.preds &&& ~~~(1#8 <<< n) }

/-- A vector register. -/
def Core.vreg (k : Core) (n : Nat) : BitVec 4096 := tget k.vregs n 0

/-- A write of a vector register. -/
def Core.setVreg (k : Core) (n : Nat) (v : BitVec 4096) : Core := { k with vregs := tset k.vregs n v }

/-- A mask register: m0 reads all ones. -/
def Core.mask (k : Core) (n : Nat) : BitVec 1024 := if n = 0 then BitVec.allOnes 1024 else tget k.masks n 0

/-- A write of a mask register; a write to m0 is discarded. -/
def Core.setMask (k : Core) (n : Nat) (v : BitVec 1024) : Core := if n = 0 then k else { k with masks := tset k.masks n v }

/-- A queue between the sides, oldest entry first (R15). -/
def Core.queue (k : Core) (n : Nat) : List Addr := tget k.queues n []

/-- An accumulator tile (R19). -/
def Core.tile (k : Core) (n : Nat) : BitVec 262144 := tget k.tiles n 0

/-- A scalar register of a side, with its poison bit (R12, R13). -/
def Core.reg (k : Core) (sd : Side) (n : Nat) : Poi :=
  match sd with
  | .ap => k.areg n
  | .xp => ⟨k.xreg n, false⟩

/-- A write of a scalar register of a side; the XP keeps no poison. -/
def Core.setReg (k : Core) (sd : Side) (n : Nat) (v : Poi) : Core :=
  match sd with
  | .ap => k.setAreg n v
  | .xp => k.setXreg n v.val

/-- A write of a scalar register of the moving side. -/
def State.put (s : State) (n : Nat) (v : Addr) : State := s.modMe (fun k => k.setReg s.cur.side n ⟨v, false⟩)

/-- A scalar register of the moving side. -/
def State.rd (s : State) (n : Nat) : Addr := (s.me.reg s.cur.side n).val

/-- Words in the three queues that have not started (R10). -/
def Core.occupancy (k : Core) : Nat := k.vq.length + k.mq.length + k.fq.length

end Sys2Proof.Machine
end

