-- ==== Sys2Proof/Machine/Trap.lean ====
section
/-! DEFINITION. Fault codes (R306) and the taking of a fault by the unit that moves: the registers it writes, where the side
stops, the delivery it posts (R28, R307, R308, R317, R318), and the return from a fault task (R320). -/

namespace Sys2Proof.Machine

/-- The fault codes of R306. -/
inductive Code where
  | illegal
  | priv
  | alignShape
  | alignIssue
  | alignAccess
  | xlate
  | perm
  | owner
  | compressed
  | poison
  | queue
  | contFull
  | doubleResolve
  | stall
  | dieAbsent
  | mustBudget
  | decode
  | linkLost
  | layout
  | seat
  | stream
  | power
  | brk
  | aperture
  deriving DecidableEq, Repr, Inhabited

/-- Number of a fault code (R306). -/
def Code.num : Code → Nat
  | .illegal => 0x01
  | .priv => 0x02
  | .alignShape => 0x03
  | .alignIssue => 0x04
  | .alignAccess => 0x05
  | .xlate => 0x06
  | .perm => 0x07
  | .owner => 0x08
  | .compressed => 0x09
  | .poison => 0x0A
  | .queue => 0x0B
  | .contFull => 0x0C
  | .doubleResolve => 0x0D
  | .stall => 0x0E
  | .dieAbsent => 0x0F
  | .mustBudget => 0x10
  | .decode => 0x11
  | .linkLost => 0x12
  | .layout => 0x13
  | .seat => 0x14
  | .stream => 0x15
  | .power => 0x16
  | .brk => 0x17
  | .aperture => 0x18

/-- A fault that a word takes: its code, the address FADDR records when that is not the word's own, DEFERRED (R28). -/
structure Trap where
  code     : Code
  faddr    : Option Addr
  deferred : Bool
  deriving DecidableEq, Repr, Inhabited

/-- A fault recorded at the word's own address. -/
def trapAt (c : Code) : Trap := ⟨c, none, false⟩

/-- A fault that concerns an address. -/
def trapOn (c : Code) (a : Addr) : Trap := ⟨c, some a, false⟩

/-- POISON at a use of a poisoned register (R97). -/
def trapPoison : Trap := ⟨.poison, none, true⟩

/-- QUEUE field of FCODE for an engine (R28). -/
def Eng.queueNo : Eng → Nat
  | .vec => 1
  | .pass => 2
  | .load => 2
  | .func => 3

/-- The delivery word of R318. `port` is the port of a source-6 fault, none for PORT 0xFF. -/
def deliveryWord (code : Nat) (deferred : Bool) (source ring : Nat) (stopped : Bool) (port : Option Nat) (core : Nat) : Addr :=
  BitVec.ofNat 64 (code + deferred.toNat * 2 ^ 8 + source * 2 ^ 9 + ring * 2 ^ 12 + stopped.toNat * 2 ^ 14 +
    (match port with
     | some p => p * 2 ^ 16
     | none => if source = 6 then 2 ^ 15 else 0) + core * 2 ^ 32)

/-- A delivery joins the core's pending list, which holds 64, or is held at its source in order (R317). -/
def postDelivery (c : Nat) (d : Delivery) (s : State) : State :=
  s.modCore c (fun k =>
    if k.pending.length < 64 then { k with pending := k.pending ++ [d] } else { k with held := k.held ++ [d] })

/-- CODE of a delivery. -/
def Delivery.code (d : Delivery) : Nat := d.w1.toNat % 256

/-- SOURCE of a delivery. -/
def Delivery.source (d : Delivery) : Nat := d.w1.toNat / 2 ^ 9 % 8

/-- Queued words in steering order. -/
def insertSeq (q : QWord) : List QWord → List QWord
  | [] => [q]
  | w :: r => if q.seq ≤ w.seq then q :: w :: r else w :: insertSeq q r

/-- Several words put into steering order. -/
def sortSeq (l : List QWord) : List QWord := l.foldr insertSeq []

/-- Words steered after a number leave the queues and are set aside behind the faulting word, with words set aside before
(R308, R320). They are part of the recorded point then, and R10's occupancy does not count them while an XP fault task steers its
own words (DESIGN CHOICE, log 88). -/
def setAside (k : Core) (w : QWord) : Core :=
  let later := fun (q : QWord) => decide (w.seq < q.seq)
  { k with
    vq := k.vq.filter (fun q => !later q)
    mq := k.mq.filter (fun q => !later q)
    fq := k.fq.filter (fun q => !later q)
    aside := sortSeq (w :: (k.vq.filter later ++ k.mq.filter later ++ k.fq.filter later ++ k.aside))
    faulted := k.faulted.filter (fun n => n != w.seq) ++ [w.seq] }

/-- FCODE of a fault (R28). -/
def fcodeOf (t : Trap) (queue : Nat) : Addr := BitVec.ofNat 64 (t.code.num + queue * 2 ^ 12 + t.deferred.toNat * 2 ^ 15)

/-- Taking an exception: the one operation by which the unit that moves takes a fault. FADDR and FCODE of its side are
written, the side stops (a fault of an engine stops the XP and sets the later words aside), and the delivery is posted. -/
def takeTrap (t : Trap) (s : State) : State :=
  let c := s.cur.core
  let faddr := t.faddr.getD s.cur.addr
  let queue := match s.cur.eng with
    | some e => e.queueNo
    | none => 0
  let source := match s.cur.eng, s.cur.side with
    | some e, _ => 1 + e.queueNo
    | none, .ap => 0
    | none, .xp => 1
  let s := s.modSide c s.cur.side (fun x => { x with run := .stopped, faddr := faddr, fcode := fcodeOf t queue })
  postDelivery c ⟨deliveryWord t.code.num t.deferred source 0 true none c, faddr, s.cur.addr, 0⟩ s

/-- What a word does: its next state, or the fault it takes. -/
def settle (r : Except Trap State) (s : State) : State :=
  match r with
  | .ok t => t
  | .error t => takeTrap t s

/-- A word at the address given leaves its engine by a fault: the words behind it are set aside with it (R308). -/
def takeQueueTrap (t : Trap) (q : QWord) (s : State) : State :=
  takeTrap t (s.modMe (fun k => setAside k q))

/-- Registers 1-4 of a side. -/
def deliveryRegs (k : Core) (sd : Side) : List Poi := [1, 2, 3, 4].map (k.reg sd)

/-- Registers 1-4 of a side written. -/
def setDeliveryRegs (k : Core) (sd : Side) (l : List Poi) : Core :=
  (l.zipIdx 1).foldl (fun k p => k.setReg sd p.2 p.1) k

/-- The fault side of a core (R317). -/
def faultSide (h : Heat) : Side := if h.hr.faultXp then .xp else .ap

/-- A number that the spec leaves open (DESIGN CHOICE, log 26). -/
def freeNat (s : State) : State × Nat := ({ s with count := s.count + 1 }, Config.free s.count)

/-- An event record joins the ring (R403): dropped and counted when the ring is full; MSI-X vector 1 when it turns
non-empty. -/
def pushEvent (e : Event) (s : State) : State :=
  let h := s.host
  if (h.evHead - h.evTail).toNat ≥ 256 then { s with host := { h with evOver := h.evOver + 1 } }
  else
    { s with host := { h with evRing := tset h.evRing (h.evHead.toNat % 256) e, evHead := h.evHead + 1
                              msix := if h.evHead = h.evTail then h.msix ++ [1] else h.msix } }

/-- An event record at the time of die S; its DATA is free where the spec gives the kind no detail (DESIGN CHOICE, log 26). -/
def eventNow (kind ctx number code : Nat) (data : Option Nat) (s : State) : State × Event :=
  let (s, d) := match data with
    | some d => (s, d)
    | none => freeNat s
  (s, { kind := kind, ctx := ctx, number := number, time := (s.die 0).tb.toNat, code := code, data := d })

/-- An event of a heat posted to the host (R403). -/
def postEvent (kind ctx number code : Nat) (data : Option Nat) (s : State) : State :=
  let (s, e) := eventNow kind ctx number code data s
  pushEvent e s

/-- An event that concerns no heat: its CTX, NUMBER and CODE are free (R403; DESIGN CHOICE, log 26). -/
def plainEvent (kind : Nat) (data : Option Nat) (s : State) : State × Event :=
  let (s, x) := freeNat s
  let (s, n) := freeNat s
  let (s, e) := freeNat s
  eventNow kind (x % 16) (n % 2 ^ 32) (e % 256) data s

/-- Such an event posted to the host. -/
def postPlain (kind : Nat) (data : Option Nat) (s : State) : State :=
  let (s, e) := plainEvent kind data s
  pushEvent e s

/-- A heat stops under R321: every unit stops at its next boundary, and each of the core's deliveries is reported. -/
def stopHeat (n c : Nat) (s : State) : State :=
  let k := s.core c
  let shown := k.pending ++ k.held
  let s := postEvent 3 (s.ctxOf c) n (shown.headD ⟨0, 0, 0, 0⟩).code none s
  let s := s.modHeat n (fun h => { h with st := .stopped, reports := h.reports ++ shown })
  s.modCore c (fun k => { k with pending := [], held := [] })

/-- The frame of a fault task's start (R318), with a landing check of a taken transfer that is still due (R51). -/
def frameOf (k : Core) (sd : Side) (d : Delivery) : Frame :=
  let x := k.side sd
  { pc := x.pc, run := x.run, land := x.land, regs := deliveryRegs k sd,
    preds := (match sd with
      | .ap => k.preds
      | .xp => 0),
    loops := x.loops,
    aside := (match sd with
      | .ap => []
      | .xp => k.aside), del := d, pix := x.pix }

/-- The oldest pending delivery starts the fault task on the fault side (R318). -/
def startFaultTask (c : Nat) (sd : Side) (entry : Addr) (d : Delivery) (s : State) : State :=
  s.modCore c (fun k =>
    let f := frameOf k sd d
    let k := { k with
      pending := k.pending.drop 1 ++ k.held.take 1
      held := k.held.drop 1
      aside := (match sd with
        | .ap => k.aside
        | .xp => []) }
    let k := setDeliveryRegs k sd [⟨d.w1, false⟩, ⟨d.w2, false⟩, ⟨d.w3, false⟩, ⟨d.w4, false⟩]
    k.modSide sd (fun x => { x with pc := entry, land := true, run := .run, loops := [], frame := some f, wait := none, pix := 0, hand := none }))

/-- Which side a delivery stopped: sources 0-4 only (R318). -/
def Delivery.stoppedSide (d : Delivery) : Option Side :=
  if d.source = 0 then some .ap else if d.source < 5 then some .xp else none

/-- The side that a delivery stopped continues at its recorded point, after a BREAK at the next word; the words set aside
behind a queue fault are steered again, the faulting word first (R320). A landing check that a taken transfer left due before a
queue fault stopped the side is still due (R51). -/
def continueSide (c : Nat) (sd : Side) (d : Delivery) (s : State) : State :=
  s.modSide c sd (fun x => if d.code = Code.brk.num then { x with run := .run, land := false, wait := none, pc := d.w3 + 4 }
    else { x with run := .run, wait := none })

/-- `rtt`: the frame is restored and the side that the delivery stopped continues. The recorded point itself is not checked;
a check that a taken branch left due is still due (R51, R320). -/
def restoreFrame (c : Nat) (sd : Side) (f : Frame) (s : State) : State :=
  let s := s.modCore c (fun k =>
    let k := setDeliveryRegs k sd f.regs
    let k := (match sd with
      | .ap => { k with preds := f.preds }
      | .xp => { k with aside := f.aside ++ k.aside })
    k.modSide sd (fun x => { x with pc := f.pc, run := f.run, land := f.land, loops := f.loops, frame := none, wait := none, pix := f.pix, hand := none }))
  match f.del.stoppedSide with
  | some sd' => continueSide c sd' f.del s
  | none => s

/-- Whether the AP waits for a load that a failed link carries (R314): it is inside that word. -/
def apAwaitsLink (s : State) (c : Nat) : Bool := s.bridge.reads.any (fun r => match r.who with
  | .ap x _ => x == c
  | _ => false)

/-- Whether a load that has not returned holds one of the registers (R95). -/
def Core.ldsWaits (k : Core) (regs : List Nat) : Bool := k.lds.any (fun w => w.d != 0 && regs.contains w.d)

end Sys2Proof.Machine
end

