-- ==== Sys2Proof/Machine/Mem.lean ====
section
/-! DEFINITION. Memory: the canonical list of bytes, where a generic address lies (R90, R264-R266), the checks of an access
(R91, R267), poison granules (R310), the remote-line caches (R272) and the accesses themselves (R314, R315). -/

namespace Sys2Proof.Machine

/-! ### Bytes -/

/-- What a byte of memory holds; a byte that is not listed holds 0 (DESIGN CHOICE, log 7). -/
def memGet (m : List Host.Cell) (a : Nat) : Byte :=
  match m with
  | [] => 0
  | (a', v) :: r => if a' = a then v else memGet r a

/-- A nonzero byte listed in its place. -/
def memIns (m : List Host.Cell) (a : Nat) (v : Byte) : List Host.Cell :=
  match m with
  | [] => [(a, v)]
  | (a', v') :: r => if a < a' then (a, v) :: (a', v') :: r else (a', v') :: memIns r a v

/-- A byte written. The list keeps its canonical form. -/
def memSet (m : List Host.Cell) (a : Nat) (v : Byte) : List Host.Cell :=
  let m' := m.filter (fun p => p.1 != a)
  if v = 0 then m' else memIns m' a v

/-- The canonical form: addresses strictly rising, no byte equal to what an unlisted one holds. -/
def Memory.wf (m : List Host.Cell) : Bool :=
  match m with
  | [] => true
  | [p] => p.2 != 0
  | p :: q :: r => p.2 != 0 && decide (p.1 < q.1) && Memory.wf (q :: r)

/-- n bytes from an address. -/
def memRead (m : List Host.Cell) (a n : Nat) : List Byte := (List.range n).map (fun i => memGet m (a + i))

/-- Bytes written from an address on. -/
def memWrite (m : List Host.Cell) (a : Nat) (l : List Byte) : List Host.Cell :=
  match l with
  | [] => m
  | b :: r => memWrite (memSet m a b) (a + 1) r

/-! ### Keys (DESIGN CHOICE, log 8) -/

/-- Key of a byte of a context's global memory. -/
def globKey (ctx va : Nat) : Nat := ctx * 2 ^ 48 + va

/-- Key of a byte of a context's window of a die's shared SRAM. -/
def sramKey (die ctx off : Nat) : Nat := 2 ^ 52 + die * 2 ^ 28 + ctx * 2 ^ 24 + off

/-- Key of a byte of a core's pool, by pool offset (R18). -/
def poolKey (c off : Nat) : Nat := 2 ^ 53 + c * 2 ^ 20 + off

/-- Key of a byte of the boathouse (R385). -/
def boatKey (off : Nat) : Nat := 2 ^ 54 + off

/-- Key of a byte of the staging buffer (R392). -/
def stageKey (off : Nat) : Nat := 2 ^ 55 + off

/-- Key of a line of a context in a die's remote-line cache. -/
def rlcKey (die ctx line : Nat) : Nat := 2 ^ 56 + die * 2 ^ 52 + globKey ctx (line * 64)

/-- Poison granule of a key: a 64-byte line in HBM, a 16-byte bank word elsewhere (R310). -/
def granuleSize (key : Nat) : Nat := if key < 2 ^ 52 then 64 else 16

/-- First key of a granule. -/
def granuleOf (key : Nat) : Nat := key / granuleSize key * granuleSize key

/-! ### Places -/

/-- Where a generic address lies (R90). -/
inductive Place where
  | glob (ctx va : Nat)
  | sram (die ctx off : Nat)
  | pool (core off : Nat)
  deriving DecidableEq, Repr, Inhabited

/-- Key of a place. -/
def Place.key : Place → Nat
  | .glob ctx va => globKey ctx va
  | .sram die ctx off => sramKey die ctx off
  | .pool c off => poolKey c off

/-- Generic address of a place; a pool byte is never reached across the bridge. -/
def Place.addr : Place → Addr
  | .glob _ va => BitVec.ofNat 64 va
  | .sram die _ off => BitVec.ofNat 64 (0xF0 * 2 ^ 56 + die * 2 ^ 32 + off)
  | .pool _ off => BitVec.ofNat 64 off

/-- A place some bytes further on. -/
def Place.plus : Place → Nat → Place
  | .glob ctx va, i => .glob ctx (va + i)
  | .sram die ctx off, i => .sram die ctx (off + i)
  | .pool c off, i => .pool c (off + i)

/-- Bytes of the die-SRAM window of a context on a die (R266). -/
def State.wsh (s : State) (ctx die : Nat) : Nat :=
  match (s.ctx ctx).conf with
  | some cf => if die = 0 then cf.wshS else cf.wshB
  | none => 0

/-- The place of a generic address for a core's heat; none when it is invalid under R90. -/
def State.place (s : State) (c : Nat) (ea : Addr) : Option Place :=
  let tag := nfld ea.toNat 56 8
  let off := nfld ea.toNat 0 56
  let ctx := s.ctxOf c
  if tag = 0x00 then
    if off < 2 ^ 48 then some (.glob ctx off) else none
  else if tag = 0xF0 then
    let die := nfld off 32 1
    if nfld off 33 23 = 0 ∧ nfld off 24 8 = 0 ∧ s.form.hasDie die = true ∧ nfld off 0 24 < s.wsh ctx die then
      some (.sram die ctx (nfld off 0 24))
    else none
  else if tag = 0xF8 then
    let k := coreAt (crewOf c) (nfld off 20 2)
    let b := nfld off 0 20
    if off < 2 ^ 22 ∧ b < (s.core k).spad then some (.pool k ((s.core k).padBase + b)) else none
  else if tag = 0xFC then
    if off < (s.core c).spad then some (.pool c ((s.core c).padBase + off)) else none
  else none

/-! ### Maps -/

/-- The page that maps an address (R263). -/
def State.page (s : State) (ctx va : Nat) : Option Page :=
  s.pages.find? (fun p => p.ctx == ctx && decide (p.va ≤ va) && decide (va < p.va + p.size))

/-- The entry of a table that gives a 2 MiB region its state: the first that holds it (R267). -/
def entryAt (l : List RegionEntry) (g : Nat) : Option RegionEntry :=
  l.find? (fun r => decide (r.base / 2 ^ 21 ≤ g) && decide (g < r.base / 2 ^ 21 + r.count))

/-- The region entry that covers an address; the first entry decides (R267). An entry covers whole 2 MiB regions, from the one that
holds BASE on (R41; DESIGN CHOICE, log 99). -/
def State.region (s : State) (ctx va : Nat) : Option RegionEntry :=
  entryAt (s.ctx ctx).regions (va / 2 ^ 21)

/-- Home channel of an address (R264). -/
def homeChannel (f : Form) (sp : Spread) (va : Nat) : Nat :=
  let g := va / 2 ^ 21
  let u := va % 2 ^ 21 / 2 ^ 12
  match sp with
  | .dev => if f = .la2h then (u + g) % 64 else (u + g) % 128
  | .dieS => (u + g) % 64
  | .dieB => 64 + (u + g) % 64

/-- Spread of an address; device spread where no region covers it. -/
def State.spreadOf (s : State) (ctx va : Nat) : Spread :=
  match s.region ctx va with
  | some r => r.spread
  | none => .dev

/-- Home channel of an address of a context. -/
def State.channelOf (s : State) (ctx va : Nat) : Nat := homeChannel s.form (s.spreadOf ctx va) va

/-- Home die of a place (R265). -/
def State.homeDie (s : State) : Place → Nat
  | .glob ctx va => s.channelOf ctx va / 64
  | .sram die _ _ => die
  | .pool c _ => dieOf c

/-- Whether a remote-line cache may hold a place (R265): a global address of one of the 16 contexts (R90). -/
def State.cacheable (s : State) : Place → Bool
  | .glob ctx va =>
    match s.region ctx va with
    | some r => decide (ctx < 16) && decide (va < 2 ^ 48) && r.st != .priv
    | none => false
  | _ => false

/-- The metadata block of a region as it stands in memory (R351). -/
def metaBlock (s : State) (ctx blk : Nat) : List Byte := memRead s.mem (globKey ctx blk) 0x840

/-- A descriptor's FMT and CLEN (R351, R352). One with a nonzero reserved field, an invalid FMT or an impossible CLEN counts as
format 1 with a stream that fails, shown by CLEN 0. -/
def descMeta (d : Nat) : Nat × Nat :=
  let fmt := nfld d 0 4
  let clen := nfld d 16 13
  if nfld d 29 3 ≠ 0 ∨ nfld d 4 12 ≠ 0 then (1, 0)
  else if fmt = 0 then (0, 0)
  else if fmt > 3 ∨ clen = 0 ∨ clen > 4096 then (1, 0)
  else (fmt, clen)

/-- The metadata of a core's heat (R352). -/
def State.descsOf (s : State) (c : Nat) : Tbl (List Byte) :=
  match s.heatOf c with
  | some h => h.descs.getD []
  | none => []

/-- Metadata of a 4 KiB unit for a core's heat: FMT and CLEN, FMT 0 for an uncompressed one (R352). -/
def State.unitMeta (s : State) (c va : Nat) : Nat × Nat :=
  match tfind (s.descsOf c) (va / 2 ^ 21) with
  | none => (0, 0)
  | some l =>
    let u := va % 2 ^ 21 / 2 ^ 12
    if fieldAt l 0 4 / 2 ^ (u / 16) % 2 = 1 then (0, 0) else descMeta (fieldAt l (0x40 + 4 * u) 4)

/-! ### Checks -/

/-- What an access does to its bytes. -/
inductive Acc where
  | load
  | store
  | fetch
  deriving DecidableEq, Repr, Inhabited

/-- Whether a page holds an address of a context. -/
def Page.holds (p : Page) (ctx va : Nat) : Bool := p.ctx == ctx && decide (p.va ≤ va) && decide (va < p.va + p.size)

/-- The translation that a party of a die uses: the page in force, or one that its die's cache may still hold while a change of
mapping is under way; one step uses old or new throughout (R263; DESIGN CHOICE, log 25). -/
def State.translation (s : State) (die ctx va : Nat) : Option Page :=
  match s.page ctx va with
  | some p => some p
  | none => (s.die die).tlb.find? (fun p => p.holds ctx va && Config.oldPage s.turns die)

/-- Checks 4-7 of R91 at a global address for a core and its engines. -/
def checkGlobal (s : State) (c ctx va : Nat) (acc : Acc) : Option Code :=
  match s.translation (dieOf c) ctx va, s.region ctx va with
  | some p, some r =>
    if r.st = .priv ∧ r.owner ≠ c then some .owner
    else if (acc = .store ∧ (r.st = .frozen ∨ p.w = false)) ∨ (acc ≠ .store ∧ p.r = false) then some .perm
    else if (s.unitMeta c va).1 ≠ 0 then some .compressed
    else none
  | _, _ => some .xlate

/-- Checks 3-7 of R91: the place of an address, or the code of the first check that fails. -/
def checkAddr (s : State) (c : Nat) (ea : Addr) (acc : Acc) : Except Code Place :=
  match s.place c ea with
  | none => .error .aperture
  | some (.glob ctx va) =>
    match checkGlobal s c ctx va acc with
    | some e => .error e
    | none => .ok (.glob ctx va)
  | some p => .ok p

/-- The addresses at which an access of n bytes meets a page, a region or a 4 KiB unit for the first time. -/
def unitStarts (ea n : Nat) : List Nat :=
  if n = 0 then []
  else ea :: ((List.range ((ea % 4096 + n - 1) / 4096)).map (fun i => (ea / 4096 + 1 + i) * 4096))

/-- The first address of an access that fails a check, with its code. -/
def firstBad (s : State) (c : Nat) (acc : Acc) : List Nat → Option (Code × Addr)
  | [] => none
  | a :: r =>
    match checkAddr s c (BitVec.ofNat 64 a) acc with
    | .error e => some (e, BitVec.ofNat 64 a)
    | .ok _ => firstBad s c acc r

/-- Checks 3-7 of R91 over n bytes: the first byte that fails, with its code. -/
def checkRange (s : State) (c : Nat) (ea : Addr) (n : Nat) (acc : Acc) : Option (Code × Addr) :=
  firstBad s c acc (unitStarts ea.toNat n)

/-! ### Poison -/

/-- Whether a granule at home is poisoned. -/
def State.badAt (s : State) (key : Nat) : Bool := s.bad.contains (granuleOf key)

/-- A granule poisoned. -/
def poisonKey (key : Nat) (s : State) : State :=
  if s.badAt key then s else { s with bad := s.bad ++ [granuleOf key] }

/-- A granule made clean. -/
def cleanKey (key : Nat) (s : State) : State := { s with bad := s.bad.filter (fun g => g != granuleOf key) }

/-- First keys of the granules that n bytes from a key touch. -/
def granules (key n : Nat) : List Nat :=
  if n = 0 then []
  else
    let g := granuleSize key
    (List.range ((key % g + n - 1) / g + 1)).map (fun i => (key / g + i) * g)

/-- Poison after a write of n bytes: a granule wholly covered becomes as the write, one partly covered is at least as
poisoned as before (R310). -/
def markWrite (key n : Nat) (poisoned : Bool) (s : State) : State :=
  (granules key n).foldl (fun s g =>
    if poisoned then poisonKey g s
    else if key ≤ g ∧ g + granuleSize key ≤ key + n then cleanKey g s
    else s) s

/-! ### The remote-line cache (R272) -/

/-- The cached copy of a line. -/
def Die.line (d : Die) (ctx line : Nat) : Option RlcLine := d.rlc.find? (fun l => l.ctx == ctx && l.line == line)

/-- A die without its copy of a line. -/
def Die.dropLine (d : Die) (ctx line : Nat) : Die := { d with rlc := d.rlc.filter (fun l => !(l.ctx == ctx && l.line == line)) }

/-- Lines of a die's remote-line cache: 8 MiB (R3). -/
def rlcLines : Nat := 131072

/-- A line written into the cache of a die, in place of an older copy; what it holds too many leaves after the step. -/
def Die.putLine (d : Die) (l : RlcLine) : Die :=
  { d with rlc := (d.rlc.filter (fun x => !(x.ctx == l.ctx && x.line == l.line))) ++ [l] }

/-- The line as home holds it. -/
def homeLine (s : State) (ctx line : Nat) : RlcLine :=
  let key := globKey ctx (line * 64)
  { ctx := ctx, line := line, data := BitVec.ofNat 512 (bytesNat (memRead s.mem key 64)), dirty := false,
    poison := s.badAt key }

/-- Whether a heat has been launched and has not ended. -/
def Heat.begun (h : Heat) : Bool := h.st != .complete && (h.st != .queued || h.hr.resume)

/-- A content that a line is about to lose is kept for the `.inv` loads of the heats of its context that have begun, with how many
launches there have been: a heat launched later has never seen it (R99; DESIGN CHOICE, log 18). -/
def keepPast (l : RlcLine) (s : State) : State :=
  let l := { l with dirty := false }
  if s.heats.any (fun h => h.begun && h.hr.ctx == l.ctx) then
    { s with past := s.past.filter (fun p => p.2 != l) ++ [(s.launches, l)] }
  else s

/-- A cached line's bytes written at home, with its poison. -/
def writeHome (l : RlcLine) (s : State) : State :=
  let key := globKey l.ctx (l.line * 64)
  let s := keepPast (homeLine s l.ctx l.line) s
  let s := { s with mem := memWrite s.mem key (bvBytes 64 l.data) }
  if l.poison then poisonKey key s else cleanKey key s

/-- Whether the bridge is down: no link of a kind remains (R313). -/
def State.bridgeDown (s : State) : Bool :=
  s.form.hasDie 1 && ((List.range 8).all (fun l => s.bridge.failed.contains l) || [8, 9, 10, 11].all (fun l => s.bridge.failed.contains l))

/-- The link that an access loses when the bridge is down. -/
def State.downLink (s : State) : Option Nat := if s.bridgeDown then s.bridge.failed.head? else none

/-- The link that loses the writes of this step: those made after a lost read has completed take another. -/
def State.wlink (s : State) : Option Nat := if s.cur.lost then none else s.cur.link

/-- The step's link has lost a read. -/
def sawLost (s : State) : State := { s with cur := { s.cur with lost := true } }

/-- A write of n bytes that a failing link carries is not performed: the part keeps each target line, the granule and an
address in it (R315). -/
def loseWrite (link die key n : Nat) (addr : Addr) (cores : List Nat) (s : State) : State :=
  let lost := (granules key n).map (fun g => (⟨link, die, g, addr + BitVec.ofNat 64 (g - key), cores⟩ : LostWrite))
  { s with bridge := { s.bridge with writes := s.bridge.writes ++ lost } }

/-- Whether a write that a party of a die made was lost and is not yet poison at home: what a release of that die waits for (R315). -/
def State.owes (s : State) (die : Nat) : Bool := s.bridge.writes.any (fun w => w.die == die)

/-- Whether n bytes from a key meet the granule of such a write: the die's later accesses there come after the poison, which takes the
write's place in coherence order (R271, R315). -/
def State.owesAt (s : State) (die key n : Nat) : Bool :=
  s.bridge.writes.any (fun w => w.die == die && decide (w.key < key + n) && decide (key < w.key + granuleSize w.key))

/-- The lowest-numbered core, on the caching die, of each running heat of a context (R315). -/
def writeBackCores (s : State) (die ctx : Nat) : List Nat :=
  s.heats.flatMap (fun h =>
    if h.st = .running ∧ h.hr.ctx = ctx then (h.hr.cores.filter (fun c => dieOf c == die)).take 1 else [])

/-- A dirty line is written back and stays, clean; a write-back that a failing link carries is lost. -/
def writeBack (die : Nat) (l : RlcLine) (s : State) : State :=
  if l.dirty then
    let key := globKey l.ctx (l.line * 64)
    (match s.wlink with
      | some k => loseWrite k die key 64 (BitVec.ofNat 64 (l.line * 64)) (writeBackCores s die l.ctx) s
      | none => writeHome l s).modDie die (fun d => d.putLine { l with dirty := false })
  else s

/-- Lines leave a die's cache until it holds no more than its capacity, dirty ones written back; which line goes is free (R3,
R272; DESIGN CHOICE, log 80). -/
def evictLines (fuel die : Nat) (s : State) : State :=
  match fuel with
  | 0 => s
  | fuel + 1 =>
    let n := (s.die die).rlc.length
    if n ≤ rlcLines then s
    else
      match (s.die die).rlc[Config.pick s.count % n]? with
      | some l =>
        let s := writeBack die l { s with count := s.count + 1 }
        evictLines fuel die (s.modDie die (fun d => { d.dropLine l.ctx l.line with
          invs := d.invs.filter (fun p => !(p.1 == l.ctx && p.2 == l.line)) }))
      | none => s

/-- A line that a die may hold dirty is written back first (recall). -/
def recallLine (die ctx line : Nat) (s : State) : State :=
  match (s.die die).line ctx line with
  | some l => writeBack die l s
  | none => s

/-- The invalidation of a clean copy takes effect: the copy is dropped (R272). -/
def applyInv (die ctx line : Nat) (s : State) : State :=
  s.modDie die (fun d =>
    let d := { d with invs := d.invs.filter (fun p => !(p.1 == ctx && p.2 == line)) }
    match d.line ctx line with
    | some l => if l.dirty then d else d.dropLine ctx line
    | none => d)

/-- An invalidation is sent to the other die's cache when it holds a copy. -/
def sendInv (die ctx line : Nat) (s : State) : State :=
  match (s.die die).line ctx line with
  | some _ => s.modDie die (fun d => { d with invs := d.invs.filter (fun p => !(p.1 == ctx && p.2 == line)) ++ [(ctx, line)] })
  | none => s

/-- The lines of some contexts leave a die's cache, dirty ones written back first (R270, R272). -/
def emptyLines (die : Nat) (gone : Nat → Bool) (s : State) : State :=
  let s := ((s.die die).rlc.filter (fun l => gone l.ctx)).foldl (fun s l => writeBack die l s) s
  s.modDie die (fun d => { d with rlc := d.rlc.filter (fun l => !gone l.ctx), invs := d.invs.filter (fun p => !gone p.1) })

/-- The dirty lines of a context on a die are written back, and the invalidations on their way to the die's copies of its lines
arrive. -/
def settleLines (die ctx : Nat) (s : State) : State :=
  let s := ((s.die die).rlc.filter (fun l => l.ctx == ctx)).foldl (fun s l => writeBack die l s) s
  ((s.die die).invs.filter (fun p => p.1 == ctx)).foldl (fun s p => applyInv die p.1 p.2 s) s

/-- Every dirty line of a die is written back, and every invalidation sent to the other die takes effect: what a release
at `.dev` or `.sys` waits for (R275). -/
def flushDie (die : Nat) (s : State) : State :=
  let s := (s.die die).rlc.foldl (fun s l => writeBack die l s) s
  (s.die (1 - die)).invs.foldl (fun s p => applyInv (1 - die) p.1 p.2 s) s

/-! ### Accesses -/

/-- How an access is served. `home` is an acquire at `.dev` or `.sys`, an ACCW element, or the part's own access; `inv` an
`.inv` load or a fetch of a shape with INV (R282). -/
inductive Serve where
  | relaxed
  | home
  | inv
  deriving DecidableEq, Repr, Inhabited

/-- What a read returns: bytes and whether any granule of them is poisoned. -/
structure Got where
  bytes  : List Byte
  poison : Bool
  deriving DecidableEq, Repr, Inhabited

/-- A unit's outstanding read that a failed link lost is dropped with what it was for. -/
def dropReads (gone : LostReader → Bool) (s : State) : State :=
  { s with bridge := { s.bridge with reads := s.bridge.reads.filter (fun r => !gone r.who) } }

/-- A step of a filler or an engine: one whose reads the failing link loses is outstanding until they complete (R314). -/
def overLink (who : LostReader) (f : State → State) (s : State) : State :=
  if s.bridge.reads.any (fun r => r.who == who) then s
  else
    let t := f s
    match t.cur.lost, s.cur.link with
    | true, some l => { s with bridge := { s.bridge with reads := s.bridge.reads ++ [⟨l, who⟩] } }
    | _, _ => t

/-- What a read that a failed link lost returns: poison (R314). -/
def lostRead (key n : Nat) : Got := ⟨(List.range n).map (fun i => Config.lostByte (key + i)), true⟩

/-- A read of n bytes at home. -/
def readKey (s : State) (key n : Nat) : Got := ⟨memRead s.mem key n, (granules key n).any (fun g => s.badAt g)⟩

/-- The part of n bytes at a global address that lies in its first line. -/
def inLine (va n : Nat) : Nat := Nat.min n (64 - va % 64)

/-- Bytes of a line that a copy of it gives. -/
def RlcLine.got (l : RlcLine) (va n : Nat) : Got := ⟨((bvBytes 64 l.data).drop (va % 64)).take n, l.poison⟩

/-- A relaxed read of bytes of one line by a party of a die: from that die's cache when the line is homed on the other die and
may be cached, else from home (R272). A read over a link that fails returns poison and caches nothing (R314). -/
def readRelaxed (s : State) (die ctx va n : Nat) : State × Got :=
  let p := Place.glob ctx va
  let line := va / 64
  let far := s.homeDie p ≠ die
  if far ∧ s.cacheable p = true then
    match (s.die die).line ctx line with
    | some l => (s, l.got va n)
    | none =>
      if s.cur.link.isSome = true then (sawLost s, lostRead (globKey ctx va) n)
      else
        let l := homeLine s ctx line
        (s.modDie die (fun d => d.putLine l), l.got va n)
  else if far ∧ s.cur.link.isSome = true then (sawLost s, lostRead (globKey ctx va) n)
  else (s, readKey s (globKey ctx va) n)

/-- A read of bytes of one line at home, after a recall. A reader on the far die loses its own copy, which may be older, so that
its later loads do not go back (R271, R272). -/
def readHomeLine (s : State) (die ctx va n : Nat) : State × Got :=
  let home := s.homeDie (.glob ctx va)
  let s := recallLine (1 - home) ctx (va / 64) s
  if home = die then (s, readKey s (globKey ctx va) n)
  else if s.cur.link.isSome then (sawLost s, lostRead (globKey ctx va) n)
  else (applyInv die ctx (va / 64) s, readKey s (globKey ctx va) n)

/-- The number of the launch of the moving core's heat. -/
def State.launchNo (s : State) : Nat :=
  match s.heatOf s.cur.core with
  | some h => h.launched
  | none => 0

/-- What an `.inv` read of bytes of a line may return beside what a relaxed one does: each copy, and each content that the line has
lost since the heat's launch, that differs (R99, R282). A place that no cache may hold (PRIVATE, a scratchpad, die SRAM) gives its
value now, under a broken promise too (DESIGN CHOICE, log 18). -/
def invGots (s : State) (ctx va n : Nat) (g : Got) : List Got :=
  let line := va / 64
  let copies := [homeLine s ctx line] ++ ([0, 1].filterMap (fun d => (s.die d).line ctx line)) ++
    (s.past.filter (fun p => p.2.ctx == ctx && p.2.line == line && decide (s.launchNo < p.1))).map (fun p => p.2)
  if s.cacheable (.glob ctx va) then (copies.map (fun l => l.got va n)).filter (fun h => h != g) else []

/-- An `.inv` read of bytes of one line: as a relaxed one while every copy agrees, as R99 promises; else any of the values, each
load choosing for itself (R99, R282; DESIGN CHOICE, log 18). -/
def readInv (s : State) (die ctx va n : Nat) : State × Got :=
  let (t, g) := readRelaxed s die ctx va n
  let l := invGots s ctx va n g
  if s.cur.link.isSome ∨ l = [] then (t, g)
  else ({ t with count := t.count + 1 }, (g :: l).getD (Config.pick t.count % (l.length + 1)) g)

/-- A read of bytes of one line by a party of a die, as it is served. -/
def readLine (s : State) (die ctx va n : Nat) (sv : Serve) : State × Got :=
  match sv with
  | .relaxed => readRelaxed s die ctx va n
  | .home => readHomeLine s die ctx va n
  | .inv => readInv s die ctx va n

/-- A read of n bytes of global memory, line by line; `fuel` bounds the lines. -/
def readLines (fuel : Nat) (s : State) (die ctx va n : Nat) (sv : Serve) : State × Got :=
  match fuel with
  | 0 => (s, ⟨[], false⟩)
  | fuel + 1 =>
    if n = 0 then (s, ⟨[], false⟩)
    else
      let m := inLine va n
      let (s, g) := readLine s die ctx va m sv
      let (s, h) := readLines fuel s die ctx (va + m) (n - m) sv
      (s, ⟨g.bytes ++ h.bytes, g.poison || h.poison⟩)

/-- A read of n bytes at a place by a party of a die (DEDUCED, log 10). -/
def readPlace (s : State) (die : Nat) (p : Place) (n : Nat) (sv : Serve) : State × Got :=
  match p with
  | .glob ctx va => readLines (n / 64 + 2) s die ctx va n sv
  | _ =>
    if s.homeDie p ≠ die ∧ s.cur.link.isSome = true then (sawLost s, lostRead p.key n)
    else (s, readKey s p.key n)

/-- A write of bytes at home, with their poison. -/
def writeKey (key : Nat) (l : List Byte) (poisoned : Bool) (s : State) : State :=
  markWrite key l.length poisoned { s with mem := memWrite s.mem key l }

/-- A write of bytes of one line at home, after a recall (R272). A writer on the far die loses its own copy at once, so that its
later loads return the write (R271, R281); from home an invalidation goes to the other die. -/
def writeAtHome (die ctx va : Nat) (l : List Byte) (poisoned : Bool) (s : State) : State :=
  let home := s.homeDie (.glob ctx va)
  let line := va / 64
  let s := recallLine (1 - home) ctx line s
  let s := writeKey (globKey ctx va) l poisoned (if s.cacheable (.glob ctx va) then keepPast (homeLine s ctx line) s else s)
  if home = die then sendInv (1 - home) ctx line s else applyInv (1 - home) ctx line s

/-- A write of bytes of one line into the cache of the writer's die, the line fetched first when it is absent (R272). -/
def writeCached (die ctx va : Nat) (l : List Byte) (poisoned : Bool) (s : State) : State :=
  let old := ((s.die die).line ctx (va / 64)).getD (homeLine s ctx (va / 64))
  let bs := bvBytes 64 old.data
  let bs := bs.take (va % 64) ++ l ++ bs.drop (va % 64 + l.length)
  (keepPast old s).modDie die (fun d => d.putLine { old with
    data := BitVec.ofNat 512 (bytesNat bs)
    dirty := true
    poison := if l.length = 64 then poisoned else old.poison || poisoned })

/-- A write of bytes of one line by a party of a die (R272): into that die's cache when the line is homed on the other die
and may be cached, else at home; lost where a failing link carries it (R315). -/
def writeLine (c die ctx va : Nat) (l : List Byte) (poisoned : Bool) (sv : Serve) (s : State) : State :=
  let p := Place.glob ctx va
  let line := va / 64
  let far := s.homeDie p ≠ die
  let lose := fun (k : Nat) => loseWrite k die (globKey ctx va) l.length (BitVec.ofNat 64 va) [c]
  if far ∧ s.cacheable p = true ∧ sv = .relaxed then
    let s := if (s.die die).invs.contains (ctx, line) then applyInv die ctx line s else s
    match s.wlink, (s.die die).line ctx line with
    | some k, none => lose k s
    | _, _ => writeCached die ctx va l poisoned s
  else
    match s.wlink with
    | some k => if far then lose k s else writeAtHome die ctx va l poisoned s
    | none => writeAtHome die ctx va l poisoned s

/-- A write of bytes of global memory, line by line. -/
def writeLines (fuel c die ctx va : Nat) (l : List Byte) (poisoned : Bool) (sv : Serve) (s : State) : State :=
  match fuel with
  | 0 => s
  | fuel + 1 =>
    if l.isEmpty then s
    else
      let m := inLine va l.length
      writeLines fuel c die ctx (va + m) (l.drop m) poisoned sv (writeLine c die ctx va (l.take m) poisoned sv s)

/-- A write of bytes at a place by a party of a die, for a core (DEDUCED, log 9). -/
def writePlace (c die : Nat) (p : Place) (l : List Byte) (poisoned : Bool) (sv : Serve) (s : State) : State :=
  match p with
  | .glob ctx va => writeLines (l.length / 64 + 2) c die ctx va l poisoned sv s
  | _ =>
    match s.wlink with
    | some k => if s.homeDie p ≠ die then loseWrite k die p.key l.length p.addr [c] s else writeKey p.key l poisoned s
    | none => writeKey p.key l poisoned s

/-- A read by a core or its engines at a generic address already checked; bytes of an invalid address read 0. -/
def readAt (s : State) (c : Nat) (ea : Addr) (n : Nat) (sv : Serve) : State × Got :=
  match s.place c ea with
  | some p => readPlace s (dieOf c) p n sv
  | none => (s, ⟨List.replicate n 0, false⟩)

/-- A write by a core or its engines at a generic address already checked. -/
def writeAt (c : Nat) (ea : Addr) (l : List Byte) (poisoned : Bool) (sv : Serve) (s : State) : State :=
  match s.place c ea with
  | some p => writePlace c (dieOf c) p l poisoned sv s
  | none => s

/-- Poisoned pieces of what was written at an address marked with memory poison (R143, R310, R311). They belong to that write: what it
lost or overwrote counts once. -/
def markPieces (c : Nat) (ea : Addr) (s : State) : List (List Byte × Bool) → State
  | [] => s
  | (l, bad) :: r =>
    let t := if bad then { writeAt c ea l true .relaxed s with bridge := s.bridge, past := s.past } else s
    markPieces c (ea + BitVec.ofNat 64 l.length) t r

/-! ### The part's own accesses (R274, R300, R406) -/

/-- No link of the bridge fails under the part's own access; with the bridge down none is left to carry it. -/
def noLink (s : State) : State := { s with cur := { s.cur with link := s.downLink, lost := false } }

/-- Lines that n bytes from a global address touch. -/
def linesOf (va n : Nat) : List Nat := if n = 0 then [] else (List.range ((va % 64 + n - 1) / 64 + 1)).map (fun i => va / 64 + i)

/-- Bytes written at home for the host or the part, after any recall; the write is performed, and what follows it may go on, once
every copy elsewhere is gone (R282, R390, R406). -/
def partWrite (ctx va : Nat) (l : List Byte) (s : State) : State :=
  (linesOf va l.length).foldl (fun s ln => applyInv 1 ctx ln (applyInv 0 ctx ln s))
    (writeLines (l.length / 64 + 2) 0 0 ctx va l false .home (noLink s))

/-- Bytes read at home for the host or the part, after any recall. -/
def partRead (ctx va n : Nat) (s : State) : State × List Byte :=
  let (s, g) := readLines (n / 64 + 2) (noLink s) 0 ctx va n .home
  (s, g.bytes)

/-! ### What a party sees -/

/-- The byte a party of a die would read at a place, caches seen, nothing changed: what frames are stated with. -/
def peek (s : State) (die : Nat) (p : Place) : Byte :=
  match (readPlace s die p 1 .relaxed).2.bytes with
  | b :: _ => b
  | [] => 0

end Sys2Proof.Machine
end

