-- ==== Sys2Proof/Machine/Operands.lean ====
section
/-! DEFINITION. Operand forms: the vector operand code and rotation (R16), element types (R23, R14), and the registers that
each queued word reads and writes (R9 rule 1). -/

namespace Sys2Proof.Machine

/-- ETYPE of a VT value (R23). -/
def vtType (vt : BitVec 64) : Nat := nfld vt.toNat 0 5

/-- MSEL of a VT value. -/
def vtMask (vt : BitVec 64) : Nat := nfld vt.toNat 5 3

/-- ROT_BASE of a VT value. -/
def vtBase (vt : BitVec 64) : Nat := nfld vt.toNat 8 7

/-- ROT_SIZE of a VT value. -/
def vtSize (vt : BitVec 64) : Nat := nfld vt.toNat 15 7

/-- ROT_OFS of a VT value. -/
def vtOfs (vt : BitVec 64) : Nat := nfld vt.toNat 22 7

/-- The checks of R23 on a value written to VT. -/
def vtOk (nv : Nat) (vt : BitVec 64) : Bool :=
  decide (vtType vt < 15) && decide (vt.toNat < 2 ^ 29) && decide (vtBase vt + vtSize vt ≤ nv) &&
    (vtSize vt == 0 || decide (vtOfs vt < vtSize vt))

/-- The register a code names after rotation (R16). -/
def rename (vt : BitVec 64) (c : Nat) : Nat :=
  let b := vtBase vt
  let n := vtSize vt
  if n > 0 ∧ b ≤ c ∧ c < b + n then b + (c - b + vtOfs vt) % n else c

/-- Bits of an element type (R23). -/
def etBits (e : Nat) : Nat :=
  match e with
  | 0 => 4
  | 1 => 8
  | 2 => 16
  | 3 => 32
  | 4 => 4
  | 5 => 8
  | 6 => 16
  | 7 => 32
  | 8 => 4
  | 9 => 8
  | 10 => 8
  | 11 => 16
  | 12 => 16
  | 13 => 32
  | _ => 8

/-- Element count of a type (R14). -/
def etCount (e : Nat) : Nat := 4096 / etBits e

/-- Whether an element type is signed (R53). -/
def etSigned (e : Nat) : Bool := decide (e < 4)

/-- A register named by a queued word; `n` stands for n0-n7 together. -/
inductive RegName where
  | v (i : Nat)
  | m (i : Nat)
  | x (i : Nat)
  | n
  deriving DecidableEq, Repr, Inhabited

/-- The register of an operand code; a port is no register. -/
def codeReg (vt : BitVec 64) (c : Nat) : List RegName := if c < 96 then [.v (rename vt c)] else []

/-- The registers of a span of codes. -/
def spanRegs (vt : BitVec 64) (c f : Nat) : List RegName := (List.range f).map (fun i => .v (rename vt (c + i)))

/-- The mask that MSEL names, when the word uses it. -/
def maskRegs (vt : BitVec 64) (m : Bool) : List RegName := if m then [.m (vtMask vt)] else []

/-- Registers of a word with sources a and b; `keep` when the old destination is read. -/
def regs3 (vt : BitVec 64) (d a b : Nat) (m keep : Bool) : List RegName × List RegName :=
  (codeReg vt a ++ codeReg vt b ++ maskRegs vt m ++ (if keep || m then codeReg vt d else []), codeReg vt d)

/-- Registers of a word with one source. -/
def regs2 (vt : BitVec 64) (d a : Nat) (m : Bool) : List RegName × List RegName :=
  (codeReg vt a ++ maskRegs vt m ++ (if m then codeReg vt d else []), codeReg vt d)

/-- Widening factor of R179 and R180. -/
def quadFactor (q : Bool) : Nat := if q then 4 else 2

/-- Registers of a widening word. -/
def regsWide (vt : BitVec 64) (d a b : Nat) (q m keep : Bool) : List RegName × List RegName :=
  (codeReg vt a ++ codeReg vt b ++ maskRegs vt m ++ (if keep || m then spanRegs vt d (quadFactor q) else []),
    spanRegs vt d (quadFactor q))

/-- Ratio of the wider to the narrower of two types (R181). -/
def cvtRatio (src dst : Nat) : Nat := Nat.max (etBits src) (etBits dst) / Nat.min (etBits src) (etBits dst)

/-- Registers that a conversion's source or destination spans: the ratio on the wider side, 1 on the other. -/
def cvtSpan (wide narrow : Nat) : Nat := if etBits wide > etBits narrow then cvtRatio wide narrow else 1

/-- The registers that a queued word reads and those it writes, under the VT it captured (R9 rule 1). -/
def wordRegs (vt : BitVec 64) : Instr → List RegName × List RegName
  | .vadd d a b _ m => regs3 vt d a b m false
  | .vsub d a b _ m => regs3 vt d a b m false
  | .vmul d a b _ m => regs3 vt d a b m false
  | .vmulh d a b m => regs3 vt d a b m false
  | .vmad d a b _ m => regs3 vt d a b m true
  | .vmin d a b m => regs3 vt d a b m false
  | .vmax d a b m => regs3 vt d a b m false
  | .vabs d a _ m => regs2 vt d a m
  | .vand d a b m => regs3 vt d a b m false
  | .vor d a b m => regs3 vt d a b m false
  | .vxor d a b m => regs3 vt d a b m false
  | .vnot d a m => regs2 vt d a m
  | .vshl d a b _ m => regs3 vt d a b m false
  | .vshr d a b _ m => regs3 vt d a b m false
  | .vsra d a b _ m => regs3 vt d a b m false
  | .vcmp d a b _ => (codeReg vt a ++ codeReg vt b, [.m d])
  | .vsel d a b => (codeReg vt a ++ codeReg vt b ++ maskRegs vt true, codeReg vt d)
  | .vwadd d a b _ q m => regsWide vt d a b q m false
  | .vwmul d a b _ q m => regsWide vt d a b q m false
  | .vwmad d a b _ q m => regsWide vt d a b q m true
  | .vnarrow d a _ q m =>
    (spanRegs vt a (quadFactor q) ++ maskRegs vt m ++ (if m then codeReg vt d else []), codeReg vt d)
  | .vcvt d a _ e _ m =>
    let fs := cvtSpan e (vtType vt)
    let fd := cvtSpan (vtType vt) e
    ((if fs > 1 then spanRegs vt a fs else codeReg vt a) ++ maskRegs vt m ++
      (if m then (if fd > 1 then spanRegs vt d fd else codeReg vt d) else []),
      if fd > 1 then spanRegs vt d fd else codeReg vt d)
  | .vfadd d a b _ m => regs3 vt d a b m false
  | .vfsub d a b _ m => regs3 vt d a b m false
  | .vfmul d a b _ m => regs3 vt d a b m false
  | .vfma d a b _ m => regs3 vt d a b m true
  | .vfmin d a b _ m => regs3 vt d a b m false
  | .vfmax d a b _ m => regs3 vt d a b m false
  | .vfcmp d a b _ => (codeReg vt a ++ codeReg vt b, [.m d])
  | .vfsgn d a b _ m => regs3 vt d a b m false
  | .vred d a _ _ _ m => (codeReg vt a ++ maskRegs vt m, codeReg vt d)
  | .vcompress d a => (codeReg vt a ++ maskRegs vt true, codeReg vt d)
  | .vexpand d a => (codeReg vt a ++ maskRegs vt true, codeReg vt d)
  | .vperm d a m => (.n :: (codeReg vt a ++ maskRegs vt m ++ (if m then codeReg vt d else [])), codeReg vt d)
  | .vslide d a _ => (codeReg vt a, codeReg vt d)
  | .vbcast d a _ => (codeReg vt a, codeReg vt d)
  | .mand d a b => ([.m a, .m b], [.m d])
  | .mor d a b => ([.m a, .m b], [.m d])
  | .mnot d a => ([.m a], [.m d])
  | .mpop d a => ([.m a], [.x d])
  | .seat x => ([], [.x x])
  | .mmulg _ _ x _ _ _ => ([.x x], [])
  | .drain _ x _ _ => ([.x x], [])
  | .rpop v => ([], codeReg vt v)
  | .exp2 d a m => regs2 vt d a m
  | .log2 d a m => regs2 vt d a m
  | .rcp d a m => regs2 vt d a m
  | .rsqrt d a m => regs2 vt d a m
  | .sinpi d a m => regs2 vt d a m
  | .cospi d a m => regs2 vt d a m
  | .tanh d a m => regs2 vt d a m
  | .sigm d a m => regs2 vt d a m
  | _ => ([], [])

/-- The instruction a queued word stands for. -/
def wordInstr (w : Word) : Option Instr :=
  match decodeWord w.toNat with
  | .ok i => some i
  | .error _ => none

/-- Register sets of a queued word. -/
def QWord.regs (q : QWord) : List RegName × List RegName :=
  match wordInstr q.word with
  | some i => wordRegs q.vt i
  | none => ([], [])

/-- The words in progress. -/
def Core.started (k : Core) : List QWord :=
  [k.inVec, k.inPass, k.inLoad, k.inFun].filterMap (fun o => o.map (fun w => w.q))

/-- The steered words that have not completed. -/
def Core.unfinished (k : Core) : List QWord := k.vq ++ k.mq ++ k.fq ++ k.started

/-- Whether two lists of registers share one. -/
def shares (a b : List RegName) : Bool := a.any (fun r => b.contains r)

/-- R9 rule 1 between a later reader or writer of the given registers and one earlier word: it waits for the earlier word's
writes of them and for its reads of them. -/
def dependsOn (reads writes : List RegName) (w : QWord) : Bool :=
  shares (reads ++ writes) (w.regs.1 ++ w.regs.2)

/-- Whether an earlier-steered unfinished word holds back a sequencer word with the given registers (R9 rule 1). -/
def Core.holdsBack (k : Core) (reads writes : List RegName) : Bool := k.unfinished.any (dependsOn reads writes)

end Sys2Proof.Machine
end

