-- ==== Sys2Proof/Machine/Ops.lean ====
section
/-! DEFINITION. The operations that words share: completing a word and its loop check (R87, R165), transfers (R85, R88), the
waits before a word (R9, R95, R207, R208), loads and stores of the AP (R91-R98), releases (R275), the start of a fault task (R317). -/

namespace Sys2Proof.Machine

/-- What the meaning of an instruction answers. -/
abbrev Res := Host.Outcome State Fault Refusal

/-! ### Completing a word -/

/-- VT after one rotation step of `lsp` (R165). -/
def rotStep (vt : BitVec 64) : BitVec 64 :=
  if vtSize vt = 0 then vt
  else BitVec.ofNat 64 (vt.toNat % 2 ^ 22 + (vtOfs vt + vtSize vt - 1) % vtSize vt * 2 ^ 22)

/-- What the loop check after a completed word leaves: the stack, the back-edge taken, VT and G. -/
structure LoopEnd where
  loops : List Loop
  back  : Option Addr
  vt    : BitVec 64
  g     : BitVec 16
  deriving DecidableEq, Repr, Inhabited

/-- The loop check after a word completes without a taken transfer (R87, R164, R165); `done a` says whether `a` is one of its
words. An `lsp` entry (SL not 0) also rotates VT and shifts G at the end of each pass (DEDUCED, log 41). -/
def closeLoops (done : Addr → Bool) (vt : BitVec 64) (g : BitVec 16) : List Loop → LoopEnd
  | [] => ⟨[], none, vt, g⟩
  | t :: r =>
    if done t.stop then
      let vt' := if t.sl = 0 then vt else rotStep vt
      let g' := if t.sl = 0 then g else (g <<< 1) ||| (if t.started < t.n then 1 else 0)
      let t' := { t with left := t.left - 1, started := if t.started < t.n then t.started + 1 else t.started }
      if t.left - 1 > 0 then ⟨t' :: r, some t.start, vt', g'⟩ else closeLoops done vt' g' r
    else ⟨t :: r, none, vt, g⟩

/-- The moving side leaves its word of `len` bytes: the pc moves past it, or to START of a loop whose pass it ends. -/
def moveOn (len : Nat) (s : State) : State :=
  let a := s.cur.addr
  let r := closeLoops (fun e => e == a || (len == 8 && e == a + 4)) s.me.vt s.me.g s.mySide.loops
  s.modMe (fun k =>
    ({ k with vt := r.vt, g := r.g }).modSide s.cur.side (fun x =>
      { x with
        loops := r.loops
        pc := r.back.getD (a + BitVec.ofNat 64 len)
        land := r.back.isSome
        wait := none }))

/-- The moving side's word of `len` bytes completes. -/
def finishN (len : Nat) (s : State) : State := (moveOn len s).act s.cur.core

/-- A one-word instruction of the moving side completes. -/
def finish (s : State) : State := finishN 4 s

/-- Entries that a taken branch to T leaves behind: those whose body does not hold T (R88). -/
def leaveLoops (t : Addr) (l : List Loop) : List Loop :=
  l.dropWhile (fun e => !(decide (e.start ≤ t) && decide (t ≤ e.stop)))

/-- A transfer of the moving side to T, subject to the landing check (R51, R85). -/
def jump (t : Addr) (s : State) : State := (s.modMySide (fun x => { x with pc := t, land := true })).act s.cur.core

/-- A taken branch to T (R85, R88). -/
def branch (t : Addr) (s : State) : State :=
  jump t (s.modMySide (fun x => { x with loops := leaveLoops t x.loops }))

/-- Target of a branch word (R8). -/
def branchTarget (s : State) (o : BitVec 18) : Addr := s.cur.addr + (sx o <<< 2)

/-- `loop` on either side (R87, R164): `n` is the count read. With n = 0 the skip to END + 4 runs no loop check, even where the
word stands at the END of an enclosing loop (DESIGN CHOICE, log 75). -/
def openLoop (n : Nat) (o : BitVec 18) (s : State) : Except Trap State :=
  let start := s.cur.addr + 4
  let stop := branchTarget s o
  if o.toInt < 1 ∨ s.mySide.loops.length ≥ 3 then .error (trapAt .illegal)
  else if n = 0 then .ok ((s.modMySide (fun x => { x with pc := stop + 4, land := false })).act s.cur.core)
  else
    .ok ((s.modMySide (fun x =>
      { x with loops := ⟨start, stop, n, 0, 0, 0⟩ :: x.loops, pc := start, land := false })).act s.cur.core)

/-! ### Waits before a word -/

/-- Whether one of the a registers is poisoned. -/
def Core.anyPoison (k : Core) (regs : List Nat) : Bool := regs.any (fun n => (k.areg n).bad)

/-- An AP word with the given registers waits for the speculative loads that will write them, then does what it does (DESIGN CHOICE, log 2). -/
def apWord (regs : List Nat) (body : State → Except Trap State) (s : State) : State :=
  if s.me.ldsWaits regs then s else settle (body s) s

/-- An XP sequencer word with the given source and destination registers waits under R9 rule 1. -/
def xpWord (srcs dsts : List Nat) (body : State → Except Trap State) (s : State) : State :=
  if s.me.holdsBack (srcs.map .x) (dsts.map .x) then s else settle (body s) s

/-- An XP sequencer word whose checks need no register: the sequencer makes them when it meets the word, before any wait (R49,
R160). -/
def xpChecked (bad : Option Trap) (srcs dsts : List Nat) (body : State → Except Trap State) (s : State) : State :=
  match bad with
  | some t => takeTrap t s
  | none => xpWord srcs dsts body s

/-- A check of the word alone that a SYNC word makes on the XP before it waits; on the AP POISON of a source comes first, and
the body makes the check (R49, R207, R208). -/
def xpFirst (bad : Option Trap) (w : State → State) (s : State) : State :=
  match s.cur.side, bad with
  | .xp, some t => takeTrap t s
  | _, _ => w s

/-- ILLEGAL where a check fails. -/
def illegalIf (b : Bool) : Option Trap := if b then some (trapAt .illegal) else none

/-- Whether the three queues are empty and their engines idle (R169). -/
def Core.xpIdle (k : Core) : Bool := k.unfinished.isEmpty

/-- A SYNC word (R207, R208): on the AP a poisoned source takes POISON; on the XP the word waits under R9 rule 1, and as
`xfence` does when `fenced`. -/
def syncWord (fenced : Bool) (srcs dsts : List Nat) (body : State → Except Trap State) (s : State) : State :=
  match s.cur.side with
  | .ap =>
    apWord (srcs ++ dsts) (fun s => if s.me.anyPoison srcs then .error trapPoison else body s) s
  | .xp => if fenced && !s.me.xpIdle then s else xpWord srcs dsts body s

/-- A privileged word in user mode takes PRIV (R20, R49). -/
def privWord (w : State → State) (s : State) : State :=
  if s.sysMode s.cur.core then w s else takeTrap (trapAt .priv) s

/-! ### Releases -/

/-- A release of the moving side: it is performed after the AP's speculative loads have returned, for a load is performed when its
value is fixed, after what its scope flushes, and after every lost write of its die has become poison (R95, R275, R276, R315). -/
def release (flush : State → State) (go : State → Except Trap State) (s : State) : Except Trap State :=
  if s.cur.side = .ap ∧ s.me.lds ≠ [] then .ok s
  else if (flush s).owes (dieOf s.cur.core) then .ok (flush s)
  else go (flush s)

/-- What a release at a scope waits for (R275): at `.dev` and `.sys`, the write-backs and invalidations of its die. -/
def releaseAt (scope : Nat) (s : State) : State := if scope < 3 then s else flushDie (dieOf s.cur.core) s

/-- The release of a signal toward a core (R224): device scope when that core lies on the other die. -/
def releaseTo (c : Nat) (s : State) : State :=
  if dieOf c = dieOf s.cur.core then s else flushDie (dieOf s.cur.core) s

/-! ### Loads and stores of the AP -/

/-- Bytes of a width code (R92). -/
def widthBytes (w : Nat) : Nat := 2 ^ w

/-- The value of n loaded bytes (R92). -/
def loadValue (z : Bool) (l : List Byte) : Addr :=
  if z then BitVec.ofNat 64 (bytesNat l) else BitVec.ofInt 64 (toSigned (8 * l.length) (bytesNat l))

/-- Checks 2-7 of R91: the place, or the trap. -/
def checkAccess (s : State) (c : Nat) (ea : Addr) (n : Nat) (acc : Acc) : Except Trap Place :=
  if ea.toNat % n ≠ 0 then .error (trapOn .alignIssue ea)
  else
    match checkAddr s c ea acc with
    | .error e => .error (trapOn e ea)
    | .ok p => .ok p

/-- Whether an access to a place by the moving core crosses the bridge on a link that fails (R314). -/
def doomed (s : State) (p : Place) : Bool :=
  s.cur.link.isSome && s.homeDie p != dieOf s.cur.core &&
    !(match p with
      | .glob ctx va => s.cacheable p && ((s.die (dieOf s.cur.core)).line ctx (va / 64)).isSome
      | _ => false)

/-- Whether a speculative load that has not returned reads a byte of a place (R94, R271: the loads of one AP
return in order, and none returns a later store of its own AP). -/
def ldsOverlaps (s : State) (p : Place) (n : Nat) : Bool :=
  s.me.lds.any (fun w =>
    match s.place s.cur.core w.ea with
    | some q => decide (q.key < p.key + n) && decide (p.key < q.key + w.n)
    | none => false)

/-- Whether an access of the AP to n bytes of a place waits: behind a speculative load of a byte of them, or behind a lost write of
its die there (R94, R271, R315). -/
def accessWaits (s : State) (p : Place) (n : Nat) : Bool := ldsOverlaps s p n || s.owesAt (dieOf s.cur.core) p.key n

/-- A load of the AP from an address: it waits behind earlier accesses of its bytes, and when its link fails (R314), takes POISON on
poisoned bytes, else writes d. -/
def loadWord (n : Nat) (z : Bool) (d : Nat) (ea : Addr) (sv : Serve) (s : State) : Except Trap State :=
  match checkAccess s s.cur.core ea n .load with
  | .error t => .error t
  | .ok p =>
    if accessWaits s p n then .ok s
    else
    match s.cur.link, doomed s p with
    | some k, true => .ok { s with bridge := { s.bridge with reads := s.bridge.reads ++ [⟨k, .ap s.cur.core ea⟩] } }
    | _, _ =>
      let (s, g) := readPlace s (dieOf s.cur.core) p n sv
      .ok (if g.poison then takeTrap ⟨.poison, some ea, true⟩ s else finish (s.put d (loadValue z g.bytes)))

/-- Whether a place lies in a PRIVATE region (R91, R98). -/
def State.isPrivate (s : State) (p : Place) : Bool :=
  match p with
  | .glob ctx va => (s.region ctx va).any (fun r => r.st == .priv)
  | _ => false

/-- A store of the AP (R93), as a release at a scope (R98) when one is given and the address is not PRIVATE. -/
def storeWord (n : Nat) (v : Addr) (ea : Addr) (scope : Option Nat) (s : State) : Except Trap State :=
  match checkAccess s s.cur.core ea n .store with
  | .error t => .error t
  | .ok p =>
    let go := fun (s : State) => (.ok (finish (writePlace s.cur.core (dieOf s.cur.core) p (bvBytes n v) false .relaxed s)) : Except Trap State)
    if accessWaits s p n then .ok s
    else
      match scope with
      | some sc => if s.isPrivate p then go s else release (releaseAt sc) go s
      | none => go s

/-- Effective address of an AP access (R90). -/
def effAddr (s : State) (a : Nat) (i : BitVec 13) : Addr := (s.me.areg a).val + sx i

/-! ### Starting a fault task (R317-R319, R321) -/

/-- Whether a steered word still reads or writes x1-x4: a sequencer word that writes them waits for it (R9 rule 1). -/
def Core.holdsDelivery (k : Core) : Bool := k.holdsBack [] [.x 1, .x 2, .x 3, .x 4]

/-- Whether a side can start a fault task: it is at an instruction boundary, and registers 1-4 have their values and no steered
word's use of them is to come (R9, R95, R317, R318; DEDUCED, log 89). -/
def atBoundary (s : State) (c : Nat) (sd : Side) : Bool :=
  match sd with
  | .ap => !apAwaitsLink s c && !(s.core c).ldsWaits [1, 2, 3, 4]
  | .xp => !(s.core c).holdsDelivery

/-- Whether a delivery is due to a side: its heat runs, and the side runs no fault task or stopped inside it (R317, R336). -/
def deliveryDue (s : State) (c : Nat) (sd : Side) : Bool :=
  match s.heatOf c with
  | some h =>
    h.st == .running && !(s.core c).pending.isEmpty && faultSide h == sd &&
      (((s.core c).side sd).frame.isNone || ((s.core c).side sd).run == .stopped)
  | none => false

/-- FAULT_DELIVERY (R317-R319, R321): at an instruction boundary of the fault side the oldest pending delivery starts the
fault task; with no fault task, or when the fault task itself has faulted, the heat stops. -/
def deliverFault (c : Nat) (s : State) : State :=
  match s.heatOf c, (s.core c).pending with
  | some h, d :: _ =>
    if h.st ≠ .running then s
    else if h.hr.fEntry = 0 then stopHeat h.hr.number c s
    else
      let sd := faultSide h
      let x := (s.core c).side sd
      match x.frame with
      | some f =>
        if x.run = .stopped then
          stopHeat h.hr.number c (s.modHeat h.hr.number (fun h => { h with reports := h.reports ++ [f.del] }))
        else s
      | none => if atBoundary s c sd then startFaultTask c sd h.hr.fEntry d s else s
  | _, _ => s

end Sys2Proof.Machine
end

