-- ==== Sys2Proof/Machine/Fetch.lean ====
section
/-! DEFINITION. Fetching: what a side does in its turn (R7, R49-R51, R85, R166), and the clock of a turn (R29). -/

namespace Sys2Proof.Machine

/-- The link that a turn's accesses lose, in service until it fails (R313); with the bridge down a failed one (R399; DESIGN CHOICE, log 11). -/
def turnLink (s : State) (t : Turn) : Option Nat :=
  if s.bridgeDown then s.downLink
  else t.link.filter (fun l => s.form.hasDie 1 && decide (8 ≤ l) && decide (l < 12) && !s.bridge.failed.contains l)

/-- What a turn comes to: it is over, or an instruction runs. -/
inductive Todo where
  | ended (s : State)
  | run (i : Instr) (s : State)

/-- How far die B's timebase is ahead of die S's. -/
def State.skew (s : State) : Int := ((s.die 1).tb - (s.die 0).tb).toInt

/-- Die B's timebase moved forward to at least lo ahead of die S's. -/
def raiseB (lo : Int) (s : State) : State :=
  if s.skew < lo then s.modDie 1 (fun d => { d with tb := (s.die 0).tb + BitVec.ofInt 64 lo }) else s

/-- Die of the unit that a turn moves. -/
def Turn.die (t : Turn) : Option Nat :=
  match t.act with
  | .side c _ => some (dieOf c)
  | .eng c _ => some (dieOf c)
  | .ev _ => none

/-- What the timebases of die S and die B gain in a turn at a skew of k: what the turn names, die B's count held within 4 ns of
die S's and never moved back, and the die that moves not behind the other, so that a later `tsr` never returns less (R3, R29,
R283; DEDUCED, log 52). -/
def turnGains (k : Int) (t : Turn) : Nat × Nat :=
  let m := Nat.min (Nat.max t.dtB (t.dt - 4 - k).toNat) (t.dt + 4 - k).toNat
  match t.die with
  | some 0 => (Nat.max t.dt (k + m).toNat, m)
  | some _ => (t.dt, Nat.max m (t.dt - k).toNat)
  | none => (t.dt, m)

/-- What they gain while die B, k ahead, counts at half rate until they agree (R283), die S's count being c: die S moves only once
they agree, so that its `tsr` returns no less than one on die B before it. -/
def slowGains (k : Int) (c : Nat) (t : Turn) : Nat × Nat :=
  let n := if t.die = some 0 then Nat.max t.dt (2 * k).toNat else t.dt
  (n, Nat.max ((c + n) / 2 - c / 2) (n - k).toNat)

/-- A step's time passes on both dies (R3, R283; DESIGN CHOICE, log 6). -/
def passTime (t : Turn) (s : State) : State :=
  let g :=
    if s.form.hasDie 1 = false then (t.dt, t.dt)
    else if (s.die 1).slow = true then slowGains s.skew (s.die 0).tb.toNat t
    else turnGains s.skew t
  let agree := decide (s.skew + g.2 ≤ g.1)
  (s.modDie 0 (fun d => { d with tb := d.tb + BitVec.ofNat 64 g.1 })).modDie 1
    (fun d => { d with tb := d.tb + BitVec.ofNat 64 g.2, slow := d.slow && !agree })

/-- A step begins: it is counted, and its time passes. -/
def tick (t : Turn) (s : State) : State := passTime t { s with turns := s.turns + 1 }

/-- A word fetched by a core from an address: the fetch fault, or the word (R7, R85, R311). -/
def fetchWord (s : State) (c : Nat) (pc : Addr) : Except Trap (State × Word) :=
  match s.place c pc with
  | some (.glob ctx va) =>
    match checkGlobal s c ctx va .fetch with
    | some e => .error (trapOn e pc)
    | none =>
      let (s, g) := readPlace s (dieOf c) (.glob ctx va) 4 .relaxed
      if g.poison then .error ⟨.poison, some pc, true⟩ else .ok (s, BitVec.ofNat 32 (bytesNat g.bytes))
  | _ => .error (trapOn .aperture pc)

/-- Whether the landing check at T fails: the word at T - 4 can be fetched and is of class 111 (R51). -/
def landsBad (s : State) (c : Nat) (t : Addr) : Bool :=
  match fetchWord s c (t - 4) with
  | .ok (_, w) => fld w.toNat 29 3 == 7
  | .error _ => false

/-- Whether the word at the pc is skipped under the stage rule of an open `lsp` (R166). -/
def stageSkips (k : Core) (pc : Addr) : Bool :=
  match k.xp.loops with
  | t :: _ =>
    t.sl != 0 && decide (t.start ≤ pc) && decide (pc ≤ t.stop) && !k.g.getLsbD ((pc - t.start).toNat / 4 / t.sl)
  | [] => false

/-- The instruction at a pc whose word 0 is fetched: its fault, or the instruction with the fetch of word 1 done (R49, R50).
Word 1 is fetched before a tc3 of the other side or a fixed field of word 0 is refused, so its fetch fault comes first
(DESIGN CHOICE, log 72). -/
def decodeAt (s : State) (c : Nat) (sd : Side) (pc : Addr) (w : Word) : Except Trap (State × Instr) :=
  if fld w.toNat 29 3 = 7 then
    if longOk w.toNat = true then
      match fetchWord s c (pc + 4) with
      | .error t => .error t
      | .ok (s, w1) =>
        match decodeLong w.toNat w1.toNat with
        | .ok i => if i.unit.onSide sd = true then .ok (s, i) else .error (trapAt .illegal)
        | .error _ => .error (trapAt .illegal)
    else .error (trapAt .illegal)
  else
    match decodeWord w.toNat with
    | .ok i => if i.unit.onSide sd = true then .ok (s, i) else .error (trapAt .illegal)
    | .error _ => .error (trapAt .illegal)

/-- Whether a word is steered into a queue (R9). -/
def isQueued : Unit → Bool
  | .vec => true
  | .mtx => true
  | .func => true
  | _ => false

/-- The word at the pc of a running side (R49-R51, R166). A word that the stage rule skips is fetched and not decoded, and of a LONG pair
that it skips word 1 is not fetched (DESIGN CHOICE, log 102). A failed landing check comes before a fetch fault at the same address
(DESIGN CHOICE, log 103). -/
def fetchSide (c : Nat) (sd : Side) (s : State) : Todo :=
  let pc := ((s.core c).side sd).pc
  if ((s.core c).side sd).land = true ∧ landsBad s c pc = true then
    .ended (takeTrap (trapOn .illegal pc) (s.modSide c sd (fun x => { x with land := false })))
  else
    let s := s.modSide c sd (fun x => { x with land := false })
    match fetchWord s c pc with
    | .error t => .ended (takeTrap t s)
    | .ok (s, w) =>
      if sd = .xp ∧ stageSkips (s.core c) pc = true then
        .ended (finishN (if fld w.toNat 29 3 = 7 ∧ longOk w.toNat = true then 8 else 4) s)
      else
        match decodeAt s c sd pc w with
        | .error t => .ended (takeTrap t s)
        | .ok (s, i) => if isQueued i.unit = true then .run (.xpSteer c) s else .run i s

/-- The turn of a side: nothing while its heat does not run; a delivery that is due comes first (R317, R336); nothing while it
is stopped; an idle side starts a task; the XP first steers again what a fault set aside (R320); else the word at its pc. -/
def sideTurn (c : Nat) (sd : Side) (t : Turn) (s : State) : Todo :=
  let k := s.core c
  let s := { s with cur := { core := c, side := sd, addr := (k.side sd).pc, vt := k.vt, g := k.g, eng := none, seq := 0,
                             steps := t.steps, link := turnLink s t, lost := false } }
  if s.live c = false ∨ (sd = .ap ∧ apAwaitsLink s c = true) then .ended s
  else if deliveryDue s c sd then .ended (deliverFault c s)
  else
    match (k.side sd).run with
    | .stopped => .ended s
    | .idle => .run (.taskStart c sd) s
    | .run => if sd = .xp ∧ k.aside ≠ [] then .run (.xpSteer c) s else fetchSide c sd s

/-- The next turn: the head of the plan, or a free one when the plan is empty (DESIGN CHOICE, log 1). -/
def nextTurn (s : State) : Turn × State :=
  match s.plan with
  | t :: r => (t, { s with plan := r })
  | [] => (Config.turn s.count, { s with count := s.count + 1 })

/-- Whether this form of the part has the unit that a step without a word names (R2). -/
def unitPresent : Instr → State → Bool
  | .ldsDataArrive x _, s => s.hasCore x
  | .xpSteer x, s => s.hasCore x
  | .stintEndCount x, s => s.form.hasDie (crewDie x)
  | .seatGrant x, s => s.form.hasDie (crewDie x)
  | .taskStart x _, s => s.hasCore x
  | .engineHeadStart x _, s => s.hasCore x
  | .copy x _ _, s => s.hasCore x
  | .copyDecode x _ _, s => s.hasCore x
  | .fill x _ _, s => s.hasCore x
  | .ragged x _ _, s => s.hasCore x
  | .gather x _ _, s => s.hasCore x
  | .scatter x _ _, s => s.hasCore x
  | .accwAdd x _ _, s => s.hasCore x
  | .accwAdds x _ _, s => s.hasCore x
  | .accwFadd x _ _, s => s.hasCore x
  | .accwXadd x _ _, s => s.hasCore x
  | .accwOr x _ _, s => s.hasCore x
  | .accwAnd x _ _, s => s.hasCore x
  | .accwXor x _ _, s => s.hasCore x
  | .accwMin x _ _, s => s.hasCore x
  | .accwMax x _ _, s => s.hasCore x
  | .accwFmin x _ _, s => s.hasCore x
  | .accwFmax x _ _, s => s.hasCore x
  | .accwSwap x _ _, s => s.hasCore x
  | .accwCas x _ _, s => s.hasCore x
  | .laneLoad x _ _, s => s.hasCore x
  | .laneRun x _, s => s.hasCore x
  | .net x _, s => s.hasCore x
  | .qfence x _, s => s.hasCore x
  | .semaSignal x _, s => s.hasCore x
  | .semaSet x _, s => s.hasCore x
  | .fillerCommit x _, s => s.hasCore x
  | .drainerWrite x _ _, s => s.hasCore x
  | .coreSlotTransfer x _, s => s.hasCore x
  | .laneStep x, s => s.form.hasDie (x / 64)
  | .laneLoopLimit x, s => s.form.hasDie (x / 64)
  | .netReceiverDone x _, s => s.form.hasDie x
  | .netSeatRelease x _, s => s.form.hasDie x
  | .rlcWriteback x _ _, s => s.form.hasDie x
  | .rlcInvalidate x _ _, s => s.form.hasDie x
  | .faultDelivery x, s => s.hasCore x
  | .temperatureHigh x, s => s.form.hasDie x
  | _, _ => true

/-- The moving unit of a step without a word: none yet; the meaning names it. -/
def eventTurn (t : Turn) (s : State) : State :=
  { s with cur := { core := 0, side := .ap, addr := 0, vt := 0, g := 0, eng := none, seq := 0, steps := t.steps, link := turnLink s t, lost := false } }

/-- The moving unit is a side of a core, at its pc. -/
def asSide (c : Nat) (sd : Side) (s : State) : State :=
  { s with cur := { s.cur with core := c, side := sd, addr := ((s.core c).side sd).pc, vt := (s.core c).vt, g := (s.core c).g,
                               eng := none, seq := 0 } }

end Sys2Proof.Machine
end

