-- ==== Sys2Proof/Machine/Engine.lean ====
section
/-! DEFINITION. The engines of the XP: which queued word a unit takes up (R9, R258, R330), the word in progress, its progress
index (R26, R187, R206), and how it leaves its engine. -/

namespace Sys2Proof.Machine

/-- The word in progress in a unit. -/
def Core.slot (k : Core) : Eng → Option Started
  | .vec => k.inVec
  | .pass => k.inPass
  | .load => k.inLoad
  | .func => k.inFun

/-- A unit given a word in progress, or none. -/
def Core.setSlot (k : Core) (e : Eng) (o : Option Started) : Core :=
  match e with
  | .vec => { k with inVec := o }
  | .pass => { k with inPass := o }
  | .load => { k with inLoad := o }
  | .func => { k with inFun := o }

/-- Whether a word is a `wload`. -/
def QWord.isWload (q : QWord) : Bool :=
  match wordInstr q.word with
  | some (.wload _ _ _) => true
  | _ => false

/-- Whether a word is a `wswap`. -/
def QWord.isWswap (q : QWord) : Bool :=
  match wordInstr q.word with
  | some .wswap => true
  | _ => false

/-- Whether a word is a `seat`. -/
def QWord.isSeat (q : QWord) : Bool :=
  match wordInstr q.word with
  | some (.seat _) => true
  | _ => false

/-- Tile that a matrix word reads or writes, and whether it writes it (R199). -/
def QWord.tile (q : QWord) : Option (Nat × Bool) :=
  match wordInstr q.word with
  | some (.mmul t _ _ _ _) => some (t, true)
  | some (.mmulg t _ _ _ _ _) => some (t, true)
  | some (.azero t) => some (t, true)
  | some (.drain t _ _ _) => some (t, false)
  | _ => none

/-- Whether a matrix word takes scale bytes: a `wload` or a multiply with MX (R330). -/
def QWord.takesScales (q : QWord) : Bool :=
  match wordInstr q.word with
  | some (.wload _ mx _) => mx
  | some (.mmul _ _ mx _ _) => mx
  | some (.mmulg _ _ _ mx _ _) => mx
  | _ => false

/-- Whether a matrix word starts only after an earlier one has done its work: the tile written (R199), the scales fed, the entries
taken (R330), a plane loaded before a swap (R258). -/
def awaitsWord (q w : QWord) : Bool :=
  (match q.tile, w.tile with
    | some (t, _), some (u, true) => t == u
    | _, _ => false) ||
  (match wordInstr q.word, wordInstr w.word with
    | some (.drain _ _ _ _), some (.rpop _) => true
    | some (.drain _ _ _ _), some (.rsend _) => true
    | some .wswap, some (.wload _ _ _) => true
    | _, some (.sclq _) => q.takesScales
    | _, _ => false)

/-- The matrix words in progress. -/
def Core.inMatrix (k : Core) : List QWord := [k.inPass, k.inLoad].filterMap (fun o => o.map (fun w => w.q))

/-- The matrix words that have started and not completed: in progress, or finished before an earlier one completes (R258). -/
def Core.incomplete (k : Core) : List QWord := k.inMatrix ++ k.done

/-- Whether a `seat` waits in the pass section: it holds back every later matrix word until its grant (R192, R258). -/
def seatWaits (k : Core) : Bool :=
  match k.inPass with
  | some w => w.q.isSeat
  | none => false

/-- The queued word that a unit would start next: the head of its queue, in the section that runs it (R9, R258). -/
def nextQueued (k : Core) (e : Eng) : Option QWord :=
  match e with
  | .vec => k.vq.head?
  | .func => k.fq.head?
  | .load => (k.mq.head?).filter (fun q => q.isWload && !seatWaits k)
  | .pass => (k.mq.head?).filter (fun q => !q.isWload && !(q.isWswap && k.inLoad.isSome))

/-- Whether R9 rule 1, and for a matrix word R199, R258 and R330, let a queued word start. What a matrix word awaits of an earlier one
is there once that one has done its work, though an earlier `wload` keeps it from completing (R258, R259). -/
def mayStart (k : Core) (q : QWord) : Bool :=
  !k.unfinished.any (fun w => decide (w.seq < q.seq) && dependsOn q.regs.1 q.regs.2 w) &&
    !k.inMatrix.any (fun w => decide (w.seq < q.seq) && awaitsWord q w)

/-- The turn of a unit of the XP's engines: its word in progress goes on, or the next queued word starts. -/
def engTurn (c : Nat) (e : Eng) (t : Turn) (s : State) : Todo :=
  let k := s.core c
  let q? := match k.slot e with
    | some w => some w.q
    | none => (nextQueued k e).filter (fun q => mayStart k q)
  match q? with
  | some q =>
    let s := { s with cur := { core := c, side := .xp, addr := q.addr, vt := q.vt, g := q.g, eng := some e, seq := q.seq,
                               steps := t.steps, link := turnLink s t, lost := false } }
    if s.unitsLive c = false then .ended s
    else
      match wordInstr q.word with
      | some i => .run i s
      | none => .ended s
  | none =>
    .ended { s with cur := ⟨c, .xp, 0, 0, 0, some e, 0, t.steps, turnLink s t, false⟩ }

/-- The engine that moves; the sequencer counts as the vector engine where none does. -/
def State.eng (s : State) : Eng := s.cur.eng.getD .vec

/-- The word of the moving unit, by its steering number. -/
def State.curWord (s : State) : QWord :=
  (s.me.unfinished.find? (fun q => q.seq == s.cur.seq)).getD ⟨s.cur.addr, 0, s.cur.vt, s.cur.g, s.cur.seq⟩

/-- The start step of the next long word of an engine (R26, R231). -/
def Core.pix (k : Core) : Eng → Nat
  | .vec => k.pixVec
  | .pass => k.pixMtx
  | .load => 0
  | .func => k.pixFun

/-- The start step of an engine set. -/
def Core.setPix (k : Core) (e : Eng) (n : Nat) : Core :=
  match e with
  | .vec => { k with pixVec := n }
  | .pass => { k with pixMtx := n }
  | .load => k
  | .func => { k with pixFun := n }

/-- The moving unit's word is no longer queued or in progress. -/
def leaveWord (s : State) : State :=
  s.modMe (fun k =>
    let keep := fun (q : QWord) => q.seq != s.cur.seq
    ({ k with vq := k.vq.filter keep, mq := k.mq.filter keep, fq := k.fq.filter keep
              kept := k.kept.filter (fun w => keep w.q), faulted := k.faulted.filter (fun n => n != s.cur.seq) }).setSlot s.eng none)

/-- Whether an engine is a section of the matrix engine (R258). -/
def Eng.isMatrix : Eng → Bool
  | .pass => true
  | .load => true
  | _ => false

/-- Finished matrix words that an earlier word in progress keeps from completing (R258). -/
def stillDone (k : Core) (l : List QWord) : List QWord :=
  l.filter (fun q => [k.inPass, k.inLoad].any (fun o => match o with
    | some w => decide (w.q.seq < q.seq)
    | none => false))

/-- The moving unit's word has done its work and leaves its engine: it completes once every earlier matrix word has (R258). -/
def dropWord (s : State) : State :=
  let q := s.curWord
  ((leaveWord s).modMe (fun k => { k with done := stillDone k (if s.eng.isMatrix then k.done ++ [q] else k.done) })).act s.cur.core

/-- The moving unit's word completes; the engine is idle, its index zero (R26). -/
def endWord (s : State) : State := (dropWord s).modMe (fun k => k.setPix s.eng 0)

/-- A word takes a fault at its start: it changes nothing and leaves its engine (R129, R190, R308). -/
def queueTrap (t : Trap) (s : State) : State := takeQueueTrap t s.curWord (leaveWord s)

/-- The state of the moving unit's long word: as in progress, as kept from a fault in its middle, or new at the engine's start
step. -/
def curStarted (s : State) : Started :=
  match s.me.slot s.eng with
  | some w => w
  | none =>
    match s.me.kept.find? (fun w => w.q.seq == s.cur.seq) with
    | some w => { w with prog := s.me.pix s.eng }
    | none => ⟨s.curWord, s.me.pix s.eng, 0, [], []⟩

/-- The moving unit's long word is in progress as given: it has left its queue. -/
def holdWord (w : Started) (s : State) : State :=
  (leaveWord s).modMe (fun k => (k.setSlot s.eng (some w)).setPix s.eng w.prog)

/-- A long word takes a fault in its middle: its progress, latch and scales are kept for its reissue (R200, R206). -/
def midTrap (t : Trap) (w : Started) (s : State) : State :=
  let s := takeQueueTrap t s.curWord (leaveWord s)
  s.modMe (fun k => ({ k with kept := k.kept ++ [w] }).setPix s.eng w.prog)

/-- A fault raised or an effect made at the start of an indivisible word: on success the word completes. -/
def settleWord (r : Except Trap State) (s : State) : State :=
  match r with
  | .ok t => t
  | .error t => queueTrap t s

end Sys2Proof.Machine
end

