-- ==== Sys2Proof/Machine/Csr.lean ====
section
/-! DEFINITION. Control and status registers (R21-R28, R89, R168). -/

namespace Sys2Proof.Machine

/-- CSR CORE (R22). -/
def csrCore (c : Nat) : Addr := BitVec.ofNat 64 (coreY c * 2 ^ 13 + coreX c * 2 ^ 8 + c)

/-- CSR CREW (R22). -/
def csrCrew (c : Nat) : Addr :=
  BitVec.ofNat 64 (posOf c * 2 ^ 16 + coreY c / 2 * 2 ^ 12 + coreX c / 2 * 2 ^ 8 + crewOf c)

/-- CSR DIE (R22). -/
def csrDie (f : Form) (c : Nat) : Addr := BitVec.ofNat 64 (dieOf c + 2 + (if f.hasDie 1 then 4 else 0))

/-- Step count of an engine: the progress of its word, or the start step set for its next one (R26). -/
def pixField (k : Core) : Nat → Nat
  | 0 => (match k.inVec with
    | some w => w.prog
    | none => k.pixVec)
  | 1 => (match k.inPass with
    | some w => w.prog
    | none => k.pixMtx)
  | 2 => (match k.inFun with
    | some w => w.prog
    | none => k.pixFun)
  | _ => (k.ring 0).chunk

/-- CSR PIX (R26). -/
def csrPix (k : Core) : Addr :=
  BitVec.ofNat 64 (pixField k 0 % 2 ^ 16 + pixField k 1 % 2 ^ 16 * 2 ^ 16 + pixField k 2 % 2 ^ 16 * 2 ^ 32 +
    pixField k 3 % 2 ^ 16 * 2 ^ 48)

/-- Whether a plane's tag names a core (R191). -/
def planeOwn (p : Plane) (k : Core) (c : Nat) : Bool := p.tagH == k.heat && p.holder == posOf c && p.holder != 7

/-- CSR SEATST (R25): HOLDER reads 7 while no unit holds the seat, after reset too (DEDUCED, log 71). -/
def seatst (s : State) (c : Nat) : Addr :=
  let k := s.core c
  let w := s.crew (crewOf c)
  BitVec.ofNat 64 (k.hasSeat.toNat + (planeOwn w.active k c).toNat * 2 + (planeOwn w.shadow k c).toNat * 4 + k.stint * 8 +
    w.holder * 2 ^ 8)

/-- Timebase a side reads (R29, R227). -/
def timebase (s : State) (c : Nat) : Addr := (s.die (dieOf c)).tb

/-- Value of a CSR on a side; none where the side has no such CSR (R21). -/
def csrRead (s : State) (sd : Side) (n : Nat) : Option Addr :=
  let c := s.cur.core
  let k := s.me
  let x := k.side sd
  let xp := fun (v : Addr) => match sd with
    | .xp => some v
    | .ap => none
  let ap := fun (v : Addr) => match sd with
    | .ap => some v
    | .xp => none
  match n with
  | 0x000 => some (csrCore c)
  | 0x001 => some (csrCrew c)
  | 0x002 => some (csrDie s.form c)
  | 0x003 => some (BitVec.ofNat 64 k.heat)
  | 0x004 => (match s.heatOf c with
    | some h => some (BitVec.ofNat 64 (h.hr.ctx + h.hr.prio * 16))
    | none => some 0)
  | 0x005 => some (x.task.setWidth 64)
  | 0x006 => some (if s.sysMode c then 1 else 0)
  | 0x010 => xp k.vt
  | 0x011 => xp (k.vcnt.setWidth 64)
  | 0x012 => xp (k.g.setWidth 64)
  | 0x013 => xp (k.flags.setWidth 64)
  | 0x014 => xp (seatst s c)
  | 0x020 => some (csrPix k)
  | 0x021 => xp (k.slip.setWidth 64)
  | 0x022 => some (timebase s c)
  | 0x030 => some x.faddr
  | 0x031 => some x.fcode
  | 0x040 => ap (tget k.sstat 0 0)
  | 0x041 => ap (tget k.sstat 1 0)
  | 0x042 => ap (tget k.sstat 2 0)
  | 0x043 => ap (tget k.sstat 3 0)
  | _ => none

/-- Checks of a `csrw` that do not look at the value: ILLEGAL for a CSR the side lacks or cannot write, PRIV for SLIP and PIX
in user mode (R20, R21). -/
def csrWriteOk (s : State) (sd : Side) (n : Nat) : Option Trap :=
  match n, sd with
  | 0x010, .xp => none
  | 0x011, .xp => none
  | 0x012, .xp => none
  | 0x013, .xp => none
  | 0x021, .xp => if s.sysMode s.cur.core then none else some (trapAt .priv)
  | 0x020, _ => if s.sysMode s.cur.core then none else some (trapAt .priv)
  | 0x030, _ => none
  | 0x031, _ => none
  | _, _ => some (trapAt .illegal)

/-- What a write came to: blocked, with nothing changed, or made. -/
inductive CsrStep where
  | wait (s : State)
  | made (s : State)

/-- A written CSR's word completes; a blocked one has not executed. -/
def csrDone (len : Nat) : CsrStep → State
  | .wait s => s
  | .made s => finishN len s

/-- Whether the engine of a PIX field is idle: nothing in progress and, for COPY, no head of ring 0 started (R26, R231). -/
def pixIdle (k : Core) : Nat → Bool
  | 0 => k.inVec.isNone
  | 1 => k.inPass.isNone && k.inLoad.isNone
  | 2 => k.inFun.isNone
  | _ => (k.ring 0).st == .idle || (k.ring 0).st == .wait

/-- A PIX field set: the step at which the engine's next long word or record begins (R26, R231). -/
def setPixField (k : Core) (e v : Nat) : Core :=
  match e with
  | 0 => { k with pixVec := v }
  | 1 => { k with pixMtx := v }
  | 2 => { k with pixFun := v }
  | _ => { k with rings := tset k.rings 0 { k.ring 0 with chunk := v } }

/-- A `csrw` of PIX: four `pixw` in turn, VEC, MTX, FUNC, COPY, each once its engine is idle; n fields are set so far, and
stay so over a fault task and a save (R26; DEDUCED, log 21). -/
def pixFields (fuel n : Nat) (v : Addr) (k : Core) : Nat × Core :=
  match fuel with
  | 0 => (n, k)
  | fuel + 1 => if pixIdle k n then pixFields fuel (n + 1) v (setPixField k n (nfld v.toNat (16 * n) 16)) else (n, k)

/-- FCODE as stored: reserved fields zero (R28). -/
def fcodeStored (v : Addr) : Addr := v &&& 0xF0FF

/-- A write of a CSR that passed `csrWriteOk` (R23-R28, R168; DEDUCED, log 40). -/
def csrWrite (sd : Side) (n : Nat) (v : Addr) (s : State) : Except Trap CsrStep :=
  let put := fun (f : Core → Core) => Except.ok (CsrStep.made (s.modMe f))
  match n with
  | 0x010 => if vtOk s.me.nv v then put (fun k => { k with vt := v }) else .error (trapAt .illegal)
  | 0x011 =>
    if v.toNat < 2 ^ 11 then put (fun k => { k with vcnt := v.setWidth 11 }) else .error (trapAt .illegal)
  | 0x012 => if v.toNat < 2 ^ 16 then put (fun k => { k with g := v.setWidth 16 }) else .error (trapAt .illegal)
  | 0x013 => put (fun k => { k with flags := v.setWidth 6 })
  | 0x021 =>
    let lim := v.toNat % 64
    if lim = 0 ∨ lim > 32 then .error (trapAt .illegal) else put (fun k => { k with slip := BitVec.ofNat 6 lim })
  | 0x020 =>
    let n := s.mySide.pix
    let r := pixFields (4 - n) n v s.me
    if r.1 = 4 then put (fun _ => r.2.modSide s.cur.side (fun x => { x with pix := 0 }))
    else .ok (.wait (s.modMe (fun _ => r.2.modSide s.cur.side (fun x => { x with pix := r.1 }))))
  | 0x030 => put (fun k => k.modSide sd (fun x => { x with faddr := v }))
  | 0x031 => put (fun k => k.modSide sd (fun x => { x with fcode := fcodeStored v }))
  | _ => .error (trapAt .illegal)

end Sys2Proof.Machine
end

