-- ==== Sys2Proof/Machine/ApAlu.lean ====
section
/-! DEFINITION. The AP's scalar words: arithmetic and logic, immediates, compares, predicates, control transfer, CSRs
(R76-R89). -/

namespace Sys2Proof.Machine

/-! ### Arithmetic -/

/-- Bits [127:64] of the signed product (R77). -/
def mulHigh (a b : Addr) : Addr := BitVec.ofInt 64 (a.toInt * b.toInt / 2 ^ 64)

/-- Bits [127:64] of the unsigned product (R77). -/
def mulHighU (a b : Addr) : Addr := BitVec.ofNat 64 (a.toNat * b.toNat / 2 ^ 64)

/-- Signed quotient truncated toward zero; -1 for a zero divisor; -2^63 by -1 wraps (R78). -/
def divS (a b : Addr) : Addr := if b = 0 then BitVec.allOnes 64 else BitVec.ofInt 64 (a.toInt.tdiv b.toInt)

/-- Signed remainder with the sign of a; a for a zero divisor (R78). -/
def remS (a b : Addr) : Addr := if b = 0 then a else BitVec.ofInt 64 (a.toInt.tmod b.toInt)

/-- Unsigned quotient; all ones for a zero divisor (R78). -/
def divU (a b : Addr) : Addr := if b = 0 then BitVec.allOnes 64 else BitVec.ofNat 64 (a.toNat / b.toNat)

/-- Unsigned remainder; a for a zero divisor (R78). -/
def remU (a b : Addr) : Addr := if b = 0 then a else BitVec.ofNat 64 (a.toNat % b.toNat)

/-- Conditions eq, ne, lt, ge (signed), ltz, gez (unsigned) of R42 and R82. -/
def condHolds (c : Nat) (a b : Addr) : Bool :=
  match c with
  | 0 => a == b
  | 1 => a != b
  | 2 => a.slt b
  | 3 => !a.slt b
  | 4 => decide (a < b)
  | _ => decide (b ≤ a)

/-- A write of an a register by the moving AP. -/
def putA (d : Nat) (v : Poi) (s : State) : State := s.modMe (fun k => k.setAreg d v)

/-- A two-source word: d := f(a, b), poisoned when a source is (R76). -/
def alu3 (f : Addr → Addr → Addr) (d a b : Nat) (s : State) : State :=
  apWord [d, a, b] (fun s =>
    let x := s.me.areg a
    let y := s.me.areg b
    .ok (finish (putA d ⟨f x.val y.val, x.bad || y.bad⟩ s))) s

/-- A one-source word: d := f(a), poisoned when its source is (R76). -/
def alu2 (f : Addr → Addr) (d a : Nat) (s : State) : State :=
  apWord [d, a] (fun s => .ok (finish (putA d ⟨f (s.me.areg a).val, (s.me.areg a).bad⟩ s))) s

/-- A compare: a poisoned source takes POISON, else the predicate is written (R82, R97). -/
def cmpWord (c p : Nat) (srcs : List Nat) (x y : Core → Addr) (s : State) : State :=
  apWord srcs (fun s =>
    if s.me.anyPoison srcs then .error trapPoison
    else .ok (finish (s.modMe (fun k => k.setPred p (condHolds c (x k) (y k)))))) s

/-- A predicate operation (R84). -/
def predWord (f : Core → Bool) (d : Nat) (s : State) : State :=
  settle (.ok (finish (s.modMe (fun k => k.setPred d (f k))))) s

/-- `add` (R77). -/
def execAdd (d a b : Nat) (s : State) : Res := .next (alu3 (fun a b => a + b) d a b s)

/-- `sub` (R77). -/
def execSub (d a b : Nat) (s : State) : Res := .next (alu3 (fun a b => a - b) d a b s)

/-- `and` (R77). -/
def execAnd (d a b : Nat) (s : State) : Res := .next (alu3 (fun a b => a &&& b) d a b s)

/-- `or` (R77). -/
def execOr (d a b : Nat) (s : State) : Res := .next (alu3 (fun a b => a ||| b) d a b s)

/-- `xor` (R77). -/
def execXor (d a b : Nat) (s : State) : Res := .next (alu3 (fun a b => a ^^^ b) d a b s)

/-- `andn` (R77). -/
def execAndn (d a b : Nat) (s : State) : Res := .next (alu3 (fun a b => a &&& ~~~b) d a b s)

/-- `shl` (R77). -/
def execShl (d a b : Nat) (s : State) : Res := .next (alu3 (fun a b => a <<< (b.toNat % 64)) d a b s)

/-- `shr` (R77). -/
def execShr (d a b : Nat) (s : State) : Res := .next (alu3 (fun a b => a >>> (b.toNat % 64)) d a b s)

/-- `sra` (R77). -/
def execSra (d a b : Nat) (s : State) : Res := .next (alu3 (fun a b => a.sshiftRight (b.toNat % 64)) d a b s)

/-- `mul` (R77). -/
def execMul (d a b : Nat) (s : State) : Res := .next (alu3 (fun a b => a * b) d a b s)

/-- `mulh` (R77). -/
def execMulh (d a b : Nat) (s : State) : Res := .next (alu3 (fun a b => mulHigh a b) d a b s)

/-- `mulhz` (R77). -/
def execMulhz (d a b : Nat) (s : State) : Res := .next (alu3 (fun a b => mulHighU a b) d a b s)

/-- `div` (R78). -/
def execDiv (d a b : Nat) (s : State) : Res := .next (alu3 (fun a b => divS a b) d a b s)

/-- `rem` (R78). -/
def execRem (d a b : Nat) (s : State) : Res := .next (alu3 (fun a b => remS a b) d a b s)

/-- `divz` (R78). -/
def execDivz (d a b : Nat) (s : State) : Res := .next (alu3 (fun a b => divU a b) d a b s)

/-- `remz` (R78). -/
def execRemz (d a b : Nat) (s : State) : Res := .next (alu3 (fun a b => remU a b) d a b s)

/-- `min` (R77). -/
def execMin (d a b : Nat) (s : State) : Res := .next (alu3 (fun a b => if b.slt a then b else a) d a b s)

/-- `max` (R77). -/
def execMax (d a b : Nat) (s : State) : Res := .next (alu3 (fun a b => if a.slt b then b else a) d a b s)

/-- `minz` (R77). -/
def execMinz (d a b : Nat) (s : State) : Res := .next (alu3 (fun a b => if b < a then b else a) d a b s)

/-- `maxz` (R77). -/
def execMaxz (d a b : Nat) (s : State) : Res := .next (alu3 (fun a b => if a < b then b else a) d a b s)

/-- `addi` (R79). -/
def execAddi (d a : Nat) (i : BitVec 13) (s : State) : Res := .next (alu2 (fun a => a + sx i) d a s)

/-- `andi` (R79). -/
def execAndi (d a : Nat) (i : BitVec 13) (s : State) : Res := .next (alu2 (fun a => a &&& sx i) d a s)

/-- `ori` (R79). -/
def execOri (d a : Nat) (i : BitVec 13) (s : State) : Res := .next (alu2 (fun a => a ||| sx i) d a s)

/-- `xori` (R79). -/
def execXori (d a : Nat) (i : BitVec 13) (s : State) : Res := .next (alu2 (fun a => a ^^^ sx i) d a s)

/-- `shli` (R79). -/
def execShli (d a n : Nat) (s : State) : Res := .next (alu2 (fun a => a <<< n) d a s)

/-- `shri` (R79). -/
def execShri (d a n : Nat) (s : State) : Res := .next (alu2 (fun a => a >>> n) d a s)

/-- `srai` (R79). -/
def execSrai (d a n : Nat) (s : State) : Res := .next (alu2 (fun a => a.sshiftRight n) d a s)

/-- `cmpi.eq` (R82). -/
def execCmpiEq (p a : Nat) (i : BitVec 13) (s : State) : Res := .next (cmpWord 0 p [a] (fun k => (k.areg a).val) (fun _ => sx i) s)

/-- `cmpi.ne` (R82). -/
def execCmpiNe (p a : Nat) (i : BitVec 13) (s : State) : Res := .next (cmpWord 1 p [a] (fun k => (k.areg a).val) (fun _ => sx i) s)

/-- `cmpi.lt` (R82). -/
def execCmpiLt (p a : Nat) (i : BitVec 13) (s : State) : Res := .next (cmpWord 2 p [a] (fun k => (k.areg a).val) (fun _ => sx i) s)

/-- `cmpi.ge` (R82). -/
def execCmpiGe (p a : Nat) (i : BitVec 13) (s : State) : Res := .next (cmpWord 3 p [a] (fun k => (k.areg a).val) (fun _ => sx i) s)

/-- `cmpi.ltz` (R82). -/
def execCmpiLtz (p a : Nat) (i : BitVec 13) (s : State) : Res := .next (cmpWord 4 p [a] (fun k => (k.areg a).val) (fun _ => sx i) s)

/-- `cmpi.gez` (R82). -/
def execCmpiGez (p a : Nat) (i : BitVec 13) (s : State) : Res := .next (cmpWord 5 p [a] (fun k => (k.areg a).val) (fun _ => sx i) s)


/-- `sel` (R83). -/
def execSel (d a b p : Nat) (s : State) : Res :=
  .next (alu3 (fun x y => if s.me.pred p then x else y) d a b s)

/-- `cmp` (R82). -/
def execCmp (p a b c : Nat) (s : State) : Res :=
  .next (cmpWord c p [a, b] (fun k => (k.areg a).val) (fun k => (k.areg b).val) s)

/-- `sext` (R81). -/
def execSext (d a w : Nat) (s : State) : Res :=
  .next (alu2 (fun a => BitVec.ofInt 64 (toSigned w a.toNat)) d a s)

/-- `zext` (R81). -/
def execZext (d a w : Nat) (s : State) : Res := .next (alu2 (fun a => BitVec.ofNat 64 (a.toNat % 2 ^ w)) d a s)

/-- `clz` (R81). -/
def execClz (d a : Nat) (s : State) : Res := .next (alu2 (fun a => BitVec.ofNat 64 (clz64 a)) d a s)

/-- `popc` (R81). -/
def execPopc (d a : Nat) (s : State) : Res := .next (alu2 (fun a => BitVec.ofNat 64 (popN 64 a.toNat)) d a s)

/-- `pand` (R84). -/
def execPand (d a b : Nat) (s : State) : Res := .next (predWord (fun k => k.pred a && k.pred b) d s)

/-- `por` (R84). -/
def execPor (d a b : Nat) (s : State) : Res := .next (predWord (fun k => k.pred a || k.pred b) d s)

/-- `pxor` (R84). -/
def execPxor (d a b : Nat) (s : State) : Res := .next (predWord (fun k => k.pred a != k.pred b) d s)

/-- `pnot` (R84). -/
def execPnot (d a : Nat) (s : State) : Res := .next (predWord (fun k => !k.pred a) d s)

/-! ### Immediates and long forms -/

/-- `li` (R80). -/
def execLi (d : Nat) (i : BitVec 13) (s : State) : Res :=
  .next (apWord [d] (fun s => .ok (finish (putA d ⟨sx i, false⟩ s))) s)

/-- `lil` (R80). -/
def execLil (d : Nat) (i : BitVec 32) (s : State) : Res :=
  .next (apWord [d] (fun s => .ok (finishN 8 (putA d ⟨sx i, false⟩ s))) s)

/-- `addil` (R80). -/
def execAddil (d a : Nat) (i : BitVec 32) (s : State) : Res :=
  .next (apWord [d, a] (fun s =>
    .ok (finishN 8 (putA d ⟨(s.me.areg a).val + sx i, (s.me.areg a).bad⟩ s))) s)

/-! ### Control transfer -/

/-- `b` (R85). -/
def execBr (o : BitVec 18) (s : State) : Res := .next (branch (branchTarget s o) s)

/-- `bp` (R85). -/
def execBp (p : Nat) (o : BitVec 18) (s : State) : Res :=
  .next (if s.me.pred p then branch (branchTarget s o) s else finish s)

/-- `bnp` (R85). -/
def execBnp (p : Nat) (o : BitVec 18) (s : State) : Res :=
  .next (if s.me.pred p then finish s else branch (branchTarget s o) s)

/-- `call` (R85): the loop stack is not changed (R88). -/
def execCall (o : BitVec 18) (s : State) : Res :=
  .next (apWord [31] (fun s => .ok (jump (branchTarget s o) (putA 31 ⟨s.cur.addr + 4, false⟩ s))) s)

/-- `loop` (R87). -/
def execLoop (c : Nat) (o : BitVec 18) (s : State) : Res :=
  .next (apWord [c] (fun s =>
    if s.me.anyPoison [c] then .error trapPoison else openLoop (s.me.areg c).val.toNat o s) s)

/-- `jr` (R86). -/
def execJr (d a : Nat) (s : State) : Res :=
  .next (apWord [d, a] (fun s =>
    if s.me.anyPoison [a] then .error trapPoison
    else if (s.me.areg a).val.toNat % 4 ≠ 0 then .error (trapOn .illegal (s.me.areg a).val)
    else .ok (jump (s.me.areg a).val (putA d ⟨s.cur.addr + 4, false⟩ s))) s)

/-! ### CSRs -/

/-- `csrr` (R21, R89). -/
def execCsrr (d c : Nat) (s : State) : Res :=
  .next (apWord [d] (fun s =>
    match csrRead s .ap c with
    | some v => .ok (finish (putA d ⟨v, false⟩ s))
    | none => .error (trapAt .illegal)) s)

/-- `csrw` (R21, R89): PRIV and ILLEGAL come before the POISON of its source (R49). -/
def execCsrw (a c : Nat) (s : State) : Res :=
  .next (apWord [a] (fun s =>
    match csrWriteOk s .ap c with
    | some t => .error t
    | none =>
      if s.me.anyPoison [a] then .error trapPoison
      else (csrWrite .ap c (s.me.areg a).val s).map (csrDone 4)) s)

/-- `csrw`, long form (R48, R89). -/
def execCsrwLong (c : Nat) (i : BitVec 32) (s : State) : Res :=
  .next (apWord [] (fun s =>
    match csrWriteOk s .ap c with
    | some t => .error t
    | none => (csrWrite .ap c (i.setWidth 64) s).map (csrDone 8)) s)

end Sys2Proof.Machine
end

