-- ==== Sys2Proof/Machine/ApMem.lean ====
section
/-! DEFINITION. The AP's loads and stores, address conversion and queues (R90-R103). -/

namespace Sys2Proof.Machine

/-- `ld` (R92); an invariant load (R99). -/
def execLd (inv z : Bool) (w d a : Nat) (i : BitVec 13) (s : State) : Res :=
  .next (apWord [d, a] (fun s =>
    if s.me.anyPoison [a] then .error trapPoison
    else loadWord (widthBytes w) z d (effAddr s a i) (if inv then .inv else .relaxed) s) s)

/-- `lds` (R95): a check that fails poisons d at once; else the load is outstanding. -/
def execLds (z : Bool) (w d a : Nat) (i : BitVec 13) (s : State) : Res :=
  .next (apWord [d, a] (fun s =>
    let ea := effAddr s a i
    let n := widthBytes w
    match s.me.anyPoison [a], checkAccess s s.cur.core ea n .load with
    | false, .ok p =>
      let link := if doomed s p then s.cur.link else none
      let s := s.modMe (fun k => { k with lds := k.lds ++ [⟨d, ea, n, z, link⟩] })
      let s := match link with
        | some k => { s with bridge := { s.bridge with reads := s.bridge.reads ++ [⟨k, .lds s.cur.core d⟩] } }
        | none => s
      .ok (finish s)
    | _, _ => .ok (finish (putA d ⟨0, true⟩ s))) s)

/-- The first outstanding speculative load of a register (R95). -/
def ldsOf (k : Core) (d : Nat) : Option LdsWait := k.lds.find? (fun w => w.d == d)

/-- An outstanding load leaves the list with the value it brings. -/
def ldsReturn (c d : Nat) (v : Poi) (s : State) : State :=
  s.modCore c (fun k => { k with lds := k.lds.eraseP (fun w => w.d == d) }.setAreg d v)

/-- Whether an earlier speculative load that has not returned reads a byte that a later one, the first of register d, reads: the
later one's data comes after it (R271). -/
def ldsBehind (s : State) (c d : Nat) (w : LdsWait) : Bool :=
  ((s.core c).lds.takeWhile (fun x => x.d != d)).any (fun x =>
    match s.place c x.ea, s.place c w.ea with
    | some p, some q => decide (p.key < q.key + w.n) && decide (q.key < p.key + x.n)
    | _, _ => false)

/-- LDS_DATA_ARRIVE (R95): the data, or poison when a check fails or the data is poisoned. -/
def execLdsDataArrive (c d : Nat) (s : State) : Res :=
  let s := asSide c .ap s
  .next (match s.unitsLive c, ldsOf (s.core c) d with
    | true, some w =>
      if w.link.isSome || ldsBehind s c d w then s
      else
        match checkAccess s c w.ea w.n .load with
        | .error _ => ldsReturn c d ⟨0, true⟩ s
        | .ok p =>
          if s.owesAt (dieOf c) p.key w.n then s
          else
          let (s, g) := readPlace s (dieOf c) p w.n .relaxed
          ldsReturn c d (if g.poison then ⟨0, true⟩ else ⟨loadValue w.z g.bytes, false⟩) s
    | _, _ => s)

/-- `st` (R93). -/
def execSt (w d a : Nat) (i : BitVec 13) (s : State) : Res :=
  .next (apWord [d, a] (fun s =>
    if s.me.anyPoison [a, d] then .error trapPoison
    else storeWord (widthBytes w) (s.me.areg d).val (effAddr s a i) none s) s)

/-- How an acquire at a scope is served: at home from `.dev` on (R98). -/
def acquireServe (scope : Nat) : Serve := if scope < 3 then .relaxed else .home

/-- `ld.acq` (R98). -/
def execLdAcq (w d a : Nat) (z : Bool) (sc : Nat) (s : State) : Res :=
  .next (apWord [d, a] (fun s =>
    if s.me.anyPoison [a] then .error trapPoison
    else loadWord (widthBytes w) z d (s.me.areg a).val (acquireServe sc) s) s)

/-- `st.rel` (R98). -/
def execStRel (w d a sc : Nat) (s : State) : Res :=
  .next (apWord [d, a] (fun s =>
    if s.me.anyPoison [a, d] then .error trapPoison
    else storeWord (widthBytes w) (s.me.areg d).val (s.me.areg a).val (some sc) s) s)

/-- `chk` (R96). -/
def execChk (a : Nat) (s : State) : Res :=
  .next (apWord [a] (fun s => if s.me.anyPoison [a] then .error trapPoison else .ok (finish s)) s)

/-- Tag of an aperture code (R90). -/
def apertureTag (p : Nat) : Nat :=
  match p with
  | 0 => 0x00
  | 1 => 0xF0
  | 2 => 0xF8
  | _ => 0xFC

/-- Whether an address is valid in an aperture (R90). -/
def validIn (s : State) (c p : Nat) (a : Addr) : Bool :=
  nfld a.toNat 56 8 == apertureTag p && (s.place c a).isSome

/-- `cvta.to` (R100): a poisoned source poisons d and takes no fault. -/
def execCvtaTo (d a p : Nat) (s : State) : Res :=
  .next (apWord [d, a] (fun s =>
    let x := s.me.areg a
    let r := BitVec.ofNat 64 (apertureTag p * 2 ^ 56) ||| x.val
    if x.bad then .ok (finish (putA d ⟨r, true⟩ s))
    else if (s.place s.cur.core r).isSome then .ok (finish (putA d ⟨r, false⟩ s))
    else .error (trapOn .aperture r)) s)

/-- `cvta.of` (R100). -/
def execCvtaOf (d a p : Nat) (s : State) : Res :=
  .next (apWord [d, a] (fun s =>
    let x := s.me.areg a
    let r := BitVec.ofNat 64 (nfld x.val.toNat 0 56)
    if x.bad then .ok (finish (putA d ⟨r, true⟩ s))
    else if validIn s s.cur.core p x.val then .ok (finish (putA d ⟨r, false⟩ s))
    else .error (trapOn .aperture x.val)) s)

/-- `isap` (R101). -/
def execIsap (d a p : Nat) (s : State) : Res :=
  .next (apWord [a] (fun s =>
    if s.me.anyPoison [a] then .error trapPoison
    else
      let v := validIn s s.cur.core p (s.me.areg a).val
      .ok (finish (s.modMe (fun k => k.setPred d v)))) s)

/-- An entry appended to a queue between the sides; a full queue blocks (R15). -/
def queuePut (q : Nat) (v : Addr) (s : State) : State :=
  if (s.me.queue q).length ≥ 16 then s
  else finish (s.modMe (fun k => { k with queues := tset k.queues q (k.queue q ++ [v]) }))

/-- The oldest entry of a queue removed into a register; an empty queue blocks (R15). -/
def queueGet (d q : Nat) (s : State) : State :=
  match s.me.queue q with
  | [] => s
  | v :: r => finish ((s.modMe (fun k => { k with queues := tset k.queues q r })).put d v)

/-- `qput` of the AP (R102): a queue that the AP may not name is ILLEGAL before the source's poison is looked at (DESIGN CHOICE, log 104). -/
def execQput (q a : Nat) (s : State) : Res :=
  .next (apWord [a] (fun s =>
    if q ≥ 4 then .error (trapAt .illegal)
    else if s.me.anyPoison [a] then .error trapPoison
    else .ok (queuePut q (s.me.areg a).val s)) s)

/-- `qget` of the AP (R102). -/
def execQget (d q : Nat) (s : State) : Res :=
  .next (apWord [d] (fun s => if q < 4 then .error (trapAt .illegal) else .ok (queueGet d q s)) s)

end Sys2Proof.Machine
end

