-- ==== Sys2Proof/Machine/Streams.lean ====
section
/-! DEFINITION. Streams: shapes and walks (R107-R109), positions and slots (R104-R106), swizzles (R247, R248), fillers,
drainers and CORE pairs (R116-R119), ports as operands of XP words (R127-R129), fault records (R159, R309). -/

namespace Sys2Proof.Machine

/-! ### Records -/

/-- A field of a 64-byte record: n bytes at an offset. -/
def recFld (v : BitVec 512) (off n : Nat) : Nat := nfld v.toNat (8 * off) (8 * n)

/-- A signed 64-bit field. -/
def recSigned (v : BitVec 512) (off : Nat) : Int := toSigned 64 (recFld v off 8)

/-- An engine fault record (R159). -/
def faultRec (code cause ring kind core port : Nat) (stopped : Bool) (seq index : Nat) (addr : Addr) (chunk time : Nat) :
    BitVec 512 :=
  BitVec.ofNat 512 (bytesNat (natBytes 1 code ++ natBytes 1 cause ++ natBytes 1 ring ++ natBytes 1 kind ++ natBytes 2 core ++
    natBytes 1 port ++ natBytes 1 stopped.toNat ++ natBytes 4 seq ++ natBytes 4 index ++ bvBytes 8 addr ++ natBytes 8 chunk ++
    natBytes 8 time))

/-- INDEX of a fault record that concerns no row or element. -/
def noIndex : Nat := 0xFFFFFFFF

/-! ### Shapes (R107-R109) -/

/-- Bytes per run. -/
def shLen (v : BitVec 512) : Nat := recFld v 0 4

/-- log2 of the element size. -/
def shElem (v : BitVec 512) : Nat := recFld v 4 1

/-- Iterations of a level. -/
def shCount (v : BitVec 512) (i : Nat) : Nat := recFld v (0x10 + 4 * i) 4

/-- Byte stride of a level. -/
def shStride (v : BitVec 512) (i : Nat) : Int := recSigned v (0x20 + 8 * i)

/-- OFFSET of a shape. -/
def shOffset (v : BitVec 512) : Int := recSigned v 8

/-- Runs of a walk. -/
def shRuns (v : BitVec 512) : Nat := shCount v 0 * shCount v 1 * shCount v 2 * shCount v 3

/-- The checks of R108. -/
def shapeOk (v : BitVec 512) : Bool :=
  let e := 2 ^ shElem v
  recFld v 5 1 / 2 == 0 && recFld v 6 2 == 0 && decide (shElem v ≤ 3) && decide (1 ≤ shLen v) && decide (shLen v ≤ 65536) &&
    isMul (shLen v) e && isMul (recFld v 8 8) e && [0, 1, 2, 3].all (fun i => isMul (recFld v (0x20 + 8 * i) 8) e) &&
    [0, 1, 2, 3].all (fun i => decide (1 ≤ shCount v i)) && decide (shLen v * shRuns v < 2 ^ 48)

/-- Address of run n of a walk (R109). -/
def runAddr (v : BitVec 512) (base : Addr) (n : Nat) : Addr :=
  let c0 := shCount v 0
  let c1 := shCount v 1
  let c2 := shCount v 2
  base + BitVec.ofInt 64 (shOffset v + (n % c0 : Nat) * shStride v 0 + (n / c0 % c1 : Nat) * shStride v 1 +
    (n / (c0 * c1) % c2 : Nat) * shStride v 2 + (n / (c0 * c1 * c2) : Nat) * shStride v 3)

/-! ### The open word (R110, R111) -/

/-- KIND. -/
def opKind (o : BitVec 64) : Nat := nfld o.toNat 0 4

/-- Bytes of a slot. -/
def opSlot (o : BitVec 64) : Nat := 64 * 2 ^ nfld o.toNat 4 2

/-- SWZ. -/
def opSwz (o : BitVec 64) : Nat := nfld o.toNat 6 2

/-- TAG. -/
def opTag (o : BitVec 64) : Bool := nfld o.toNat 8 1 == 1

/-- NSLOT. -/
def opNslot (o : BitVec 64) : Nat := nfld o.toNat 16 12

/-- PEER. -/
def opPeer (o : BitVec 64) : Nat := nfld o.toNat 28 8

/-- PEER_PORT. -/
def opPeerPort (o : BitVec 64) : Nat := nfld o.toNat 36 5

/-- Ring size RB. -/
def opRb (o : BitVec 64) : Nat := opNslot o * opSlot o

/-- Whether a stream is a sink. -/
def opSink (o : BitVec 64) : Bool := decide (opKind o ≥ 8)

/-- Whether a swizzle's span fits a slot (R111). -/
def swzFits (swz slot : Nat) : Bool := decide (swz < 2) || decide (32 * 2 ^ swz ≤ slot)

/-- The checks of R111 on an open word for a core. -/
def openOk (s : State) (c : Nat) (o : BitVec 64) : Bool :=
  let k := opKind o
  let peerOk := match k with
    | 1 | 9 =>
      (match s.heatOf c with
        | some h => h.hr.has (opPeer o) && opPeer o != c
        | none => false)
    | 2 => opPeerPort o == 0 && decide (opPeer o < 128) && s.form.hasDie (opPeer o / 64)
    | _ => opPeer o == 0 && opPeerPort o == 0
  decide (o.toNat < 2 ^ 41) && nfld o.toNat 9 7 == 0 && [0, 1, 2, 3, 8, 9].contains k && decide (2 ≤ opNslot o) &&
    decide (opNslot o ≤ 1024) && isMul (opRb o) 512 && decide (1024 ≤ opRb o) && swzFits (opSwz o) (opSlot o) && peerOk

/-! ### Positions and slots -/

/-- The stream and entry a port is bound to (R104). -/
def Core.bound (k : Core) (port : Nat) : Option (Nat × Nat × Stream) :=
  k.streams.findSome? (fun p => (p.2.readers.find? (fun r => r.2.port == port)).map (fun r => (p.1, r.1, p.2)))

/-- A stream of a core replaced. -/
def putStream (c n : Nat) (st : Stream) (s : State) : State :=
  s.modCore c (fun k => { k with streams := tset k.streams n st })

/-- A stream of a core ended: its ring is released. -/
def dropStream (c n : Nat) (s : State) : State :=
  dropReads (fun w => w == .filler c n) (s.modCore c (fun k => { k with streams := tdel k.streams n }))

/-- A reader's hold on the ring: its mark, or its position (R105). -/
def Reader.low (r : Reader) : Nat := r.mark.getD r.rdpos

/-- LOW (R105). -/
def Stream.low (st : Stream) : Nat :=
  match st.readers with
  | [] => st.head
  | p :: r => r.foldl (fun m q => Nat.min m q.2.low) p.2.low

/-- The slot of a position. -/
def Stream.slotOf (st : Stream) (p : Nat) : Nat := p / opSlot st.openw % opNslot st.openw

/-- Bits of a slot. -/
def Stream.slot (st : Stream) (i : Nat) : SlotBits := tget st.slots i ⟨false, false, 0⟩

/-- Slots that hold a position from LOW to HEAD keep their bits; the others are empty (R105). -/
def freeSlots (st : Stream) : Stream :=
  let n := opNslot st.openw
  let lo := st.low / opSlot st.openw
  { st with slots := st.slots.filter (fun p =>
      decide ((lo + (p.1 + n - lo % n) % n) * opSlot st.openw < st.head)) }

/-- A reader entry replaced, and slots below LOW freed. -/
def Stream.setReader (st : Stream) (j : Nat) (r : Reader) : Stream := freeSlots { st with readers := tset st.readers j r }

/-- Ring offset of a byte under a swizzle code (R247). -/
def phys (swz o : Nat) : Nat :=
  if swz = 0 then o
  else
    let sp := 32 * 2 ^ swz
    let c := sp / 16
    let r := o / sp
    r * sp + 16 * (Nat.xor (o % sp / 16) (r % c)) + o % 16

/-- Key of the byte that a swizzle gives a position. -/
def ringKey (k : Core) (c : Nat) (st : Stream) (swz p : Nat) : Nat :=
  poolKey c (k.padBase + st.ring.toNat % 2 ^ 20 + phys swz (p % opRb st.openw))

/-- Bytes of positions read under a swizzle, in position order. -/
def ringRead (s : State) (c : Nat) (st : Stream) (swz p n : Nat) : List Byte :=
  (List.range n).map (fun i => memGet s.mem (ringKey (s.core c) c st swz (p + i)))

/-- Positions at which the 16-byte granules that n positions touch begin: a swizzle moves whole granules (R247, R310). -/
def ringGranules (p n : Nat) : List Nat :=
  if n = 0 then [] else (List.range ((p % 16 + n - 1) / 16 + 1)).map (fun i => (p / 16 + i) * 16)

/-- Whether a granule of the scratchpad under n positions is poisoned (R310). -/
def ringBad (s : State) (c : Nat) (st : Stream) (swz p n : Nat) : Bool :=
  (ringGranules p n).any (fun q => s.badAt (ringKey (s.core c) c st swz q))

/-- Granules that bytes stored at positions cover wholly become clean; one partly covered keeps its poison (R310). -/
def ringClean (c : Nat) (st : Stream) (swz p n : Nat) (s : State) : State :=
  (ringGranules p n).foldl (fun s q =>
    if p ≤ q ∧ q + 16 ≤ p + n then cleanKey (ringKey (s.core c) c st swz q) s else s) s

/-- Bytes stored at positions under a swizzle (R247, R310). -/
def ringWrite (c : Nat) (st : Stream) (swz p : Nat) (l : List Byte) (s : State) : State :=
  let s := ringClean c st swz p l.length s
  { s with mem := (l.zipIdx p).foldl (fun m q => memSet m (ringKey (s.core c) c st swz q.2) q.1) s.mem }

/-- Slots touched by n bytes from a position. -/
def slotSpan (st : Stream) (p n : Nat) : List Nat :=
  if n = 0 then []
  else (List.range ((p + n - 1) / opSlot st.openw - p / opSlot st.openw + 1)).map (fun i => p / opSlot st.openw + i)

/-- The bits of the slots that n bytes from HEAD touch, after they commit: TAG, POISON and, for a slot wholly committed,
FULL (R104-R106). -/
def commitSlots (st : Stream) (n tag : Nat) (bad : Nat → Bool) : Tbl SlotBits :=
  (slotSpan st st.head n).foldl (fun t m =>
    let i := m % opNslot st.openw
    let old := tget t i ⟨false, false, 0⟩
    tset t i ⟨decide ((m + 1) * opSlot st.openw ≤ st.head + n), old.poison || bad m, tag⟩) st.slots

/-- Bytes commit at HEAD; `bad` says which slots (counted from position 0) they poison (R105, R106, R248). -/
def commitBytes (c n : Nat) (st : Stream) (l : List Byte) (tag : Nat) (bad : Nat → Bool) (s : State) : State :=
  let s := ringWrite c st tag st.head l s
  (putStream c n { st with slots := commitSlots st l.length tag bad, head := st.head + l.length } s).act c

/-- FLAGS.INV of a shape (R107): its fetches are invariant loads. -/
def shInv (v : BitVec 512) : Bool := recFld v 5 1 % 2 == 1

/-- Bytes of a source run as fetched, cut at slot ends, each piece with its poison (R117, R282). -/
def fetchPieces (inv : Bool) (fuel : Nat) (c : Nat) (ea : Addr) (pos n slot : Nat) (s : State) : State × List (Nat × List Byte × Bool) :=
  match fuel with
  | 0 => (s, [])
  | fuel + 1 =>
    if n = 0 then (s, [])
    else
      let m := Nat.min n (slot - pos % slot)
      let (s, g) := readAt s c ea m (if inv then .inv else .relaxed)
      let (s, r) := fetchPieces inv fuel c (ea + BitVec.ofNat 64 m) (pos + m) (n - m) slot s
      (s, (pos / slot, g.bytes, g.poison) :: r)

/-- The n bytes of a ring from a position on in pieces that lie in one granule each, each with the poison of its slot and of its granule
(R310). -/
def ringPieces (s : State) (c : Nat) (st : Stream) (swz p n : Nat) : List (List Byte × Bool) :=
  (ringGranules p n).map (fun q =>
    let a := Nat.max p q
    let m := Nat.min (p + n) (q + 16) - a
    (ringRead s c st swz a m, (st.slot (st.slotOf a)).poison || ringBad s c st swz a m))

/-! ### What a sink has still to write (R118, R261) -/

/-- Address to which a drainer writes the byte at a position: the walk's runs in order, from WALK_OFS of run WALK_RUN on at RDPOS
(R118). -/
def sinkAddr (st : Stream) (rdpos p : Nat) : Addr :=
  let o := st.walkOfs + (p - rdpos)
  runAddr st.shape st.walkBase (st.walkRun + o / shLen st.shape) + BitVec.ofNat 64 (o % shLen st.shape)

/-- Committed elements of a sink's walk that are not in memory yet, oldest first: position and address. -/
def undrained (st : Stream) : List (Nat × Addr) :=
  match tfind st.readers 0 with
  | some r =>
    if opKind st.openw = 8 ∧ st.fill = .run then
      let e := 2 ^ shElem st.shape
      let n := Nat.min (st.head - r.rdpos) (shLen st.shape * (shRuns st.shape - st.walkRun) - st.walkOfs)
      ((List.range (n / e)).map (fun i => (r.rdpos + e * i, sinkAddr st r.rdpos (r.rdpos + e * i)))).filter
        (fun p => !st.early.contains p.1)
    else []
  | none => []

/-- Bytes of a sink's ring from a position on written at an address, with their poison (R118, R143). -/
def sinkBytes (c : Nat) (st : Stream) (p m : Nat) (ea : Addr) (s : State) : State :=
  let ps := ringPieces s c st (opSwz st.openw) p m
  markPieces c ea (writeAt c ea (ps.flatMap (fun p => p.1)) false .relaxed s) ps

/-- A piece of a sink's ring written: the elements that a reader has met are in memory already (R261). -/
def drainPiece (c : Nat) (st : Stream) (p m : Nat) (ea : Addr) (s : State) : State :=
  if st.early.any (fun q => decide (p ≤ q) && decide (q < p + m)) = false then sinkBytes c st p m ea s
  else
    let e := 2 ^ shElem st.shape
    (List.range (m / e)).foldl (fun s i =>
      if st.early.contains (p + e * i) then s else sinkBytes c st (p + e * i) e (ea + BitVec.ofNat 64 (e * i)) s) s

/-- Whether an element at an address of a core lies under n bytes from a key on. -/
def underRun (s : State) (c : Nat) (a : Addr) (e key n : Nat) : Bool :=
  (s.place c a).any (fun q => decide (q.key < key + n) && decide (key < q.key + e))

/-- One element of a sink meets the fetch of a run over it: it is in memory then, or it comes later, each element on its own
(R261; DEDUCED, log 9). -/
def meetElement (c n : Nat) (p : Nat × Addr) (s : State) : State :=
  match tfind (s.core c).streams n with
  | some st =>
    let e := 2 ^ shElem st.shape
    let (t, x) := freeNat s
    if x % 2 = 1 ∧ (checkRange s c p.2 e .store).isNone = true then
      putStream c n { st with early := st.early ++ [p.1] } (sinkBytes c st p.1 e p.2 t)
    else t
  | none => s

/-- The elements of one sink, oldest first; two of one address keep their order. -/
def meetSink (c n e key len : Nat) : List (Nat × Addr) → List Addr → State → State
  | [], _, s => s
  | p :: r, later, s =>
    if underRun s c p.2 e key len = true ∧ later.contains p.2 = false then
      let t := meetElement c n p s
      let done := (tfind (t.core c).streams n).any (fun st => st.early.contains p.1)
      meetSink c n e key len r (if done then later else later ++ [p.2]) t
    else meetSink c n e key len r (later ++ [p.2]) s

/-- What a fetch of n bytes from a key on meets of the sinks that move (R261); over a link that fails nothing comes early. -/
def meetSinks (key len : Nat) (s : State) : State :=
  if s.cur.link.isSome then s
  else
    (s.cores.flatMap (fun k => k.2.streams.map (fun p => (k.1, p.1)))).foldl (fun s q =>
      match tfind (s.core q.1).streams q.2 with
      | some st => if s.unitsLive q.1 then meetSink q.1 q.2 (2 ^ shElem st.shape) key len (undrained st) [] s else s
      | none => s) s

/-- A run fetched and committed whole at HEAD (R106, R117), in the step that commits it, never ahead (DESIGN CHOICE, log 95); elements
that a sink has still to write may come first (R261; DEDUCED, log 9). `forced` poisons every slot of it. -/
def commitRun (inv : Bool) (c n : Nat) (st : Stream) (ea : Addr) (len : Nat) (forced : Bool) (s : State) : State :=
  let s := (s.place c ea).elim s (fun p => meetSinks p.key len s)
  let (s, ps) := fetchPieces inv (len / opSlot st.openw + 2) c ea st.head len (opSlot st.openw) s
  commitBytes c n st (ps.flatMap (fun p => p.2.1)) (opSwz st.openw)
    (fun m => forced || ps.any (fun p => p.1 == m && p.2.2)) s

/-- A stream fault is recorded and delivered; SEQ and CHUNK of its record, which concern no record of a ring, are free
(R119, R159, R309, R318 source 6; DESIGN CHOICE, log 39). -/
def streamFault (c : Nat) (port : Option Nat) (code : Code) (addr : Addr) (stopped : Bool) (walkRun : Nat) (s : State) :
    State :=
  let tb := (s.die (dieOf c)).tb.toNat
  let (s, seq) := freeNat s
  let (s, chunk) := freeNat s
  let s := s.modCore c (fun k => { k with
    sfault := faultRec code.num 0 0xFF 0 c (port.getD 0xFF) stopped seq noIndex addr chunk tb })
  postDelivery c ⟨deliveryWord code.num (code == .poison) 6 0 stopped port c, addr, BitVec.ofNat 64 walkRun, 0⟩ s

/-- Port that a fault record of a stream names: that of its first entry, which is entry 0 while that is bound and then a
fork's; none once a sink's port is closed (R119, R123; DEDUCED, log 79). -/
def Stream.port0 (st : Stream) : Option Nat :=
  match st.readers with
  | p :: _ => if p.2.port = 255 then none else some p.2.port
  | [] => none

/-- A walk stops on a fault (R119). -/
def stopWalk (c n : Nat) (st : Stream) (code : Code) (addr : Addr) (s : State) : State :=
  streamFault c st.port0 code addr true st.walkRun
    (putStream c n { st with fill := .stop, err := BitVec.ofNat 8 code.num } s)

/-- What stands in a run whose fetch a change of mapping refused: poison without a source (R117; DESIGN CHOICE, log 24). -/
def lostRun (ea : Addr) (n : Nat) : List Byte := (List.range n).map (fun i => Config.lostByte (ea.toNat + i))

/-- FILLER_COMMIT (R117-R119): the oldest reserved `sld` run, or the next run of the walk, is fetched and commits whole. -/
def fillerCommit (c n : Nat) (s : State) : State :=
  match tfind (s.core c).streams n with
  | none => s
  | some st =>
    match st.slds with
    | (ea, len, inv) :: r =>
      let st := { st with slds := r }
      match checkRange s c ea len .load with
      | some (code, a) =>
        let s := commitBytes c n st (lostRun ea len) (opSwz st.openw) (fun _ => true) s
        streamFault c st.port0 code a false 0 s
      | none => commitRun inv c n st ea len false s
    | [] =>
      if opKind st.openw ≠ 0 ∨ st.fill ≠ .run then s
      else
        let len := shLen st.shape
        if st.head + len > st.low + opRb st.openw then s
        else
          let ea := runAddr st.shape st.walkBase st.walkRun
          match checkRange s c ea len .load with
          | some (code, a) => stopWalk c n st code a s
          | none =>
            let run := st.walkRun + 1
            commitRun (shInv st.shape) c n { st with walkRun := run, fill := if run = shRuns st.shape then .done else .run } ea len false s

/-- The CORE source that a CORE sink of a core pairs with, by the descriptor of the port it was opened on (R116, R244). -/
def corePeer (s : State) (c n : Nat) (st : Stream) : Option Stream :=
  (tfind (s.core (opPeer st.openw)).streams (opPeerPort st.openw)).filter (fun t =>
    opKind st.openw == 9 && opKind t.openw == 1 && opPeer t.openw == c && opPeerPort t.openw == n)

/-- The source of a CORE pair takes END (R116). -/
def endPeer (c n : Nat) (st : Stream) (s : State) : State :=
  match corePeer s c n st with
  | some t => putStream (opPeer st.openw) (opPeerPort st.openw) { t with fin := true } s
  | none => s

/-- A closed sink whose bytes have all left ends, and the source of its CORE pair takes END (R116, R123). A source that is opened only
later finds no sink and takes no END (DESIGN CHOICE, log 92). -/
def endClosedSink (c n : Nat) (s : State) : State :=
  match tfind (s.core c).streams n with
  | some st => if st.closed = true ∧ st.low = st.head then dropStream c n (endPeer c n st s) else s
  | none => s

/-- DRAINER_WRITE (R118, R119): a piece of about `len` committed bytes, whole elements, is written to the current run, up to its
end (R261). -/
def drainerWrite (c n len : Nat) (s : State) : State :=
  match tfind (s.core c).streams n with
  | none => s
  | some st =>
    match tfind st.readers 0 with
    | none => s
    | some r =>
      let m := Nat.min len (Nat.min (st.head - r.rdpos) (shLen st.shape - st.walkOfs))
      let m := m / 2 ^ shElem st.shape * 2 ^ shElem st.shape
      if opKind st.openw ≠ 8 ∨ st.fill ≠ .run ∨ m = 0 then s
      else
        let ea := runAddr st.shape st.walkBase st.walkRun + BitVec.ofNat 64 st.walkOfs
        match checkRange s c ea m .store with
        | some (code, a) => stopWalk c n st code a s
        | none =>
          let s := drainPiece c st r.rdpos m ea s
          let full := decide (st.walkOfs + m = shLen st.shape)
          let run := if full then st.walkRun + 1 else st.walkRun
          let st := { st with walkRun := run, walkOfs := if full then 0 else st.walkOfs + m
                              fill := if full && run == shRuns st.shape then .done else .run
                              early := st.early.filter (fun q => decide (r.rdpos + m ≤ q)) }
          (endClosedSink c n (putStream c n (st.setReader 0 { r with rdpos := r.rdpos + m }) s)).act c

/-- CORE_SLOT_TRANSFER (R116): the oldest full slot of a CORE sink moves whole to its peer, with poison of its granules. Where
the SLOT values differ both ends stop, and the fault record names the sink's ring (DEDUCED, log 78). -/
def coreSlotTransfer (c n : Nat) (s : State) : State :=
  match tfind (s.core c).streams n with
  | none => s
  | some st =>
    let peer := opPeer st.openw
    let m := opPeerPort st.openw
    match tfind st.readers 0, corePeer s c n st with
    | some r, some t =>
      let len := opSlot st.openw
      let b := st.slot (st.slotOf r.rdpos)
      if st.err ≠ 0 ∨ t.fin = true ∨ st.head = r.rdpos ∨ b.full = false then endClosedSink c n s
      else if opSlot t.openw ≠ len then
        streamFault c st.port0 .stream st.ring true 0
          (putStream c n { st with err := BitVec.ofNat 8 Code.stream.num, fill := .stop }
            (putStream peer m { t with err := BitVec.ofNat 8 Code.stream.num, fin := true } s))
      else if t.head + len > t.low + opRb t.openw then s
      else
        let l := ringRead s c st 0 r.rdpos len
        let bad := b.poison || ringBad s c st 0 r.rdpos len
        let s := ringWrite peer t 0 t.head l s
        let s := putStream peer m
          { t with slots := tset t.slots (t.slotOf t.head) ⟨true, bad, b.tag⟩, head := t.head + len } s
        ((endClosedSink c n (putStream c n (st.setReader 0 { r with rdpos := r.rdpos + len }) s)).act c).act peer
    | _, _ => s

/-! ### Ports of XP words (R127-R129) -/

/-- What a port read or write meets: it must wait, it takes a fault, or it can be made. -/
inductive PortCheck where
  | wait
  | trap (t : Trap)
  | ready
  deriving DecidableEq, Repr, Inhabited

/-- Slots of the n bytes an entry reads next. -/
def unitSlots (st : Stream) (r : Reader) (n : Nat) : List SlotBits :=
  (slotSpan st r.rdpos (Nat.min n (st.head - r.rdpos))).map (fun i => st.slot (i % opNslot st.openw))

/-- Whether a unit of n bytes of an entry carries poison, of a slot or of a granule of the ring, and whether a checked tag
differs (R129, R310). -/
def unitFault (s : State) (c : Nat) (st : Stream) (r : Reader) (n : Nat) : Option Trap :=
  let l := unitSlots st r n
  if l.any (fun b => b.poison) || ringBad s c st r.swz r.rdpos (Nat.min n (st.head - r.rdpos)) then some trapPoison
  else if r.tag = true ∧ l.any (fun b => b.tag != r.swz) = true then some (trapAt .layout)
  else none

/-- A read of n bytes by the entry of a source port (R127, R129). -/
def portReadable (s : State) (c port n : Nat) : PortCheck :=
  match (s.core c).bound port with
  | none => .trap (trapAt .stream)
  | some (_, j, st) =>
    match tfind st.readers j with
    | none => .trap (trapAt .stream)
    | some r =>
      if opSink st.openw then .trap (trapAt .stream)
      else if st.fin = true ∧ st.head ≤ r.rdpos then .trap (trapAt .stream)
      else if (match r.mark with
          | some m => decide (r.rdpos + n > m + opRb st.openw)
          | none => false) then .trap (trapAt .stream)
      else if r.rdpos + n ≤ st.head ∨ st.fin = true then
        (match unitFault s c st r n with
          | some t => .trap t
          | none => .ready)
      else .wait

/-- The bytes of a unit, under the entry's swizzle, a short last unit completed with zeros (R127). -/
def portBytes (s : State) (c port n : Nat) : List Byte :=
  match (s.core c).bound port with
  | some (_, j, st) =>
    (match tfind st.readers j with
      | some r =>
        let m := Nat.min n (st.head - r.rdpos)
        ringRead s c st r.swz r.rdpos m ++ List.replicate (n - m) 0
      | none => List.replicate n 0)
  | none => List.replicate n 0

/-- The entry moves past the unit read (R127, R128). -/
def portAdvance (c port n : Nat) (s : State) : State :=
  match (s.core c).bound port with
  | some (i, j, st) =>
    (match tfind st.readers j with
      | some r =>
        let p := if r.rdpos + n ≤ st.head then r.rdpos + n else roundUp st.head (opSlot st.openw)
        (putStream c i (st.setReader j { r with rdpos := p }) s).act c
      | none => s)
  | none => s

/-- Position of the entry bound to a port. -/
def portPos (s : State) (c port : Nat) : Nat :=
  match (s.core c).bound port with
  | some (_, j, st) => (tfind st.readers j).elim 0 (fun r => r.rdpos)
  | none => 0

/-- The part as a reader sees it whose entry stands at a position: what a read of a later unit meets. -/
def portSeek (c port p : Nat) (s : State) : State :=
  match (s.core c).bound port with
  | some (i, j, st) =>
    (match tfind st.readers j with
      | some r => putStream c i { st with readers := tset st.readers j { r with rdpos := p } } s
      | none => s)
  | none => s

/-- Whether a `wload` in progress claims a port's reader entry (R196). -/
def claimed (k : Core) (port : Nat) : Bool :=
  match k.inLoad with
  | some w =>
    (match wordInstr w.q.word with
      | some (.wload p _ _) => p == port
      | _ => false)
  | none => false

/-- What a read of a unit by a word meets: a claimed entry makes it wait, for words of every queue and for `nset` (R129, R196; DESIGN
CHOICE, log 94: R196 names vector words). -/
def unitReady (s : State) (port : Nat) : PortCheck := if claimed s.me port then .wait else portReadable s s.cur.core port 512

/-- The checks together: STREAM before anything waits, then a wait, then what the units carry (R129; DEDUCED, log 45). -/
def joinChecks (l : List PortCheck) : PortCheck :=
  if l.contains (.trap (trapAt .stream)) then .trap (trapAt .stream)
  else if l.contains .wait then .wait
  else (l.find? (fun p => p != .ready)).getD .ready

/-- A write of a 512-byte unit to a sink port (R127, R129). -/
def portWritable (s : State) (c port : Nat) : PortCheck :=
  match (s.core c).bound port with
  | none => .trap (trapAt .stream)
  | some (_, _, st) =>
    if opSink st.openw = false then .trap (trapAt .stream)
    else if st.head + 512 ≤ st.low + opRb st.openw then .ready
    else .wait

/-- A unit committed to a sink port (R127). -/
def portWrite (c port : Nat) (l : List Byte) (s : State) : State :=
  match (s.core c).bound port with
  | some (i, _, st) => commitBytes c i st l (opSwz st.openw) (fun _ => false) s
  | none => s

end Sys2Proof.Machine
end

