-- ==== Sys2Proof/Machine/ApStream.lean ====
section
/-! DEFINITION. The AP's stream instructions (R112-R126). -/

namespace Sys2Proof.Machine

/-- A stream instruction reads a registers: a poisoned one takes POISON before any check (R112). -/
def streamWord (srcs dsts : List Nat) (body : State → Except Trap State) (s : State) : State :=
  apWord (srcs ++ dsts) (fun s => if s.me.anyPoison srcs then .error trapPoison else body s) s

/-- STREAM at the instruction (R113). -/
def refuseStream : Except Trap State := .error (trapAt .stream)

/-- n bytes of a record read precisely by the AP: R91 conditions 3-7, then POISON at the record (R114, R134). -/
def readRecord (ea : Addr) (n : Nat) (s : State) : Except Trap (State × List Byte) :=
  match checkRange s s.cur.core ea n .load with
  | some (code, a) => .error (trapOn code a)
  | none =>
    let (s, g) := readAt s s.cur.core ea n .relaxed
    if g.poison then .error ⟨.poison, some ea, true⟩ else .ok (s, g.bytes)

/-- `shape` (R108, R114). -/
def execShape (k a : Nat) (s : State) : Res :=
  .next (streamWord [a] [] (fun s =>
    let ea := (s.me.areg a).val
    if ea.toNat % 64 ≠ 0 then .error (trapOn .alignIssue ea)
    else
      match readRecord ea 64 s with
      | .error t => .error t
      | .ok (s, l) =>
        let v := BitVec.ofNat 512 (bytesNat l)
        if shapeOk v then .ok (finish (s.modMe (fun c => { c with shapes := tset c.shapes k v })))
        else .error (trapOn .alignShape ea)) s)

/-- Whether two local rings share a byte. -/
def ringsMeet (a n b m : Nat) : Bool := decide (a < b + m) && decide (b < a + n)

/-- Whether a ring meets that of an open stream of the core (R115, R126). -/
def ringTaken (k : Core) (ring : Addr) (rb : Nat) : Bool :=
  k.streams.any (fun p => ringsMeet ring.toNat rb p.2.ring.toNat (opRb p.2.openw))

/-- Whether a ring lies wholly in the local aperture's scratchpad (R115); an empty one does at the scratchpad's end too (DESIGN CHOICE,
log 105). -/
def ringInside (k : Core) (ring : Addr) (rb : Nat) : Bool :=
  nfld ring.toNat 56 8 == 0xFC && decide (nfld ring.toNat 0 56 + rb ≤ k.spad)

/-- A new stream on a port (R115). -/
def newStream (port : Nat) (ring : Addr) (o : BitVec 64) : Stream :=
  { openw := o, ring := ring, shape := 0, walkBase := 0, walkRun := 0, walkOfs := 0, head := 0, fill := .idle, fin := false,
    err := 0, readers := [(0, ⟨port, opSwz o, opTag o, 0, none⟩)], slots := [], slds := [], early := [], holder := none, wants := [], closed := false }

/-- `sopen` (R115). -/
def execSopen (k a b : Nat) (s : State) : Res :=
  .next (streamWord [a, b] [] (fun s =>
    let ring := (s.me.areg a).val
    let o := (s.me.areg b).val
    if ring.toNat % 512 ≠ 0 then .error (trapOn .alignIssue ring)
    else if ringInside s.me ring (opRb o) = false then .error (trapOn .aperture ring)
    else if openOk s s.cur.core o = false ∨ (s.me.bound k).isSome = true ∨ (tfind s.me.streams k).isSome = true ∨
        ringTaken s.me ring (opRb o) = true then refuseStream
    else .ok (finish (putStream s.cur.core k (newStream k ring o) s))) s)

/-- Bytes of the runs an `sld` reserved and that have not committed. -/
def Stream.reserved (st : Stream) : Nat := st.slds.foldl (fun n p => n + p.2.1) 0

/-- `sld` (R117): it waits while the window has no room for its run. -/
def execSld (k a b : Nat) (s : State) : Res :=
  .next (streamWord [a, b] [] (fun s =>
    match s.me.bound k, tfind s.me.shapes k with
    | some (n, _, st), some sh =>
      let ea := (s.me.areg a).val + (s.me.areg b).val
      if opKind st.openw ≠ 0 ∨ st.fin = true ∨ st.fill ≠ .idle ∨ shLen sh > opRb st.openw then refuseStream
      else if ea.toNat % 2 ^ shElem sh ≠ 0 then .error (trapOn .alignIssue ea)
      else
        match checkRange s s.cur.core ea (shLen sh) .load with
        | some (code, e) => .error (trapOn code e)
        | none =>
          if st.head + st.reserved + shLen sh > st.low + opRb st.openw then .ok s
          else .ok (finish (putStream s.cur.core n { st with slds := st.slds ++ [(ea, shLen sh, shInv sh)] } s))
    | _, _ => refuseStream) s)

/-- `sfill` (R118). -/
def execSfill (k a : Nat) (s : State) : Res :=
  .next (streamWord [a] [] (fun s =>
    match s.me.bound k, tfind s.me.shapes k with
    | some (n, _, st), some sh =>
      let base := (s.me.areg a).val
      if (opKind st.openw ≠ 0 ∧ opKind st.openw ≠ 8) ∨ st.fin = true ∨ st.fill = .run ∨ st.fill = .stop then refuseStream
      else if opKind st.openw = 0 ∧ shLen sh > opRb st.openw then refuseStream
      else if (base + BitVec.ofInt 64 (shOffset sh)).toNat % 2 ^ shElem sh ≠ 0 then .error (trapOn .alignIssue base)
      else
        .ok (finish (putStream s.cur.core n
          { st with shape := sh, walkBase := base, walkRun := 0, walkOfs := 0, fill := .run } s))
    | _, _ => refuseStream) s)

/-- `sfill.res` (R119). -/
def execSfillRes (k : Nat) (s : State) : Res :=
  .next (streamWord [] [] (fun s =>
    match s.me.bound k with
    | some (n, _, st) =>
      if st.fill ≠ .stop then refuseStream
      else .ok (finish (putStream s.cur.core n { st with fill := .run, err := 0 } s))
    | none => refuseStream) s)

/-- The lowest entry number that a stream leaves free, which `sfork` gives the new reader (DESIGN CHOICE, log 76). -/
def freeEntry (st : Stream) : Option Nat := [0, 1, 2, 3].find? (fun j => (tfind st.readers j).isNone)

/-- `sfork` (R120). -/
def execSfork (n m : Nat) (sf t : Bool) (w : Nat) (s : State) : Res :=
  .next (streamWord [] [] (fun s =>
    match s.me.bound m with
    | some (i, j, st) =>
      (match freeEntry st, tfind st.readers j with
        | some e, some r =>
          if opSink st.openw = true ∨ (s.me.bound n).isSome = true ∨ (sf = true ∧ swzFits w (opSlot st.openw) = false) then
            refuseStream
          else
            let r' : Reader := ⟨n, if sf then w else r.swz, if sf then t else r.tag, r.rdpos, none⟩
            .ok (finish (putStream s.cur.core i { st with readers := tset st.readers e r' } s))
        | _, _ => refuseStream)
    | none => refuseStream) s)

/-- A mark instruction on the entry of a source port (R121). -/
def markWord (k : Nat) (f : Reader → Option Reader) (s : State) : State :=
  streamWord [] [] (fun s =>
    match s.me.bound k with
    | some (i, j, st) =>
      (match tfind st.readers j with
        | some r =>
          if opSink st.openw then refuseStream
          else
            (match f r with
              | some r' => .ok (finish (putStream s.cur.core i (st.setReader j r') s))
              | none => refuseStream)
        | none => refuseStream)
    | none => refuseStream) s

/-- `smark` (R121). -/
def execSmark (k : Nat) (s : State) : Res := .next (markWord k (fun r => some { r with mark := some r.rdpos }) s)

/-- `smark.clr` (R121). -/
def execSmarkClr (k : Nat) (s : State) : Res := .next (markWord k (fun r => some { r with mark := none }) s)

/-- `srew` (R121). -/
def execSrew (k : Nat) (s : State) : Res :=
  .next (markWord k (fun r => r.mark.map (fun m => { r with rdpos := m })) s)

/-- A port unbound (R123): a source loses the entry and ends with its last one; a sink's writer side ends. -/
def closePort (c i j : Nat) (st : Stream) (s : State) : State :=
  if opSink st.openw then
    let st := { st with closed := true, readers := st.readers.map (fun p => (p.1, { p.2 with port := 255 })) }
    endClosedSink c i (putStream c i st s)
  else
    let rest := tdel st.readers j
    if rest.isEmpty then dropStream c i s else putStream c i (freeSlots { st with readers := rest }) s

/-- `sclose` (R123). -/
def execSclose (k : Nat) (s : State) : Res :=
  .next (streamWord [] [] (fun s =>
    match s.me.bound k with
    | some (i, j, st) => .ok (finish (closePort s.cur.core i j st s))
    | none => refuseStream) s)

/-- `sclose.fin` (R123): it waits for the reserved runs. -/
def execScloseFin (k : Nat) (s : State) : Res :=
  .next (streamWord [] [] (fun s =>
    match s.me.bound k with
    | some (i, _, st) =>
      if opKind st.openw ≠ 0 ∨ st.fill = .run ∨ st.fill = .stop then refuseStream
      else if st.slds ≠ [] then .ok s
      else .ok (finish (putStream s.cur.core i { st with fin := true } s))
    | none => refuseStream) s)

/-- `sdrain` (R124): it waits for RDPOS to reach the HEAD of its first turn. -/
def execSdrain (d k : Nat) (s : State) : Res :=
  .next (streamWord [] [d] (fun s =>
    match s.me.bound k with
    | some (_, _, st) =>
      if opSink st.openw = false then refuseStream
      else if st.fill = .stop then .ok (finish (s.put d (BitVec.ofNat 64 (2 ^ 63 + st.err.toNat))))
      else
        let goal := s.mySide.wait.getD st.head
        if goal ≤ st.low then .ok (finish (s.put d 0))
        else .ok (s.modMySide (fun x => { x with wait := some goal }))
    | none => refuseStream) s)

/-- Code of FILL (R122). -/
def Fill.num : Fill → Nat
  | .idle => 0
  | .run => 1
  | .stop => 2
  | .done => 3

/-- FILL of a code. -/
def fillOf (n : Nat) : Fill :=
  match n with
  | 0 => .idle
  | 1 => .run
  | 2 => .stop
  | _ => .done

/-- The status word of R122. -/
def streamStatus (st : Stream) (ridx : Nat) : Addr :=
  BitVec.ofNat 64 (st.fill.num + st.fin.toNat * 2 ^ 3 + (opSink st.openw).toNat * 2 ^ 4 + st.err.toNat * 2 ^ 8 +
    (st.readers.foldl (fun n p => n + 2 ^ p.1) 0) * 2 ^ 16 + ridx * 2 ^ 20)

/-- `sstat` (R122). -/
def execSstat (d k : Nat) (s : State) : Res :=
  .next (streamWord [] [d] (fun s =>
    match s.me.bound k with
    | some (_, j, st) =>
      let r := tget st.readers j ⟨255, 0, false, 0, none⟩
      let w := streamStatus st j
      let mark := match r.mark with
        | some m => BitVec.ofNat 64 m
        | none => BitVec.allOnes 64
      let s := s.modMe (fun c => { c with
        sstat := [(0, w), (1, BitVec.ofNat 64 st.head), (2, BitVec.ofNat 64 r.rdpos), (3, mark)] })
      .ok (finish (s.put d w))
    | none => refuseStream) s)

/-- RDPOS and MARK of an entry, zeros where it is absent, as RMODE is (DESIGN CHOICE, log 77). -/
def entryBytes (o : Option Reader) : List Byte :=
  match o with
  | some r => natBytes 8 r.rdpos ++ natBytes 8 (r.mark.getD (2 ^ 64 - 1))
  | none => List.replicate 16 0

/-- The 1,024 bytes before the data of a stream image (R126). -/
def streamImage (st : Stream) : List Byte :=
  let e := fun j => tfind st.readers j
  bvBytes 8 st.openw ++ bvBytes 8 st.ring ++ bvBytes 64 st.shape ++ bvBytes 8 st.walkBase ++ natBytes 8 st.walkRun ++
    natBytes 8 st.head ++ bvBytes 8 (streamStatus st 0) ++
    [0, 1, 2, 3].map (fun j => BitVec.ofNat 8 ((e j).elim 0xFF (fun r => r.port))) ++
    [0, 1, 2, 3].map (fun j => BitVec.ofNat 8 ((e j).elim 0 (fun r => r.swz + r.tag.toNat * 4))) ++
    natBytes 8 st.walkOfs ++ [0, 1, 2, 3].flatMap (fun j => entryBytes (e j)) ++
    (List.range 512).map (fun i =>
      let b := fun (x : SlotBits) => x.full.toNat + x.poison.toNat * 2 + x.tag * 4
      BitVec.ofNat 8 (b (st.slot (2 * i)) + b (st.slot (2 * i + 1)) * 16)) ++
    List.replicate 320 0

/-- A stream read back from its image (R126). FILL codes above 3 count as DONE, bits of RMODE that R126 does not name are dropped, and
of a port recorded twice the first entry is found: the rule names no outcome (DESIGN CHOICE, log 93). -/
def imageStream (l : List Byte) : Stream :=
  let f := fun off n => fieldAt l off n
  let st := f 0x68 8
  { openw := BitVec.ofNat 64 (f 0 8), ring := BitVec.ofNat 64 (f 8 8), shape := BitVec.ofNat 512 (f 0x10 64),
    walkBase := BitVec.ofNat 64 (f 0x50 8), walkRun := f 0x58 8, walkOfs := f 0x78 8, head := f 0x60 8,
    fill := fillOf (nfld st 0 3), fin := nfld st 3 1 == 1, err := BitVec.ofNat 8 (nfld st 8 8),
    readers := [0, 1, 2, 3].filterMap (fun j =>
      if f (0x70 + j) 1 = 0xFF then none
      else
        let m := f (0x88 + 16 * j) 8
        some (j, ⟨f (0x70 + j) 1, f (0x74 + j) 1 % 4, f (0x74 + j) 1 / 4 % 2 == 1, f (0x80 + 16 * j) 8,
          if m = 2 ^ 64 - 1 then none else some m⟩)),
    slots := (List.range 1024).filterMap (fun i =>
      let b := f (0xC0 + i / 2) 1 / 16 ^ (i % 2) % 16
      if b = 0 then none else some (i, ⟨b % 2 == 1, b / 2 % 2 == 1, b / 4⟩)),
    slds := [], early := [], holder := none, wants := [], closed := false }

/-- An image's ring bytes stored from an address on, each line poisoned where a granule of it was (R125, R310). -/
def writeRing (c : Nat) (ea : Addr) (st : Stream) (s : State) : State :=
  let l := ringRead s c st 0 0 (opRb st.openw)
  (List.range (opRb st.openw / 64)).foldl (fun t i =>
    writeAt c (ea + BitVec.ofNat 64 (64 * i)) ((l.drop (64 * i)).take 64) (ringBad s c st 0 (64 * i) 64) .relaxed t) s

/-- `ssave` (R125): it waits for runs that an `sld` reserved (DEDUCED, log 43); an unbound port takes STREAM before the
address is checked (DEDUCED, log 77). -/
def execSsave (k a : Nat) (s : State) : Res :=
  .next (streamWord [a] [] (fun s =>
    match s.me.bound k with
    | some (i, _, st) =>
      let ea := (s.me.areg a).val
      let rb := opRb st.openw
      if ea.toNat % 64 ≠ 0 then .error (trapOn .alignIssue ea)
      else
        match checkRange s s.cur.core ea (1024 + rb) .store with
        | some (code, e) => .error (trapOn code e)
        | none =>
          if st.slds ≠ [] then .ok s
          else
            .ok (finish (dropStream s.cur.core i
              (writeRing s.cur.core (ea + 1024) st (writeAt s.cur.core ea (streamImage st) false .relaxed s))))
    | none => refuseStream) s)

/-- Descriptor of a recreated stream: the number of its first entry's port (R244). -/
def imageNumber (st : Stream) : Nat :=
  match st.readers with
  | p :: _ => p.2.port
  | [] => 255

/-- The checks of `srest` on an image (R126): every entry's swizzle fits a slot, as R111 asks. Positions, marks, WALK_OFS, the shape and
reserved bytes are taken as they stand (DESIGN CHOICE, log 93). -/
def imageOk (s : State) (st : Stream) : Bool :=
  openOk s s.cur.core st.openw && isMul st.ring.toNat 512 && ringInside s.me st.ring (opRb st.openw) &&
    !ringTaken s.me st.ring (opRb st.openw) && st.readers.all (fun p => swzFits p.2.swz (opSlot st.openw)) && st.readers.all (fun p => decide (p.2.port < 32) && (s.me.bound p.2.port).isNone) &&
    !st.readers.isEmpty && (tfind s.me.streams (imageNumber st)).isNone

/-- `srest` (R126; DEDUCED, log 42). -/
def execSrest (a : Nat) (s : State) : Res :=
  .next (streamWord [a] [] (fun s =>
    let ea := (s.me.areg a).val
    if ea.toNat % 64 ≠ 0 then .error (trapOn .alignIssue ea)
    else
      match readRecord ea 1024 s with
      | .error t => .error t
      | .ok (s, l) =>
        let st := imageStream l
        if imageOk s st = false then refuseStream
        else
          match readRecord (ea + 1024) (opRb st.openw) s with
          | .error t => .error t
          | .ok (s, data) =>
            let s := ringWrite s.cur.core st 0 0 data s
            .ok (finish (putStream s.cur.core (imageNumber st) st s))) s)

/-- FILLER_COMMIT (R117-R119). -/
def execFillerCommit (c n : Nat) (s : State) : Res :=
  .next (if s.unitsLive c then overLink (.filler c n) (fillerCommit c n) (asSide c .ap s) else s)

/-- DRAINER_WRITE (R118, R119). -/
def execDrainerWrite (c n len : Nat) (s : State) : Res :=
  .next (if s.unitsLive c then drainerWrite c n len (asSide c .ap s) else s)

/-- CORE_SLOT_TRANSFER (R116). -/
def execCoreSlotTransfer (c n : Nat) (s : State) : Res :=
  .next (if s.unitsLive c then coreSlotTransfer c n (asSide c .ap s) else s)

end Sys2Proof.Machine
end

