-- ==== Sys2Proof/Machine/Flags.lean ====
section
/-! DEFINITION. Numbers: the formats (R55-R57), rounding once from the exact value with its flags (R60-R62), NaN results
(R63), conversions (R64), and single operations (R65). A flag set is a number in the layout of FLAGS (R24). -/

namespace Sys2Proof.Machine

/-! ### Flags (R24) -/

/-- Invalid. -/
def fNV : Nat := 1

/-- Overflow. -/
def fOF : Nat := 2

/-- Underflow. -/
def fUF : Nat := 4

/-- Inexact. -/
def fNX : Nat := 8

/-- A result was saturated. -/
def fSAT : Nat := 16

/-- Accumulator overflow in the array. -/
def fAOV : Nat := 32

/-- Two flag sets together. -/
def flagOr (a b : Nat) : Nat := Nat.lor a b

/-- Flags ORed into FLAGS of the moving core (R24). -/
def raiseFlags (f : Nat) (s : State) : State := s.modMe (fun k => { k with flags := k.flags ||| BitVec.ofNat 6 f })

/-! ### Formats (R55) -/

/-- How a format spends its top exponent field. -/
inductive Top where
  | ieee
  | e4
  | none
  deriving DecidableEq, Repr, Inhabited

/-- A floating-point format: exponent and mantissa bits, bias, top exponent field. -/
structure Fmt where
  eb   : Nat
  mb   : Nat
  bias : Nat
  top  : Top
  deriving DecidableEq, Repr, Inhabited

/-- f4 (E2M1). -/
def fmtF4 : Fmt := ⟨2, 1, 1, .none⟩

/-- f8e4 (E4M3). -/
def fmtE4 : Fmt := ⟨4, 3, 7, .e4⟩

/-- f8e5 (E5M2). -/
def fmtE5 : Fmt := ⟨5, 2, 15, .ieee⟩

/-- bf16. -/
def fmtBf : Fmt := ⟨8, 7, 127, .ieee⟩

/-- f16. -/
def fmtH : Fmt := ⟨5, 10, 15, .ieee⟩

/-- f32. -/
def fmtF : Fmt := ⟨8, 23, 127, .ieee⟩

/-- Format of a float element type (R23). -/
def etFmt (e : Nat) : Fmt :=
  match e with
  | 8 => fmtF4
  | 9 => fmtE4
  | 10 => fmtE5
  | 11 => fmtBf
  | 12 => fmtH
  | _ => fmtF

/-- Sign bit of a format as a number. -/
def Fmt.signBit (f : Fmt) : Nat := 2 ^ (f.eb + f.mb)

/-- Pattern of the largest finite magnitude. -/
def Fmt.maxEnc (f : Fmt) : Nat :=
  match f.top with
  | .ieee => (2 ^ f.eb - 1) * 2 ^ f.mb - 1
  | .e4 => 2 ^ (f.eb + f.mb) - 2
  | .none => 2 ^ (f.eb + f.mb) - 1

/-- Pattern of infinity. -/
def Fmt.infEnc (f : Fmt) : Nat := (2 ^ f.eb - 1) * 2 ^ f.mb

/-- Pattern of the default NaN (R63 rule 2). -/
def Fmt.nanEnc (f : Fmt) : Nat :=
  match f.top with
  | .ieee => (2 ^ f.eb - 1) * 2 ^ f.mb + 2 ^ (f.mb - 1)
  | .e4 => 2 ^ (f.eb + f.mb) - 1
  | .none => 0

/-- Exponent of the smallest normal. -/
def Fmt.emin (f : Fmt) : Int := 1 - (f.bias : Int)

/-- A value read from a pattern: a NaN (its pattern without sign, whether it signals), an infinity, or (-1)^s m 2^e. -/
inductive Val where
  | nan (s : Bool) (pat : Nat) (sig : Bool)
  | inf (s : Bool)
  | fin (s : Bool) (m : Nat) (e : Int)
  deriving DecidableEq, Repr, Inhabited

/-- The value of a pattern (R55). -/
def unpack (f : Fmt) (v : Nat) : Val :=
  let s := v / f.signBit % 2 == 1
  let p := v % f.signBit
  let e := p / 2 ^ f.mb
  let m := p % 2 ^ f.mb
  if f.top = .ieee ∧ e = 2 ^ f.eb - 1 then
    if m = 0 then .inf s else .nan s p (m / 2 ^ (f.mb - 1) == 0)
  else if f.top = .e4 ∧ p = 2 ^ (f.eb + f.mb) - 1 then .nan s p false
  else if e = 0 then .fin s m (f.emin - f.mb)
  else .fin s (2 ^ f.mb + m) ((e : Int) - f.bias - f.mb)

/-- Sign of a value. -/
def Val.sign : Val → Bool
  | .nan s _ _ => s
  | .inf s => s
  | .fin s _ _ => s

/-- Whether a value is a NaN. -/
def Val.isNan : Val → Bool
  | .nan _ _ _ => true
  | _ => false

/-- Whether a value is a signalling NaN. -/
def Val.isSig : Val → Bool
  | .nan _ _ g => g
  | _ => false

/-- A pattern with a sign. -/
def Fmt.signed (f : Fmt) (s : Bool) (p : Nat) : Nat := (if s then f.signBit else 0) + p

/-- A result pattern and the flags it sets. -/
structure FRes where
  v  : Nat
  fl : Nat
  deriving DecidableEq, Repr, Inhabited

/-! ### Rounding (R60, R61) -/

/-- Bits of a number. -/
def bitLen (m : Nat) : Nat := if m = 0 then 0 else m.log2 + 1

/-- m 2^-sh rounded to an integer by a mode; `st` says that the value lies strictly above m. Also whether it is inexact. -/
def roundShift (mode : Nat) (s : Bool) (m : Nat) (sh : Int) (st : Bool) : Nat × Bool :=
  if sh ≤ 0 then (m * 2 ^ (-sh).toNat, st)
  else
    let d := 2 ^ sh.toNat
    let keep := m / d
    let rem := m % d
    let inexact := rem != 0 || st
    let up := match mode with
      | 0 => decide (2 * rem > d) || (decide (2 * rem = d) && (st || keep % 2 == 1))
      | 1 => false
      | 2 => s && inexact
      | _ => !s && inexact
    (if up then keep + 1 else keep, inexact)

/-- What an overflow delivers (R61). `sat` says that saturation is in force. -/
def overflowRes (f : Fmt) (mode : Nat) (sat s : Bool) : FRes :=
  if sat || f.top == .none then ⟨f.signed s f.maxEnc, fOF + fNX + fSAT⟩
  else if f.top = .e4 then ⟨f.signed s f.nanEnc, fOF + fNX⟩
  else
    let toInf := match mode with
      | 0 => true
      | 1 => false
      | 2 => s
      | _ => !s
    ⟨f.signed s (if toInf then f.infEnc else f.maxEnc), fOF + fNX⟩

/-- (-1)^s m 2^e, or a value strictly between it and the next m when `st`, rounded once (R60, R61, R62). -/
def roundTo (f : Fmt) (mode : Nat) (sat : Bool) (s : Bool) (m : Nat) (e : Int) (st : Bool) : FRes :=
  if m = 0 ∧ st = false then ⟨f.signed s 0, 0⟩
  else
    let top := e + (bitLen m : Int) - 1
    let q0 := f.emin - f.mb
    let q := if top < f.emin then q0 else top - f.mb
    let r := roundShift mode s m (q - e) st
    let enc := (q - q0).toNat * 2 ^ f.mb + r.1
    if enc > f.maxEnc then overflowRes f mode sat s
    else
      let u := roundShift mode s m (top - f.mb - e) st
      let tiny := decide (top - f.mb + (bitLen u.1 : Int) - 1 < f.emin)
      ⟨f.signed s enc, if r.2 then fNX + (if tiny then fUF else 0) else 0⟩

/-! ### NaN results (R63) -/

/-- A NaN of one format in another, quieted (R63 rules 1, 4 and 5). -/
def nanInto (src dst : Fmt) (s : Bool) (pat : Nat) : Nat :=
  match dst.top with
  | .none => 0
  | .e4 => dst.signed s dst.nanEnc
  | .ieee =>
    match src.top with
    | .ieee =>
      let m := pat % 2 ^ src.mb
      let m' := if dst.mb ≥ src.mb then m * 2 ^ (dst.mb - src.mb) else m / 2 ^ (src.mb - dst.mb)
      let low := m' % 2 ^ (dst.mb - 1)
      dst.signed s (dst.nanEnc + low)
    | _ => dst.signed s dst.nanEnc

/-- The first NaN operand, quieted, with NV when any NaN operand signals (R63 rule 1). -/
def firstNan (f : Fmt) (l : List Val) : Option FRes :=
  match l.find? (fun v => v.isNan) with
  | some (.nan s p _) => some ⟨nanInto f f s p, if l.any (fun v => v.isSig) then fNV else 0⟩
  | _ => none

/-- The default NaN of an invalid operation (R63 rule 2). -/
def invalid (f : Fmt) : FRes := ⟨f.nanEnc, fNV⟩

/-! ### Exact sums and products -/

/-- An exact finite value as an integer times a power of two, with the sign a zero has. -/
structure Exact where
  s : Bool
  m : Nat
  e : Int
  deriving DecidableEq, Repr, Inhabited

/-- The signed integer of an exact value at a lower exponent. -/
def Exact.at (x : Exact) (e : Int) : Int :=
  let v := (x.m * 2 ^ (x.e - e).toNat : Nat)
  if x.s then -(v : Int) else v

/-- The exact sum of two values; a zero sum of opposite signs is -0 only when rounding down (R60). -/
def exactAdd (down : Bool) (x y : Exact) : Exact :=
  let e := if x.e ≤ y.e then x.e else y.e
  let v := x.at e + y.at e
  if v = 0 then ⟨if x.s = y.s then x.s else down, 0, e⟩ else ⟨decide (v < 0), v.natAbs, e⟩

/-- The exact product of two values. -/
def exactMul (x y : Exact) : Exact := ⟨x.s != y.s, x.m * y.m, x.e + y.e⟩

/-- An exact value rounded once. -/
def Exact.round (f : Fmt) (mode : Nat) (sat : Bool) (x : Exact) : FRes := roundTo f mode sat x.s x.m x.e false

/-! ### Single operations (R65) -/

/-- a + b on values of a format. -/
def addVals (f : Fmt) (mode : Nat) (a b : Val) : FRes :=
  match firstNan f [a, b] with
  | some r => r
  | none =>
    match a, b with
    | .inf s, .inf t => if s = t then ⟨f.signed s f.infEnc, 0⟩ else invalid f
    | .inf s, _ => ⟨f.signed s f.infEnc, 0⟩
    | _, .inf t => ⟨f.signed t f.infEnc, 0⟩
    | .fin s m e, .fin t n d => (exactAdd (mode == 2) ⟨s, m, e⟩ ⟨t, n, d⟩).round f mode false
    | _, _ => invalid f

/-- A value with its sign turned, unless it is a NaN. -/
def Val.neg : Val → Val
  | .nan s p g => .nan s p g
  | .inf s => .inf (!s)
  | .fin s m e => .fin (!s) m e

/-- Whether a value is zero. -/
def Val.isZero : Val → Bool
  | .fin _ 0 _ => true
  | _ => false

/-- a × b. -/
def mulVals (f : Fmt) (mode : Nat) (a b : Val) : FRes :=
  match firstNan f [a, b] with
  | some r => r
  | none =>
    match a, b with
    | .fin s m e, .fin t n d => (exactMul ⟨s, m, e⟩ ⟨t, n, d⟩).round f mode false
    | _, _ => if a.isZero || b.isZero then invalid f else ⟨f.signed (a.sign != b.sign) f.infEnc, 0⟩

/-- a × b + c, rounded once. -/
def fmaVals (f : Fmt) (mode : Nat) (a b c : Val) : FRes :=
  match firstNan f [a, b, c] with
  | some r => r
  | none =>
    match a, b with
    | .fin s m e, .fin t n d =>
      (match c with
        | .fin u k g => (exactAdd (mode == 2) (exactMul ⟨s, m, e⟩ ⟨t, n, d⟩) ⟨u, k, g⟩).round f mode false
        | _ => ⟨f.signed c.sign f.infEnc, 0⟩)
    | _, _ =>
      if a.isZero || b.isZero then invalid f
      else
        let s := a.sign != b.sign
        (match c with
          | .inf u => if s = u then ⟨f.signed s f.infEnc, 0⟩ else invalid f
          | _ => ⟨f.signed s f.infEnc, 0⟩)

/-- Addition of two patterns. -/
def fpAdd (f : Fmt) (mode a b : Nat) : FRes := addVals f mode (unpack f a) (unpack f b)

/-- Subtraction; a NaN operand keeps its sign. -/
def fpSub (f : Fmt) (mode a b : Nat) : FRes := addVals f mode (unpack f a) (unpack f b).neg

/-- Multiplication. -/
def fpMul (f : Fmt) (mode a b : Nat) : FRes := mulVals f mode (unpack f a) (unpack f b)

/-- Fused multiply-add. -/
def fpFma (f : Fmt) (mode a b c : Nat) : FRes := fmaVals f mode (unpack f a) (unpack f b) (unpack f c)

/-- Order of two values that are no NaN: -1, 0 or 1, with -0 equal to +0. -/
def cmpVals (a b : Val) : Int :=
  match a, b with
  | .inf s, .inf t => if s = t then 0 else if s then -1 else 1
  | .inf s, _ => if s then -1 else 1
  | _, .inf t => if t then 1 else -1
  | .fin s m e, .fin t n d =>
    let k := if e ≤ d then e else d
    let x := Exact.at ⟨s, m, e⟩ k
    let y := Exact.at ⟨t, n, d⟩ k
    if x < y then -1 else if x = y then 0 else 1
  | _, _ => 0

/-- Whether a comes before b, with -0 below +0. -/
def lessVals (a b : Val) : Bool :=
  let c := cmpVals a b
  decide (c < 0) || (decide (c = 0) && a.sign && !b.sign)

/-- IEEE 754-2019 minimum or maximum, or their `.num` forms (R178). -/
def fpMinMax (f : Fmt) (isMax num : Bool) (a b : Nat) : FRes :=
  let x := unpack f a
  let y := unpack f b
  let sig := if x.isSig || y.isSig then fNV else 0
  if num && x.isNan != y.isNan then ⟨if x.isNan then b else a, sig⟩
  else
    match firstNan f [x, y] with
    | some r => r
    | none => ⟨if lessVals x y == isMax then b else a, 0⟩

/-! ### Conversions (R64) -/

/-- A float value rounded to an integer, in range or saturated, with its flags (R64). -/
def floatToInt (lo hi : Int) (mode : Nat) (v : Val) : Int × Nat :=
  match v with
  | .nan _ _ _ => (0, fNV + fSAT)
  | .inf s => (if s then lo else hi, fNV + fSAT)
  | .fin s m e =>
    let r := roundShift mode s m (-e) false
    let i : Int := if s then -(r.1 : Int) else r.1
    if i < lo then (lo, fNV + fSAT)
    else if i > hi then (hi, fNV + fSAT)
    else (i, if r.2 then fNX else 0)

/-- Least value of an integer type (R53). -/
def etMin (e : Nat) : Int := if etSigned e then -(2 ^ (etBits e - 1)) else 0

/-- Greatest value of an integer type. -/
def etMax (e : Nat) : Int := if etSigned e then 2 ^ (etBits e - 1) - 1 else 2 ^ etBits e - 1

/-- Integer value of an element. -/
def etInt (e v : Nat) : Int := if etSigned e then toSigned (etBits e) v else (v % 2 ^ etBits e : Nat)

/-- An integer clamped to a type, with SAT when it was. -/
def clampInt (e : Nat) (v : Int) : FRes :=
  if v < etMin e then ⟨ofInt (etBits e) (etMin e), fSAT⟩
  else if v > etMax e then ⟨ofInt (etBits e) (etMax e), fSAT⟩
  else ⟨ofInt (etBits e) v, 0⟩

/-- Whether a format holds every value of another, so that R64 calls the conversion exact and keeps infinities. -/
def exactWiden (src dst : Fmt) : Bool := decide (src.eb ≤ dst.eb) && decide (src.mb ≤ dst.mb) && dst.top == .ieee

/-- A float into another float format; `sat` says that saturation is in force. It is for the rows of R64 that round: an exact
widening keeps an infinity whatever `sat` is (R61, R63, R64; DEDUCED, logs 44, 73). -/
def floatToFloat (src dst : Fmt) (mode : Nat) (sat : Bool) (v : Nat) : FRes :=
  match unpack src v with
  | .nan s p g =>
    if dst.top = .none then ⟨0, fNV⟩ else ⟨nanInto src dst s p, if g then fNV else 0⟩
  | .inf s =>
    if exactWiden src dst then ⟨dst.signed s dst.infEnc, 0⟩
    else if dst.top = .none ∨ sat = true then ⟨dst.signed s dst.maxEnc, fSAT⟩
    else if dst.top = .e4 then ⟨dst.signed s dst.nanEnc, fNV⟩
    else ⟨dst.signed s dst.infEnc, 0⟩
  | .fin s m e => roundTo dst mode sat s m e false

/-- f32 to e8 (R64). -/
def floatToE8 (v : Nat) : FRes :=
  match unpack fmtF v with
  | .nan _ _ _ => ⟨0xFF, fNV⟩
  | .inf _ => ⟨0xFF, fNV⟩
  | .fin _ m e =>
    if m = 0 then ⟨0, fNX⟩
    else
      let t := e + (bitLen m : Int) - 1 + 127
      let c := if t < 0 then 0 else if t > 254 then 254 else t
      ⟨c.toNat, if m = 2 ^ m.log2 ∧ c = t then 0 else fNX⟩

/-- e8 to f32 or bf16 (R64). -/
def e8ToFloat (dst : Fmt) (v : Nat) : FRes :=
  if v = 0xFF then ⟨dst.nanEnc, 0⟩ else roundTo dst 0 false false 1 ((v : Int) - 127) false

/-- Whether a type is an integer type. -/
def etIsInt (e : Nat) : Bool := decide (e < 8)

/-- Whether R64 admits a pair of types and R181 the ratio of their widths. -/
def cvtOk (src dst : Nat) : Bool :=
  decide (src < 15) && decide (dst < 15) && decide (cvtRatio src dst ≤ 4) &&
    (if src = 14 ∨ dst = 14 then
      (src == 14 && dst == 14) || (src == 14 && (dst == 13 || dst == 11)) || (src == 13 && dst == 14)
    else true)

/-- Whether SATF leaves saturation in force for a result type (R61, R181). -/
def satInForce (dst : Nat) (satf : Bool) : Bool := if dst = 9 then !satf else satf

/-- One element converted (R64). -/
def convert (src dst : Nat) (mode : Nat) (satf : Bool) (v : Nat) : FRes :=
  if src = dst then
    if etIsInt src ∨ src = 14 ∨ src = 8 then ⟨v, 0⟩
    else
      (match unpack (etFmt src) v with
        | .nan s p g => ⟨nanInto (etFmt src) (etFmt src) s p, if g then fNV else 0⟩
        | _ => ⟨v, 0⟩)
  else if dst = 14 then floatToE8 v
  else if src = 14 then e8ToFloat (etFmt dst) v
  else if etIsInt src then
    if etIsInt dst then clampInt dst (etInt src v)
    else
      let i := etInt src v
      roundTo (etFmt dst) mode (satInForce dst satf) (decide (i < 0)) i.natAbs 0 false
  else if etIsInt dst then
    let r := floatToInt (etMin dst) (etMax dst) mode (unpack (etFmt src) v)
    ⟨ofInt (etBits dst) r.1, r.2⟩
  else floatToFloat (etFmt src) (etFmt dst) mode (satInForce dst satf) v

end Sys2Proof.Machine
end

