-- ==== Sys2Proof/Machine/Signal.lean ====
section
/-! DEFINITION. Signals and tasks: continuation records and task queues (R209, R210, R294), semaphores (R213-R215, R139),
futures (R216-R219), stage barriers (R221, R222), and the header of an engine record (R136-R139). -/

namespace Sys2Proof.Machine

/-! ### The record header (R136, R138) -/

/-- KIND. -/
def rkKind (r : BitVec 512) : Nat := nfld r.toNat 0 8

/-- AWAIT. -/
def rkAwait (r : BitVec 512) : Nat := nfld r.toNat 8 8

/-- AWAIT_N. -/
def rkAwaitN (r : BitVec 512) : Nat := nfld r.toNat 16 8

/-- RAISE. -/
def rkRaise (r : BitVec 512) : Nat := nfld r.toNat 24 8

/-- RAISE_KIND. -/
def rkRaiseKind (r : BitVec 512) : Nat := nfld r.toNat 32 3

/-- NOSTOP. -/
def rkNostop (r : BitVec 512) : Bool := nfld r.toNat 35 1 == 1

/-- DEVREL. -/
def rkDevrel (r : BitVec 512) : Bool := nfld r.toNat 36 1 == 1

/-- RUNF. -/
def rkRunf (r : BitVec 512) : Bool := nfld r.toNat 37 1 == 1

/-- DECODE. -/
def rkDecode (r : BitVec 512) : Bool := nfld r.toNat 39 1 == 1

/-- ELEM. -/
def rkElem (r : BitVec 512) : Nat := nfld r.toNat 40 2

/-- AWAIT_KIND. -/
def rkAwaitKind (r : BitVec 512) : Nat := nfld r.toNat 48 3

/-- RAISE_N. -/
def rkRaiseN (r : BitVec 512) : Nat := nfld r.toNat 51 8

/-- AWAIT_FUT. -/
def rkAwaitFut (r : BitVec 512) : Nat := nfld r.toNat 64 32

/-- RAISE_FUT. -/
def rkRaiseFut (r : BitVec 512) : Nat := nfld r.toNat 96 32

/-- Generic address of the word a future handle names (R138). -/
def handleAddr (h : Nat) : Addr :=
  if nfld h 31 1 = 0 then BitVec.ofNat 64 (0xFC * 2 ^ 56 + nfld h 0 21 * 8)
  else BitVec.ofNat 64 (0xF0 * 2 ^ 56 + nfld h 30 1 * 2 ^ 32 + nfld h 0 21 * 8)

/-- The head record of a ring. -/
def Ring.head (g : Ring) : Option RecEntry := if g.rp = g.wp then none else tfind g.recs (g.rp.toNat % 64)

/-! ### Tasks (R209, R210) -/

/-- Records of a core's pool (R209). -/
def Core.poolSize (k : Core) : Nat := k.cont * 16

/-- The free record of a pool that is allocated: the lowest (R209 names none; DESIGN CHOICE, log 98). -/
def freeRec (k : Core) : Option Nat := (List.range k.poolSize).find? (fun i => (tfind k.pool i).isNone)

/-- A waiting record is given its value and joins its side's task queue (R210, R294). -/
def wake (c i : Nat) (v : Addr) (s : State) : State :=
  (s.modCore c (fun k =>
    match tfind k.pool i with
    | some r => { k with pool := tset k.pool i { r with wvalue := v } }.modSide r.side (fun x => { x with tq := x.tq ++ [i] })
    | none => k)).act c

/-- Registers a mask names, in increasing order; bit 0 is ignored (R209). -/
def maskList (m : Nat) : List Nat := (List.range 32).filter (fun j => j != 0 && m / 2 ^ j % 2 == 1)

/-- Whether a live mask is admitted (R210). -/
def maskOk (m : Addr) : Bool := decide (m.toNat < 2 ^ 32) && decide ((maskList m.toNat).length ≤ 16)

/-- The record that a wait of the moving side would register (R210). -/
def waitRec (s : State) (kind : WKind) (mask : Addr) (d arg : Nat) (link : Option (Nat × Nat)) : ContRec :=
  let k := s.me
  let rs := maskList mask.toNat
  { resume := s.cur.addr + 4, mask := mask.setWidth 32, task := s.mySide.task, link := link, kind := kind, side := s.cur.side,
    dreg := d,
    preds := (match s.cur.side with
      | .ap => k.preds
      | .xp => 0),
    poison := BitVec.ofNat 16 ((rs.zipIdx 0).foldl (fun n p => n + (k.reg s.cur.side p.1).bad.toNat * 2 ^ p.2) 0),
    wvalue := 0, regs := rs.map (fun r => (k.reg s.cur.side r).val), arg := arg }

/-- A wait that is not satisfied registers: its record is written, `enlist` puts it on the target's list, and the task ends.
A fault task may not register (R319), and a pool without a free record takes CONT_FULL (R210). -/
def registerWait (kind : WKind) (mask : Addr) (d arg : Nat) (link : Option (Nat × Nat)) (enlist : Nat → State → State)
    (s : State) : Except Trap State :=
  if s.mySide.frame.isSome then .error (trapAt .illegal)
  else
    match freeRec s.me with
    | none => .error (trapAt .contFull)
    | some i =>
      let r := waitRec s kind mask d arg link
      let s := s.modMe (fun k => { k with pool := tset k.pool i r })
      .ok (((enlist i s).modMySide (fun x => { x with run := .idle })).act s.cur.core)

/-- The masked registers of a record loaded into its side (R210). -/
def loadRecord (k : Core) (r : ContRec) : Core :=
  let rs := (maskList r.mask.toNat).zip r.regs
  let k := (rs.zipIdx 0).foldl (fun k p => k.setReg r.side p.1.1 ⟨p.1.2, r.poison.getLsbD p.2⟩) k
  let k := match r.side, r.kind with
    | .ap, .spawn => k
    | .ap, _ => { k with preds := r.preds }
    | .xp, _ => k
  k.setReg r.side r.dreg ⟨r.wvalue, false⟩

/-- TASK_START (R210, R294): an idle side starts the oldest queued task and frees its record. -/
def startTask (c : Nat) (sd : Side) (s : State) : State :=
  let k := s.core c
  match (k.side sd).run, (k.side sd).tq with
  | .idle, i :: q =>
    (match tfind k.pool i with
      | some r =>
        if sd = .ap ∧ k.ldsWaits (r.dreg :: maskList r.mask.toNat) = true then s
        else s.setCore c ((loadRecord { k with pool := tdel k.pool i } r).modSide sd (fun x =>
          { x with tq := q, run := .run, pc := r.resume, land := true, loops := [], task := r.task }))
      | none => s.setCore c (k.modSide sd (fun x => { x with tq := q })))
  | _, _ => s

/-! ### Semaphores (R213-R215, R139) -/

/-- Rings of a core whose checked head waits on a semaphore that covers it. -/
def headsOn (k : Core) (n : Nat) : List Nat :=
  [0, 1, 2, 3].filter (fun j =>
    let g := k.ring j
    match g.head with
    | some e =>
      g.st == .wait && e.checked && rkAwaitKind e.bytes == 1 && rkAwait e.bytes == n &&
        decide (rkAwaitN e.bytes ≤ (k.sema n).count)
    | none => false)

/-- A head in WAIT whose await is satisfied: its record begins, or is to be skipped with the code given (R139). -/
def satisfyHead (c r : Nat) (fault : Option Nat) (s : State) : State :=
  s.modRing c r (fun g =>
    match g.head with
    | some e => { g with st := .run, skip := if rkRunf e.bytes then none else fault }
    | none => g)

/-- A head takes its count from a semaphore (R139). -/
def serveHead (c n r : Nat) (s : State) : State :=
  match ((s.core c).ring r).head with
  | some e =>
    let f := ((s.core c).sema n).fault
    let s := s.modSema c n (fun x => { x with count := x.count - rkAwaitN e.bytes })
    satisfyHead c r (if f then some 0x19 else none) s
  | none => s

/-- The first task waiter takes its count from a semaphore (R214). -/
def serveTask (c n i : Nat) (s : State) : State :=
  let k := s.core c
  let x := k.sema n
  let v := BitVec.ofNat 64 (x.fault.toNat + x.overBit.toNat * 2)
  let cnt := (tfind k.pool i).elim 0 (fun r => r.arg)
  wake c i v (s.modSema c n (fun x => { x with count := x.count - cnt, waiters := x.waiters.drop 1 }))

/-- Waiters of a semaphore are served while COUNT covers one: task waiters in the order they registered, engine heads and
the first task waiter in a free order (R139, R214). -/
def serveSema (fuel c n : Nat) (s : State) : State :=
  match fuel with
  | 0 => s
  | fuel + 1 =>
    let k := s.core c
    let x := k.sema n
    let tasks := (x.waiters.take 1).filter (fun i => decide ((tfind k.pool i).elim 0 (fun r => r.arg) ≤ x.count))
    let heads := headsOn k n
    match tasks, heads with
    | [], [] => s
    | i :: _, [] => serveSema fuel c n (serveTask c n i s)
    | [], [r] => serveSema fuel c n (serveHead c n r s)
    | _, _ =>
      let opts := tasks.map (fun i => (true, i)) ++ heads.map (fun r => (false, r))
      let o := opts.getD (Config.pick s.count % opts.length) (true, 0)
      let s := { s with count := s.count + 1 }
      serveSema fuel c n (if o.1 then serveTask c n o.2 s else serveHead c n o.2 s)

/-- Everyone a semaphore can serve is served. -/
def serveAll (c n : Nat) (s : State) : State := serveSema (((s.core c).sema n).waiters.length + 5) c n s

/-- A raise of a semaphore (R215, R140): OVER when clamped, FAULT for a FAULTED engine raise, then the waiters are served. -/
def raiseSema (c n cnt : Nat) (faulted : Bool) (s : State) : State :=
  (serveAll c n (s.modSema c n (fun x =>
    { x with count := Nat.min (x.count + cnt) 65535, overBit := x.overBit || decide (x.count + cnt > 65535),
             fault := x.fault || faulted }))).act c

/-- A semaphore set by a SEMA record (R157). -/
def setSema (c n v : Nat) (s : State) : State :=
  serveAll c n (s.modSema c n (fun x => { x with count := v, overBit := false, fault := false }))

/-! ### Futures (R216-R219) -/

/-- The future word at a place. -/
def futureWord (s : State) (p : Place) : Nat := bytesNat (memRead s.mem p.key 8)

/-- A future word written. -/
def setFuture (p : Place) (v : Nat) (s : State) : State := { s with mem := memWrite s.mem p.key (natBytes 8 v) }

/-- STATE of a future word: 0 EMPTY, 1 WAITING, 2 RESOLVED, 3 FAULTED. -/
def futState (w : Nat) : Nat := w % 4

/-- Value a waiter of a future receives (R217, R218). -/
def futValue (w : Nat) : Addr :=
  if futState w = 3 then BitVec.ofNat 64 (2 ^ 63 + nfld w 32 8) else BitVec.ofNat 64 (nfld w 32 32)

/-- The records of a future's list, most recent registration first, each woken with the value (R218, R294). -/
def wakeList (fuel : Nat) (v : Addr) (c i : Nat) (s : State) : State :=
  match fuel with
  | 0 => s
  | fuel + 1 =>
    match tfind (s.core c).pool i with
    | some r =>
      let s := wake c i v s
      (match r.link with
        | some (c', i') => wakeList fuel v c' i' s
        | none => s)
    | none => s

/-- Whether a future is already RESOLVED or FAULTED. -/
def futDone (w : Nat) : Bool := decide (2 ≤ futState w)

/-- Engine heads that await a future word are satisfied by their own test (R139); a resolution writes the word and wakes the
list of a WAITING one (R218). -/
def resolveFuture (p : Place) (w : Nat) (s : State) : State :=
  let old := futureWord s p
  let s := setFuture p w s
  if futState old = 1 then wakeList (192 * 256) (futValue w) (nfld old 24 8) (nfld old 16 8) s else s

/-- The word of a resolved future (R216). -/
def resolvedWord (v : Nat) : Nat := 2 + v % 2 ^ 32 * 2 ^ 32

/-- The word of a faulted future. -/
def faultedWord (code : Nat) : Nat := 3 + code % 256 * 2 ^ 32

/-! ### Stage barriers (R221, R222) -/

/-- Waiters of a barrier for a phase are woken, and heads that await it are satisfied (R221). -/
def releasePhase (c b : Nat) (ph : Bool) (s : State) : State :=
  let k := s.core c
  let x := k.bar b
  let v := BitVec.ofNat 64 (x.last.toNat + x.err.toNat * 2 ^ 63)
  let due := x.waiters.filter (fun i => (tfind k.pool i).elim false (fun r => r.arg == ph.toNat))
  let s := s.modBar c b (fun x => { x with waiters := x.waiters.filter (fun i => !due.contains i) })
  let s := due.foldl (fun s i => wake c i v s) s
  [0, 1, 2, 3].foldl (fun s j =>
    match ((s.core c).ring j).head with
    | some e =>
      if ((s.core c).ring j).st = .wait ∧ e.checked = true ∧ rkAwaitKind e.bytes = 3 ∧ rkAwait e.bytes = b ∧
          rkAwaitN e.bytes % 2 = ph.toNat then satisfyHead c j none s else s
    | none => s) s

/-- The test of R221. COUNT holds n whole targets: the phase flips n times, and every waiter whose phase comes by is woken;
after two flips each phase has come by. -/
def testBar (c b : Nat) (s : State) : State :=
  let x := (s.core c).bar b
  let n := x.count / x.target.toNat
  if x.armed = false ∨ n = 0 then s
  else
    let s := s.modBar c b (fun x => { x with last := x.target, count := x.count - n * x.target.toNat })
    let s := releasePhase c b (!x.phase) (s.modBar c b (fun y => { y with phase := !x.phase }))
    let s := if n ≥ 2 then releasePhase c b x.phase (s.modBar c b (fun y => { y with phase := x.phase })) else s
    if n ≥ 3 ∧ n % 2 = 1 then s.modBar c b (fun y => { y with phase := !x.phase }) else s

/-- A raise of a stage barrier by delivered bytes (R140, R221). -/
def raiseBar (c b bytes : Nat) (faulted : Bool) (s : State) : State :=
  if faulted then
    let x := (s.core c).bar b
    let s := s.modBar c b (fun y =>
      { y with last := BitVec.ofNat 32 (y.count + bytes), count := 0, err := true, phase := !y.phase })
    releasePhase c b (!x.phase) s
  else testBar c b (s.modBar c b (fun y => { y with count := (y.count + bytes) % 2 ^ 32 }))

end Sys2Proof.Machine
end

