-- ==== Sys2Proof/Machine/Ring.lean ====
section
/-! DEFINITION. Command rings: the checks of a record (R134, R136-R138 and the entry of each kind), the words that enqueue and
steer (R134, R135), await, retirement and raise (R139, R140), chunk marks (R132) and chunk faults (R143, R159, R317). -/

namespace Sys2Proof.Machine

/-! ### Checks 4-8 of a record (R134) -/

/-- log2 element size as a size. -/
def rkEs (r : BitVec 512) : Nat := 2 ^ rkElem r

/-- A byte range of a record is zero. -/
def recZero (r : BitVec 512) (off n : Nat) : Bool := recFld r off n == 0

/-- R137 on the await. -/
def awaitOk (r : BitVec 512) : Bool :=
  match rkAwaitKind r with
  | 1 => decide (rkAwait r < 64) && decide (1 ≤ rkAwaitN r)
  | 3 => decide (rkAwait r < 32) && decide (rkAwaitN r < 2)
  | k => decide (k = 0 ∨ k = 2) && rkAwait r == 0 && rkAwaitN r == 0

/-- R137 on the raise. -/
def raiseOk (r : BitVec 512) : Bool :=
  match rkRaiseKind r with
  | 1 => decide (rkRaise r < 64) && decide (1 ≤ rkRaiseN r)
  | 3 => decide (rkRaise r < 32) && rkRaiseN r == 0
  | k => decide (k = 0 ∨ k = 2) && rkRaise r == 0 && rkRaiseN r == 0

/-- R138 on a handle: zero unless its kind is future, reserved bits zero, DIE zero for SPACE 0. -/
def handleOk (kind h : Nat) : Bool :=
  (kind == 2 || h == 0) && nfld h 21 9 == 0 && (nfld h 31 1 == 1 || nfld h 30 1 == 0)

/-- The header fields (R136-R138). -/
def headerOk (r : BitVec 512) : Bool :=
  decide (1 ≤ rkKind r) && decide (rkKind r ≤ 11) && nfld r.toNat 59 5 == 0 && nfld r.toNat 42 6 == 0 && nfld r.toNat 38 1 == 0 &&
    (rkElem r == 0 || [1, 2, 3, 4, 6].contains (rkKind r)) && (!rkDecode r || rkKind r == 1) && awaitOk r && raiseOk r &&
    handleOk (rkAwaitKind r) (rkAwaitFut r) && handleOk (rkRaiseKind r) (rkRaiseFut r)

/-- Whether a value lies in a range. -/
def inRange (v lo hi : Nat) : Bool := decide (lo ≤ v) && decide (v ≤ hi)

/-- Types that an ACCW operation admits (R151). -/
def accwType (op ty : Nat) : Bool :=
  let ints := [1, 2, 3, 5, 6, 7].contains ty
  match op with
  | 2 => ty == 13
  | 3 => [13, 11, 12, 3, 7].contains ty
  | 9 | 10 => [11, 12, 13].contains ty
  | 11 | 12 => ints || [11, 12, 13].contains ty
  | 0 | 1 | 4 | 5 | 6 | 7 | 8 => ints
  | _ => false

/-- Element size of an ACCW's TYPE. -/
def accwSe (r : BitVec 512) : Nat := etBits (recFld r 0x2D 1) / 8

/-- Destination element size of an ACCW (R150). -/
def accwDe (r : BitVec 512) : Nat := if recFld r 0x2C 1 = 3 then 16 else accwSe r

/-- Operand size of an ACCW (R150). -/
def accwSs (r : BitVec 512) : Nat := if recFld r 0x2C 1 = 12 then 2 * accwSe r else accwSe r

/-- Whether a core's heat may name a lane (R153, R154, R345). -/
def laneOk (s : State) (c lane : Nat) : Bool :=
  decide (lane < 128) && s.form.hasDie (lane / 64) &&
    (match s.heatOf c with
      | some h => h.hr.die / 2 ^ (lane / 64) % 2 == 1 &&
          (match (s.lane lane).owner with
            | some x => x == h.hr.ctx
            | none => true)
      | none => false)

/-- Whether a core lies in the rectangle of another core's heat. -/
def inHeat (s : State) (c n : Nat) : Bool :=
  decide (n < 192) && (match s.heatOf c with
    | some h => h.hr.has n
    | none => false)

/-- Whether an address lies in a scratchpad or in die shared SRAM: where a DECODE copy may deliver (R90, R146). -/
def onChip (s : State) (c a : Nat) : Bool :=
  match s.place c (BitVec.ofNat 64 a) with
  | some (.glob _ _) => false
  | some _ => true
  | none => false

/-- The body fields of each kind that `cmd` refuses as ILLEGAL (R146-R157). -/
def bodyOk (s : State) (c : Nat) (r : BitVec 512) : Bool :=
  match rkKind r with
  | 1 =>
    recZero r 0x2C 20 && inRange (recFld r 0x28 4) 1 65536 &&
      (!rkDecode r || (recFld r 0x20 8 == 0 && onChip s c (recFld r 0x18 8)))
  | 2 =>
    recZero r 0x3C 4 && inRange (recFld r 0x28 4) 1 (2 ^ 24) && inRange (recFld r 0x2C 4) 1 65536 &&
      decide (recFld r 0x2C 4 ≤ recFld r 0x38 4)
  | 3 | 4 => recZero r 0x34 12 && inRange (recFld r 0x28 4) 1 (2 ^ 24) && inRange (recFld r 0x2C 4) 1 65536
  | 5 =>
    recZero r 0x2F 1 && inRange (recFld r 0x28 4) 1 (2 ^ 24) && accwType (recFld r 0x2C 1) (recFld r 0x2D 1) &&
      (recFld r 0x2C 1 == 3 || (recZero r 0x2E 1 && recZero r 0x38 8))
  | 6 => recZero r 0x24 4 && recZero r 0x30 16 && inRange (recFld r 0x20 4) 1 65536
  | 7 =>
    recZero r 0x11 7 && recZero r 0x28 24 && decide (64 ≤ recFld r 0x20 4) &&
      decide (recFld r 0x24 4 + recFld r 0x20 4 ≤ 65536) && laneOk s c (recFld r 0x10 1)
  | 8 =>
    recZero r 0x11 1 && recZero r 0x17 1 && recZero r 0x28 24 && decide (recFld r 0x16 1 < 32) &&
      inHeat s c (recFld r 0x14 2) && inRange (recFld r 0x20 8) 1 (2 ^ 40) && laneOk s c (recFld r 0x10 1)
  | 9 => recZero r 0x20 32
  | 10 => recZero r 0x11 47 && inRange (recFld r 0x10 1) 1 15
  | 11 => recZero r 0x14 44 && decide (recFld r 0x10 1 < 2) && decide (recFld r 0x11 1 < 64)
  | _ => false

/-- The first future handle of a record that names no valid address (R138, check 5). -/
def badHandle (s : State) (c : Nat) (r : BitVec 512) : Option Addr :=
  let bad := fun (kind h : Nat) => decide (kind = 2) && (s.place c (handleAddr h)).isNone
  if bad (rkAwaitKind r) (rkAwaitFut r) then some (handleAddr (rkAwaitFut r))
  else if bad (rkRaiseKind r) (rkRaiseFut r) then some (handleAddr (rkRaiseFut r))
  else none

/-- Address of the descriptor that a record names, with its size: a nest (R146, R147) or a NET descriptor (R155). -/
def recDesc (r : BitVec 512) : Option (Nat × Nat) :=
  match rkKind r with
  | 1 => if recFld r 0x20 8 = 0 then none else some (recFld r 0x20 8, 128)
  | 6 => if recFld r 0x18 8 = 0 then none else some (recFld r 0x18 8, 128)
  | 9 => some (recFld r 0x10 8, 256)
  | _ => none

/-- Levels of a nest record: counts, source strides, destination strides. -/
structure Nest where
  counts : List Nat
  ss     : List Int
  ds     : List Int
  deriving DecidableEq, Repr, Inhabited

/-- A nest of one run. -/
def Nest.one : Nest := ⟨[1, 1, 1, 1, 1, 1], [0, 0, 0, 0, 0, 0], [0, 0, 0, 0, 0, 0]⟩

/-- A nest record's bytes (R146). -/
def nestOf (l : List Byte) : Nest :=
  ⟨[0, 1, 2, 3, 4, 5].map (fun i => fieldAt l (4 * i) 4), [0, 1, 2, 3, 4, 5].map (fun i => toSigned 64 (fieldAt l (0x20 + 8 * i) 8)),
   [0, 1, 2, 3, 4, 5].map (fun i => toSigned 64 (fieldAt l (0x50 + 8 * i) 8))⟩

/-- Runs of a nest. -/
def Nest.runs (n : Nest) : Nat := n.counts.foldl (fun a b => a * b) 1

/-- Offset of run n of a nest (R109 extended to six levels, R146). -/
def runOfs (n : Nat) : List Nat → List Int → Int
  | c :: cs, t :: ts => (n % c : Nat) * t + runOfs (n / c) cs ts
  | _, _ => 0

/-- The nest checks of `cmd` (R146, R147); the strides that a FILL ignores need no alignment (DESIGN CHOICE, log 106). -/
def nestOk (r : BitVec 512) (l : List Byte) : Bool :=
  let n := nestOf l
  let es := rkEs r
  let len := if rkKind r = 1 then recFld r 0x28 4 else recFld r 0x20 4
  n.counts.all (fun c => decide (1 ≤ c)) && fieldAt l 0x18 8 == 0 && (rkKind r == 6 || n.ss.all (fun x => x % (es : Int) == 0)) &&
    n.ds.all (fun x => x % (es : Int) == 0) && decide (len * n.runs < 2 ^ 48)

/-- Layer j of a NET descriptor: weights, bias, widths, activation, crew (R155). -/
structure NetLayer where
  waddr : Nat
  baddr : Nat
  kin   : Nat
  nout  : Nat
  act   : Nat
  crew  : Nat
  deriving DecidableEq, Repr, Inhabited

/-- A layer entry of a descriptor. -/
def netLayer (l : List Byte) (j : Nat) : NetLayer :=
  let f := fun off n => fieldAt l (0x50 + 0x20 * j + off) n
  ⟨f 0 8, f 8 8, f 0x10 2, f 0x12 2, f 0x14 1, f 0x15 1⟩

/-- The layers of a descriptor. -/
def netLayers (l : List Byte) : List NetLayer := (List.range (Nat.min (fieldAt l 0x49 1) 3)).map (netLayer l)

/-- Element size of a descriptor's FTYPE. -/
def netEs (l : List Byte) : Nat := if fieldAt l 0x48 1 = 11 then 2 else 1

/-- Whether a layer entry is in range for a core's heat (R155). -/
def netLayerOk (s : State) (c : Nat) (l : List Byte) (j : Nat) : Bool :=
  let y := netLayer l j
  isMul y.kin 128 && inRange y.kin 128 512 && inRange y.nout 1 256 && decide (y.act ≤ 3) && decide (y.crew < 48) &&
    crewDie y.crew == dieOf c && [0, 1, 2, 3].all (fun p => inHeat s c (coreAt y.crew p)) && isMul y.waddr (netEs l) &&
    isMul y.baddr 4 && fieldAt l (0x66 + 0x20 * j) 10 == 0

/-- KIN of each layer equals NOUT of the layer before it, rounded up to a multiple of 128 (R155). -/
def chainOk : List NetLayer → Bool
  | a :: b :: r => b.kin == roundUp a.nout 128 && chainOk (b :: r)
  | _ => true

/-- The descriptor checks of `cmd` (R155, R360). -/
def netOk (s : State) (c : Nat) (r : BitVec 512) (l : List Byte) : Bool :=
  let f := fun off n => fieldAt l off n
  let es := netEs l
  let nl := f 0x49 1
  let vfw := f 0x44 2
  let efw := f 0x46 2
  let ys := netLayers l
  let p := if f 0x28 8 = 0 then 0 else 4
  let nout := match ys.getLast? with
    | some y => y.nout
    | none => 0
  (f 0x48 1 == 9 || f 0x48 1 == 11) && inRange nl 1 3 && f 0x4D 3 == 0 && f 0xB0 80 == 0 &&
    (List.range nl).all (netLayerOk s c l) && ([0, 1, 2].filter (fun j => decide (nl ≤ j))).all (fun j => f (0x50 + 0x20 * j) 32 == 0) &&
    chainOk ys && isMul (f 8 8) 4 && isMul (f 0x10 8) 4 && isMul (f 0x18 8) es && isMul (f 0x20 8) es && isMul (f 0x28 8) 4 &&
    isMul (f 0x30 8) 4 && decide (1 ≤ recFld r 0x1C 4) && decide (recFld r 0x18 4 + recFld r 0x1C 4 ≤ f 0 4) &&
    decide (1 ≤ vfw) && (efw == 0) == (f 0x20 8 == 0) && decide (p + 2 * vfw + efw ≤ (ys.headD default).kin) &&
    decide (vfw * es ≤ f 0x38 4) && (f 0x20 8 == 0 || decide (efw * es ≤ f 0x3C 4)) && decide (4 * nout ≤ f 0x40 4) &&
    (f 0x30 8 != 0 || (isMul (f 0x40 4) 64 && inHeat s c (f 0x4A 2) && dieOf (f 0x4A 2) == dieOf c && decide (f 0x4C 1 < 32)))

/-- Base and length fields of a record with the multiples their kind asks for, in the order of the checks (check 8). -/
def recAligns (r : BitVec 512) : List (Nat × Nat) :=
  let es := rkEs r
  match rkKind r with
  | 1 =>
    if rkDecode r then [(recFld r 0x10 8, 4096), (recFld r 0x18 8, 64), (recFld r 0x28 4, 4096)]
    else [(recFld r 0x10 8, es), (recFld r 0x18 8, es), (recFld r 0x28 4, es)]
  | 2 => [(recFld r 0x10 8, es), (recFld r 0x18 8, es), (recFld r 0x2C 4, es), (recFld r 0x38 4, es), (recFld r 0x20 8, 4)]
  | 3 | 4 => [(recFld r 0x10 8, es), (recFld r 0x18 8, es), (recFld r 0x2C 4, es), (recFld r 0x30 4, es), (recFld r 0x20 8, 4)]
  | 5 =>
    [(recFld r 0x10 8, accwDe r), (recFld r 0x20 8, accwDe r), (recFld r 0x18 8, accwSs r), (recFld r 0x30 8, 4), (recFld r 0x38 8, 8)]
  | 6 => [(recFld r 0x10 8, es), (recFld r 0x20 4, es)]
  | 7 => [(recFld r 0x18 8, 64), (recFld r 0x20 4, 64), (recFld r 0x24 4, 64)]
  | _ => []

/-- The descriptor of a record read and checked (checks 6 and 7). -/
def descCheck (c : Nat) (r : BitVec 512) (s : State) : Except Trap State :=
  match recDesc r with
  | none => .ok s
  | some (a, n) =>
    let ea := BitVec.ofNat 64 a
    if a % 64 ≠ 0 then .error (trapOn .alignIssue ea)
    else
      match readRecord ea n s with
      | .error t => .error t
      | .ok (s, l) =>
        if (if rkKind r = 9 then netOk s c r l else nestOk r l) then .ok s else .error (trapOn .alignShape ea)

/-- Checks 4-8 of R134 on a record that the moving core enqueues from an address. -/
def recordCheck (c : Nat) (a : Addr) (r : BitVec 512) (s : State) : Except Trap State :=
  if headerOk r = false ∨ bodyOk s c r = false then .error (trapOn .illegal a)
  else
    match badHandle s c r with
    | some h => .error (trapOn .aperture h)
    | none =>
      match descCheck c r s with
      | .error t => .error t
      | .ok s =>
        match (recAligns r).find? (fun p => !isMul p.1 p.2) with
        | some p => .error (trapOn .alignIssue (BitVec.ofNat 64 p.1))
        | none => .ok s

/-! ### Fault records, raises and retirement -/

/-- A fresh value for the ADDR of a record whose fault concerns no address (R159 states none; DESIGN CHOICE, log 23). -/
def freshAddr (s : State) : State × Addr := ({ s with count := s.count + 1 }, Config.noAddr s.count)

/-- Ring of a delivery of source 5. -/
def Delivery.ring (d : Delivery) : Nat := d.w1.toNat / 2 ^ 12 % 4

/-- The head record's bytes. -/
def headBytes (g : Ring) : BitVec 512 :=
  match g.head with
  | some e => e.bytes
  | none => 0

/-- The ring's fault record is written, and the fault delivered unless it is a skip (R139, R143, R159, R318). PORT is that of a LANE.RUN,
else 0xFF (DESIGN CHOICE, log 108). -/
def ringFault (c r code cause : Nat) (deferred stopped : Bool) (index : Nat) (addr : Addr) (chunk : Nat) (s : State) : State :=
  let g := (s.core c).ring r
  let b := headBytes g
  let port := if rkKind b = 8 then recFld b 0x16 1 else 0xFF
  let tb := (s.die (dieOf c)).tb.toNat
  let s := s.modRing c r (fun g =>
    { g with fault := faultRec code cause r (rkKind b) c port stopped g.rp.toNat index addr chunk tb })
  if cause = 1 then s
  else
    postDelivery c ⟨deliveryWord code deferred 5 r stopped none c, addr, BitVec.ofNat 64 (g.rp.toNat + index * 2 ^ 32),
      BitVec.ofNat 64 chunk⟩ s

/-- The future of a record's raise, where it is RESOLVED or FAULTED already (R140). -/
def raiseDoubled (s : State) (c : Nat) (b : BitVec 512) : Option Addr :=
  if rkRaiseKind b ≠ 2 then none
  else
    match s.place c (handleAddr (rkRaiseFut b)) with
    | some p => if futDone (futureWord s p) then some (handleAddr (rkRaiseFut b)) else none
    | none => none

/-- The raise of a record at its retirement (R140, R158), its future not resolved before; it counts for R301 whatever the outcome. A
record of a `.ring` section that fails its head check by its own raise field raises what that field names all the same: an index
past the last is a unit of its own that nothing else reads, and a kind or a handle that names nothing raises nothing (R145; DESIGN
CHOICE, log 90). -/
def raiseRecord (c : Nat) (b : BitVec 512) (value bytes : Nat) (fault : Option Nat) (s : State) : State :=
  match rkRaiseKind b with
  | 1 => (raiseSema c (rkRaise b) (rkRaiseN b) fault.isSome s).act c
  | 2 =>
    (match s.place c (handleAddr (rkRaiseFut b)) with
      | some p => (resolveFuture p (fault.elim (resolvedWord value) faultedWord) s).act c
      | none => s)
  | 3 => (raiseBar c (rkRaise b) bytes fault.isSome s).act c
  | _ => s

/-- A NET record leaves its engine: the engine gives up the seats it holds for it, and its requests (R356; DEDUCED, log 61). -/
def dropNet (c r : Nat) (s : State) : State :=
  let die := dieOf c
  let mine := fun (x : Nat × Nat) => x == (c, r)
  let s :=
    if (s.die die).net.any (fun j => mine (j.core, j.ring)) then
      { s with crews := s.crews.map (fun (p : Nat × Crew) =>
        if crewDie p.1 = die then (p.1, { p.2 with
          holder := if p.2.holder = 4 then 7 else p.2.holder
          netStint := 0
          reqs := p.2.reqs.filter (fun q => q != 4) })
        else p) }
    else s
  s.modDie die (fun d => { d with
    netq := d.netq.filter (fun x => !mine x)
    net := d.net.filter (fun j => !mine (j.core, j.ring)) })

/-- A retired record's waiting requests and holds end: lanes that serve it, the stream of its LANE.RUN (R335, R346). -/
def endRequests (c r : Nat) (b : BitVec 512) (s : State) : State :=
  let mine := fun (x : Nat × Nat) => x == (c, r)
  let s := dropReads (fun w => match w with
    | .chunk x y _ => mine (x, y)
    | _ => false) s
  let s := if rkKind b = 7 ∨ rkKind b = 8 ∨ (rkKind b = 1 ∧ rkDecode b = true) then
      { s with lanes := s.lanes.map (fun p => (p.1, { p.2 with
          reqs := p.2.reqs.filter (fun x => !mine x)
          run := p.2.run.filter (fun y => !mine (y.core, y.ring)) })) }
    else s
  if rkKind b = 8 then
    s.modCore (recFld b 0x14 2) (fun k => { k with streams := k.streams.map (fun p => (p.1, { p.2 with
      holder := p.2.holder.filter (fun x => !mine x)
      wants := p.2.wants.filter (fun x => !mine x) })) })
  else if rkKind b = 9 then dropNet c r s
  else s

/-- The ring after its head has retired (R132). -/
def popHead (g : Ring) : Ring :=
  { Ring.reset with
    rp := g.rp + 1, wp := g.wp, st := if g.rp + 1 = g.wp then .idle else .wait
    recs := tdel g.recs (g.rp.toNat % 64), fault := g.fault }

/-- VALUE and the bytes delivered of a head (R158). -/
def headValue (g : Ring) : Nat := if rkKind (headBytes g) = 5 then g.exc.toNat else g.value.toNat

/-- A head whose raise has been made leaves its ring (R132, R346). -/
def endRetire (c r : Nat) (b : BitVec 512) (s : State) : State :=
  let s := endRequests c r b s
  let s := s.modCore c (fun k => if k.holdRing = some r then { k with holdRing := none, hold := [], holdBad := none } else k)
  s.modRing c r popHead

/-- Whether a core's pending list is full, so that a further fault is held at its source (R317). -/
def listFull (s : State) (c : Nat) : Bool := decide (64 ≤ (s.core c).pending.length)

/-- A ring stopped at its head (R143, R317). -/
def stopRing (code : Nat) (due : Option Due) (g : Ring) : Ring := { g with st := .stop, fcode := BitVec.ofNat 8 code, due := due }

/-- A head retires, DONE or FAULTED with a code: the release, which waits for lost writes of its die, the raise, then RP advances
(R133, R140, R315). A raise that finds its future resolved writes a fault record instead; where the pending list is full, the ring
stops until that delivery has entered it (R317; DEDUCED, log 87). -/
def retire (c r : Nat) (fault : Option Nat) (s : State) : State :=
  let g := (s.core c).ring r
  match g.head with
  | none => s
  | some e =>
    let s := if rkDevrel e.bytes then flushDie (dieOf c) s else s
    let s := if rkKind e.bytes = 9 then dropNet c r s else s
    if s.owes (dieOf c) then s.modRing c r (fun g => { g with due := some (fault.elim .done .fault) })
    else
    match raiseDoubled s c e.bytes with
    | none => endRetire c r e.bytes (raiseRecord c e.bytes (headValue g) g.bytes fault s)
    | some a =>
      let full := listFull s c
      let s := ringFault c r Code.doubleResolve.num 0 false full noIndex a g.chunk s
      if full then s.modRing c r (stopRing Code.doubleResolve.num (some .raised)) else endRetire c r e.bytes s

/-- What a head waited to do happens (R317, R315). -/
def takeDue (c r : Nat) (d : Due) (s : State) : State :=
  match d with
  | .done => retire c r none s
  | .fault code => retire c r (some code) s
  | .raised => endRetire c r (headBytes ((s.core c).ring r)) s

/-- A fault that a chunk takes: its code, ADDR, INDEX and DEFERRED. -/
structure CFault where
  code     : Code
  addr     : Addr
  index    : Nat
  deferred : Bool
  deriving DecidableEq, Repr, Inhabited

/-- A chunk fault without an index: R159 lets INDEX be that of the row or 0xFFFF_FFFF (DESIGN CHOICE, log 107). -/
def cfault (code : Code) (a : Addr) : CFault := ⟨code, a, noIndex, false⟩

/-- Whether a code is repairable (R143). -/
def Code.repairable : Code → Bool
  | .xlate => true
  | .perm => true
  | .owner => true
  | _ => false

/-- A head's fault: the record is written and delivered, and the ring stops (`rep`) or the record retires (R143); with the
pending list full the ring stops in either case, and a terminal fault's effect waits for its delivery (R317). -/
def faultHead (c r k : Nat) (f : CFault) (rep : Bool) (s : State) : State :=
  let full := listFull s c
  let s := ringFault c r f.code.num 0 f.deferred (rep || full) f.index f.addr k s
  if rep then s.modRing c r (stopRing f.code.num none)
  else if full then s.modRing c r (stopRing f.code.num (some (.fault f.code.num)))
  else retire c r (some f.code.num) s

/-- A chunk's fault, by its class (R143). -/
def chunkFault (c r k : Nat) (f : CFault) (s : State) : State :=
  faultHead c r k f (f.code.repairable && !rkNostop (headBytes ((s.core c).ring r))) s

/-- A chunk that met poison is remembered: the lowest chunk, and the lowest poisoned address it read (R143). -/
def noteCarried (k : Nat) (a : Addr) (g : Ring) : Ring :=
  match g.carried with
  | some (k', a') => if k < k' ∨ (k = k' ∧ a < a') then { g with carried := some (k, a) } else g
  | none => { g with carried := some (k, a) }

/-- Every chunk of a head is complete: it retires DONE, or FAULTED for poison carried or an element lost (R140, R143, R315); INDEX names
no row (R159; DESIGN CHOICE, log 107). -/
def completeRecord (c r : Nat) (s : State) : State :=
  let g := (s.core c).ring r
  if g.lost then retire c r (some Code.linkLost.num) s
  else
    match g.carried with
    | none => retire c r none s
    | some (k, a) => chunkFault c r k ⟨.poison, a, noIndex, true⟩ s

/-- The number of leading complete chunks of a window. -/
def leadMarks (m : BitVec 64) : Nat := ((List.range 64).takeWhile (fun i => m.getLsbD i)).length

/-- A chunk's mark set, and CHUNK moved past every contiguous completed chunk (R132). -/
def setMark (k : Nat) (g : Ring) : Ring :=
  let m := g.marks ||| (1#64 <<< (k - g.chunk))
  let n := leadMarks m
  { g with chunk := g.chunk + n, marks := m >>> n }

/-- A chunk completes: `n` bytes are delivered (R158), its mark is set, and after the last chunk the record retires. -/
def finishChunk (c r k total n : Nat) (s : State) : State :=
  let s := (s.modRing c r (fun g => setMark k { g with bytes := g.bytes + n })).act c
  if total ≤ ((s.core c).ring r).chunk then completeRecord c r s else s

/-- The head record of a ring that serves chunk k of its kind: running, inside the window, unmarked (R132). -/
def chunkHead (s : State) (c r kind k : Nat) : Option (Ring × BitVec 512) :=
  let g := (s.core c).ring r
  match g.head with
  | some e =>
    if s.unitsLive c = true ∧ g.st = .run ∧ g.skip = none ∧ g.due = none ∧ e.checked = true ∧ rkKind e.bytes = kind ∧ g.chunk ≤ k ∧
        k < g.chunk + 64 ∧ g.marks.getLsbD (k - g.chunk) = false then some (g, e.bytes) else none
  | none => none

/-! ### The head's await (R139) -/

/-- A skipped record retires FAULTED with CAUSE 1 (R139); CHUNK of its fault record is 0 (R159; DESIGN CHOICE, log 109). -/
def skipHead (c r code : Nat) (s : State) : State :=
  let (s, a) := freshAddr s
  retire c r (some code) (ringFault c r 0 1 false false noIndex a 0 s)

/-- The test of a checked head's await, with its atomic step. -/
def testAwait (c r : Nat) (b : BitVec 512) (s : State) : State :=
  match rkAwaitKind b with
  | 0 => satisfyHead c r none s
  | 1 => if rkAwaitN b ≤ ((s.core c).sema (rkAwait b)).count then serveHead c (rkAwait b) r s else s
  | 2 =>
    (match s.place c (handleAddr (rkAwaitFut b)) with
      | some p =>
        let w := futureWord s p
        if futDone w then satisfyHead c r (if futState w = 3 then some (nfld w 32 8) else none) s else s
      | none => s)
  | _ => if ((s.core c).bar (rkAwait b)).phase.toNat = rkAwaitN b % 2 then satisfyHead c r none s else s

/-- A head in WAIT: a record the loader placed is checked first, and one that fails retires FAULTED (R145), CHUNK 0 (R159; DESIGN CHOICE,
log 109). -/
def waitHead (c r : Nat) (e : RecEntry) (s : State) : State :=
  if e.checked then testAwait c r e.bytes s
  else
    let (s, a) := freshAddr s
    match recordCheck c a e.bytes s with
    | .error t => faultHead c r 0 ⟨t.code, t.faddr.getD a, noIndex, t.deferred⟩ false s
    | .ok s =>
      testAwait c r e.bytes (s.modRing c r (fun g => { g with recs := tset g.recs (g.rp.toNat % 64) { e with checked := true } }))

/-- ENGINE_HEAD_START (R139, R145, R317): the head's await is tested; a head to be skipped, or whose fault has been
delivered, retires. -/
def headStart (c r : Nat) (s : State) : State :=
  let g := (s.core c).ring r
  match g.head, g.due, g.st with
  | none, _, _ => s
  | some _, some d, _ =>
    if (s.core c).held.any (fun d => d.source == 5 && d.ring == r) = true ∨ s.owes (dieOf c) = true then s else takeDue c r d s
  | some _, none, .stop => s
  | some _, none, .run =>
    (match g.skip with
      | some code => skipHead c r code s
      | none => s)
  | some e, none, _ => waitHead c r e s

/-- ENGINE_HEAD_START. -/
def execEngineHeadStart (c r : Nat) (s : State) : Res := .next (if s.unitsLive c then headStart c r (asSide c .ap s) else s)

/-! ### The words (R134, R135) -/

/-- Records in a ring. -/
def Ring.depth (g : Ring) : Nat := (g.wp - g.rp).toNat

/-- Code of STATE (R131). -/
def RingState.num : RingState → Nat
  | .idle => 0
  | .wait => 1
  | .run => 2
  | .stop => 3

/-- The status word of a ring (R135). -/
def ringStatus (g : Ring) : Addr := BitVec.ofNat 64 (g.st.num + g.depth * 2 ^ 16 + g.fcode.toNat * 2 ^ 32)

/-- A record enqueued by the moving AP (R134). -/
def enqueue (r : Nat) (v : BitVec 512) (s : State) : State :=
  let c := s.cur.core
  let e : RecEntry := ⟨v, s.mySide.task, true, s.me.order⟩
  (s.modRing c r (fun g => { g with
    recs := tset g.recs (g.wp.toNat % 64) e
    wp := g.wp + 1
    st := if g.st = .idle then .wait else g.st })).modMe (fun k => { k with order := k.order + 1 })

/-- `cmd` (R134). -/
def execCmd (d a r : Nat) (s : State) : Res :=
  .next (streamWord [a] [d] (fun s0 =>
    let ea := (s0.me.areg a).val
    if ea.toNat % 64 ≠ 0 then .error (trapOn .alignIssue ea)
    else
      match readRecord ea 64 s0 with
      | .error t => .error t
      | .ok (s, l) =>
        let v := BitVec.ofNat 512 (bytesNat l)
        match recordCheck s.cur.core ea v s with
        | .error t => .error t
        | .ok s =>
          let g := s.me.ring r
          if 64 ≤ g.depth then .ok s0 else release id (fun s => .ok (finish ((enqueue r v s).put d (g.wp.setWidth 64)))) s) s)

/-- A `ceng` word that writes d from the ring after its effect (R135). -/
def cengWord (d r : Nat) (f : State → State) (v : Ring → Addr) (s : State) : State :=
  streamWord [] [d] (fun s =>
    let s := f s
    .ok (finish (s.put d (v (s.me.ring r))))) s

/-- `ceng.stat` (R135). -/
def execCengStat (d r : Nat) (s : State) : Res := .next (cengWord d r (fun s => s) ringStatus s)

/-- `ceng.seq` (R135). -/
def execCengSeq (d r : Nat) (s : State) : Res := .next (cengWord d r (fun s => s) (fun g => g.rp.setWidth 64) s)

/-- `ceng.wait` (R135): blocked until record a has retired. -/
def execCengWait (d a r : Nat) (s : State) : Res :=
  .next (streamWord [a] [d] (fun s =>
    let n := ((s.me.ring r).rp - (s.me.areg a).val.setWidth 32).toNat
    if 1 ≤ n ∧ n ≤ 2 ^ 31 then .ok (finish (s.put d (ringStatus (s.me.ring r)))) else .ok s) s)

/-- A stopped ring runs again; what waits for its head's delivery still waits (R135, R317). -/
def resRing (g : Ring) : Ring := if g.st = .stop then { g with st := .run, fcode := 0 } else g

/-- A stopped head retires FAULTED with FCODE; one whose raise has been made only leaves its ring (R135, R140; DEDUCED, log 87). -/
def dropHead (c r : Nat) (s : State) : State :=
  let g := (s.core c).ring r
  if g.st ≠ .stop then s else takeDue c r (if g.due = some .raised then .raised else .fault g.fcode.toNat) s

/-- `ceng.res` (R135). -/
def execCengRes (d r : Nat) (s : State) : Res :=
  .next (cengWord d r (fun s => s.modRing s.cur.core r resRing) ringStatus s)

/-- `ceng.drop` (R135). -/
def execCengDrop (d r : Nat) (s : State) : Res := .next (cengWord d r (fun s => dropHead s.cur.core r s) ringStatus s)

end Sys2Proof.Machine
end

