-- ==== Sys2Proof/Machine/Chunks.lean ====
section
/-! DEFINITION. Chunks of records that move, fill, pad, gather, scatter and accumulate (R141-R152), and the records that have
one chunk: QFENCE and SEMA (R156, R157). -/

namespace Sys2Proof.Machine

/-- A step of a chunk of a running heat's record. -/
def chunkStep (f : State → State) (c r k : Nat) (s : State) : State :=
  if s.unitsLive c then overLink (.chunk c r k) f (asSide c .ap s) else s

/-! ### Moving bytes -/

/-- Bytes of the granule that holds an address. -/
def granuleAt (s : State) (c : Nat) (ea : Addr) : Nat :=
  match s.place c ea with
  | some (.glob _ _) => 64
  | _ => 16

/-- n bytes read in pieces that lie in one poison granule each, with its poison. -/
def readPieces (fuel : Nat) (c : Nat) (ea : Addr) (n : Nat) (s : State) : State × List (List Byte × Bool) :=
  match fuel with
  | 0 => (s, [])
  | fuel + 1 =>
    if n = 0 then (s, [])
    else
      let g := granuleAt s c ea
      let m := Nat.min n (g - ea.toNat % g)
      let (s, x) := readAt s c ea m .relaxed
      let (s, r) := readPieces fuel c (ea + BitVec.ofNat 64 m) (n - m) s
      (s, (x.bytes, x.poison) :: r)

/-- Address of the first poisoned piece. -/
def firstPoison (ea : Addr) : List (List Byte × Bool) → Option Addr
  | [] => none
  | (l, bad) :: r => if bad then some ea else firstPoison (ea + BitVec.ofNat 64 l.length) r

/-- A span that fails R91 checks 3-7, as a chunk fault. -/
def spanFault (s : State) (c : Nat) (ea : Addr) (n : Nat) (acc : Acc) : Option CFault :=
  (checkRange s c ea n acc).map (fun p => cfault p.1 p.2)

/-- n bytes and a pad moved to a destination as one chunk: the whole destination span is checked, then the source span
(R142); the lowest poisoned source address comes back (R143). `forced` poisons the whole destination. -/
def moveBytes (c : Nat) (src dst : Addr) (n : Nat) (pad : List Byte) (forced : Bool) (s : State) :
    State × Except CFault (Option Addr) :=
  match spanFault s c dst (n + pad.length) .store, spanFault s c src n .load with
  | some f, _ => (s, .error f)
  | none, some f => (s, .error f)
  | none, none =>
    let (s, ps) := readPieces (n / 16 + 2) c src n s
    let s := writeAt c dst (ps.flatMap (fun p => p.1) ++ pad) forced .relaxed s
    (markPieces c dst s ps, .ok (firstPoison src ps))

/-- The poisoned addresses that a chunk met. -/
def noteAll (k : Nat) (l : List (Option Addr)) (g : Ring) : Ring :=
  l.foldl (fun g o => match o with
    | some a => noteCarried k a g
    | none => g) g

/-- A chunk ends: its fault, or its poison is noted, VALUE grows by v, n bytes are delivered, and its mark is set. -/
def endChunk (c r k total v n : Nat) (x : State × Except CFault (List (Option Addr))) : State :=
  match x with
  | (s, .error f) => chunkFault c r k f s
  | (s, .ok bad) =>
    finishChunk c r k total n (s.modRing c r (fun g => noteAll k bad { g with value := g.value + BitVec.ofNat 32 v }))

/-- One poisoned address as a list. -/
def oneBad (x : State × Except CFault (Option Addr)) : State × Except CFault (List (Option Addr)) :=
  (x.1, x.2.map (fun o => [o]))

/-- The descriptor of a head, read when its record starts and on every replay, and kept until then (R134); poison there is
terminal. A record without one has the empty descriptor. -/
def headDesc (c r : Nat) (b : BitVec 512) (s : State) : State × Except CFault (List Byte) :=
  match ((s.core c).ring r).desc, recDesc b with
  | some l, _ => (s, .ok l)
  | none, none => (s, .ok [])
  | none, some (a, n) =>
    match readRecord (BitVec.ofNat 64 a) n s with
    | .error t => (s, .error ⟨t.code, t.faddr.getD (BitVec.ofNat 64 a), noIndex, t.deferred⟩)
    | .ok (s, l) => (s.modRing c r (fun g => { g with desc := some l }), .ok l)

/-- An address moved by a signed offset. -/
def addrPlus (a : Nat) (o : Int) : Addr := BitVec.ofNat 64 a + BitVec.ofInt 64 o

/-- A chunk of a nest: nothing left to do retires the record, else run k is made. -/
def nestChunk (c r k : Nat) (b : BitVec 512) (s : State) (run : Nest → State → State × Except CFault (Option Addr)) (len : Nat) :
    State :=
  match headDesc c r b s with
  | (s, .error f) => chunkFault c r k f s
  | (s, .ok l) =>
    let n := if l = [] then Nest.one else nestOf l
    if n.runs ≤ ((s.core c).ring r).chunk then completeRecord c r s
    else if n.runs ≤ k then s
    else endChunk c r k n.runs len len (oneBad (run n s))

/-- A COPY chunk (R146). -/
def copyChunk (c r k : Nat) (s : State) : State :=
  match chunkHead s c r 1 k with
  | some (_, b) =>
    if rkDecode b then s
    else
      let len := recFld b 0x28 4
      nestChunk c r k b s (fun n s => moveBytes c (addrPlus (recFld b 0x10 8) (runOfs k n.counts n.ss))
        (addrPlus (recFld b 0x18 8) (runOfs k n.counts n.ds)) len [] false s) len
  | none => s

/-- The first n bytes of a pattern repeated (R147). -/
def patBytes (pat n : Nat) : List Byte := (List.range n).map (fun j => BitVec.ofNat 8 (pat / 256 ^ (j % 8)))

/-- A FILL chunk (R147). -/
def fillChunk (c r k : Nat) (s : State) : State :=
  match chunkHead s c r 6 k with
  | some (_, b) =>
    let len := recFld b 0x20 4
    nestChunk c r k b s (fun n s => moveBytes c 0 (addrPlus (recFld b 0x10 8) (runOfs k n.counts n.ds)) 0
      (patBytes (recFld b 0x28 8) len) false s) len
  | none => s

/-- A z32 index read by the engine: its fault, or its value and the address of its poison. -/
def readIdx (c : Nat) (ea : Addr) (s : State) : State × Except CFault (Nat × Option Addr) :=
  match spanFault s c ea 4 .load with
  | some f => (s, .error f)
  | none =>
    let (s, g) := readAt s c ea 4 .relaxed
    (s, .ok (bytesNat g.bytes, if g.poison then some ea else none))

/-- A RAGGED row's offsets: their fault, or both with the poison met (R148); a misaligned one faults with the address of its word in
ADDR (R159; DESIGN CHOICE, log 91). -/
def raggedOfs (c : Nat) (b : BitVec 512) (k : Nat) (s : State) : State × Except CFault (Nat × Nat × List (Option Addr)) :=
  let a := BitVec.ofNat 64 (recFld b 0x20 8 + 4 * k)
  match readIdx c a s with
  | (s, .error f) => (s, .error f)
  | (s, .ok (o0, p0)) =>
    match readIdx c (a + 4) s with
    | (s, .error f) => (s, .error f)
    | (s, .ok (o1, p1)) =>
      if o0 % rkEs b ≠ 0 then (s, .error ⟨.alignAccess, a, k, false⟩)
      else if o1 % rkEs b ≠ 0 then (s, .error ⟨.alignAccess, a + 4, k, false⟩)
      else (s, .ok (o0, o1, [p0, p1]))

/-- A RAGGED chunk: one row (R148), poisoned whole where an offset was read poisoned (R311; DESIGN CHOICE, log 36). -/
def raggedChunk (c r k : Nat) (s : State) : State :=
  match chunkHead s c r 2 k with
  | some (g, b) =>
    let rows := recFld b 0x28 4
    let width := recFld b 0x2C 4
    if rows ≤ g.chunk then completeRecord c r s
    else if rows ≤ k then s
    else
      match raggedOfs c b k s with
      | (s, .error f) => chunkFault c r k f s
      | (s, .ok (o0, o1, bad)) =>
        let n := o1 - o0
        let cut := if o1 < o0 ∨ n > width then 1 else 0
        let m := Nat.min n width
        let x := moveBytes c (BitVec.ofNat 64 (recFld b 0x10 8 + o0)) (BitVec.ofNat 64 (recFld b 0x18 8 + k * recFld b 0x38 4)) m
          ((patBytes (recFld b 0x30 8) width).drop m) (bad.any (fun o => o.isSome)) s
        endChunk c r k rows cut width (x.1, x.2.map (fun o => bad ++ [o]))
  | none => s

/-- Whether every row below k that is still to be done has an index that can be read and is aligned: rows below a bad index are
written whole, rows from it on are not, and one that cannot be read may be bad (R91, R149). -/
def lowerRowsOk (s : State) (c : Nat) (b : BitVec 512) (g : Ring) (k : Nat) : Bool :=
  (List.range (k - g.chunk)).all (fun i =>
    let ia := BitVec.ofNat 64 (recFld b 0x20 8 + 4 * (g.chunk + i))
    g.marks.getLsbD i || ((spanFault s c ia 4 .load).isNone && bytesNat (readAt s c ia 4 .relaxed).2.bytes % rkEs b == 0))

/-- A row of a GATHER or SCATTER (R149), poisoned whole where its index was read poisoned (R311; DESIGN CHOICE, log 36). A misaligned
index faults with the address of its IDX word in ADDR (R159; DESIGN CHOICE, log 91). -/
def rowChunk (gather : Bool) (c r k : Nat) (s : State) : State :=
  match chunkHead s c r (if gather then 3 else 4) k with
  | some (g, b) =>
    let rows := recFld b 0x28 4
    let row := recFld b 0x2C 4
    let pitch := if recFld b 0x30 4 = 0 then row else recFld b 0x30 4
    let ia := BitVec.ofNat 64 (recFld b 0x20 8 + 4 * k)
    if rows ≤ g.chunk then completeRecord c r s
    else if rows ≤ k ∨ lowerRowsOk s c b g k = false then s
    else
      match readIdx c ia s with
      | (s, .error f) => chunkFault c r k f s
      | (s, .ok (o, bad)) =>
        if o % rkEs b ≠ 0 then (if k = g.chunk then chunkFault c r k ⟨.alignAccess, ia, k, false⟩ s else s)
        else
          let src := recFld b 0x10 8 + (if gather then o else k * pitch)
          let dst := recFld b 0x18 8 + (if gather then k * pitch else o)
          let x := moveBytes c (BitVec.ofNat 64 src) (BitVec.ofNat 64 dst) row [] bad.isSome s
          endChunk c r k rows row row (x.1, x.2.map (fun p => [bad, p]))
  | none => s

/-- COPY. -/
def execCopy (c r k : Nat) (s : State) : Res := .next (chunkStep (copyChunk c r k) c r k s)

/-- FILL. -/
def execFill (c r k : Nat) (s : State) : Res := .next (chunkStep (fillChunk c r k) c r k s)

/-- RAGGED. -/
def execRagged (c r k : Nat) (s : State) : Res := .next (chunkStep (raggedChunk c r k) c r k s)

/-- GATHER. -/
def execGather (c r k : Nat) (s : State) : Res := .next (chunkStep (rowChunk true c r k) c r k s)

/-- SCATTER. -/
def execScatter (c r k : Nat) (s : State) : Res := .next (chunkStep (rowChunk false c r k) c r k s)

/-! ### Accumulating (R150-R152) -/

/-- The addresses of an ACCW element: destination, operand, fetch, sideband. -/
structure Elem where
  dst   : Addr
  src   : Addr
  fetch : Option Addr
  side  : Option Addr
  deriving DecidableEq, Repr, Inhabited

/-- Element k of an ACCW whose destination offset is o (R150). -/
def elemOf (b : BitVec 512) (k o : Nat) : Elem :=
  { dst := BitVec.ofNat 64 (recFld b 0x10 8 + o)
    src := BitVec.ofNat 64 (recFld b 0x18 8 + k * accwSs b)
    fetch := if recFld b 0x20 8 = 0 then none else some (BitVec.ofNat 64 (recFld b 0x20 8 + k * accwDe b))
    side := if recFld b 0x2C 1 = 3 then some (BitVec.ofNat 64 (recFld b 0x38 8 + 8 * (o / 16))) else none }

/-- The elements k of a list with their offsets, indices read where IDX is not 0; a misaligned one is ALIGN_ACCESS (R150), with the
address of its IDX word in ADDR (R159; DESIGN CHOICE, log 91). -/
def elemsOf (c : Nat) (b : BitVec 512) (s : State) : List Nat → State × Except CFault (List (Elem × Option Addr))
  | [] => (s, .ok [])
  | k :: r =>
    let ia := BitVec.ofNat 64 (recFld b 0x30 8 + 4 * k)
    let x := if recFld b 0x30 8 = 0 then (s, Except.ok (k * accwDe b, none)) else readIdx c ia s
    match x with
    | (s, .error f) => (s, .error f)
    | (s, .ok (o, bad)) =>
      if o % accwDe b ≠ 0 then (s, .error ⟨.alignAccess, ia, k, false⟩)
      else
        match elemsOf c b s r with
        | (s, .error f) => (s, .error f)
        | (s, .ok l) => (s, .ok ((elemOf b k o, bad) :: l))

/-- The spans of an ACCW chunk: every destination, sideband and fetch word, then every operand (R142). -/
def accwSpans (b : BitVec 512) (l : List Elem) : List (Addr × Nat × Acc) :=
  l.flatMap (fun e =>
    (e.dst, accwDe b, Acc.store) :: ((e.side.map (fun a => (a, 8, Acc.store))).toList ++
      (e.fetch.map (fun a => (a, accwDe b, Acc.store))).toList)) ++
    l.map (fun e => (e.src, accwSs b, Acc.load))

/-- The new value of an element (R151), other than XADD. -/
def accwNew (op ty m v : Nat) : FRes :=
  let w := etBits ty
  match op with
  | 0 => ⟨(m + v) % 2 ^ w, 0⟩
  | 1 => clampInt ty (etInt ty m + etInt ty v)
  | 2 => fpAdd fmtF 0 m v
  | 4 => ⟨Nat.lor m v, 0⟩
  | 5 => ⟨Nat.land m v, 0⟩
  | 6 => ⟨Nat.xor m v, 0⟩
  | 7 => ⟨if etInt ty v < etInt ty m then v else m, 0⟩
  | 8 => ⟨if etInt ty m < etInt ty v then v else m, 0⟩
  | 9 => fpMinMax (etFmt ty) false false m v
  | 10 => fpMinMax (etFmt ty) true false m v
  | 11 => ⟨v, 0⟩
  | _ => ⟨if m = v % 2 ^ w then v / 2 ^ w else m, 0⟩

/-- The addend of an xadd (R73): the flags it sets, and the integer it adds. -/
def xaddend (ty v : Nat) (w : Int) : Nat × Int :=
  let val := if etIsInt ty then
      (let i := etInt ty v
       Val.fin (decide (i < 0)) i.natAbs 0)
    else unpack (etFmt ty) v
  match val with
  | .nan _ _ _ => (4, 0)
  | .inf _ => (8, 0)
  | .fin sg m e =>
    let sh := e - w
    let q := if 0 ≤ sh then m * 2 ^ sh.toNat else m / 2 ^ (-sh).toNat
    let inex := decide (sh < 0) && m % 2 ^ (-sh).toNat != 0
    let n : Int := if sg then -(q : Int) else q
    if n < -(2 ^ 127) ∨ 2 ^ 127 ≤ n then (2 + inex.toNat, 0) else (inex.toNat, n)

/-- An xw word and its sideband after an addend (R72, R73). -/
def xaddWord (word side : Nat) (a : Nat × Int) : Nat × Nat :=
  let g := word + nfld side 8 8 * 2 ^ 128
  let n := ((Int.ofNat g + a.2) % 2 ^ 136).toNat
  (n % 2 ^ 128, Nat.lor (side - nfld side 8 8 * 2 ^ 8 + n / 2 ^ 128 * 2 ^ 8) a.1)

/-- The targets of an element: its destination and its sideband word, each with its width. -/
def Elem.targets (de : Nat) (e : Elem) : List (Addr × Nat) := (e.dst, de) :: (e.side.map (fun a => (a, 8))).toList

/-- The targets of an element that lie on the other die, where a failing link loses them: the element is then not applied (R315). -/
def elemLost (s : State) (c de : Nat) (e : Elem) : List (Place × Nat) :=
  if s.wlink = none then []
  else (e.targets de).filterMap (fun x => ((s.place c x.1).filter (fun p => s.homeDie p != dieOf c)).map (fun p => (p, x.2)))

/-- An element that a failing link loses: each of its far targets is a lost write (R315). -/
def loseElem (c r : Nat) (l : List (Place × Nat)) (s : State) : State :=
  (l.foldl (fun s x => loseWrite (s.wlink.getD 0) (dieOf c) x.1.key x.2 x.1.addr [c] s) s).modRing c r (fun g => { g with lost := true })

/-- A read at home that no failing link carries. -/
def readHome (s : State) (c : Nat) (ea : Addr) (n : Nat) : State × Got :=
  let (t, g) := readAt { s with cur := { s.cur with link := none } } c ea n .home
  ({ t with cur := s.cur }, g)

/-- One ACCW element, one atomic event at the home of its destination (R150, R151, R281, R311, R315): the state, the
exceptions, the poisoned addresses met. An element whose index was read poisoned (`ibad`) counts as poisoned (DESIGN CHOICE,
log 36). -/
def applyElem (c r : Nat) (b : BitVec 512) (e : Elem) (ibad : Bool) (s : State) : State × Nat × List (Option Addr) :=
  let op := recFld b 0x2C 1
  let ty := recFld b 0x2D 1
  let de := accwDe b
  let (s, v) := readAt s c e.src (accwSs b) .relaxed
  let put := fun (a : Addr) (l : List Byte) (bad : Bool) (s : State) => writeAt c a l bad .home s
  let fetch := fun (l : List Byte) (bad : Bool) (s : State) => match e.fetch with
    | some a => writeAt c a l bad .relaxed s
    | none => s
  match elemLost s c de e, s.place c e.dst with
  | x :: l, some p => (fetch (lostRead p.key de).bytes true (loseElem c r (x :: l) s), 0, [])
  | _, _ =>
    let (s, m) := readHome s c e.dst de
    let (s, d) := match e.side with
      | some a => readHome s c a 8
      | none => (s, ⟨[], false⟩)
    if v.poison || m.poison || d.poison || ibad then
      (fetch m.bytes true (put e.dst m.bytes true s), 0,
        [if v.poison then some e.src else none, if m.poison then some e.dst else none, if d.poison then e.side else none])
    else
      match e.side with
      | some a =>
        let x := xaddWord (bytesNat m.bytes) (bytesNat d.bytes) (xaddend ty (bytesNat v.bytes) (toSigned 8 (recFld b 0x2E 1)))
        (fetch m.bytes false (put a (natBytes 8 x.2) false (put e.dst (natBytes 16 x.1) false s)), 0, [])
      | none =>
        let x := accwNew op ty (bytesNat m.bytes) (bytesNat v.bytes)
        (fetch m.bytes false (put e.dst (natBytes de x.v) false s), x.fl, [])

/-- The elements of a chunk, in increasing k (R152). -/
def applyElems (c r : Nat) (b : BitVec 512) (s : State) : List (Elem × Option Addr) → State × Nat × List (Option Addr)
  | [] => (s, 0, [])
  | (e, bad) :: l =>
    let (s, fl, p) := applyElem c r b e bad.isSome s
    let (s, fl', p') := applyElems c r b s l
    (s, flagOr fl fl', bad :: (p ++ p'))

/-- The first failing span of a list. -/
def firstSpan (s : State) (c : Nat) (l : List (Addr × Nat × Acc)) : Option CFault :=
  l.findSome? (fun p => spanFault s c p.1 p.2.1 p.2.2)

/-- An ACCW chunk of one operation (R141, R142, R150-R152). -/
def accwChunk (op c r k : Nat) (s : State) : State :=
  match chunkHead s c r 5 k with
  | some (g, b) =>
    let n := recFld b 0x28 4
    let total := (n + 15) / 16
    if recFld b 0x2C 1 ≠ op then s
    else if total ≤ g.chunk then completeRecord c r s
    else if total ≤ k then s
    else
      match elemsOf c b s ((List.range (Nat.min 16 (n - 16 * k))).map (fun i => 16 * k + i)) with
      | (s, .error f) => chunkFault c r k f s
      | (s, .ok l) =>
        match firstSpan s c (accwSpans b (l.map (fun p => p.1))) with
        | some f => chunkFault c r k f s
        | none =>
          let (s, fl, bad) := applyElems c r b s l
          let s := s.modRing c r (fun g => { g with exc := g.exc ||| BitVec.ofNat 6 fl })
          endChunk c r k total 0 0 (s, .ok bad)
  | none => s

/-- A step of an ACCW record with one operation. -/
def accwStep (op c r k : Nat) (s : State) : State := chunkStep (accwChunk op c r k) c r k s

/-- ACCW ADD (R151). -/
def execAccwAdd (c r k : Nat) (s : State) : Res := .next (accwStep 0 c r k s)

/-- ACCW ADDS (R151). -/
def execAccwAdds (c r k : Nat) (s : State) : Res := .next (accwStep 1 c r k s)

/-- ACCW FADD (R151). -/
def execAccwFadd (c r k : Nat) (s : State) : Res := .next (accwStep 2 c r k s)

/-- ACCW XADD (R73, R151). -/
def execAccwXadd (c r k : Nat) (s : State) : Res := .next (accwStep 3 c r k s)

/-- ACCW OR (R151). -/
def execAccwOr (c r k : Nat) (s : State) : Res := .next (accwStep 4 c r k s)

/-- ACCW AND (R151). -/
def execAccwAnd (c r k : Nat) (s : State) : Res := .next (accwStep 5 c r k s)

/-- ACCW XOR (R151). -/
def execAccwXor (c r k : Nat) (s : State) : Res := .next (accwStep 6 c r k s)

/-- ACCW MIN (R151). -/
def execAccwMin (c r k : Nat) (s : State) : Res := .next (accwStep 7 c r k s)

/-- ACCW MAX (R151). -/
def execAccwMax (c r k : Nat) (s : State) : Res := .next (accwStep 8 c r k s)

/-- ACCW FMIN (R151). -/
def execAccwFmin (c r k : Nat) (s : State) : Res := .next (accwStep 9 c r k s)

/-- ACCW FMAX (R151). -/
def execAccwFmax (c r k : Nat) (s : State) : Res := .next (accwStep 10 c r k s)

/-- ACCW SWAP (R151). -/
def execAccwSwap (c r k : Nat) (s : State) : Res := .next (accwStep 11 c r k s)

/-- ACCW CAS (R151). -/
def execAccwCas (c r k : Nat) (s : State) : Res := .next (accwStep 12 c r k s)

/-! ### Records of one chunk (R156, R157) -/

/-- QFENCE (R156): it completes when the earlier records of the other named rings have retired. -/
def qfenceChunk (c r : Nat) (s : State) : State :=
  match chunkHead s c r 10 ((s.core c).ring r).chunk, ((s.core c).ring r).head with
  | some (g, b), some e =>
    if 1 ≤ g.chunk then completeRecord c r s
    else if ([0, 1, 2, 3].filter (fun j => j != r && recFld b 0x10 1 / 2 ^ j % 2 == 1)).all (fun j => doneBefore (s.core c) j e.order) then
      finishChunk c r 0 1 0 s
    else s
  | _, _ => s

/-- QFENCE. -/
def execQfence (c r : Nat) (s : State) : Res := .next (if s.unitsLive c then qfenceChunk c r (asSide c .ap s) else s)

/-- A SEMA record of one OP (R157). -/
def semaChunk (op c r : Nat) (s : State) : State :=
  match chunkHead s c r 11 ((s.core c).ring r).chunk with
  | some (g, b) =>
    if recFld b 0x10 1 ≠ op then s
    else if 1 ≤ g.chunk then completeRecord c r s
    else finishChunk c r 0 1 0 (if op = 1 then setSema c (recFld b 0x11 1) (recFld b 0x12 2) s else s)
  | none => s

/-- SEMA with OP 0: only the await and the raise (R157). -/
def execSemaSignal (c r : Nat) (s : State) : Res := .next (if s.unitsLive c then semaChunk 0 c r (asSide c .ap s) else s)

/-- SEMA with OP 1 (R157). -/
def execSemaSet (c r : Nat) (s : State) : Res := .next (if s.unitsLive c then semaChunk 1 c r (asSide c .ap s) else s)

end Sys2Proof.Machine
end

