-- ==== Sys2Proof/Machine/LaneCore.lean ====
section
/-! DEFINITION. The transducer of a bobbin lane as a function of its input bytes: bit reads (R339), Huffman codes (RFC 1951 as
R343 and R348 use it), one step (R340-R343), and the built-in decoders of DEFLATE, LZ4 and GBC (R347-R350). -/

namespace Sys2Proof.Machine

/-! ### Errors (R344) -/

/-- Input exhausted. -/
def eTrunc : Nat := 1
/-- No symbol matches. -/
def eBadcode : Nat := 2
/-- COPY distance out of range. -/
def eDist : Nat := 3
/-- Stored-block length check. -/
def eStored : Nat := 4
/-- Dynamic header. -/
def eHdr : Nat := 5
/-- Length or distance symbol outside the table. -/
def eSym : Nat := 6
/-- Invalid header, target, op or argument. -/
def ePrick : Nat := 7
/-- COPYIN not at a byte boundary. -/
def eAlign : Nat := 8
/-- A unit that is not 4,096 bytes. -/
def eLength : Nat := 9
/-- GBC stream malformed. -/
def eGbc : Nat := 10
/-- Step limit. -/
def eLoop : Nat := 11

/-- An error at a bit position. -/
structure LaneErr where
  sub : Nat
  pos : Nat
  deriving DecidableEq, Repr, Inhabited

/-! ### Bits (R339) -/

/-- Input of a run: its bytes by index, and their number. -/
structure Input where
  byte : Nat → Byte
  len  : Nat

/-- Bit p of an input; zero at and beyond its end. -/
def Input.bit (x : Input) (p : Nat) : Nat := if p < 8 * x.len then ((x.byte (p / 8)).toNat / 2 ^ (p % 8)) % 2 else 0

/-- The k bits from a position, the first as bit 0. -/
def Input.peek (x : Input) (p k : Nat) : Nat :=
  match k with
  | 0 => 0
  | k + 1 => x.bit p + 2 * x.peek (p + 1) k

/-- A read of k bits: the value, or TRUNC. -/
def Input.read (x : Input) (p k : Nat) : Except LaneErr Nat := if 8 * x.len < p + k then .error ⟨eTrunc, p⟩ else .ok (x.peek p k)

/-! ### Huffman codes -/

/-- The symbols of one code length, in increasing order, with consecutive codes. -/
def codesAt (lens : List Nat) (len code : Nat) : List (Nat × Nat × Nat) :=
  (((lens.zipIdx 0).filter (fun p => p.1 == len)).map (fun p => p.2)).zipIdx code |>.map (fun p => (p.1, len, p.2))

/-- The canonical code of a list of code lengths, one length after another. -/
def buildFrom (fuel len code : Nat) (lens : List Nat) : HuffCode :=
  match fuel with
  | 0 => []
  | fuel + 1 =>
    let l := codesAt lens len code
    l ++ buildFrom fuel (len + 1) ((code + l.length) * 2) lens

/-- The canonical code of a list of code lengths (RFC 1951 3.2.2). -/
def buildCode (lens : List Nat) : HuffCode := buildFrom 15 1 0 lens

/-- The space a code takes, in units of 2^-15. -/
def kraft (h : HuffCode) : Nat := h.foldl (fun n p => n + 2 ^ (15 - p.2.1)) 0

/-- Whether a code is complete. -/
def codeWhole (h : HuffCode) : Bool := kraft h == 2 ^ 15

/-- One symbol decoded, bit by bit (R342): the symbol and the position after it. -/
def decodeSym (x : Input) (h : HuffCode) (fuel len code p : Nat) : Except LaneErr (Nat × Nat) :=
  match fuel with
  | 0 => .error ⟨eBadcode, p⟩
  | fuel + 1 =>
    match x.read p 1 with
    | .error e => .error e
    | .ok b =>
      let code := 2 * code + b
      match h.find? (fun q => q.2.1 == len + 1 && q.2.2 == code) with
      | some q => .ok (q.1, p + 1)
      | none => decodeSym x h fuel (len + 1) code (p + 1)

/-- One symbol of a code set; an empty set fails before a bit is read. -/
def readSym (x : Input) (h : HuffCode) (p : Nat) : Except LaneErr (Nat × Nat) :=
  decodeSym x h (h.foldl (fun n q => Nat.max n q.2.1) 0) 0 0 p

/-- Literal/length code lengths of the fixed code (RFC 1951 3.2.6). -/
def fixedLit : List Nat := List.replicate 144 8 ++ List.replicate 112 9 ++ List.replicate 24 7 ++ List.replicate 8 8

/-- Distance code lengths of the fixed code. -/
def fixedDist : List Nat := List.replicate 32 5

/-- Order of the code length code lengths (RFC 1951 3.2.7). -/
def clOrder : List Nat := [16, 17, 18, 0, 8, 7, 9, 6, 10, 5, 11, 4, 12, 3, 13, 2, 14, 1, 15]

/-- n fields of 3 bits. -/
def readThrees (x : Input) (n p : Nat) : Except LaneErr (List Nat × Nat) :=
  match n with
  | 0 => .ok ([], p)
  | n + 1 =>
    match x.read p 3 with
    | .error e => .error e
    | .ok v =>
      match readThrees x n (p + 3) with
      | .error e => .error e
      | .ok (l, q) => .ok (v :: l, q)

/-- A repeat in the code length sequence: base count and extra bits of symbols 16-18. -/
def repeatOf (sym : Nat) : Nat × Nat := if sym = 16 then (3, 2) else if sym = 17 then (3, 3) else (11, 7)

/-- The code lengths of a dynamic header, last first, until `total` are known. -/
def readLens (x : Input) (h : HuffCode) (fuel total p : Nat) (acc : List Nat) : Except LaneErr (List Nat × Nat) :=
  match fuel with
  | 0 => .ok (acc, p)
  | fuel + 1 =>
    if acc.length = total then .ok (acc, p)
    else
      match readSym x h p with
      | .error e => .error e
      | .ok (sym, p) =>
        if sym < 16 then readLens x h fuel total p (sym :: acc)
        else if sym = 16 ∧ acc = [] then .error ⟨eHdr, p⟩
        else
          let (base, extra) := repeatOf sym
          match x.read p extra with
          | .error e => .error e
          | .ok v =>
            if acc.length + base + v > total then .error ⟨eHdr, p + extra⟩
            else readLens x h fuel total (p + extra) (List.replicate (base + v) (if sym = 16 then acc.headD 0 else 0) ++ acc)

/-- The lengths of the code length code, by symbol. -/
def clLens (l : List Nat) : List Nat :=
  (List.range 19).map (fun i => match (clOrder.zip l).find? (fun q => q.1 == i) with
    | some q => q.2
    | none => 0)

/-- A dynamic block header: both codes and the position after it (R343 DYN, R348; DEDUCED, log 50). -/
def readDyn (x : Input) (p : Nat) : Except LaneErr (HuffCode × HuffCode × Nat) :=
  match x.read p 14 with
  | .error e => .error e
  | .ok v =>
    let hlit := v % 32
    let hdist := v / 32 % 32
    let hclen := v / 1024
    if hlit > 29 ∨ hdist > 29 then .error ⟨eHdr, p + 14⟩
    else
      match readThrees x (hclen + 4) (p + 14) with
      | .error e => .error e
      | .ok (cl, q) =>
        let h := buildCode (clLens cl)
        if codeWhole h = false then .error ⟨eHdr, q⟩
        else
          match readLens x h (hlit + hdist + 258) (hlit + hdist + 258) q [] with
          | .error e => .error e
          | .ok (r, q) =>
            let lens := r.reverse
            let lit := lens.take (hlit + 257)
            let h0 := buildCode lit
            let h1 := buildCode (lens.drop (hlit + 257))
            let one := decide (h1.length = 1) && h1.all (fun y => y.2.1 == 1)
            if lit.getD 256 0 = 0 ∨ codeWhole h0 = false ∨ (codeWhole h1 = false ∧ one = false) then .error ⟨eHdr, q⟩
            else .ok (h0, h1, q)

/-- Base and extra bits of length symbols 257-285 (RFC 1951 3.2.5). -/
def lenTable : List (Nat × Nat) :=
  [(3, 0), (4, 0), (5, 0), (6, 0), (7, 0), (8, 0), (9, 0), (10, 0), (11, 1), (13, 1), (15, 1), (17, 1), (19, 2), (23, 2),
   (27, 2), (31, 2), (35, 3), (43, 3), (51, 3), (59, 3), (67, 4), (83, 4), (99, 4), (115, 4), (131, 5), (163, 5), (195, 5),
   (227, 5), (258, 0)]

/-- Base and extra bits of distance symbols 0-29. -/
def distTable : List (Nat × Nat) :=
  [(1, 0), (2, 0), (3, 0), (4, 0), (5, 1), (7, 1), (9, 2), (13, 2), (17, 3), (25, 3), (33, 4), (49, 4), (65, 5), (97, 5),
   (129, 6), (193, 6), (257, 7), (385, 7), (513, 8), (769, 8), (1025, 9), (1537, 9), (2049, 10), (3073, 10), (4097, 11),
   (6145, 11), (8193, 12), (12289, 12), (16385, 13), (24577, 13)]

/-- A table symbol's value with its extra bits read, or SYM. -/
def readExtra (x : Input) (tbl : List (Nat × Nat)) (i p : Nat) : Except LaneErr (Nat × Nat) :=
  match tbl[i]? with
  | none => .error ⟨eSym, p⟩
  | some (base, extra) =>
    match x.read p extra with
    | .error e => .error e
    | .ok v => .ok (base + v, p + extra)

/-! ### One step (R340-R343) -/

/-- What a step comes to: the run after it, the bytes it emits at once, whether the run ends (an error, or DONE), and the end
of the bits it read or peeked. -/
structure Stepped where
  run  : LaneRun
  emit : List Byte
  stop : Option (Option Nat)
  hi   : Nat
  deriving DecidableEq, Repr, Inhabited

/-- A step that ends in an error. -/
def stepErr (y : LaneRun) (sub pos : Nat) : Stepped := ⟨{ y with pos := pos }, [], some (some sub), pos⟩

/-- A step that goes on. -/
def stepOn (y : LaneRun) : Stepped := ⟨y, [], none, y.pos⟩

/-- A 9-bit argument as a signed number. -/
def argS (a : Nat) : BitVec 32 := (BitVec.ofNat 9 a).signExtend 32

/-- A value read by the step, at the position it leaves. -/
def withRead (y : LaneRun) (r : Except LaneErr (Nat × Nat)) (f : Nat → LaneRun → LaneRun) : Stepped :=
  match r with
  | .error e => stepErr y e.sub e.pos
  | .ok (v, p) => stepOn (f v { y with pos := p })

/-- The action of a target word (R343). -/
def laneOp (x : Input) (op arg : Nat) (y : LaneRun) : Stepped :=
  match op with
  | 0 => stepOn y
  | 1 => { stepOn y with emit := [BitVec.ofNat 8 arg] }
  | 2 => { stepOn y with emit := [y.val.setWidth 8] }
  | 3 =>
    if arg > 32 then stepErr y ePrick y.pos
    else withRead y ((x.read y.pos arg).map (fun v => (v, y.pos + arg))) (fun v y => { y with val := BitVec.ofNat 32 v })
  | 4 => stepOn { y with val := BitVec.ofNat 32 arg }
  | 5 => stepOn { y with val := y.val + argS arg }
  | 6 => stepOn { y with len := BitVec.ofNat 32 arg }
  | 7 => stepOn { y with len := y.len + argS arg }
  | 8 => stepOn { y with len := y.len + y.val + argS arg }
  | 9 => stepOn { y with dist := y.val }
  | 10 => stepOn { y with len := BitVec.ofNat 32 (nfld arg 4 4), cnt := BitVec.ofNat 32 (nfld arg 0 4) }
  | 11 => stepOn { y with val := y.cnt }
  | 12 => { stepOn { y with pos := roundUp y.pos 8 } with hi := y.pos }
  | 13 =>
    if y.pos % 8 ≠ 0 then stepErr y eAlign y.pos
    else if 8 * x.len < y.pos + 8 * y.len.toNat then stepErr y eTrunc y.pos
    else { stepOn { y with copy := if y.len = 0 then .none else .input } with hi := y.pos + 8 * y.len.toNat }
  | 14 =>
    if y.dist = 0 ∨ y.out < y.dist.toNat ∨ 65536 < y.dist.toNat then stepErr y eDist y.pos
    else stepOn { y with copy := if y.len = 0 then .none else .window }
  | 15 => if (y.len ^^^ y.val) &&& 0xFFFF = 0xFFFF then stepOn y else stepErr y eStored y.pos
  | 16 => stepOn { y with hc0 := buildCode fixedLit, hc1 := buildCode fixedDist }
  | 17 =>
    (match readDyn x y.pos with
      | .error e => stepErr y e.sub e.pos
      | .ok (h0, h1, p) => stepOn { y with hc0 := h0, hc1 := h1, pos := p })
  | 18 =>
    if y.val.toNat < 257 then stepErr y eSym y.pos
    else withRead y (readExtra x lenTable (y.val.toNat - 257) y.pos) (fun v y => { y with len := BitVec.ofNat 32 v })
  | 19 => withRead y (readExtra x distTable y.val.toNat y.pos) (fun v y => { y with dist := BitVec.ofNat 32 v })
  | 20 => if 8 * x.len < y.pos + 8 then { stepOn y with stop := some none } else stepOn y
  | 21 => { stepOn y with stop := some none }
  | 22 => stepErr y (0x100 + arg % 256) y.pos
  | _ => stepErr y ePrick y.pos

/-- The target of a header at an index, taken: bits consumed, the action, the next state. -/
def laneTake (tbl : Nat → Nat) (x : Input) (mode k tbase i : Nat) (y : LaneRun) : Stepped :=
  let t := tbl (tbase + i)
  let cons := nfld t 28 4
  if (mode = 0 ∧ cons > k) ∨ (mode ≠ 0 ∧ cons ≠ 0) then stepErr y ePrick y.pos
  else
    match x.read y.pos cons with
    | .error e => stepErr y e.sub e.pos
    | .ok _ =>
      let z := laneOp x (nfld t 23 5) (nfld t 14 9) { y with pos := y.pos + cons }
      match z.stop with
      | some (some _) => z
      | _ => { z with run := { z.run with state := nfld t 0 14 } }

/-- One step of a lane on a table and an input (R342). -/
def laneStepOn (tbl : Nat → Nat) (x : Input) (y : LaneRun) : Stepped :=
  let h := tbl y.state
  let k := nfld h 0 4
  let set := nfld h 4 1
  let mode := nfld h 6 2
  let sh := nfld h 8 4
  let tbase := nfld h 16 14
  let top := 2 ^ k - 1
  if mode = 3 ∨ k > 8 ∨ tbase + top > 16383 ∨ nfld h 30 2 ≠ 0 ∨ nfld h 12 4 ≠ 0 ∨ nfld h 5 1 ≠ 0 ∨ (mode ≠ 1 ∧ set = 1) then
    stepErr y ePrick y.pos
  else if mode = 0 then
    let z := laneTake tbl x 0 k tbase (x.peek y.pos k) y
    { z with hi := Nat.max z.hi (y.pos + k) }
  else if mode = 1 then
    match readSym x (if set = 1 then y.hc1 else y.hc0) y.pos with
    | .error e => stepErr y e.sub e.pos
    | .ok (v, p) => laneTake tbl x 1 k tbase (Nat.min (v / 2 ^ sh) top) { y with val := BitVec.ofNat 32 v, pos := p }
  else laneTake tbl x 2 k tbase (y.val.toNat / 2 ^ sh % 2 ^ k) y

/-- A byte emitted by a run: the window and OUT. -/
def emitByte (b : Byte) (y : LaneRun) : LaneRun := { y with win := (b :: y.win).take 65536, out := y.out + 1 }

/-- Up to n bytes of a copy in progress: the run after them, and the bytes. -/
def copyBytes (x : Input) (n : Nat) (y : LaneRun) : LaneRun × List Byte :=
  match n with
  | 0 => (y, [])
  | n + 1 =>
    if y.len = 0 then ({ y with copy := .none }, [])
    else
      let b := match y.copy with
        | .input => x.byte (y.pos / 8)
        | _ => y.win.getD (y.dist.toNat - 1) 0
      let y' := emitByte b { y with
        len := y.len - 1
        pos := if y.copy = .input then y.pos + 8 else y.pos
        copy := if y.len = 1 then .none else y.copy }
      let (z, l) := copyBytes x n y'
      (z, b :: l)

/-- A run's start (R338; DEDUCED, log 47). -/
def newRun (c r : Nat) (src : Addr) (inlen dcore dport start drop : Nat) : LaneRun :=
  { core := c, ring := r, src := src, inlen := inlen, dcore := dcore, dport := dport, state := start % 2 ^ 14, pos := 0,
    val := 0, len := 0, dist := 0, cnt := 0, hc0 := [], hc1 := [], win := [], out := 0, quiet := 0, copy := .none, drop := drop }

/-! ### The built-in prickings -/

/-- Target words 0x040-0x04D of the LZ4 pricking (R347). -/
def lz4Targets : List Nat :=
  [0x06800002, 0x0A000003, 0x01840004, 0x04800005, 0x05800006, 0x07000000, 0x01820009, 0x0280400A, 0x047FC001, 0x03BFC008,
   0x0182000C, 0x0280400D, 0x047FC007, 0x03BFC00B]

/-- State headers of the LZ4 pricking (R347). -/
def lz4States : List Nat :=
  [0x02000008, 0x00400000, 0x00410000, 0x00420000, 0x00430000, 0x00440000, 0x00500084, 0x00450000, 0x00460000, 0x00470000,
   0x00480881, 0x004A0000, 0x004B0000, 0x004C0881]

/-- The LZ4 block pricking, word by word (R347). -/
def lz4Word (w : Nat) : Nat :=
  if w < 14 then lz4States.getD w 0
  else if 0x40 ≤ w ∧ w < 0x4E then lz4Targets.getD (w - 0x40) 0
  else if 0x50 ≤ w ∧ w < 0x5F then 0x03000007 + (w - 0x50 + 4) * 2 ^ 14
  else if w = 0x5F then 0x0304C00B
  else if 0x200 ≤ w ∧ w < 0x300 then 0x85000000 + (w - 0x200) * 2 ^ 14 + (if 0xF0 ≤ w - 0x200 then 8 else 1)
  else 0

/-- Output of a DECODE unit: its bytes, last first, or the error with the bytes emitted before it. -/
structure UnitErr where
  sub : Nat
  pos : Nat
  out : Nat
  deriving DecidableEq, Repr, Inhabited

/-- A run of a built-in pricking to its end, or past 4,096 bytes (R354). -/
def runUnit (tbl : Nat → Nat) (x : Input) (fuel : Nat) (y : LaneRun) (acc : List Byte) : Except UnitErr (List Byte) :=
  match fuel with
  | 0 => .error ⟨eLoop, y.pos, y.out⟩
  | fuel + 1 =>
    if y.out > 4096 then .error ⟨eLength, y.pos, y.out⟩
    else if y.copy ≠ .none then
      let (y, l) := copyBytes x (Nat.min 16 (4097 - y.out)) y
      runUnit tbl x fuel y (l.reverse ++ acc)
    else
      let z := laneStepOn tbl x y
      let y' := z.emit.foldl (fun y b => emitByte b y) z.run
      let acc' := z.emit.reverse ++ acc
      match z.stop with
      | some (some sub) => .error ⟨sub, y'.pos, y'.out⟩
      | some none => if y'.out = 4096 then .ok acc'.reverse else .error ⟨eLength, y'.pos, y'.out⟩
      | none => runUnit tbl x fuel y' acc'

/-- The built-in LZ4 decoder on a unit (R349). -/
def lz4Unit (x : Input) : Except UnitErr (List Byte) := runUnit lz4Word x (16 * x.len + 8192) (newRun 0 0 0 x.len 0 0 0 0) []

/-- A copy of n bytes at a distance, appended to an output kept last first. -/
def backCopy (n d : Nat) (acc : List Byte) : List Byte :=
  match n with
  | 0 => acc
  | n + 1 => backCopy n d (acc.getD (d - 1) 0 :: acc)

/-- The symbols of a compressed block, to its end (RFC 1951 3.2.3). -/
def inflateCodes (x : Input) (h0 h1 : HuffCode) (fuel p : Nat) (acc : List Byte) : Except UnitErr (List Byte × Nat) :=
  match fuel with
  | 0 => .error ⟨eLength, p, acc.length⟩
  | fuel + 1 =>
    let bad := fun (e : LaneErr) => Except.error ⟨e.sub, e.pos, acc.length⟩
    if acc.length > 4096 then .error ⟨eLength, p, acc.length⟩
    else
      match readSym x h0 p with
      | .error e => bad e
      | .ok (v, p) =>
        if v < 256 then inflateCodes x h0 h1 fuel p (BitVec.ofNat 8 v :: acc)
        else if v = 256 then .ok (acc, p)
        else
          match readExtra x lenTable (v - 257) p with
          | .error e => bad e
          | .ok (n, p) =>
            match readSym x h1 p with
            | .error e => bad e
            | .ok (w, p) =>
              match readExtra x distTable w p with
              | .error e => bad e
              | .ok (d, p) =>
                if acc.length < d then .error ⟨eDist, p, acc.length⟩
                else inflateCodes x h0 h1 fuel p (backCopy n d acc)

/-- A stored block (RFC 1951 3.2.4): its bytes appended. -/
def inflateStored (x : Input) (p : Nat) (acc : List Byte) : Except UnitErr (List Byte × Nat) :=
  let p := roundUp p 8
  match x.read p 32 with
  | .error e => .error ⟨e.sub, e.pos, acc.length⟩
  | .ok v =>
    let n := v % 2 ^ 16
    if n + v / 2 ^ 16 ≠ 0xFFFF then .error ⟨eStored, p + 32, acc.length⟩
    else if 8 * x.len < p + 32 + 8 * n then .error ⟨eTrunc, p + 32, acc.length⟩
    else if acc.length + n > 4096 then .error ⟨eLength, p + 32 + 8 * (4097 - acc.length), 4097⟩
    else .ok (((List.range n).map (fun i => x.byte ((p + 32) / 8 + i))).reverse ++ acc, p + 32 + 8 * n)

/-- The blocks of a DEFLATE stream (R348). -/
def inflateBlocks (x : Input) (fuel p : Nat) (acc : List Byte) : Except UnitErr (List Byte) :=
  match fuel with
  | 0 => .error ⟨eLength, p, acc.length⟩
  | fuel + 1 =>
    match x.read p 3 with
    | .error e => .error ⟨e.sub, e.pos, acc.length⟩
    | .ok v =>
      let body := match v / 2 with
        | 0 => inflateStored x (p + 3) acc
        | 1 => inflateCodes x (buildCode fixedLit) (buildCode fixedDist) 4200 (p + 3) acc
        | 2 =>
          (match readDyn x (p + 3) with
            | .error e => .error ⟨e.sub, e.pos, acc.length⟩
            | .ok (h0, h1, q) => inflateCodes x h0 h1 4200 q acc)
        | _ => .error ⟨eHdr, p + 3, acc.length⟩
      match body with
      | .error e => .error e
      | .ok (acc, q) =>
        if acc.length > 4096 then .error ⟨eLength, q, acc.length⟩
        else if v % 2 = 1 then (if acc.length = 4096 then .ok acc.reverse else .error ⟨eLength, q, acc.length⟩)
        else inflateBlocks x fuel q acc

/-- The built-in DEFLATE decoder on a unit (R348): every block takes at least 3 bits. -/
def deflateUnit (x : Input) : Except UnitErr (List Byte) := inflateBlocks x (8 * x.len) 0 []

/-- Payload bytes of a GBC mode (R350). -/
def gbcSize (m : Nat) : Nat :=
  match m with
  | 0 => 64
  | 1 => 1
  | 2 => 2
  | 3 => 4
  | _ => 33

/-- A line of a GBC unit from its mode and payload (R350). -/
def gbcLine (x : Input) (m p : Nat) : List Byte :=
  (List.range 64).map (fun i =>
    match m with
    | 0 => x.byte (p + i)
    | 1 => x.byte p
    | 2 => x.byte (p + i % 2)
    | 3 => x.byte (p + i % 4)
    | _ => if i % 2 = 1 then x.byte p else x.byte (p + 1 + i / 2))

/-- The lines of a GBC unit from line i on (R350; DEDUCED, log 51). -/
def gbcLines (x : Input) (map n i p : Nat) : Except UnitErr (List Byte) :=
  match n with
  | 0 => if p = x.len then .ok [] else .error ⟨eGbc, 8 * p, 64 * i⟩
  | n + 1 =>
    if map / 2 ^ i % 2 = 0 then
      (match gbcLines x map n (i + 1) p with
        | .error e => .error e
        | .ok l => .ok (List.replicate 64 0 ++ l))
    else
      let m := (x.byte p).toNat
      if x.len ≤ p ∨ m > 4 ∨ x.len < p + 1 + gbcSize m then .error ⟨eGbc, 8 * p, 64 * i⟩
      else
        match gbcLines x map n (i + 1) (p + 1 + gbcSize m) with
        | .error e => .error e
        | .ok l => .ok (gbcLine x m (p + 1) ++ l)

/-- The GBC decoder on a unit (R350). -/
def gbcUnit (x : Input) : Except UnitErr (List Byte) :=
  if x.len < 8 then .error ⟨eGbc, 0, 0⟩
  else gbcLines x (bytesNat ((List.range 8).map x.byte)) 64 0 8

/-- The built-in decoder of a format (R351). -/
def unitDecode (fmt : Nat) (x : Input) : Except UnitErr (List Byte) :=
  match fmt with
  | 1 => deflateUnit x
  | 2 => lz4Unit x
  | _ => gbcUnit x

end Sys2Proof.Machine
end

