-- ==== Sys2Proof/Machine/Lanes.lean ====
section
/-! DEFINITION. Bobbin lanes: sharing (R345, R346), LANE.LOAD (R153), LANE.RUN and its steps (R154, R335, R342-R344, R355),
and COPY chunks with DECODE (R144, R146, R351-R354). -/

namespace Sys2Proof.Machine

/-! ### Sharing a lane -/

/-- Whether a ring still waits with its request: its head is in RUN, and the units of its heat move. -/
def wantsStill (s : State) (x : Nat × Nat) : Bool := s.unitsLive x.1 && ((s.core x.1).ring x.2).st == .run

/-- Whether a lane would serve a ring's request: it waits still, and the lane is not reserved to another context, which only
a DECODE unit may disregard (R345; DEDUCED, log 86). -/
def laneServes (s : State) (lane : Nat) (x : Nat × Nat) : Bool :=
  wantsStill s x && (rkKind (headBytes ((s.core x.1).ring x.2)) == 1 ||
    (match (s.lane lane).owner with
      | some ctx => ctx == s.ctxOf x.1
      | none => true))

/-- Whether a lane can take a request of a ring now: idle, and no earlier request waits (R346). -/
def laneTurn (s : State) (lane c r : Nat) : Bool :=
  (s.lane lane).run.isNone && laneServes s lane (c, r) &&
    (match (s.lane lane).reqs.filter (laneServes s lane) with
      | [] => true
      | x :: _ => x == (c, r))

/-- A request joins a lane's order. -/
def laneWait (lane c r : Nat) (s : State) : State :=
  s.modLane lane (fun y => if y.reqs.contains (c, r) then y else { y with reqs := y.reqs ++ [(c, r)] })

/-- A request is taken by a lane, which the heat has then used (R401 CTX_CONFIG). -/
def laneTake1 (lane c r : Nat) (s : State) : State :=
  (s.modLane lane (fun y => { y with reqs := y.reqs.filter (fun x => x != (c, r)) })).modHeat (s.core c).heat
    (fun h => if h.lanes.contains lane then h else { h with lanes := h.lanes ++ [lane] })

/-- A lane serves a context: passing from another one zeroes its table store (R270, R345). -/
def passLane (lane ctx : Nat) (s : State) : State :=
  s.modLane lane (fun y => if y.ctx = some ctx then y else { y with table := [], ctx := some ctx })

/-! ### LANE.LOAD (R153) -/

/-- Words of bytes written into a table from a word address on. -/
def tableWrite (n : Nat) (w : Nat) (l : List Byte) (t : Tbl (BitVec 32)) : Tbl (BitVec 32) :=
  match n with
  | 0 => t
  | n + 1 => tableWrite n (w + 1) (l.drop 4) (tset t w (BitVec.ofNat 32 (bytesNat (l.take 4))))

/-- A LANE.LOAD chunk: up to 4 KiB of table bytes (R141, R153, R311). -/
def laneLoadChunk (c r k : Nat) (s : State) : State :=
  match chunkHead s c r 7 k with
  | some (g, b) =>
    let lane := recFld b 0x10 1
    let len := recFld b 0x20 4
    let total := (len + 4095) / 4096
    let n := Nat.min 4096 (len - 4096 * k)
    let src := BitVec.ofNat 64 (recFld b 0x18 8 + 4096 * k)
    if total ≤ g.chunk then completeRecord c r s
    else if total ≤ k then s
    else if laneTurn s lane c r = false then laneWait lane c r s
    else
      let s := passLane lane (s.ctxOf c) (laneTake1 lane c r s)
      match spanFault s c src n .load with
      | some f => chunkFault c r k f s
      | none =>
        let (s, ps) := readPieces (n / 16 + 2) c src n s
        match firstPoison src ps with
        | some a => chunkFault c r k ⟨.poison, a, noIndex, true⟩ s
        | none =>
          let s := s.modLane lane (fun y =>
            { y with table := tableWrite (n / 4) ((recFld b 0x24 4 + 4096 * k) / 4) (ps.flatMap (fun p => p.1)) y.table })
          let s := s.modRing c r (fun g => { g with value := g.value + BitVec.ofNat 32 n })
          finishChunk c r k total 0 s
  | none => s

/-- LANE.LOAD. -/
def execLaneLoad (c r k : Nat) (s : State) : Res := .next (chunkStep (laneLoadChunk c r k) c r k s)

/-! ### LANE.RUN (R154, R335) -/

/-- The stream a LANE.RUN record commits to: its number, when the port is open as a LANE source naming the lane, without END: a record
that finds END set, as after the decode error of the one before it, takes STREAM (R122, R154; DESIGN CHOICE, log 100). -/
def laneStream (s : State) (dcore dport lane : Nat) : Option (Nat × Stream) :=
  match (s.core dcore).bound dport with
  | some (n, _, st) => if opKind st.openw = 2 ∧ opPeer st.openw = lane ∧ st.fin = false then some (n, st) else none
  | none => none

/-- The stream that a run took (R335): not one opened or restored on the port since. -/
def heldStream (s : State) (lane : Nat) (y : LaneRun) : Option (Nat × Stream) :=
  (laneStream s y.dcore y.dport lane).filter (fun p => p.2.holder == some (y.core, y.ring))

/-- Whether a record can take a stream now (R335). -/
def streamTurn (s : State) (st : Stream) (c r : Nat) : Bool :=
  match st.holder with
  | some x => x == (c, r)
  | none =>
    (match st.wants.filter (wantsStill s) with
      | [] => true
      | x :: _ => x == (c, r))

/-- LANE.RUN: the record takes its stream, then its lane, and its run starts (R154, R335, R345). -/
def laneRunStart (c r : Nat) (s : State) : State :=
  let g := (s.core c).ring r
  match chunkHead s c r 8 g.chunk with
  | some (_, b) =>
    let lane := recFld b 0x10 1
    let dcore := recFld b 0x14 2
    let dport := recFld b 0x16 1
    if (s.lane lane).run.any (fun y => y.core == c && y.ring == r) then s
    else
      match laneStream s dcore dport lane with
      | none =>
        let (s, a) := freshAddr s
        chunkFault c r g.chunk (cfault .stream a) s
      | some (n, st) =>
        if streamTurn s st c r = false then
          putStream dcore n { st with wants := if st.wants.contains (c, r) then st.wants else st.wants ++ [(c, r)] } s
        else
          let s := putStream dcore n { st with holder := some (c, r), wants := st.wants.filter (fun x => x != (c, r)) } s
          if laneTurn s lane c r = false then laneWait lane c r s
          else
            (passLane lane (s.ctxOf c) (laneTake1 lane c r s)).modLane lane (fun y =>
              { y with run := some (newRun c r (BitVec.ofNat 64 (recFld b 0x18 8)) (recFld b 0x20 8) dcore dport
                  (recFld b 0x12 2) g.chunk) })
  | none => s

/-- LANE.RUN. -/
def execLaneRun (c r : Nat) (s : State) : Res := .next (if s.unitsLive c then laneRunStart c r (asSide c .ap s) else s)

/-- A byte of a run's input, as the lane's die reads it. -/
def laneByte (s : State) (lane : Nat) (y : LaneRun) (i : Nat) : Got :=
  match s.place y.core (y.src + BitVec.ofNat 64 i) with
  | some p => (readPlace s (lane / 64) p 1 .relaxed).2
  | none => ⟨[0], false⟩

/-- Input of a run. -/
def laneInput (s : State) (lane : Nat) (y : LaneRun) : Input :=
  ⟨fun i => (laneByte s lane y i).bytes.headD 0, y.inlen⟩

/-- What the bytes from one to another of a run's input meet: a fault of R91 at the first byte that fails, or poison (R311). -/
def inputFault (s : State) (lane : Nat) (y : LaneRun) (a b : Nat) : Option CFault :=
  if b ≤ a then none
  else
    match spanFault s y.core (y.src + BitVec.ofNat 64 a) (b - a) .load with
    | some f => some f
    | none =>
      ((List.range (b - a)).find? (fun i => (laneByte s lane y (a + i)).poison)).map (fun i =>
        ⟨.poison, y.src + BitVec.ofNat 64 (a + i), noIndex, true⟩)

/-- A LANE.RUN's stream takes END with ERR (R154, R355). -/
def endLaneStream (y : LaneRun) (code : Code) (lane : Nat) (s : State) : State :=
  match heldStream s lane y with
  | some (n, st) => putStream y.dcore n { st with fin := true, err := BitVec.ofNat 8 code.num } s
  | none => s

/-- A run ends on a fault: its stream ends after a decode error or poison, its record follows R143 with CHUNK = OUT, and its lane
is free once the record has retired (R346; DEDUCED, log 48). -/
def failRun (lane : Nat) (y : LaneRun) (f : CFault) (s : State) : State :=
  let ends := f.code == .decode || f.code == .poison
  chunkFault y.core y.ring y.out f (if ends then endLaneStream y f.code lane s else s)

/-- A run ends on an error of R344. -/
def errRun (lane : Nat) (y : LaneRun) (sub : Nat) (s : State) : State :=
  failRun lane y ⟨.decode, y.src + BitVec.ofNat 64 (y.pos / 8), sub, false⟩ s

/-- Bytes a run has emitted, beyond those it drops on a replay, commit to its stream; CHUNK and VALUE follow OUT (R145,
R154). `y` is the run after them. -/
def laneCommit (lane n : Nat) (st : Stream) (y : LaneRun) (l : List Byte) (s : State) : State :=
  let fresh := l.drop (y.drop - (y.out - l.length))
  let s := commitBytes y.dcore n st fresh (opSwz st.openw) (fun _ => false) s
  let s := s.modRing y.core y.ring (fun g => { g with
    chunk := Nat.max g.chunk y.out
    value := g.value + BitVec.ofNat 32 fresh.length
    bytes := g.bytes + fresh.length })
  s.modLane lane (fun z => { z with run := some y })

/-- Bytes a run may emit now: those a replay still drops, and the room in the window. -/
def laneRoom (st : Stream) (y : LaneRun) : Nat := (y.drop - y.out) + (st.low + opRb st.openw - st.head)

/-- A burst of a copy in progress: up to 16 bytes a cycle, as the window has room (R346); poisoned or unreadable input among them
comes first (R355). -/
def laneBurst (lane n : Nat) (st : Stream) (y : LaneRun) (s : State) : State :=
  let input := y.copy == .input
  let m := Nat.min (Nat.min (if input then 16 else Nat.min 16 y.dist.toNat) (laneRoom st y)) y.len.toNat
  match inputFault s lane y (y.pos / 8) (y.pos / 8 + if input then m else 0) with
  | some f => failRun lane y f s
  | none =>
    let (z, l) := copyBytes (laneInput s lane y) m y
    laneCommit lane n st { z with quiet := if l.isEmpty then z.quiet else 0 } l s

/-- A step of the transducer: poisoned or unreadable input among the bits it reads or peeks first, then its emission or its end
(R342-R344, R355). -/
def laneMove (lane n : Nat) (st : Stream) (y : LaneRun) (s : State) : State :=
  let x := laneInput s lane y
  let tbl := fun w => (tget (s.lane lane).table w 0).toNat
  let z := laneStepOn tbl x y
  let hi := Nat.min z.hi (8 * y.inlen)
  match inputFault s lane y (y.pos / 8) (if hi ≤ y.pos then 0 else (hi + 7) / 8) with
  | some f => failRun lane y f s
  | none =>
    if laneRoom st y < z.emit.length then s
    else
      match z.stop with
      | some (some sub) => errRun lane z.run sub s
      | _ =>
        let quiet := if z.run.pos = y.pos ∧ z.emit = [] ∧ z.run.copy = .none then y.quiet + 1 else 0
        let y' := { z.emit.foldl (fun y b => emitByte b y) z.run with quiet := quiet }
        let s := laneCommit lane n st y' z.emit s
        if z.stop.isSome then completeRecord y.core y.ring s else s

/-- Whether the record of a run is served (R143, R317). -/
def runServed (s : State) (y : LaneRun) : Bool :=
  let g := (s.core y.core).ring y.ring
  s.unitsLive y.core && g.st == .run && g.due.isNone

/-- LANE_STEP: one cycle of a lane whose record runs (DEDUCED, log 49). -/
def laneCycle (lane : Nat) (s : State) : State :=
  match (s.lane lane).run with
  | none => s
  | some y =>
    if runServed s y = false ∨ 1024 ≤ y.quiet then s
    else
      let s := asSide y.core .ap s
      match heldStream s lane y with
      | none =>
        let (s, a) := freshAddr s
        failRun lane y (cfault .stream a) s
      | some (n, st) => if y.copy = .none then laneMove lane n st y s else laneBurst lane n st y s

/-- LANE_STEP (R342). -/
def execLaneStep (lane : Nat) (s : State) : Res := .next (laneCycle lane s)

/-- LANE_LOOP_LIMIT (R342): after 1,024 quiet steps the run ends with LOOP. -/
def execLaneLoopLimit (lane : Nat) (s : State) : Res :=
  .next (match (s.lane lane).run with
    | some y =>
      if runServed s y = true ∧ 1024 ≤ y.quiet then errRun lane y eLoop (asSide y.core .ap s)
      else s
    | none => s)

/-! ### COPY with DECODE (R146, R351-R354) -/

/-- The source unit of a DECODE chunk: R91 checks 3-6 on it (a compressed unit passes), as a chunk fault. -/
def unitFault91 (s : State) (c : Nat) (src : Addr) : Option CFault :=
  match checkAddr s c src .load with
  | .error .compressed => none
  | .error e => some (cfault e src)
  | .ok _ => none

/-- The bytes a unit decodes to, with the poison they carry, or its fault (R352, R354). -/
def unitBytes (c : Nat) (src : Addr) (s : State) : State × Except CFault (List (List Byte × Bool) × Option Addr) :=
  let m := match s.place c src with
    | some (.glob _ va) => s.unitMeta c va
    | _ => (0, 0)
  if m.1 = 0 then
    let (s, ps) := readPieces (4096 / 16 + 2) c src 4096 s
    (s, .ok (ps, firstPoison src ps))
  else if m.2 = 0 then (s, .error ⟨.decode, src, eHdr, false⟩)
  else
    let (s, ps) := readPieces (4096 / 16 + 2) c src m.2 s
    let l := ps.flatMap (fun p => p.1)
    if (firstPoison src ps).isSome then
      (s, .ok ([((List.range 4096).map (fun i => Config.lostByte (src.toNat + i)), true)], firstPoison src ps))
    else
      match unitDecode m.1 ⟨fun i => l.getD i 0, m.2⟩ with
      | .ok out => (s, .ok ([(out, false)], none))
      | .error e => (s, .error ⟨.decode, src + BitVec.ofNat 64 (e.pos / 8), e.sub, false⟩)

/-- Bytes emitted before a unit's decode error (R344, R354). -/
def unitOut (s : State) (c : Nat) (src : Addr) : Nat :=
  match s.place c src with
  | some (.glob _ va) =>
    let m := s.unitMeta c va
    let l := (readAt s c src m.2 .relaxed).2.bytes
    (match unitDecode m.1 ⟨fun i => l.getD i 0, m.2⟩ with
      | .error e => if m.2 = 0 then 0 else Nat.min e.out 4096
      | .ok _ => 0)
  | _ => 0

/-- Lane that decodes a unit: the one beside its home channel, when it is compressed (R346, R354). -/
def unitLane (s : State) (c : Nat) (src : Addr) : Option Nat :=
  match s.place c src with
  | some (.glob ctx va) => if (s.unitMeta c va).1 = 0 then none else some (s.channelOf ctx va)
  | _ => none

/-- A decoded unit written to its destination, which has been checked. -/
def writeUnit (c r k total : Nat) (dst : Addr) (ps : List (List Byte × Bool)) (bad : Option Addr) (s : State) : State :=
  let s := writeAt c dst (ps.flatMap (fun p => p.1)) false .relaxed s
  endChunk c r k total 4096 4096 (markPieces c dst s ps, .ok [bad])

/-- A unit consumed and kept in the hold buffer, not yet written, with the poison that its source had (R143, R144). -/
def holdUnit (c r : Nat) (ps : List (List Byte × Bool)) (bad : Option Addr) (s : State) : State :=
  (s.modCore c (fun k => { k with
    hold := ps, holdBad := bad, holdRing := some r })).modRing c r
    (fun g => { g with held := true })

/-- The held unit of a ring written once its destination translates; where it does not, the ring stops and keeps the unit, or
with NOSTOP its record retires (R144). -/
def writeHeld (c r k total : Nat) (dst : Addr) (s : State) : State :=
  match spanFault s c dst 4096 .store with
  | some f => faultHead c r k f (!rkNostop (headBytes ((s.core c).ring r))) s
  | none =>
    let x := s.core c
    let s := (s.modCore c (fun y => { y with hold := [], holdBad := none, holdRing := none })).modRing c r
      (fun g => { g with held := false })
    writeUnit c r k total dst x.hold x.holdBad s

/-- A DECODE chunk of a unit whose lane is free. A turn that gives it no step leaves the unit in the hold buffer (R144). -/
def decodeUnit (c r k total : Nat) (g : Ring) (src dst : Addr) (s : State) : State :=
  match spanFault s c dst 4096 .store, unitFault91 s c src with
  | some f, _ => if k = g.chunk then chunkFault c r k f s else s
  | none, some f => if k = g.chunk then chunkFault c r k f s else s
  | none, none =>
    let out := unitOut s c src
    match unitBytes c src s with
    | (s, .error f) => if k = g.chunk then chunkFault c r out f s else s
    | (s, .ok (ps, bad)) =>
      if s.cur.steps = 0 then
        (if (s.core c).holdRing.isNone ∧ k = g.chunk then holdUnit c r ps bad s else s)
      else writeUnit c r k total dst ps bad s

/-- A COPY chunk with DECODE (R144, R146, R354). -/
def decodeChunk (c r k : Nat) (s : State) : State :=
  match chunkHead s c r 1 k with
  | some (g, b) =>
    let total := recFld b 0x28 4 / 4096
    let src := BitVec.ofNat 64 (recFld b 0x10 8 + 4096 * k)
    let dst := BitVec.ofNat 64 (recFld b 0x18 8 + 4096 * k)
    if rkDecode b = false then s
    else if total ≤ g.chunk then completeRecord c r s
    else if total ≤ k then s
    else if g.held then (if k = g.chunk then writeHeld c r k total dst s else s)
    else
      match unitLane s c src with
      | none => decodeUnit c r k total g src dst s
      | some lane =>
        if laneTurn s lane c r then decodeUnit c r k total g src dst (laneTake1 lane c r s) else laneWait lane c r s
  | none => s

/-- COPY with DECODE. -/
def execCopyDecode (c r k : Nat) (s : State) : Res := .next (chunkStep (decodeChunk c r k) c r k s)

end Sys2Proof.Machine
end

