-- ==== Sys2Proof/Machine/Sha3.lean ====
section
/-! DEFINITION. SHA3-256 (FIPS 202), which R385, R386, R393, R394 and R396 name. -/

namespace Sys2Proof.Machine

/-- Rotation of a 64-bit lane. -/
def rotl64 (v : BitVec 64) (n : Nat) : BitVec 64 := v.rotateLeft n

/-- Round constants of Keccak-f[1600]. -/
def keccakRc : List (BitVec 64) :=
  [0x0000000000000001, 0x0000000000008082, 0x800000000000808A, 0x8000000080008000, 0x000000000000808B, 0x0000000080000001,
   0x8000000080008081, 0x8000000000008009, 0x000000000000008A, 0x0000000000000088, 0x0000000080008009, 0x000000008000000A]
  ++ [0x000000008000808B, 0x800000000000008B, 0x8000000000008089, 0x8000000000008003, 0x8000000000008002, 0x8000000000000080,
   0x000000000000800A, 0x800000008000000A, 0x8000000080008081, 0x8000000000008080, 0x0000000080000001, 0x8000000080008008]

/-- Rotation offsets by lane x + 5 y. -/
def keccakRot : List Nat :=
  [0, 1, 62, 28, 27, 36, 44, 6, 55, 20, 3, 10, 43, 25, 39, 41, 45, 15, 21, 8, 18, 2, 61, 56, 14]

/-- A lane of the state, x + 5 y. -/
def lane5 (a : List (BitVec 64)) (x y : Nat) : BitVec 64 := a.getD (x % 5 + 5 * (y % 5)) 0

/-- One round. -/
def keccakRound (rc : BitVec 64) (a : List (BitVec 64)) : List (BitVec 64) :=
  let c := (List.range 5).map (fun x => lane5 a x 0 ^^^ lane5 a x 1 ^^^ lane5 a x 2 ^^^ lane5 a x 3 ^^^ lane5 a x 4)
  let d := (List.range 5).map (fun x => c.getD ((x + 4) % 5) 0 ^^^ rotl64 (c.getD ((x + 1) % 5) 0) 1)
  let t := (List.range 25).map (fun i => rotl64 (a.getD i 0 ^^^ d.getD (i % 5) 0) (keccakRot.getD i 0))
  let b := (List.range 25).map (fun i =>
    let y := i / 5
    let x := i % 5
    lane5 t (x + 3 * y) x)
  let e := (List.range 25).map (fun i =>
    let y := i / 5
    let x := i % 5
    lane5 b x y ^^^ (~~~(lane5 b (x + 1) y) &&& lane5 b (x + 2) y))
  match e with
  | h :: r => (h ^^^ rc) :: r
  | [] => []

/-- Keccak-f[1600]. -/
def keccakF (a : List (BitVec 64)) : List (BitVec 64) := keccakRc.foldl (fun a rc => keccakRound rc a) a

/-- A block of 136 bytes absorbed. -/
def absorb (a : List (BitVec 64)) (blk : List Byte) : List (BitVec 64) :=
  keccakF ((a.zipIdx 0).map (fun p =>
    if p.2 < 17 then p.1 ^^^ BitVec.ofNat 64 (bytesNat ((blk.drop (8 * p.2)).take 8)) else p.1))

/-- The last block, padded. -/
def padBlock (l : List Byte) : List Byte :=
  if l.length = 135 then l ++ [0x86] else l ++ [0x06] ++ List.replicate (134 - l.length) 0 ++ [0x80]

/-- All blocks absorbed. -/
def spongeIn (fuel : Nat) (a : List (BitVec 64)) (l : List Byte) : List (BitVec 64) :=
  match fuel with
  | 0 => a
  | fuel + 1 => if l.length < 136 then absorb a (padBlock l) else spongeIn fuel (absorb a (l.take 136)) (l.drop 136)

/-- The 32 bytes of SHA3-256. -/
def sha3 (l : List Byte) : List Byte :=
  (spongeIn (l.length / 136 + 1) (List.replicate 25 0) l).flatMap (fun v => bvBytes 8 v) |>.take 32

/-- A digest as a 256-bit value. -/
def sha3v (l : List Byte) : BitVec 256 := BitVec.ofNat 256 (bytesNat (sha3 l))

end Sys2Proof.Machine
end

