-- ==== Sys2Proof/Machine/Manifest.lean ====
section
/-! DEFINITION. The must-save manifest: declarations (R232), the budget (R376, R377), charges (R378), admission and release
(R233, R234, R379), the manifest's copies and their bytes in the boathouse (R385), and `must` and `unmust`. -/

namespace Sys2Proof.Machine

/-! ### Bytes at offsets -/

/-- Bytes put at an offset of a buffer of fixed size. -/
def putAt (off : Nat) (l : List Byte) (buf : List Byte) : List Byte := buf.take off ++ l ++ buf.drop (off + l.length)

/-- A record of n bytes: the fields given, every other byte zero. -/
def layout (n : Nat) (fields : List (Nat × List Byte)) : List Byte :=
  fields.foldl (fun b f => putAt f.1 f.2 b) (List.replicate n 0)

/-- Bytes stored in the boathouse from an offset on. -/
def boatWrite (off : Nat) (l : List Byte) (s : State) : State := { s with mem := memWrite s.mem (boatKey off) l }

/-- Bytes of the boathouse. -/
def boatRead (s : State) (off n : Nat) : List Byte := memRead s.mem (boatKey off) n

/-! ### Sets and charges (R232, R378) -/

/-- Whether a range is global. -/
def rangeGlobal (r : Nat × Nat × Nat) : Bool := r.2.2 == 0xFFFF

/-- Bytes of one core section (R325). -/
def sectionSize : Nat := 0x120000

/-- Core numbers named by CORES. -/
def setCores (m : MustSet) : List Nat := (List.range 192).filter (fun c => m.cores.getLsbD c)

/-- LENGTH of a set: data bytes without padding (R378). -/
def setLength (m : MustSet) : Nat := m.ranges.foldl (fun n r => n + r.2.1) 0 + (setCores m).length * sectionSize

/-- PLEN of a set: every range padded to 4 KiB (R378). -/
def setPlen (m : MustSet) : Nat := m.ranges.foldl (fun n r => n + roundUp r.2.1 4096) 0 + (setCores m).length * sectionSize

/-- Charge of a set (R378). -/
def setCharge (m : MustSet) : Nat := 8192 + setPlen m

/-! ### The manifest (R385) -/

/-- The valid manifest: the copy of higher GEN. -/
def manifest (s : State) : Manifest := if s.water.man1.gen > s.water.man0.gen then s.water.man1 else s.water.man0

/-- The sets admitted. -/
def admitted (s : State) : List MustSet := (manifest s).sets

/-- Bytes of a range in a declaration, an entry or a header: BASE, SIZE, CORE, zero (R232). -/
def rangeBytes (r : Nat × Nat × Nat) : List Byte := natBytes 8 r.1 ++ natBytes 8 r.2.1 ++ natBytes 2 r.2.2 ++ List.replicate 6 0

/-- A manifest entry (R385). -/
def entryImage (m : MustSet) : List Byte :=
  layout 256 ([(0, natBytes 1 m.ctx), (1, natBytes 1 m.prio), (2, natBytes 1 m.ranges.length), (3, natBytes 1 m.st.toNat),
    (4, natBytes 4 m.setid), (8, natBytes 4 m.heat), (0xC, natBytes 4 m.handle), (0x10, natBytes 8 m.charge),
    (0x18, bvBytes 24 m.cores)] ++ m.ranges.zipIdx.map (fun p => (0x40 + 24 * p.2, rangeBytes p.1)))

/-- A manifest copy (R385). -/
def manifestImage (m : Manifest) : List Byte :=
  let es := m.sets.flatMap entryImage
  layout 64 [(0, natBytes 8 m.gen), (8, natBytes 8 m.epoch), (16, natBytes 4 m.sets.length), (32, sha3 es)] ++ es

/-- A commit writes the older copy (R385). -/
def commit (sets : List MustSet) (s : State) : State :=
  let m : Manifest := { gen := (manifest s).gen + 1, epoch := s.water.epoch, sets := sets }
  if s.water.man1.gen > s.water.man0.gen then
    boatWrite 0x101000 (manifestImage m) { s with water := { s.water with man0 := m } }
  else boatWrite 0x111000 (manifestImage m) { s with water := { s.water with man1 := m } }

/-! ### Admission (R233, R377, R379, R389) -/

/-- Charges of a list of sets. -/
def charges (l : List MustSet) : Nat := l.foldl (fun n m => n + m.charge) 0

/-- The quota of a context in force (R377, R401). -/
def quotaOf (s : State) (ctx : Nat) : Nat :=
  Nat.min s.water.budget
    (match (s.ctx ctx).conf with
      | some cf => cf.quota.getD s.water.budget
      | none => s.water.budget)

/-- Check 7 of R233. -/
def budgetAllows (s : State) (ctx charge : Nat) : Bool :=
  let l := admitted s
  !s.water.awaiting && decide (l.length < 255) && decide (charges l + charge ≤ s.water.budget) &&
    decide (charges (l.filter (fun m => m.ctx == ctx)) + charge ≤ quotaOf s ctx)

/-- The lowest address of a range that no page of a context maps (DEDUCED, log 57). -/
def firstUnmapped (fuel : Nat) (s : State) (ctx va stop : Nat) : Option Nat :=
  match fuel with
  | 0 => if va < stop then some va else none
  | fuel + 1 =>
    if stop ≤ va then none
    else
      match s.page ctx va with
      | some p => firstUnmapped fuel s ctx (p.va + p.size) stop
      | none => some va

/-- The lowest unmapped address of a global range (R233 check 5). -/
def rangeUnmapped (s : State) (ctx : Nat) (r : Nat × Nat × Nat) : Option Nat :=
  if rangeGlobal r then firstUnmapped (s.pages.length + 1) s ctx r.1 (r.1 + r.2.1) else none

/-- Whether a range breaks its alignment (R233 check 4). -/
def rangeMisaligned (r : Nat × Nat × Nat) : Bool :=
  let a := if rangeGlobal r then 4096 else 64
  !isMul r.1 a || !isMul r.2.1 a

/-- Checks 4-7 of R233 on a set of a heat record. -/
def setCheck (s : State) (hr : HeatRec) (spad : Nat) (m : MustSet) : Option Trap :=
  match m.ranges.find? rangeMisaligned with
  | some r => some (trapOn .alignIssue (BitVec.ofNat 64 r.1))
  | none =>
    match m.ranges.findSome? (rangeUnmapped s m.ctx) with
    | some a => some (trapOn .xlate (BitVec.ofNat 64 a))
    | none =>
      match m.ranges.find? (fun r => !rangeGlobal r && (!hr.has r.2.2 || decide (spad < r.1 + r.2.1))) with
      | some r => if hr.has r.2.2 then some (trapOn .owner (BitVec.ofNat 64 r.1)) else some (trapAt .owner)
      | none =>
        if (setCores m).any (fun c => !hr.has c) then some (trapAt .owner)
        else if budgetAllows s m.ctx m.charge then none
        else some (trapAt .mustBudget)

/-- A handle of a heat not given out before: the first of a free start that is nonzero and unused (R233; DESIGN CHOICE, log 26). -/
def pickHandle (fuel : Nat) (used : List (Nat × Nat)) (heat h : Nat) : Nat :=
  match fuel with
  | 0 => h
  | fuel + 1 => if h % 2 ^ 32 = 0 ∨ used.contains (heat, h % 2 ^ 32) = true then pickHandle fuel used heat (h + 1) else h % 2 ^ 32

/-- A set that has passed its checks is admitted and the manifest committed. -/
def admitSet (m : MustSet) (s : State) : State × Nat :=
  let (s, n) := freeNat s
  let h := pickHandle (s.water.handles.length + 2) s.water.handles m.heat n
  let s := { s with water := { s.water with handles := s.water.handles ++ [(m.heat, h)] } }
  (commit (admitted s ++ [{ m with handle := h }]) s, h)

/-- Sets released and the manifest committed, when there are any (R234, R379); while a save awaits release the manifest stays as it
is (R389). -/
def releaseSets (gone : MustSet → Bool) (s : State) : State :=
  if s.water.awaiting = false ∧ (admitted s).any gone = true then commit ((admitted s).filter (fun m => !gone m)) s else s

/-- A cox by number: 0 is cox S, 1 cox B. -/
def State.cox (s : State) (n : Nat) : Cox := if n = 0 then s.coxS else s.coxB

/-- Now, in nanoseconds of die S's timebase. -/
def now (s : State) : Nat := (s.die 0).tb.toNat

/-- Whether a cox acts as leader (R398, R399): it holds the lease, less than 3 ms after its last acknowledged renewal where there
is a follower; or, in island mode, it leads its own die 4 ms after that renewal. -/
def acts (s : State) (n : Nat) : Bool :=
  let me := s.cox n
  let alone := !(s.cox (1 - n)).up
  me.up && ((me.lead && (alone || decide (now s < me.acked + 3 * 10 ^ 6))) ||
    (s.bridge.island && (alone || decide (me.acked + 4 * 10 ^ 6 ≤ now s))))

/-- Whether a cox acts as leader for a die: the one leader, or in island mode the die's own (R379, R398, R399). -/
def hasLeader (s : State) (die : Nat) : Bool := if s.bridge.island then acts s (Nat.min die 1) else acts s 0 || acts s 1

/-! ### `must` and `unmust` -/

/-- Range j of a declaration. -/
def declRange (l : List Byte) (j : Nat) : Nat × Nat × Nat :=
  (fieldAt l (0x40 + 24 * j) 8, fieldAt l (0x48 + 24 * j) 8, fieldAt l (0x50 + 24 * j) 2)

/-- Check 3 of R233: fields of a declaration within their limits (R232). -/
def declOk (l : List Byte) : Bool :=
  let n := fieldAt l 4 1
  decide (1 ≤ n) && decide (n ≤ 8) && decide (fieldAt l 5 1 < 2) && fieldAt l 6 2 == 0 && fieldAt l 0x20 32 == 0 &&
    (fieldAt l 5 1 == 1 || fieldAt l 8 24 == 0) &&
    (List.range 8).all (fun j =>
      if j < n then
        decide (1 ≤ (declRange l j).2.1) && fieldAt l (0x52 + 24 * j) 6 == 0 &&
          (decide ((declRange l j).2.2 < 192) || rangeGlobal (declRange l j))
      else fieldAt l (0x40 + 24 * j) 24 == 0)

/-- The set a declaration asks for (R232, R385). -/
def declSet (hr : HeatRec) (l : List Byte) : MustSet :=
  let m : MustSet :=
    { ctx := hr.ctx, prio := hr.prio, st := fieldAt l 5 1 == 1, setid := fieldAt l 0 4, heat := hr.number, handle := 0,
      charge := 0, cores := BitVec.ofNat 192 (fieldAt l 8 24), ranges := (List.range (fieldAt l 4 1)).map (declRange l) }
  { m with charge := setCharge m }

/-- `must` (R233): it waits for a cox that leads. -/
def execMust (d a : Nat) (s : State) : Res :=
  .next (syncWord false [a] [d] (fun s =>
    let ea := s.rd a
    if ea.toNat % 64 ≠ 0 then .error (trapOn .alignIssue ea)
    else
      match readRecord ea 256 s, s.heatOf s.cur.core with
      | .error t, _ => .error t
      | .ok _, none => .ok s
      | .ok (s, l), some h =>
        if declOk l = false then .error (trapAt .illegal)
        else
          match setCheck s h.hr s.me.spad (declSet h.hr l) with
          | some t => .error t
          | none =>
            if hasLeader s (dieOf s.cur.core) = false then .ok s
            else
              let (s, n) := admitSet (declSet h.hr l) s
              .ok (finish (s.put d (BitVec.ofNat 64 n)))) s)

/-- `unmust` (R234). -/
def execUnmust (a : Nat) (s : State) : Res :=
  .next (syncWord false [a] [] (fun s =>
    let n := s.me.heat
    let mine := fun (m : MustSet) => m.heat == n && m.handle == (s.rd a).toNat
    if (admitted s).any mine = false then .error (trapAt .illegal)
    else if hasLeader s (dieOf s.cur.core) = false then .ok s
    else .ok (finish (releaseSets mine s))) s)

end Sys2Proof.Machine
end

