-- ==== Sys2Proof/Machine/Vector.lean ====
section
/-! DEFINITION. The vector queue's words (R172-R188). -/

namespace Sys2Proof.Machine

/-! ### Elements (R14) -/

/-- Elements of w bits of a 512-byte operand. -/
def elems (w : Nat) (v : BitVec 4096) : List Nat := (List.range (4096 / w)).map (fun i => nfld v.toNat (w * i) w)

/-- Elements of w bits packed into a 512-byte operand. -/
def packEls (w : Nat) (l : List Nat) : BitVec 4096 := BitVec.ofNat 4096 (l.foldr (fun x acc => x % 2 ^ w + 2 ^ w * acc) 0)

/-- Mask bits from a list, zero above it (R14). -/
def packMask (l : List Bool) : BitVec 1024 := BitVec.ofNat 1024 (l.foldr (fun b acc => b.toNat + 2 * acc) 0)

/-- The n low bits of a mask. -/
def maskBits (n : Nat) (v : BitVec 1024) : List Bool := (List.range n).map (fun i => v.getLsbD i)

/-- Which of n elements are active: all without M, else those the mask of MSEL names (R172). -/
def active (s : State) (m : Bool) (n : Nat) : List Bool :=
  if m then maskBits n (s.me.mask (vtMask s.cur.vt)) else List.replicate n true

/-! ### Operands (R16, R127, R129) -/

/-- The distinct ports among operand codes. -/
def portsOf (codes : List Nat) : List Nat := ((codes.filter (fun c => decide (96 ≤ c))).map (fun c => c - 96)).eraseDups

/-- What the ports of a word meet at its start: one 512-byte unit read from each source port, one written to a sink port. -/
def portsCheck (s : State) (srcs dsts : List Nat) : PortCheck :=
  let c := s.cur.core
  joinChecks (srcs.map (unitReady s) ++
    dsts.map (fun p => portWritable s c p))

/-- A word whose ports are ready goes on; else it waits, or takes its fault. -/
def withPorts (srcs dsts : List Nat) (go : State → State) (s : State) : State :=
  match portsCheck s (portsOf srcs) (portsOf dsts) with
  | .wait => s
  | .trap t => queueTrap t s
  | .ready => go s

/-- A unit of a source port. -/
def unitOf (s : State) (port : Nat) : BitVec 4096 := BitVec.ofNat 4096 (bytesNat (portBytes s s.cur.core port 512))

/-- An operand: a register after rotation, or a unit of a port. -/
def operand (s : State) (c : Nat) : BitVec 4096 := if c < 96 then s.me.vreg (rename s.cur.vt c) else unitOf s (c - 96)

/-- A destination before the word: a port's is zero (R172). -/
def oldDest (s : State) (c : Nat) : BitVec 4096 := if c < 96 then s.me.vreg (rename s.cur.vt c) else 0

/-- Units of the named ports taken. -/
def takeUnits (srcs : List Nat) (s : State) : State :=
  (portsOf srcs).foldl (fun s p => portAdvance s.cur.core p 512 s) s

/-- A destination written: a register, or a unit to a sink port. -/
def putDest (c : Nat) (v : BitVec 4096) (s : State) : State :=
  if c < 96 then s.modMe (fun k => k.setVreg (rename s.cur.vt c) v)
  else portWrite s.cur.core (c - 96) (bvBytes 512 v) s

/-- A word with a 512-byte result, whole (R172). -/
def vecWord (d : Nat) (srcs : List Nat) (f : State → BitVec 4096 × Nat) (s : State) : State :=
  withPorts srcs [d] (fun s =>
    let r := f s
    dropWord (raiseFlags r.2 (putDest d r.1 (takeUnits srcs s)))) s

/-- One result element: f's on an active element, the old one on an inactive one, with f's flags. -/
def pickEl (act : Bool) (old : Nat) (r : FRes) : FRes := if act then r else ⟨old, 0⟩

/-- Flags of a list of elements. -/
def allFlags (l : List FRes) : Nat := l.foldl (fun n r => flagOr n r.fl) 0

/-- An elementwise word D[i] := f(A[i], B[i], old D[i]) of the captured element type (R172). -/
def elemWord (d a b : Nat) (m : Bool) (f : Nat → Nat → Nat → Nat → FRes) (s : State) : State :=
  vecWord d [a, b] (fun s =>
    let e := vtType s.cur.vt
    let w := etBits e
    let rs := (((elems w (operand s a)).zip (elems w (operand s b))).zip
      ((elems w (oldDest s d)).zip (active s m (etCount e)))).map
        (fun p => pickEl p.2.2 p.2.1 (f e p.1.1 p.1.2 p.2.1))
    (packEls w (rs.map (fun r => r.v)), allFlags rs)) s

/-- A word that writes a mask register from n elements (R176). -/
def maskWord (d a b : Nat) (f : Nat → Nat → Nat → FRes) (s : State) : State :=
  withPorts [a, b] [] (fun s =>
    let e := vtType s.cur.vt
    let w := etBits e
    let rs := ((elems w (operand s a)).zip (elems w (operand s b))).map (fun p => f e p.1 p.2)
    dropWord (raiseFlags (allFlags rs)
      ((takeUnits [a, b] s).modMe (fun k => k.setMask d (packMask (rs.map (fun r => r.v != 0))))))) s

/-! ### Integer, bit and float arithmetic -/

/-- An exact integer result, wrapped, or clamped under `.sat` (R174). -/
def intRes (sat : Bool) (e : Nat) (v : Int) : FRes := if sat then clampInt e v else ⟨ofInt (etBits e) v, 0⟩

/-- `vadd` (R174). -/
def execVadd (d a b : Nat) (sat m : Bool) (s : State) : Res :=
  .next (elemWord d a b m (fun e x y _ => intRes sat e (etInt e x + etInt e y)) s)

/-- `vsub` (R174). -/
def execVsub (d a b : Nat) (sat m : Bool) (s : State) : Res :=
  .next (elemWord d a b m (fun e x y _ => intRes sat e (etInt e x - etInt e y)) s)

/-- `vmul` (R174). -/
def execVmul (d a b : Nat) (sat m : Bool) (s : State) : Res :=
  .next (elemWord d a b m (fun e x y _ => intRes sat e (etInt e x * etInt e y)) s)

/-- `vmulh` (R174). -/
def execVmulh (d a b : Nat) (m : Bool) (s : State) : Res :=
  .next (elemWord d a b m (fun e x y _ => intRes false e (etInt e x * etInt e y / 2 ^ etBits e)) s)

/-- `vmad` (R174). -/
def execVmad (d a b : Nat) (sat m : Bool) (s : State) : Res :=
  .next (elemWord d a b m (fun e x y z => intRes sat e (etInt e x * etInt e y + etInt e z)) s)

/-- `vmin` (R174). -/
def execVmin (d a b : Nat) (m : Bool) (s : State) : Res :=
  .next (elemWord d a b m (fun e x y _ => ⟨if etInt e x ≤ etInt e y then x else y, 0⟩) s)

/-- `vmax` (R174). -/
def execVmax (d a b : Nat) (m : Bool) (s : State) : Res :=
  .next (elemWord d a b m (fun e x y _ => ⟨if etInt e y ≤ etInt e x then x else y, 0⟩) s)

/-- `vabs` (R174). -/
def execVabs (d a : Nat) (sat m : Bool) (s : State) : Res :=
  .next (elemWord d a a m (fun e x _ _ => intRes sat e ((etInt e x).natAbs : Int)) s)

/-- `vand` (R177). -/
def execVand (d a b : Nat) (m : Bool) (s : State) : Res :=
  .next (elemWord d a b m (fun _ x y _ => ⟨Nat.land x y, 0⟩) s)

/-- `vor` (R177). -/
def execVor (d a b : Nat) (m : Bool) (s : State) : Res :=
  .next (elemWord d a b m (fun _ x y _ => ⟨Nat.lor x y, 0⟩) s)

/-- `vxor` (R177). -/
def execVxor (d a b : Nat) (m : Bool) (s : State) : Res :=
  .next (elemWord d a b m (fun _ x y _ => ⟨Nat.xor x y, 0⟩) s)

/-- `vnot` (R177). -/
def execVnot (d a : Nat) (m : Bool) (s : State) : Res :=
  .next (elemWord d a a m (fun e x _ _ => ⟨2 ^ etBits e - 1 - x, 0⟩) s)

/-- Shift count of an element (R175). -/
def shiftCount (e b : Nat) : Nat := b % etBits e

/-- floor((v + 2^(c-1)) / 2^c) when rounding and c > 0, else floor(v / 2^c) (R175). -/
def shiftDown (rnd : Bool) (v : Int) (c : Nat) : Int :=
  if rnd = true ∧ c > 0 then (v + 2 ^ (c - 1)) / 2 ^ c else v / 2 ^ c

/-- `vshl` (R175). -/
def execVshl (d a b : Nat) (sat m : Bool) (s : State) : Res :=
  .next (elemWord d a b m (fun e x y _ => intRes sat e (etInt e x * 2 ^ shiftCount e y)) s)

/-- `vshr` (R175). -/
def execVshr (d a b : Nat) (rnd m : Bool) (s : State) : Res :=
  .next (elemWord d a b m (fun e x y _ => ⟨ofInt (etBits e) (shiftDown rnd (x : Int) (shiftCount e y)), 0⟩) s)

/-- `vsra` (R175): the value is signed whatever the type's sign. -/
def execVsra (d a b : Nat) (rnd m : Bool) (s : State) : Res :=
  .next (elemWord d a b m
    (fun e x y _ => ⟨ofInt (etBits e) (shiftDown rnd (toSigned (etBits e) x) (shiftCount e y)), 0⟩) s)

/-- Conditions eq, ne, lt, ge, gt, le on the order of two values: -1, 0 or 1 (R176). -/
def ordHolds (c : Nat) (o : Int) : Bool :=
  match c with
  | 0 => o == 0
  | 1 => o != 0
  | 2 => decide (o < 0)
  | 3 => decide (0 ≤ o)
  | 4 => decide (0 < o)
  | _ => decide (o ≤ 0)

/-- `vcmp` (R176). -/
def execVcmp (d a b c : Nat) (s : State) : Res :=
  .next (maskWord d a b (fun e x y =>
    ⟨(ordHolds c (if etInt e x < etInt e y then -1 else if etInt e x = etInt e y then 0 else 1)).toNat, 0⟩) s)

/-- A float comparison with its NV (R176). -/
def fpCmp (f : Fmt) (c x y : Nat) : FRes :=
  let a := unpack f x
  let b := unpack f y
  let nan := a.isNan || b.isNan
  let sig := a.isSig || b.isSig
  let holds := match c with
    | 6 => nan
    | 7 => !nan
    | 1 => nan || ordHolds 1 (cmpVals a b)
    | _ => !nan && ordHolds c (cmpVals a b)
  ⟨holds.toNat, if sig || (nan && [2, 3, 4, 5].contains c) then fNV else 0⟩

/-- `vfcmp` (R176). -/
def execVfcmp (d a b c : Nat) (s : State) : Res := .next (maskWord d a b (fun e x y => fpCmp (etFmt e) c x y) s)

/-- `vsel` (R177). -/
def execVsel (d a b : Nat) (s : State) : Res :=
  .next (vecWord d [a, b] (fun s =>
    let e := vtType s.cur.vt
    let w := etBits e
    (packEls w (((elems w (operand s a)).zip (elems w (operand s b))).zip (active s true (etCount e)) |>.map
      (fun p => if p.2 then p.1.1 else p.1.2)), 0)) s)

/-- `vfadd` (R178). -/
def execVfadd (d a b r : Nat) (m : Bool) (s : State) : Res :=
  .next (elemWord d a b m (fun e x y _ => fpAdd (etFmt e) r x y) s)

/-- `vfsub` (R178). -/
def execVfsub (d a b r : Nat) (m : Bool) (s : State) : Res :=
  .next (elemWord d a b m (fun e x y _ => fpSub (etFmt e) r x y) s)

/-- `vfmul` (R178). -/
def execVfmul (d a b r : Nat) (m : Bool) (s : State) : Res :=
  .next (elemWord d a b m (fun e x y _ => fpMul (etFmt e) r x y) s)

/-- `vfma` (R178). -/
def execVfma (d a b r : Nat) (m : Bool) (s : State) : Res :=
  .next (elemWord d a b m (fun e x y z => fpFma (etFmt e) r x y z) s)

/-- `vfmin` (R178). -/
def execVfmin (d a b : Nat) (num m : Bool) (s : State) : Res :=
  .next (elemWord d a b m (fun e x y _ => fpMinMax (etFmt e) false num x y) s)

/-- `vfmax` (R178). -/
def execVfmax (d a b : Nat) (num m : Bool) (s : State) : Res :=
  .next (elemWord d a b m (fun e x y _ => fpMinMax (etFmt e) true num x y) s)

/-- Sign injection on patterns of w bits (R178). -/
def signInject (w sel x y : Nat) : Nat :=
  let sa := x / 2 ^ (w - 1) % 2
  let sb := y / 2 ^ (w - 1) % 2
  let sr := match sel with
    | 0 => sb
    | 1 => 1 - sb
    | _ => (sa + sb) % 2
  x % 2 ^ (w - 1) + sr * 2 ^ (w - 1)

/-- `vfsgn` (R178). -/
def execVfsgn (d a b sel : Nat) (m : Bool) (s : State) : Res :=
  .next (elemWord d a b m (fun e x y _ => ⟨signInject (etBits e) sel x y, 0⟩) s)

/-! ### Changing width (R179-R181, R187) -/

/-- Type of a result f times as wide: the integer type of the same sign, or f32. -/
def wideType (e f : Nat) : Nat := if e < 8 then e + f / 2 else 13

/-- Element i of a span of f registers of elements of w bits: register i mod f, position i div f. -/
def spanEl (regs : List (BitVec 4096)) (f w i : Nat) : Nat := nfld (regs.getD (i % f) 0).toNat (w * (i / f)) w

/-- The units a long word latched, as operands by port. -/
def latched (ports : List Nat) (latch : List (BitVec 4096)) (s : State) (c : Nat) : BitVec 4096 :=
  if c < 96 then s.me.vreg (rename s.cur.vt c)
  else ((ports.zip latch).find? (fun p => p.1 == c - 96)).elim 0 (fun p => p.2)

/-- One register of a span written: register number r of the span that starts at code d (R187). -/
def spanStep (d f wr n : Nat) (m : Bool) (g : State → Nat → Nat → FRes) (r : Nat) (s : State) : State :=
  let reg := rename s.cur.vt (d + r)
  let old := elems wr (s.me.vreg reg)
  let act := active s m n
  let rs := (old.zipIdx 0).map (fun p =>
    let i := p.2 * f + r
    if i < n then pickEl (act.getD i false) p.1 (g s i p.1) else ⟨p.1, 0⟩)
  raiseFlags (allFlags rs) (s.modMe (fun k => k.setVreg reg (packEls wr (rs.map (fun x => x.v)))))

/-- Registers of a span written until the last or until the turn's budget is spent. -/
def spanRun (fuel d f wr n : Nat) (m : Bool) (g : State → Nat → Nat → FRes) (w : Started) (s : State) : State :=
  if w.prog ≥ f then endWord s
  else
    match fuel with
    | 0 => holdWord w s
    | fuel + 1 => spanRun fuel d f wr n m g { w with prog := w.prog + 1 } (spanStep d f wr n m g w.prog s)

/-- A word whose destination spans f registers: its port units are latched at its start (R187). -/
def spanWord (d f wr n : Nat) (srcs : List Nat) (m : Bool) (g : (Nat → BitVec 4096) → Nat → Nat → FRes) (s : State) : State :=
  let ports := portsOf srcs
  let w := curStarted s
  let go := fun (w : Started) (s : State) => spanRun s.cur.steps d f wr n m (fun s => g (latched ports w.latch s)) w s
  if w.latch.length = ports.length then go w s
  else withPorts srcs [] (fun s => go { w with latch := ports.map (unitOf s) } (takeUnits srcs s)) s

/-- Element of a widening word, from elements of its sources and the old wide element. -/
def wideWord (d a b f : Nat) (m : Bool) (g : Nat → Nat → Nat → Nat → FRes) (s : State) : State :=
  let e := vtType s.cur.vt
  let w := etBits e
  spanWord d f (w * f) (etCount e) [a, b] m
    (fun op i old => g e (nfld (op a).toNat (w * i) w) (nfld (op b).toNat (w * i) w) old) s

/-- An operand of a float widening word as f32, with NV for a signalling NaN (R63, R179). -/
def toF32 (e x : Nat) : FRes := floatToFloat (etFmt e) fmtF 0 false x

/-- A float result in f32 from two widened operands. -/
def wideFloat (e x y : Nat) (op : Nat → Nat → FRes) : FRes :=
  let p := toF32 e x
  let q := toF32 e y
  let r := op p.v q.v
  ⟨r.v, flagOr (flagOr p.fl q.fl) r.fl⟩

/-- `vwadd` (R179). -/
def execVwadd (d a b : Nat) (sat q m : Bool) (s : State) : Res :=
  let f := quadFactor q
  .next (wideWord d a b f m (fun e x y _ =>
    if e < 8 then intRes sat (wideType e f) (etInt e x + etInt e y) else wideFloat e x y (fpAdd fmtF 0)) s)

/-- `vwmul` (R179). -/
def execVwmul (d a b : Nat) (sat q m : Bool) (s : State) : Res :=
  let f := quadFactor q
  .next (wideWord d a b f m (fun e x y _ =>
    if e < 8 then intRes sat (wideType e f) (etInt e x * etInt e y) else wideFloat e x y (fpMul fmtF 0)) s)

/-- `vwmad` (R179). -/
def execVwmad (d a b : Nat) (sat q m : Bool) (s : State) : Res :=
  let f := quadFactor q
  .next (wideWord d a b f m (fun e x y z =>
    if e < 8 then intRes sat (wideType e f) (etInt e x * etInt e y + etInt (wideType e f) z)
    else wideFloat e x y (fun p q => fpFma fmtF 0 p q z)) s)

/-- A word that reads a span of f registers and writes one result (R180, R181). -/
def foldWord (d a f ws : Nat) (m : Bool) (g : Nat → FRes) (s : State) : State :=
  vecWord d [] (fun s =>
    let e := vtType s.cur.vt
    let w := etBits e
    let n := etCount e
    let regs := (List.range f).map (fun j => s.me.vreg (rename s.cur.vt (a + j)))
    let rs := ((elems w (oldDest s d)).zip (active s m n)).zipIdx 0 |>.map
      (fun p => pickEl p.1.2 p.1.1 (g (spanEl regs f ws p.2)))
    (packEls w (rs.map (fun r => r.v)), allFlags rs)) s

/-- `vnarrow` (R180). -/
def execVnarrow (d a : Nat) (sat q m : Bool) (s : State) : Res :=
  let f := quadFactor q
  let e := vtType s.cur.vt
  .next (foldWord d a f (f * etBits e) m (fun x => intRes sat e (etInt (wideType e f) x)) s)

/-- `vcvt` (R181): the wider side spans registers. -/
def execVcvt (d a : Nat) (satf : Bool) (src r : Nat) (m : Bool) (s : State) : Res :=
  let e := vtType s.cur.vt
  let fs := cvtSpan src e
  let fd := cvtSpan e src
  .next (
    if fd > 1 then
      spanWord d fd (etBits e) (etCount src) [a] m
        (fun op i _ => convert src e r satf (nfld (op a).toNat (etBits src * i) (etBits src))) s
    else if fs > 1 then foldWord d a fs (etBits src) m (convert src e r satf) s
    else elemWord d a a m (fun _ x _ _ => convert src e r satf x) s)

/-! ### Reductions and rearrangement -/

/-- One level of the pairwise tree (R70). -/
def treeLevel (op : Nat → Nat → FRes) : List FRes → List FRes
  | a :: b :: r => (let x := op a.v b.v; ⟨x.v, flagOr (flagOr a.fl b.fl) x.fl⟩) :: treeLevel op r
  | l => l

/-- The balanced pairwise tree over 2^lvl nodes (R70). -/
def treeRed (lvl : Nat) (op : Nat → Nat → FRes) (l : List FRes) : FRes :=
  match lvl with
  | 0 => l.headD ⟨0, 0⟩
  | lvl + 1 => treeRed lvl op (treeLevel op l)

/-- Operation of `vred` (R182). -/
def redOp (e r o : Nat) (sat : Bool) (x y : Nat) : FRes :=
  if e < 8 then
    match o with
    | 0 => intRes sat e (etInt e x + etInt e y)
    | 1 => ⟨if etInt e x ≤ etInt e y then x else y, 0⟩
    | 2 => ⟨if etInt e y ≤ etInt e x then x else y, 0⟩
    | 3 => ⟨Nat.land x y, 0⟩
    | 4 => ⟨Nat.lor x y, 0⟩
    | _ => ⟨Nat.xor x y, 0⟩
  else
    match o with
    | 0 => fpAdd (etFmt e) r x y
    | 1 => fpMinMax (etFmt e) false false x y
    | _ => fpMinMax (etFmt e) true false x y

/-- Identity of an operation of `vred` (R182). -/
def redIdent (e o : Nat) : Nat :=
  if e < 8 then
    match o with
    | 1 => ofInt (etBits e) (etMax e)
    | 2 => ofInt (etBits e) (etMin e)
    | 3 => 2 ^ etBits e - 1
    | _ => 0
  else
    match o with
    | 0 => (etFmt e).signBit
    | 1 => (etFmt e).infEnc
    | _ => (etFmt e).signed true (etFmt e).infEnc

/-- `vred` (R70, R182). -/
def execVred (d a r o : Nat) (sat m : Bool) (s : State) : Res :=
  .next (vecWord d [a] (fun s =>
    let e := vtType s.cur.vt
    let w := etBits e
    let n := etCount e
    let l := ((elems w (operand s a)).zip (active s m n)).map (fun p => pickEl p.2 (redIdent e o) ⟨p.1, 0⟩)
    let x := treeRed n.log2 (redOp e r o sat) l
    (packEls w [x.v], x.fl)) s)

/-- The elements that a mask names, in order. -/
def selected : List Nat → List Bool → List Nat
  | x :: l, b :: r => if b then x :: selected l r else selected l r
  | _, _ => []

/-- `vcompress` (R183). -/
def execVcompress (d a : Nat) (s : State) : Res :=
  .next (
    let e := vtType s.cur.vt
    let cnt := (active s true (etCount e)).countP (fun b => b)
    withPorts [a] [d] (fun s =>
      let v := packEls (etBits e) (selected (elems (etBits e) (operand s a)) (active s true (etCount e)))
      dropWord ((putDest d v (takeUnits [a] s)).modMe (fun k => { k with vcnt := BitVec.ofNat 11 cnt }))) s)

/-- Leading elements spread to the places a mask names, zero elsewhere (R183). -/
def spread : List Nat → List Bool → List Nat
  | x :: l, b :: r => if b then x :: spread l r else 0 :: spread (x :: l) r
  | [], _ :: r => 0 :: spread [] r
  | _, [] => []

/-- `vexpand` (R183). -/
def execVexpand (d a : Nat) (s : State) : Res :=
  .next (vecWord d [a] (fun s =>
    let e := vtType s.cur.vt
    (packEls (etBits e) (spread (elems (etBits e) (operand s a)) (active s true (etCount e))), 0)) s)

/-- Control bit t of the Beneš network (R171). -/
def benesBit (k : Core) (t : Nat) : Bool := (tget k.nregs (t / 544) 0).getLsbD (t % 544)

/-- Stage t of the network: pairs of bytes a distance 2^b apart (R184). Byte j belongs to switch
(j / 2^(b+1)) 2^b + j mod 2^b. -/
def benesStage (k : Core) (st : Nat) (x : List Nat) : List Nat :=
  let b := if st ≤ 8 then 8 - st else st - 8
  (x.zipIdx 0).map (fun p =>
    let j := p.2
    let sw := j / 2 ^ (b + 1) * 2 ^ b + j % 2 ^ b
    if benesBit k (256 * st + sw) then x.getD (Nat.xor j (2 ^ b)) 0 else p.1)

/-- The 17 stages (R184). -/
def benes (k : Core) (v : BitVec 4096) : BitVec 4096 :=
  packEls 8 ((List.range 17).foldl (fun x st => benesStage k st x) (elems 8 v))

/-- `vperm` (R184). -/
def execVperm (d a : Nat) (m : Bool) (s : State) : Res :=
  .next (vecWord d [a] (fun s =>
    let e := vtType s.cur.vt
    let w := etBits e
    (packEls w (((elems w (benes s.me (operand s a))).zip (elems w (oldDest s d))).zip (active s m (etCount e)) |>.map
      (fun p => if p.2 then p.1.1 else p.1.2)), 0)) s)

/-- `vslide` (R185). -/
def execVslide (d a : Nat) (i : BitVec 10) (s : State) : Res :=
  .next (vecWord d [a] (fun s =>
    let w := etBits (vtType s.cur.vt)
    let l := elems w (operand s a)
    (packEls w ((List.range l.length).map (fun (j : Nat) =>
      let t : Int := (j : Int) + i.toInt
      if t < 0 then 0 else l.getD t.toNat 0)), 0)) s)

/-- `vbcast` (R185). -/
def execVbcast (d a j : Nat) (s : State) : Res :=
  .next (vecWord d [a] (fun s =>
    let w := etBits (vtType s.cur.vt)
    let l := elems w (operand s a)
    (packEls w (List.replicate l.length (l.getD j 0)), 0)) s)

/-- A mask word (R186). -/
def maskOp (d : Nat) (f : Core → Nat → Bool) (s : State) : State :=
  let n := etCount (vtType s.cur.vt)
  dropWord (s.modMe (fun k => k.setMask d (packMask ((List.range n).map (f k)))))

/-- `mand` (R186). -/
def execMand (d a b : Nat) (s : State) : Res :=
  .next (maskOp d (fun k i => (k.mask a).getLsbD i && (k.mask b).getLsbD i) s)

/-- `mor` (R186). -/
def execMor (d a b : Nat) (s : State) : Res :=
  .next (maskOp d (fun k i => (k.mask a).getLsbD i || (k.mask b).getLsbD i) s)

/-- `mnot` (R186). -/
def execMnot (d a : Nat) (s : State) : Res := .next (maskOp d (fun k i => !(k.mask a).getLsbD i) s)

/-- `mpop` (R186). -/
def execMpop (d a : Nat) (s : State) : Res :=
  .next (
    let n := etCount (vtType s.cur.vt)
    dropWord (s.modMe (fun k => k.setXreg d (BitVec.ofNat 64 (popN n (k.mask a).toNat)))))

end Sys2Proof.Machine
end

