-- ==== Sys2Proof/Machine/Matrix.lean ====
section
/-! DEFINITION. The matrix queue's words (R189-R204, R206, R258, R330), the seat of a crew (R191-R194), and the array's
arithmetic (R66-R69). -/

namespace Sys2Proof.Machine

/-! ### Seats (R192-R194, R206) -/

/-- A word that needs the seat while it is in progress (R189). -/
def QWord.needsSeat (q : QWord) : Bool :=
  match wordInstr q.word with
  | some (.wload _ _ _) => true
  | some .wswap => true
  | some (.mmul _ _ _ _ _) => true
  | some (.mmulg _ _ _ _ _ _) => true
  | _ => false

/-- Crew of the moving core. -/
def State.myCrew (s : State) : Crew := s.crew (crewOf s.cur.core)

/-- Whether a resumed core waits for the seat its image held: its matrix queue does not go on (R206). -/
def reseating (s : State) (c : Nat) : Bool :=
  (s.crew (crewOf c)).reqs.contains (posOf c) && !seatWaits (s.core c)

/-- A stint ends: the seat is free and HELD and STINT_LEFT of its core are 0 (R193, R194). -/
def endStint (crew : Nat) (s : State) : State :=
  let p := (s.crew crew).holder
  let s := s.modCrew crew (fun w => { w with holder := 7, netStint := 0 })
  if p < 4 then s.modCore (coreAt crew p) (fun k => { k with hasSeat := false, stint := 0 }) else s

/-- A unit requests the seat. -/
def requestSeat (crew who : Nat) (s : State) : State :=
  s.modCrew crew (fun w => { w with reqs := w.reqs.filter (fun p => p != who) ++ [who] })

/-- The first requester in the cyclic order POS 0-3, netting engine, after the last holder (R193). -/
def nextHolder (w : Crew) : Option Nat :=
  ((List.range 5).map (fun i => (w.last + 1 + i) % 5)).find? (fun p => w.reqs.contains p)

/-- SEAT_GRANT (R192, R193, R206): a free seat goes to the next requester; a core whose image held the seat keeps the count
it had. -/
def grantSeat (crew : Nat) (s : State) : State :=
  let w := s.crew crew
  match nextHolder w with
  | some p =>
    if w.holder ≠ 7 then s
    else
      let keep := decide (p < 4) && reseating s (coreAt crew p)
      let s := s.modCrew crew (fun w =>
        { w with holder := p, last := p, reqs := w.reqs.filter (fun q => q != p), netStint := if p = 4 then 16 else 0 })
      if p < 4 then
        s.modCore (coreAt crew p) (fun k => { k with hasSeat := true, stint := if keep then k.stint else 16 })
      else s
  | none => s

/-- Whether a core has a seat-needing word that started and has not completed. -/
def seatBusy (k : Core) : Bool :=
  k.incomplete.any (fun q => q.needsSeat) || k.kept.any (fun w => w.q.needsSeat)

/-- Whether units of a crew's heat move: no seat passes and no stint ends once they have stopped to be saved, at a pre-emption or at
the loss of the supply (R206, R323, R381). -/
def crewMoves (s : State) (crew : Nat) : Bool := (List.range 4).any (fun p => s.unitsLive (coreAt crew p))

/-- STINT_END_COUNT (R193): a core whose sixteenth word has completed keeps the seat with a new stint when no other unit
requests it; else the stint ends. -/
def execStintEndCount (crew : Nat) (s : State) : Res :=
  .next (
    let w := s.crew crew
    let c := coreAt crew w.holder
    let k := s.core c
    if crewMoves s crew = true ∧ w.holder < 4 ∧ k.hasSeat = true ∧ k.stint = 0 ∧ seatBusy k = false then
      if w.reqs.any (fun p => p != w.holder) then endStint crew s
      else s.modCore c (fun k => { k with stint := 16 })
    else s)

/-- Whether the moving unit's word has started: it is in progress, or kept from a fault in its middle. -/
def begun (s : State) : Bool :=
  (match s.me.slot s.eng with
    | some w => w.q.seq == s.cur.seq
    | none => false) || s.me.kept.any (fun w => w.q.seq == s.cur.seq)

/-- A fault of a word that may have started: its progress is kept when it has. -/
def seatTrap (t : Trap) (w : Started) (s : State) : State := if begun s then midTrap t w s else queueTrap t s

/-- A seat-needing word (R193): it waits while a seat it held before a pre-emption is not granted again, takes SEAT without
the seat, and waits with STINT_LEFT 0 before it starts. -/
def seatWord (go : State → State) (s : State) : State :=
  if reseating s s.cur.core then s
  else if s.me.hasSeat = false then seatTrap (trapAt .seat) (curStarted s) s
  else if begun s = false ∧ s.me.stint = 0 then s
  else go s

/-- A seat-needing word starts: STINT_LEFT counts it once (R193; DEDUCED, log 69). -/
def countWord (s : State) : State := if begun s then s else s.modMe (fun k => { k with stint := k.stint - 1 })

/-- The moving word waits in its section, nothing done (R330). -/
def waitWord (s : State) : State := holdWord (curStarted s) s

/-- `seat` (R192): it ends the core's own stint and requests the seat, again after a resume (R206); granted, it delivers SEATST
(DEDUCED, log 38). -/
def execSeat (x : Nat) (s : State) : Res :=
  .next (
    if begun s then
      if s.me.hasSeat then dropWord (s.modMe (fun k => k.setXreg x (seatst s s.cur.core)))
      else if s.myCrew.reqs.contains (posOf s.cur.core) then s
      else requestSeat (crewOf s.cur.core) (posOf s.cur.core) s
    else if s.me.inLoad.isSome ∨ reseating s s.cur.core = true then s
    else
      let s := if s.me.hasSeat then endStint (crewOf s.cur.core) s else s
      waitWord (requestSeat (crewOf s.cur.core) (posOf s.cur.core) s))

/-- `unseat` (R194). -/
def execUnseat (s : State) : Res :=
  .next (
    if s.me.inLoad.isSome ∨ reseating s s.cur.core = true then s
    else dropWord (if s.me.hasSeat then endStint (crewOf s.cur.core) s else s))

/-! ### Types and shapes (R195) -/

/-- Class of an element type: 0 I, 1 F, 2 W16, 3 H16. -/
def tyClass (ty : Nat) (mx : Bool) : Nat :=
  match ty with
  | 3 => 2
  | 4 => 3
  | 5 => if mx then 1 else 0
  | 6 => 0
  | _ => 1

/-- Whether a type has 4-bit elements. -/
def tyNibble (ty : Nat) : Bool := ty == 0 || ty == 6

/-- Bits of an element type of R189. -/
def tyBits (ty : Nat) : Nat := if tyNibble ty then 4 else if ty = 3 ∨ ty = 4 then 16 else 8

/-- An element as a value; the integer 0 counts as +0 in a product (R55, R59, R195; DEDUCED, log 74). -/
def tyVal (ty v : Nat) : Val :=
  match ty with
  | 0 => unpack fmtF4 v
  | 1 => unpack fmtE4 v
  | 2 => unpack fmtE5 v
  | 3 => unpack fmtBf v
  | 4 => unpack fmtH v
  | 5 => .fin (decide (toSigned 8 v < 0)) (toSigned 8 v).natAbs 0
  | _ => .fin (decide (toSigned 4 v < 0)) (toSigned 4 v).natAbs 0

/-- An admitted pass: K, N, R, the types and forms of both operands, class, first plane K-row. -/
structure Pass where
  k   : Nat
  n   : Nat
  r   : Nat
  aty : Nat
  amx : Bool
  pty : Nat
  pmx : Bool
  cls : Nat
  p0  : Nat
  deriving DecidableEq, Repr, Inhabited

/-- The pass of a multiply word against a plane's type, none when it is not admitted (R195, R200). -/
def passOf (ty : Option Nat) (e : Nat) (h mx : Bool) : Option Pass :=
  match ty with
  | none => none
  | some f =>
    let pty := f % 8
    let pmx := f / 16 % 2 == 1
    let cls := tyClass e mx
    let wide := cls = 2 ∨ cls = 3
    if cls ≠ tyClass pty pmx then none
    else if h = true ∧ (tyNibble pty = false ∨ tyNibble e = true ∨ wide) then none
    else
      some { k := if tyNibble e && tyNibble pty then 256 else 128, n := if wide then 128 else 256,
             r := if wide then 64 else 32, aty := e, amx := mx, pty := pty, pmx := pmx, cls := cls,
             p0 := if h then 128 else 0 }

/-- Bytes of an activation row. -/
def Pass.rowBytes (p : Pass) : Nat := p.k * tyBits p.aty / 8

/-- Rows in a unit of 512 bytes. -/
def Pass.rowsPerUnit (p : Pass) : Nat := 512 / p.rowBytes

/-- Block length (R66, R69). -/
def Pass.block (p : Pass) : Nat := if p.cls = 2 ∨ p.cls = 3 then 8 else 32

/-- Scale bytes of a pass with MX (R200). -/
def Pass.scaleBytes (p : Pass) : Nat := if p.amx then p.r * p.k / 32 else 0

/-! ### The array (R66-R69) -/

/-- A product of two elements with NV for a signalling NaN or 0 × ∞ (R67). -/
def cellMul (a b : Val) : Val × Nat :=
  if a.isNan || b.isNan then (.nan false 0 false, if a.isSig || b.isSig then fNV else 0)
  else
    match a, b with
    | .fin s m e, .fin t n d => (.fin (s != t) (m * n) (e + d), 0)
    | _, _ => if a.isZero || b.isZero then (.nan false 0 false, fNV) else (.inf (a.sign != b.sign), 0)

/-- The exact sum of two products; NV where ∞ meets -∞ (R67). `blockSum` gives it no NaN. -/
def cellAdd (a b : Val × Nat) : Val × Nat :=
  let fl := flagOr a.2 b.2
  match a.1, b.1 with
  | .nan s p g, _ => (.nan s p g, fl)
  | _, .nan s p g => (.nan s p g, fl)
  | .inf s, .inf t => if s = t then (.inf s, fl) else (.nan false 0 false, flagOr fl fNV)
  | .inf s, _ => (.inf s, fl)
  | _, .inf t => (.inf t, fl)
  | .fin s m e, .fin t n d =>
    let x := exactAdd false ⟨s, m, e⟩ ⟨t, n, d⟩
    (.fin x.s x.m x.e, fl)

/-- The exact sum of a block's products: a NaN product is met before ∞ - ∞ is tested, wherever it stands, with the NV of the
products themselves (R63 rule 3, R66, R67; DEDUCED, log 74). -/
def blockSum (l : List (Val × Val)) : Val × Nat :=
  let ps := l.map (fun p => cellMul p.1 p.2)
  if ps.any (fun p => p.1.isNan) then (.nan false 0 false, ps.foldl (fun n p => flagOr n p.2) 0)
  else
    match ps with
    | [] => (.fin false 0 0, 0)
    | p :: r => r.foldl cellAdd p

/-- Power of two of an e8 scale, none for its NaN (R59). -/
def scaleExp (v : Nat) : Option Int := if v = 0xFF then none else some ((v : Int) - 127)

/-- A block value scaled and rounded to f32, the default NaN for a NaN or a NaN scale; of its flags OF stays, and the NV of
the elements' own products stays under a NaN scale too (R59, R66, R67; DEDUCED, log 74). -/
def blockVal (b : Val × Nat) (sc : Option Int) : FRes :=
  match b.1, sc with
  | .fin s m e, some x =>
    let r := roundTo fmtF 0 false s m (e + x) false
    ⟨r.v, flagOr b.2 (Nat.land r.fl fOF)⟩
  | .inf s, some _ => ⟨fmtF.signed s fmtF.infEnc, b.2⟩
  | _, _ => ⟨fmtF.nanEnc, b.2⟩

/-- One f32 accumulator element after one block; every NaN of the add is the default one, whatever NaN went in (R66, R67). -/
def accFloat (acc : FRes) (v : FRes) : FRes :=
  let r := fpAdd fmtF 0 acc.v v.v
  ⟨if (unpack fmtF r.v).isNan then fmtF.nanEnc else r.v, flagOr acc.fl (flagOr v.fl (Nat.land r.fl (fNV + fOF)))⟩

/-- One int32 accumulator element after one exact block sum (R69). -/
def accInt (acc : FRes) (x : Int) : FRes :=
  let v := toSigned 32 acc.v + x
  ⟨ofInt 32 v, if v < -(2 ^ 31) ∨ v ≥ 2 ^ 31 then flagOr acc.fl fAOV else acc.fl⟩

/-- Weight element (k, j) of a plane (R196). -/
def weightAt (pl : Plane) (p : Pass) (k j : Nat) : Nat :=
  nfld pl.w.toNat ((k * p.n + j) * tyBits p.pty) (tyBits p.pty)

/-- Scale byte of a plane for a block of 32 plane K-rows and a column (R196). -/
def planeScale (pl : Plane) (p : Pass) (blk j : Nat) : Nat := nfld pl.scales.toNat ((blk * p.n + j) * 8) 8

/-- The two scales and the MXINT8 adjustments of a block together (R66, R200). -/
def scaleOf (pl : Plane) (p : Pass) (scales : List Byte) (i blk j : Nat) : Option Int :=
  let sa := if p.amx then scaleExp ((scales.getD (i * (p.k / 32) + blk) 0).toNat) else some 0
  let sw := if p.pmx then scaleExp (planeScale pl p (blk + p.p0 / 32) j) else some 0
  let adj : Int := (if p.amx && p.aty == 5 then -6 else 0) + (if p.pmx && p.pty == 5 then -6 else 0)
  match sa, sw with
  | some x, some y => some (x + y + adj)
  | _, _ => none

/-- One output element of one row: the accumulator after every block in order (R66, R69). -/
def accElem (pl : Plane) (p : Pass) (scales : List Byte) (row : List Nat) (i j acc : Nat) : FRes :=
  (List.range (p.k / p.block)).foldl (fun (a : FRes) (blk : Nat) =>
    let ks := (List.range p.block).map (fun x => blk * p.block + x)
    let pairs := ks.map (fun k => (tyVal p.aty (row.getD k 0), tyVal p.pty (weightAt pl p (p.p0 + k) j)))
    if p.cls = 0 then
      accInt a (pairs.foldl (fun (n : Int) (q : Val × Val) =>
        match cellMul q.1 q.2 with
        | (.fin s m _, _) => if s then n - m else n + m
        | _ => n) 0)
    else accFloat a (blockVal (blockSum pairs) (scaleOf pl p scales i blk j))) ⟨acc, 0⟩

/-- Bits [lo, lo + n) of a number replaced. -/
def putBits (v lo n x : Nat) : Nat := v % 2 ^ lo + x % 2 ^ n * 2 ^ lo + v / 2 ^ (lo + n) * 2 ^ (lo + n)

/-- One row accumulated into a tile, with its flags (R200). -/
def rowInto (pl : Plane) (p : Pass) (scales : List Byte) (row : List Nat) (i : Nat) (tile : BitVec 262144) :
    BitVec 262144 × Nat :=
  let base := i * p.n * 32
  let rs := (List.range p.n).map (fun j => accElem pl p scales row i j (nfld tile.toNat (base + 32 * j) 32))
  let bits := rs.foldr (fun r acc => r.v + 2 ^ 32 * acc) 0
  (BitVec.ofNat 262144 (putBits tile.toNat base (32 * p.n) bits), allFlags rs)

/-- Activation elements of row i in its unit (R200). -/
def rowOf (p : Pass) (latch : List (BitVec 4096)) (i : Nat) : List Nat :=
  let u := (latch.getD (i / p.rowsPerUnit) 0).toNat
  let base := i % p.rowsPerUnit * p.rowBytes * 8
  (List.range p.k).map (fun k => nfld u (base + k * tyBits p.aty) (tyBits p.aty))

/-- A row of a multiply done: the tile and the flags. -/
def doRow (t : Nat) (p : Pass) (w : Started) (s : State) : State :=
  let r := rowInto s.myCrew.active p w.scales (rowOf p w.latch w.prog) w.prog (s.me.tile t)
  raiseFlags r.2 (s.modMe (fun k => { k with tiles := tset k.tiles t r.1 }))

/-- A unit of a port taken into the latch when row i needs it (R200). -/
def rowUnit (port : Nat) (p : Pass) (w : Started) (s : State) : PortCheck × Started × State :=
  if w.prog / p.rowsPerUnit < w.latch.length then (.ready, w, s)
  else
    match unitReady s port with
    | .ready => (.ready, { w with latch := w.latch ++ [unitOf s port] }, portAdvance s.cur.core port 512 s)
    | x => (x, w, s)

/-- Rows of a multiply until the last, until a port makes it wait or fault, or until the turn's budget is spent. -/
def mmRows (fuel t : Nat) (port : Nat) (p : Pass) (w : Started) (s : State) : State :=
  if w.prog ≥ p.r then endWord s
  else
    match fuel with
    | 0 => holdWord w s
    | fuel + 1 =>
      match rowUnit port p w s with
      | (.wait, w, s) => holdWord w s
      | (.trap e, w, s) => midTrap e w s
      | (.ready, w, s) =>
        if w.prog / p.rowsPerUnit < w.latch.length then
          mmRows fuel t port p { w with prog := w.prog + 1 } (doRow t p w s)
        else mmRows fuel t port p w s

/-- Whether a port's next unit takes STREAM (R129). -/
def streamBad (s : State) (port : Nat) : Bool := portReadable s s.cur.core port 512 == .trap (trapAt .stream)

/-- n scale bytes taken from the scale queue (R198). -/
def takeScales (n : Nat) (w : Started) (s : State) : Started × State :=
  ({ w with scales := s.me.scaleq.take n }, s.modMe (fun k => { k with scaleq := k.scaleq.drop n }))

/-- A multiply word (R200): its faults at start, then its body with its scales taken. While a unit that it `needs` is still to come it
has not started and has consumed nothing (R128, R196, R332). -/
def mmWord (port e : Nat) (h mx : Bool) (needs : Pass → Started → Bool) (go : Pass → Started → State → State) (s : State) : State :=
  seatWord (fun s =>
    let w := curStarted s
    let pl := s.myCrew.active
    match passOf pl.ty e h mx with
    | none => seatTrap (trapAt .seat) w s
    | some p =>
      if pl.stale then seatTrap (trapAt .seat) w s
      else if begun s then go p w s
      else if s.me.scaleq.length < p.scaleBytes then queueTrap (trapAt .queue) s
      else if claimed s.me port then s
      else if streamBad s port then queueTrap (trapAt .stream) s
      else if needs p w = true ∧ unitReady s port = .wait then s
      else
        let r := takeScales p.scaleBytes w (countWord s)
        go p r.1 (holdWord r.1 r.2)) s

/-- `mmul` (R200). -/
def execMmul (t k : Nat) (mx h : Bool) (e : Nat) (s : State) : Res :=
  .next (mmWord k e h mx (fun p w => decide (w.prog < p.r)) (fun p w s => mmRows s.cur.steps t k p w s) s)

/-- Address of gathered row i (R201). -/
def gatherAddr (s : State) (x idx : Nat) : Addr := s.me.xreg x + BitVec.ofNat 64 idx

/-- The fault of a gathered row, none when the row can be read (R201). A row with a poisoned granule takes POISON, DEFERRED, in order
with the other rows' faults: R310 and R311 name no such consumer (DESIGN CHOICE, log 96). -/
def gatherFault (s : State) (x n idx : Nat) : Option Trap :=
  let tag := nfld (s.me.xreg x).toNat 56 8
  let ea := gatherAddr s x idx
  if tag ≠ 0xFC ∧ tag ≠ 0xF8 then some (trapAt .aperture)
  else if ea.toNat % 64 ≠ 0 then some (trapAt .alignAccess)
  else
    match s.place s.cur.core ea, s.place s.cur.core (ea + BitVec.ofNat 64 (n - 1)) with
    | some (.pool a i), some (.pool b j) =>
      if a = b ∧ i + (n - 1) = j then
        (if (readKey s (poolKey a i) n).poison then some trapPoison else none)
      else some (trapAt .aperture)
    | _, _ => some (trapAt .aperture)

/-- Bytes of a gathered row. -/
def gatherRow (s : State) (x n idx : Nat) : List Byte :=
  match s.place s.cur.core (gatherAddr s x idx) with
  | some p => (readKey s p.key n).bytes
  | none => List.replicate n 0

/-- Bytes cut into units of 512. -/
def unitsOf (fuel : Nat) (l : List Byte) : List (BitVec 4096) :=
  match fuel with
  | 0 => []
  | fuel + 1 => if l.isEmpty then [] else BitVec.ofNat 4096 (bytesNat (l.take 512)) :: unitsOf fuel (l.drop 512)

/-- A fault of the gather consumes nothing: the scales go back, the stint is not counted, and the word has not begun (R201). -/
def gatherTrap (t : Trap) (w : Started) (s : State) : State :=
  queueTrap t (s.modMe (fun k => { k with scaleq := w.scales ++ k.scaleq, stint := k.stint + 1 }))

/-- The gather of `mmulg` (R201): every row is checked, then copied into the latch, and the index unit is consumed. -/
def gather (t port x : Nat) (p : Pass) (w : Started) (s : State) : State :=
  match unitReady s port with
  | .wait => holdWord w s
  | .trap e => gatherTrap e w s
  | .ready =>
    let u := (unitOf s port).toNat
    let idx := (List.range p.r).map (fun i => nfld u (32 * i) 32)
    match idx.findSome? (gatherFault s x p.rowBytes) with
    | some e => gatherTrap e w s
    | none =>
      let latch := unitsOf (p.r + 1) (idx.flatMap (gatherRow s x p.rowBytes))
      mmRows s.cur.steps t port p { w with latch := latch } (portAdvance s.cur.core port 512 s)

/-- `mmulg` (R201). -/
def execMmulg (t k x : Nat) (mx h : Bool) (e : Nat) (s : State) : Res :=
  .next (mmWord k e h mx (fun _ _ => true) (fun p w s =>
    if w.latch.isEmpty then gather t k x p w s else mmRows s.cur.steps t k p w s) s)

/-! ### Weight planes (R196, R197) -/

/-- Scale bytes that a `wload` with MX takes (R196). -/
def wloadScales (ty : Nat) (mx : Bool) : Nat := if mx then (if tyNibble ty then 2048 else 1024) else 0

/-- Whether a `wload` takes STREAM at its start: its port, its ring, its mark (R196). -/
def wloadStream (s : State) (port : Nat) : Bool :=
  streamBad s port ||
    (match s.me.bound port with
      | some (_, j, st) =>
        decide (opRb st.openw < 32768) ||
          (match tfind st.readers j with
            | some r => (match r.mark with
              | some m => decide (r.rdpos + 32768 > m + opRb st.openw)
              | none => false)
            | none => true)
      | none => true)

/-- The moving core's crew with its shadow plane changed. -/
def modShadow (f : Plane → Plane) (s : State) : State :=
  s.modCrew (crewOf s.cur.core) (fun w => { w with shadow := { f w.shadow with net := none } })

/-- The rows of a plane that one unit holds, the i-th of its 64, replaced (R196). -/
def planeUnit (i : Nat) (u : BitVec 4096) (p : Plane) : Plane :=
  { p with w := BitVec.ofNat 262144 (putBits p.w.toNat (4096 * i) 4096 u.toNat) }

/-- Rows of the shadow plane written in order as their bytes commit, from the units that follow the position at which the word began. With the last the port moves on and the plane's type,
scales and tag are the loader's; a load that faults keeps the rows written, and begins again at row 0 (R129, R196; DEDUCED,
log 46). -/
def loadUnits (fuel port ty : Nat) (mx : Bool) (w : Started) (s : State) : State :=
  let c := s.cur.core
  if w.prog ≥ 64 then
    endWord (modShadow (fun p =>
      { p with ty := some (ty + mx.toNat * 16), scales := BitVec.ofNat 16384 (bytesNat w.scales), tagH := s.me.heat,
               holder := posOf c, stale := false })
      (portAdvance c port 32768 s))
  else
    match fuel with
    | 0 => holdWord w s
    | fuel + 1 =>
      let at' := portSeek c port (w.pos + 512 * w.prog) s
      match portReadable at' c port 512 with
      | .wait => holdWord w s
      | .trap e => midTrap e { w with prog := 0 } s
      | .ready => loadUnits fuel port ty mx { w with prog := w.prog + 1 } (modShadow (planeUnit w.prog (unitOf at' port)) s)

/-- `wload` (R196). -/
def execWload (k : Nat) (mx : Bool) (ty : Nat) (s : State) : Res :=
  .next (seatWord (fun s =>
    let old := curStarted s
    let w := if s.me.inLoad.isSome then old else { old with pos := portPos s s.cur.core k }
    if begun s then loadUnits s.cur.steps k ty mx w s
    else if s.me.scaleq.length < wloadScales ty mx then queueTrap (trapAt .queue) s
    else if wloadStream s k then queueTrap (trapAt .stream) s
    else
      let r := takeScales (wloadScales ty mx) w (countWord s)
      loadUnits s.cur.steps k ty mx r.1 (holdWord r.1 r.2)) s)

/-- `wswap` (R197): the array is empty of passes when it starts. -/
def execWswap (s : State) : Res :=
  .next (seatWord (fun s =>
    dropWord ((countWord s).modCrew (crewOf s.cur.core) (fun w => { w with active := w.shadow, shadow := w.active }))) s)

/-! ### Scales, tiles, the result queue (R198, R202-R204) -/

/-- A word of the pass section that needs no seat waits for a resumed core's seat too (R206). -/
def passWord (go : State → State) (s : State) : State := if reseating s s.cur.core then s else go s

/-- `sclq` (R198). -/
def execSclq (k : Nat) (s : State) : Res :=
  .next (passWord (fun s =>
    if s.me.scaleq.length + 512 > 4096 then queueTrap (trapAt .queue) s
    else
      match unitReady s k with
      | .wait => waitWord s
      | .trap t => queueTrap t s
      | .ready =>
        let l := portBytes s s.cur.core k 512
        dropWord ((portAdvance s.cur.core k 512 s).modMe (fun m => { m with scaleq := m.scaleq ++ l }))) s)

/-- `azero` (R202). -/
def execAzero (t : Nat) (s : State) : Res :=
  .next (passWord (fun s => dropWord (s.modMe (fun k => { k with tiles := tset k.tiles t 0 }))) s)

/-- Bytes of an element of a drain format (R203). -/
def drainBytes (f : Nat) : Nat :=
  match f with
  | 0 => 4
  | 1 => 2
  | 2 => 2
  | 3 => 1
  | 4 => 1
  | 5 => 4
  | _ => 1

/-- A tile element in a drain format (R203). -/
def drainElem (f : Nat) (satf : Bool) (v : Nat) : FRes :=
  match f with
  | 0 => convert 13 13 0 satf v
  | 1 => convert 13 11 0 satf v
  | 2 => convert 13 12 0 satf v
  | 3 => convert 13 9 0 satf v
  | 4 => convert 13 10 0 satf v
  | 5 => ⟨v, 0⟩
  | _ => clampInt 1 (toSigned 32 v)

/-- Entry e of a tile in a drain format (R203). -/
def drainEntry (f : Nat) (satf : Bool) (tile : BitVec 262144) (e : Nat) : BitVec 4096 × Nat :=
  let b := drainBytes f
  let n := 512 / b
  let rs := (List.range n).map (fun i => drainElem f satf (nfld tile.toNat (32 * (e * n + i)) 32))
  (packEls (8 * b) (rs.map (fun r => r.v)), allFlags rs)

/-- Entries pushed until the last or until the turn's budget is spent (R203). -/
def drainRun (fuel t f : Nat) (satf : Bool) (e0 cnt : Nat) (w : Started) (s : State) : State :=
  if w.prog ≥ cnt then endWord s
  else
    match fuel with
    | 0 => holdWord w s
    | fuel + 1 =>
      let r := drainEntry f satf (s.me.tile t) (e0 + w.prog)
      drainRun fuel t f satf e0 cnt { w with prog := w.prog + 1 }
        (raiseFlags r.2 (s.modMe (fun k => { k with resultq := k.resultq ++ [r.1], rqRes := k.rqRes - 1 })))

/-- `drain` (R203). -/
def execDrain (t x : Nat) (satf : Bool) (f : Nat) (s : State) : Res :=
  .next (passWord (fun s =>
    let v := (s.me.xreg x).toNat
    let e0 := v % 64
    let cnt := nfld v 8 4
    let w := curStarted s
    if begun s then drainRun s.cur.steps t f satf e0 cnt w s
    else if v ≠ e0 + cnt * 256 ∨ cnt = 0 ∨ cnt > 8 ∨ e0 + cnt > 16 * drainBytes f ∨
        s.me.resultq.length + s.me.rqRes + cnt > 8 then queueTrap (trapAt .queue) s
    else
      drainRun s.cur.steps t f satf e0 cnt w
        (holdWord w (s.modMe (fun k => { k with rqRes := k.rqRes + (cnt - w.prog) })))) s)

/-- `rpop` (R204). -/
def execRpop (v : Nat) (s : State) : Res :=
  .next (passWord (fun s =>
    match s.me.resultq with
    | e :: r => dropWord (s.modMe (fun k => { k.setVreg (rename s.cur.vt v) e with resultq := r }))
    | [] => if s.me.rqRes > 0 then waitWord s else queueTrap (trapAt .queue) s) s)

/-- `rsend` (R204). -/
def execRsend (k : Nat) (s : State) : Res :=
  .next (passWord (fun s =>
    match portWritable s s.cur.core k with
    | .trap t => queueTrap t s
    | p =>
      match s.me.resultq with
      | e :: r =>
        if p = .ready then
          dropWord ((portWrite s.cur.core k (bvBytes 512 e) s).modMe (fun m => { m with resultq := r }))
        else waitWord s
      | [] => if s.me.rqRes > 0 then waitWord s else queueTrap (trapAt .queue) s) s)

end Sys2Proof.Machine
end

