-- ==== Sys2Proof/Machine/Image.lean ====
section
/-! DEFINITION. The save image: its bytes (R325-R327, with the system area of R243, R244), what a save does to the units of a
core before it is taken (R323, R187, R206, R145, R125), and what a restore puts back (R328, R206). Beside the bytes
the part keeps what they have no place for (DESIGN CHOICE, log 21). -/

namespace Sys2Proof.Machine

/-! ### Pieces of a section (R326) -/

/-- QUEUE of a queued word: 1 vector, 2 matrix, 3 function. -/
def QWord.queueNo (q : QWord) : Nat :=
  match (wordInstr q.word).map Instr.unit with
  | some .vec => 1
  | some .mtx => 2
  | some .func => 3
  | _ => 0

/-- The unit of the XP's engines that runs a queued word (R9, R258). -/
def QWord.eng (q : QWord) : Eng :=
  if q.queueNo = 1 then .vec else if q.queueNo = 3 then .func else if q.isWload then .load else .pass

/-- Words steered and not completed, but for those in progress, in steering order. -/
def Core.steered (k : Core) : List QWord := sortSeq (k.vq ++ k.mq ++ k.fq ++ k.aside)

/-- The word that a unit is in, for STARTED: in progress, or faulted and not yet run again, with what it had taken (R200, R206, R242,
R308, R326). -/
def Core.startedIn (k : Core) (e : Eng) : Option Started :=
  (k.slot e).orElse (fun _ => (k.steered.find? (fun q => q.eng == e && k.faulted.contains q.seq)).map (fun q =>
    (k.kept.find? (fun w => w.q.seq == q.seq)).getD ⟨q, 0, 0, [], []⟩))

/-- Words that faulted and have not run again, those that STARTED shows. -/
def Core.reissued (k : Core) : List QWord :=
  k.steered.filter (fun q => (k.slot q.eng).isNone && (k.startedIn q.eng).any (fun w => w.q.seq == q.seq))

/-- Queued words of an image: STEERED (R242, R326). -/
def Core.queuedWords (k : Core) : List QWord := k.steered.filter (fun q => !k.reissued.contains q)

/-- A STEERED or STARTED entry. -/
def steeredEntry (q : QWord) : List Byte :=
  layout 32 [(0, bvBytes 8 q.addr), (8, bvBytes 4 q.word), (12, natBytes 1 q.queueNo), (14, bvBytes 2 q.g), (16, bvBytes 8 q.vt)]

/-- A STARTED entry; zero when the unit is idle. -/
def startedEntry (o : Option Started) : List Byte :=
  match o with
  | some w => steeredEntry w.q
  | none => List.replicate 32 0

/-- A loop entry laid out as XP_LOOP. -/
def xpLoopEntry (t : Loop) : List Byte :=
  bvBytes 8 t.start ++ bvBytes 8 t.stop ++ natBytes 8 t.left ++ natBytes 8 t.started ++ natBytes 8 t.n ++ natBytes 8 t.sl

/-- A loop entry laid out as AP_LOOP. -/
def apLoopEntry (t : Loop) : List Byte := bvBytes 8 t.start ++ bvBytes 8 t.stop ++ natBytes 8 t.left

/-- A loop stack, outermost first. -/
def loopBytes (entry : Loop → List Byte) (l : List Loop) : List Byte := l.reverse.flatMap entry

/-- The four register values of a delivery. -/
def Delivery.image (d : Delivery) : List Byte := bvBytes 8 d.w1 ++ bvBytes 8 d.w2 ++ bvBytes 8 d.w3 ++ bvBytes 8 d.w4

/-- One bit per element of a list, the first the least significant. -/
def bitsNat (l : List Bool) : Nat := l.foldr (fun b n => b.toNat + 2 * n) 0

/-- A fault frame; zero when the side is not in a fault task. -/
def frameImage (o : Option Frame) : List Byte :=
  match o with
  | some f =>
    layout 256 [(0, bvBytes 8 f.pc), (8, f.regs.flatMap (fun r => bvBytes 8 r.val)), (40, natBytes 1 (bitsNat (f.regs.map (fun r => r.bad)))),
      (41, bvBytes 1 f.preds), (42, natBytes 1 f.loops.length), (48, loopBytes xpLoopEntry f.loops), (192, f.del.image)]
  | none => List.replicate 256 0

/-- The tag of a plane in SEAT. -/
def tagImage (h p : Nat) : List Byte := natBytes 4 h ++ natBytes 4 p

/-- LINK of a continuation record: the next waiter of its list (R209, R213, R221). -/
def nextWaiter (k : Core) (c i : Nat) : Option (Nat × Nat) :=
  let after := fun (l : List Nat) => ((l.dropWhile (fun j => j != i)).drop 1).head?.map (fun j => (c, j))
  match (k.semas.findSome? (fun p => if p.2.waiters.contains i then some p.2.waiters else none)),
      (k.bars.findSome? (fun p => if p.2.waiters.contains i then some p.2.waiters else none)) with
  | some l, _ => after l
  | none, some l => after l
  | none, none => (tfind k.pool i).bind (fun r => r.link)

/-- WKIND of a record. -/
def WKind.num : WKind → Nat
  | .spawn => 0
  | .wait => 1
  | .fwait => 2
  | .hbar => 3
  | .bwait => 4

/-- Number of a side. -/
def sideNum : Side → Nat
  | .ap => 0
  | .xp => 1

/-- A continuation record (R209). -/
def recImage (k : Core) (c i : Nat) (r : ContRec) : List Byte :=
  let link := match nextWaiter k c i with
    | some (x, j) => x * 256 + j
    | none => 0xFFFF
  layout 256 [(0, bvBytes 8 r.resume), (8, bvBytes 4 r.mask), (12, bvBytes 4 r.task), (16, natBytes 2 link),
    (18, natBytes 1 r.kind.num), (19, natBytes 1 (sideNum r.side)), (20, natBytes 1 r.dreg), (21, bvBytes 1 r.preds),
    (22, bvBytes 2 r.poison), (24, bvBytes 8 r.wvalue), (128, r.regs.flatMap (bvBytes 8))]

/-- HEAD and TAIL of a list of waiters. -/
def endsOf (l : List Nat) : Nat × Nat := (l.headD 0xFF, l.getLastD 0xFF)

/-- A semaphore (R213). -/
def semaImage (x : Sema) : List Byte :=
  natBytes 8 (x.count + x.fault.toNat * 2 ^ 16 + x.overBit.toNat * 2 ^ 17 + (endsOf x.waiters).1 * 2 ^ 48 + (endsOf x.waiters).2 * 2 ^ 56)

/-- A stage barrier (R221). -/
def barImage (x : StageBar) : List Byte :=
  natBytes 4 (x.phase.toNat + x.err.toNat * 2 + x.armed.toNat * 4 + (endsOf x.waiters).1 * 2 ^ 16 + (endsOf x.waiters).2 * 2 ^ 24) ++
    natBytes 4 x.count ++ bvBytes 4 x.target ++ bvBytes 4 x.last

/-- A ring control block (R131). -/
def ringImage (g : Ring) : List Byte :=
  layout 64 [(0, bvBytes 4 g.rp), (4, bvBytes 4 g.wp), (8, natBytes 1 g.st.num), (9, bvBytes 1 g.fcode), (10, natBytes 1 g.held.toNat),
    (11, bvBytes 1 g.exc), (12, natBytes 4 (headValue g)), (16, natBytes 8 g.chunk), (24, bvBytes 8 g.marks)]

/-- The engine progress block (R327). -/
def progressImage (k : Core) : List Byte :=
  let units := fun (e : Eng) => (k.startedIn e).elim 0 (fun w => w.latch.length)
  let scales := fun (e : Eng) => (k.startedIn e).elim 0 (fun w => w.scales.length)
  layout 64 [(0, bvBytes 8 (csrPix k)), (8, natBytes 2 (units .vec)), (10, natBytes 2 (units .pass)),
    (12, natBytes 2 (scales .load)), (14, natBytes 2 k.rqRes), (16, natBytes 2 (scales .pass))]

/-- The system area (R130, R243, R244). -/
def systemFields (k : Core) : List (Nat × List Byte) :=
  [0, 1, 2, 3].flatMap (fun j =>
    let g := k.ring j
    g.recs.map (fun p => (0x1000 * j + 64 * p.1, bvBytes 64 p.2.bytes)) ++
      [(0x4000 + 64 * j, ringImage g), (0x4100 + 64 * j, bvBytes 64 g.fault)]) ++
    [(0x4200, k.hold.flatMap (fun p => p.1))] ++ (List.range 64).map (fun n => (0x5200 + 8 * n, semaImage (k.sema n))) ++
    (List.range 32).map (fun n => (0x5400 + 16 * n, barImage (k.bar n))) ++
    k.streams.map (fun p => (0x5600 + 256 * p.1, (streamImage p.2).take 192)) ++ [(0x7600, progressImage k)]

/-- POOL: the whole pool (R18); `pad` are the bytes of the scratchpad. -/
def poolImage (k : Core) (c : Nat) (pad : List Byte) : List Byte :=
  layout 0x100000 (k.vregs.map (fun p => (512 * p.1, bvBytes 512 p.2)) ++
    k.tiles.map (fun p => (k.nv * 512 + 0x8000 * p.1, bvBytes 0x8000 p.2)) ++
    k.pool.map (fun p => (k.nv * 512 + k.acc * 0x8000 + 256 * p.1, recImage k c p.1 p.2)) ++ [(k.padBase, pad)] ++
    (systemFields k).map (fun f => (0xF8000 + f.1, f.2)))

/-- The fields of a core section before POOL (R326). -/
def sectionFields (i : ImageCore) : List (Nat × List Byte) :=
  let k := i.core
  let bit := fun (b : Bool) (n : Nat) => b.toNat * 2 ^ n
  let steered := k.queuedWords.take 32
  let held := fun (e : Eng) => (k.startedIn e).elim [] (fun w => w.scales)
  let latch := fun (e : Eng) => (k.startedIn e).elim [] (fun w => w.latch.flatMap (bvBytes 512))
  [(0, natBytes 8 (i.num + bit (k.ap.run == .stopped) 16 + bit (k.xp.run == .stopped) 17 + bit k.ap.frame.isSome 18 + bit k.xp.frame.isSome 19)),
   (8, bvBytes 8 k.ap.pc), (0x10, bvBytes 8 k.xp.pc), (0x18, natBytes 4 (bitsNat ((List.range 32).map (fun n => (k.areg n).bad)))),
   (0x1C, bvBytes 1 k.preds), (0x1D, natBytes 1 (k.ap.loops.length + 16 * k.xp.loops.length)),
   (0x20, loopBytes apLoopEntry k.ap.loops), (0x70, loopBytes xpLoopEntry k.xp.loops),
   (0x100, (List.range 32).flatMap (fun n => bvBytes 8 (k.areg n).val)), (0x200, (List.range 32).flatMap (fun n => bvBytes 8 (k.xreg n))),
   (0x300, bvBytes 8 k.vt ++ bvBytes 8 k.vcnt ++ bvBytes 8 k.g ++ bvBytes 8 k.flags ++ bvBytes 8 k.slip),
   (0x328, bvBytes 4 k.ap.task ++ bvBytes 4 k.xp.task ++ bvBytes 4 k.ap.next ++ bvBytes 4 k.xp.next),
   (0x340, bvBytes 8 k.ap.faddr ++ bvBytes 8 k.ap.fcode ++ bvBytes 8 k.xp.faddr ++ bvBytes 8 k.xp.fcode),
   (0x360, natBytes 1 k.hasSeat.toNat ++ natBytes 1 k.stint), (0x364, tagImage i.actH i.actP), (0x36C, tagImage i.shaH i.shaP),
   (0x400, frameImage k.ap.frame), (0x500, frameImage k.xp.frame),
   (0x600, (List.range 8).flatMap (fun n => bvBytes 128 (k.mask n))), (0xA00, (List.range 8).flatMap (fun n => bvBytes 68 (tget k.nregs n 0))),
   (0x1040, (List.range 8).map (fun j => BitVec.ofNat 8 (k.queue j).length)), (0x1048, natBytes 8 steered.length),
   (0x1080, steered.flatMap steeredEntry),
   (0x1480, [.vec, .pass, .func, .load].flatMap (fun e => startedEntry (k.startedIn e))),
   (0x1500, latch .vec), (0x1900, latch .pass), (0x5900, k.scaleq), (0x6900, held .load), (0x7100, held .pass),
   (0x7200, k.resultq.flatMap (bvBytes 512)),
   (0x8200, natBytes 8 (k.resultq.length + 16 * k.rqRes + 256 * (if k.rqRes = 0 then 0 else (k.startedIn .pass).elim 0 (fun w => w.prog)))),
   (0x8208, natBytes 8 k.scaleq.length), (0x8240, bvBytes 64 k.sfault), (0x8280, k.ap.tq.map (fun n => BitVec.ofNat 8 n)),
   (0x8380, k.xp.tq.map (fun n => BitVec.ofNat 8 n)), (0x8480, natBytes 2 k.ap.tq.length ++ natBytes 2 k.xp.tq.length),
   (0x8500, (List.range 21).flatMap (fun n => natBytes 4 (tget k.ap.hbars n 0))),
   (0x8554, (List.range 21).flatMap (fun n => natBytes 4 (tget k.xp.hbars n 0))),
   (0x8600, k.pending.flatMap Delivery.image), (0x8E00, natBytes 8 k.pending.length)] ++
    (List.range 8).map (fun j => (0xC40 + 128 * j, (k.queue j).flatMap (bvBytes 8))) ++
    k.streams.map (fun p => (0x9000 + 1024 * p.1, streamImage p.2))

/-- Bytes of a saved core's scratchpad. -/
def ImageCore.pad (i : ImageCore) : List Byte := memRead i.pool (poolKey i.num i.core.padBase) i.core.spad

/-- A core section (R326). -/
def sectionImage (i : ImageCore) : List Byte :=
  layout 0x20000 (sectionFields i) ++ poolImage i.core i.num i.pad

/-- A heat record's bytes (R286). -/
def heatRecBytes (r : HeatRec) : List Byte :=
  layout 128 ([(0, natBytes 2 1), (2, natBytes 1 r.ctx), (3, natBytes 1 r.prio), (4, natBytes 1 r.resume.toNat),
    (5, natBytes 1 (r.system.toNat + 2 * r.any.toNat + 4 * r.faultXp.toNat)), (6, natBytes 1 r.die), (8, natBytes 1 r.x0),
    (9, natBytes 1 r.y0), (10, natBytes 1 r.w), (11, natBytes 1 r.h), (12, natBytes 4 r.part), (0x10, bvBytes 8 r.apEntry),
    (0x18, bvBytes 8 r.xpEntry), (0x20, bvBytes 8 r.fEntry), (0x28, natBytes 4 r.number), (0x2C, natBytes 4 r.stallUs),
    (0x30, natBytes 8 r.image)] ++ r.hints.zipIdx.map (fun p => (0x40 + 16 * p.2, natBytes 8 p.1.1 ++ natBytes 8 p.1.2)))

/-- A whole image (R325). -/
def imageBytes (m : Image) : List Byte :=
  layout 4096 [(0, natBytes 4 0x45564153), (4, natBytes 2 1), (6, natBytes 2 m.cores.length), (8, natBytes 4 m.hr.number),
    (12, natBytes 1 m.ctx), (13, natBytes 1 ((m.was == .stopped).toNat + 2 * (m.was == .halted).toNat)), (16, natBytes 8 m.time),
    (24, natBytes 8 sectionSize), (64, heatRecBytes m.hr)] ++ m.cores.flatMap sectionImage

/-- Size of an image of n cores (R325). -/
def imageSize (n : Nat) : Nat := 4096 + n * sectionSize

/-! ### Taking an image (R323) -/

/-- Runs that `sld` has reserved commit first: the `sld` has executed, and an image has no place for them (R117). -/
def settleCore (c : Nat) (s : State) : State :=
  (s.core c).streams.foldl (fun s p => p.2.slds.foldl (fun s _ => fillerCommit c p.1 s) s) s

/-- A `wload` in progress loses the rows it wrote and keeps its scales (R206). -/
def rewindLoad (k : Core) : Core :=
  { k with inLoad := k.inLoad.map (fun w => { w with prog := 0, latch := [] })
           kept := k.kept.map (fun w => if w.q.isWload then { w with prog := 0, latch := [] } else w) }

/-- A core as its image records it: HELD also while a resumed core's request for its seat is open (R206); a word that waits has
not executed; speculative loads that have not returned run again, over no link that failed before (R103); a descriptor is read
again (R134). -/
def coreForImage (s : State) (c : Nat) : Core :=
  let k := rewindLoad (s.core c)
  { k with hasSeat := k.hasSeat || reseating s c
           ap := { k.ap with wait := none, hand := none }, xp := { k.xp with wait := none, hand := none }
           lds := k.lds.map (fun w => { w with link := none })
           rings := k.rings.map (fun p => (p.1, { p.2 with desc := none })) }

/-- The image of one core. -/
def imageCore (s : State) (c : Nat) : ImageCore :=
  let w := s.crew (crewOf c)
  let mine := fun (a : Nat) => decide (poolKey c 0 ≤ a) && decide (a < poolKey (c + 1) 0)
  { num := c, core := coreForImage s c, actH := w.active.tagH, actP := w.active.holder, shaH := w.shadow.tagH, shaP := w.shadow.holder
    pool := s.mem.filter (fun p => mine p.1), bad := s.bad.filter mine }

/-- The image of a heat at a place in its context's save area (R325). -/
def imageOf (h : Heat) (s : State) : Image :=
  { ctx := h.hr.ctx, base := h.saveAt, time := (s.die 0).tb.toNat, hr := h.hr, was := h.was, accepted := h.accepted, launched := h.launched
    cores := h.hr.cores.map (imageCore s) }

/-- An image written in its context's memory and kept. -/
def storeImage (m : Image) (s : State) : State :=
  partWrite m.ctx m.base (imageBytes m)
    { s with images := s.images.filter (fun x => !(x.ctx == m.ctx && x.base == m.base)) ++ [m] }

/-! ### Room for images (R324) -/

/-- Where a context's images lie or will lie: those written, and those of heats being saved. -/
def imageSpans (s : State) (ctx : Nat) : List (Nat × Nat) :=
  (s.images.filter (fun m => m.ctx == ctx)).map (fun m => (m.base, imageSize m.cores.length)) ++
    (s.heats.filter (fun h => h.hr.ctx == ctx && h.st == .saving)).map (fun h => (h.saveAt, imageSize (h.hr.w * h.hr.h)))

/-- A place for an image of n bytes in a context's save area: the first that is free (DESIGN CHOICE, log 27). -/
def imageRoom (s : State) (ctx n : Nat) : Option Nat :=
  match (s.ctx ctx).conf with
  | some cf =>
    let spans := imageSpans s ctx
    (roundUp cf.saveBase 64 :: spans.map (fun p => roundUp (p.1 + p.2) 64)).find? (fun b =>
      decide (cf.saveBase ≤ b) && decide (b + n ≤ cf.saveBase + cf.saveSize) &&
        spans.all (fun p => !(decide (b < p.1 + p.2) && decide (p.1 < b + n))))
  | none => none

/-! ### Restoring (R328, R206) -/

/-- A plane whose tag is not the one recorded is stale for the resumed heat (R206). -/
def stalePlane (h p : Nat) (w : Plane) : Plane := if w.tagH = h ∧ w.holder = p then w else { w with stale := true }

/-- One core restored: its pool, its state, its heat's number, the request for the seat its image held (R206, R328). -/
def restoreCore (n ctx : Nat) (i : ImageCore) (s : State) : State :=
  let crew := crewOf i.num
  let mine := fun (a : Nat) => decide (poolKey i.num 0 ≤ a) && decide (a < poolKey (i.num + 1) 0)
  let s := { s with
    mem := i.pool.foldl (fun m (p : Host.Cell) => memSet m p.1 p.2) (s.mem.filter (fun (p : Host.Cell) => !mine p.1))
    bad := s.bad.filter (fun g => !mine g) ++ i.bad }
  let s := s.setCore i.num { i.core with heat := n, ctx := some ctx, hasSeat := false }
  let s := s.modCrew crew (fun w =>
    { w with active := stalePlane i.actH i.actP w.active, shadow := stalePlane i.shaH i.shaP w.shadow })
  if i.core.hasSeat then requestSeat crew (posOf i.num) s else s

end Sys2Proof.Machine
end

