-- ==== Sys2Proof/Machine/Reload.lean ====
section
/-! DEFINITION. A save image read back from the bytes in its context's memory (R325-R328, R131, R209, R213, R221, R243). R326
gives no place to some of what a core holds (which side is idle, the task of a ring's record): the part keeps that with the
image (DESIGN CHOICE, log 21). Here `o` is what it kept of a core, and a field without a place in the bytes comes from it. -/

namespace Sys2Proof.Machine

/-! ### Fields -/

/-- A 64-bit value at an offset. -/
def quadAt (l : List Byte) (off : Nat) : Addr := BitVec.ofNat 64 (fieldAt l off 8)

/-- n bytes at an offset. -/
def spanAt (l : List Byte) (off n : Nat) : List Byte := (l.drop off).take n

/-- A bit of a field of bytes. -/
def bitAt (l : List Byte) (off i : Nat) : Bool := fieldAt l (off + i / 8) 1 / 2 ^ (i % 8) % 2 == 1

/-- Whether bytes are all zero. -/
def zeroBytes (l : List Byte) : Bool := l.all (fun b => b == 0)

/-- Loop entries, outermost first in the bytes (R326); of AP_LOOP only the first three fields. -/
def loopsAt (full : Bool) (l : List Byte) (off n : Nat) : List Loop :=
  ((List.range n).map (fun j =>
    let at' := off + (if full then 48 else 24) * j
    let more := fun (i : Nat) => if full then fieldAt l (at' + 8 * i) 8 else 0
    { start := quadAt l at', stop := quadAt l (at' + 8), left := fieldAt l (at' + 16) 8, started := more 3, n := more 4, sl := more 5 : Loop })).reverse

/-- A delivery's four register values. -/
def deliveryAt (l : List Byte) (off : Nat) : Delivery :=
  ⟨quadAt l off, quadAt l (off + 8), quadAt l (off + 16), quadAt l (off + 24)⟩

/-- A fault frame (R326). -/
def frameAt (o : Option Frame) (l : List Byte) (off : Nat) : Frame :=
  { pc := quadAt l off, run := o.elim .run (fun f => f.run), land := o.elim false (fun f => f.land)
    regs := [0, 1, 2, 3].map (fun i => ⟨quadAt l (off + 8 + 8 * i), bitAt l (off + 40) i⟩)
    preds := BitVec.ofNat 8 (fieldAt l (off + 41) 1), loops := loopsAt true l (off + 48) (fieldAt l (off + 42) 1)
    aside := o.elim [] (fun f => f.aside), del := deliveryAt l (off + 192), pix := o.elim 0 (fun f => f.pix) }

/-- A STEERED or STARTED entry, under a steering number. -/
def queuedAt (l : List Byte) (off seq : Nat) : QWord :=
  { addr := quadAt l off, word := BitVec.ofNat 32 (fieldAt l (off + 8) 4), vt := quadAt l (off + 16)
    g := BitVec.ofNat 16 (fieldAt l (off + 14) 2), seq := seq }

/-! ### Sides -/

/-- A side of a core: its place in the bytes is given by the number of the side. -/
def sideAt (o : SideSt) (l : List Byte) (sd : Side) : SideSt :=
  let i := sideNum sd
  let stopped := bitAt l 0 (16 + i)
  { pc := quadAt l (8 + 8 * i)
    run := if stopped then .stopped else if o.run = .stopped then .run else o.run
    land := o.land
    loops := (match sd with
      | .ap => loopsAt false l 0x20 (fieldAt l 0x1D 1 % 4)
      | .xp => loopsAt true l 0x70 (fieldAt l 0x1D 1 / 16 % 4))
    task := BitVec.ofNat 32 (fieldAt l (0x328 + 4 * i) 4), next := BitVec.ofNat 32 (fieldAt l (0x330 + 4 * i) 4)
    tq := (List.range (fieldAt l (0x8480 + 2 * i) 2)).map (fun j => fieldAt l (0x8280 + 0x100 * i + j) 1)
    faddr := quadAt l (0x340 + 16 * i), fcode := quadAt l (0x348 + 16 * i)
    frame := if bitAt l 0 (18 + i) then some (frameAt o.frame l (0x400 + 0x100 * i)) else none
    hbars := (List.range 21).filterMap (fun n =>
      let v := fieldAt l (0x8500 + 0x54 * i + 4 * n) 4
      if v = 0 then none else some (n, v))
    wait := none, pix := o.pix, hand := none }

/-! ### Queued words and words in progress -/

/-- The units of a latch. -/
def latchAt (l : List Byte) (off n : Nat) : List (BitVec 4096) := unitsOf n (spanAt l off (512 * n))

/-- Offset of the system area in a section. -/
def sysAt : Nat := 0x20000 + 0xF8000

/-- A STARTED entry: its word, PIX count, latch and scales (R326, R327). -/
def startedAt (o : Option Started) (l : List Byte) (slot seq : Nat) : Option Started :=
  let off := 0x1480 + 32 * slot
  let pb := fun i n => fieldAt l (sysAt + 0x7600 + i) n
  if zeroBytes (spanAt l off 32) then none
  else
    let q := queuedAt l off (o.elim seq (fun w => w.q.seq))
    some (match slot with
      | 0 => { q := q, prog := pb 0 2, pos := o.elim 0 (fun w => w.pos), latch := latchAt l 0x1500 (pb 8 2), scales := [] }
      | 1 => { q := q, prog := pb 2 2, pos := o.elim 0 (fun w => w.pos), latch := latchAt l 0x1900 (pb 10 2), scales := spanAt l 0x7100 (pb 16 2) }
      | 2 => { q := q, prog := pb 4 2, pos := o.elim 0 (fun w => w.pos), latch := [], scales := [] }
      | _ => { q := q, prog := 0, pos := o.elim 0 (fun w => w.pos), latch := [], scales := spanAt l 0x6900 (pb 12 2) })

/-- The unit of an engine queue that FCODE names (R28): of the matrix queue's two the pass section, unless only the load section
is in a word. -/
def faultedUnit (c : Core) : Option Eng :=
  match c.xp.fcode.toNat / 2 ^ 12 % 4 with
  | 1 => some .vec
  | 2 => some (if c.inPass.isNone && c.inLoad.isSome then .load else .pass)
  | 3 => some .func
  | _ => none

/-- A unit's word was stopped by the fault that stopped the XP: it waits to be issued again, with what it had taken (R308, R320). -/
def setReissued (c : Core) : Core :=
  match (faultedUnit c).filter (fun _ => c.xp.run == .stopped) with
  | some e =>
    (match c.slot e with
      | some w => { c.setSlot e none with aside := w.q :: c.aside, kept := [w], faulted := [w.q.seq] }
      | none => c)
  | none => c

/-- The queues of the XP. As kept, when the bytes still name the words kept; else each word in the queue its entry names, or
all set aside when a fault stopped the XP. -/
def queuesAt (k : Core) (l : List Byte) (c : Core) : Core :=
  let n := fieldAt l 0x1048 8
  let old := k.queuedWords.take 32
  if old.length = n ∧ old.flatMap steeredEntry = spanAt l 0x1080 (32 * n) then
    let c := k.reissued.foldl (fun c q => c.setSlot q.eng none) c
    { c with vq := k.vq, mq := k.mq, fq := k.fq, aside := k.aside, faulted := k.faulted, kept := k.kept, seq := k.seq + 4 }
  else
    let ws := (List.range n).map (fun j => (fieldAt l (0x1080 + 32 * j + 12) 1, queuedAt l (0x1080 + 32 * j) (k.seq + 4 + j)))
    let of := fun (i : Nat) => (ws.filter (fun p => p.1 == i)).map (fun p => p.2)
    let c := { c with seq := k.seq + 4 + n, kept := [], faulted := [], done := [] }
    if bitAt l 0 17 then setReissued { c with vq := [], mq := [], fq := [], aside := ws.map (fun p => p.2) }
    else { c with vq := of 1, mq := of 2, fq := of 3, aside := [] }

/-! ### The pool (R18, R243) -/

/-- A ring from its block, records and fault record (R130, R131, R159); entries that hold no record from RP to WP are free. A record whose bytes are not those kept is checked when
it reaches the head, as one that the loader placed (R145). -/
def ringAt (o : Ring) (l : List Byte) (j : Nat) : Ring :=
  let b := sysAt + 0x4000 + 64 * j
  let rp := fieldAt l b 4
  let depth := (fieldAt l (b + 4) 4 + 2 ^ 32 - rp) % 2 ^ 32
  { o with
    rp := BitVec.ofNat 32 rp, wp := BitVec.ofNat 32 (fieldAt l (b + 4) 4)
    st := (match fieldAt l (b + 8) 1 with
      | 0 => .idle
      | 1 => .wait
      | 2 => .run
      | _ => .stop)
    fcode := BitVec.ofNat 8 (fieldAt l (b + 9) 1), held := fieldAt l (b + 10) 1 == 1, exc := BitVec.ofNat 6 (fieldAt l (b + 11) 1)
    value := BitVec.ofNat 32 (fieldAt l (b + 12) 4), chunk := fieldAt l (b + 16) 8, marks := quadAt l (b + 24)
    recs := (List.range 64).filterMap (fun n =>
      let x := BitVec.ofNat 512 (fieldAt l (sysAt + 0x1000 * j + 64 * n) 64)
      if depth ≤ (n + 64 - rp % 64) % 64 then none
      else
      match tfind o.recs n with
      | some e => if e.bytes = x then some (n, e) else some (n, { e with bytes := x, checked := false })
      | none => some (n, ⟨x, 0, false, n⟩))
    fault := BitVec.ofNat 512 (fieldAt l (sysAt + 0x4100 + 64 * j) 64) }

/-- The hold buffer (R144): 4 KiB, of the ring whose block says HELD. -/
def holdAt (k : Core) (l : List Byte) (c : Core) : Core :=
  match [0, 1, 2, 3].find? (fun j => (c.ring j).held) with
  | none => { c with hold := [], holdBad := none, holdRing := none }
  | some j =>
    let b := spanAt l (sysAt + 0x4200) 0x1000
    { c with hold := if k.hold.flatMap (fun p => p.1) = b then k.hold else [(b, k.holdBad.isSome)], holdBad := k.holdBad, holdRing := some j }

/-- Offset of continuation record i in a section (R18, R209). -/
def recAt (c : Core) (i : Nat) : Nat := 0x20000 + c.nv * 512 + c.acc * 0x8000 + 256 * i

/-- LINK of a continuation record. -/
def linkAt (c : Core) (l : List Byte) (i : Nat) : Option (Nat × Nat) :=
  let v := fieldAt l (recAt c i + 16) 2
  if v = 0xFFFF then none else some (v / 256, v % 256)

/-- A list of waiters followed from HEAD through the LINK fields (R209). -/
def chainAt (fuel : Nat) (c : Core) (l : List Byte) (i : Nat) : List Nat :=
  match fuel with
  | 0 => []
  | fuel + 1 =>
    if i = 0xFF then []
    else
      match linkAt c l i with
      | some (_, j) => i :: chainAt fuel c l j
      | none => [i]

/-- A semaphore (R213). -/
def semaAt (c : Core) (l : List Byte) (n : Nat) : Sema :=
  let v := fieldAt l (sysAt + 0x5200 + 8 * n) 8
  { count := v % 2 ^ 16, fault := nfld v 16 1 == 1, overBit := nfld v 17 1 == 1, waiters := chainAt 256 c l (nfld v 48 8) }

/-- A stage barrier (R221). -/
def barAt (c : Core) (l : List Byte) (n : Nat) : StageBar :=
  let b := sysAt + 0x5400 + 16 * n
  let v := fieldAt l b 4
  { phase := nfld v 0 1 == 1, err := nfld v 1 1 == 1, armed := nfld v 2 1 == 1, waiters := chainAt 256 c l (nfld v 16 8)
    count := fieldAt l (b + 4) 4, target := BitVec.ofNat 32 (fieldAt l (b + 8) 4), last := BitVec.ofNat 32 (fieldAt l (b + 12) 4) }

/-- What a record waits for, from the word at RESUME - 4 (R209): a count, a phase, or an arrival of a shape. -/
def waitedFor (x : SideSt) (w : Nat) : Nat :=
  match wordInstr (BitVec.ofNat 32 w) with
  | some (.wait _ _ cnt _) => cnt
  | some (.bwait _ _ p _) => p.toNat
  | some (.hbarHeat _) => tget x.hbars 0 0 * 64
  | some (.hbarGroup _ h w) => tget x.hbars (1 + 4 * w + h) 0 * 64 + (1 + 4 * w + h)
  | _ => 0

/-- A continuation record (R209); `before` reads the 4 bytes below an address of the heat's code. -/
def contAt (o : Option ContRec) (before : Addr → Nat) (c : Core) (l : List Byte) (i : Nat) : Option ContRec :=
  let b := recAt c i
  let kind := (match fieldAt l (b + 18) 1 with
    | 0 => WKind.spawn
    | 1 => .wait
    | 2 => .fwait
    | 3 => .hbar
    | _ => .bwait)
  let side := if fieldAt l (b + 19) 1 = 0 then Side.ap else .xp
  let mask := fieldAt l (b + 8) 4
  if zeroBytes (spanAt l b 256) then none
  else some
    { resume := quadAt l b, mask := BitVec.ofNat 32 mask, task := BitVec.ofNat 32 (fieldAt l (b + 12) 4)
      link := (match kind with
        | .fwait => linkAt c l i
        | _ => none)
      kind := kind, side := side, dreg := fieldAt l (b + 20) 1, preds := BitVec.ofNat 8 (fieldAt l (b + 21) 1)
      poison := BitVec.ofNat 16 (fieldAt l (b + 22) 2), wvalue := quadAt l (b + 24)
      regs := (List.range (popN 32 (mask / 2 * 2))).map (fun j => quadAt l (b + 128 + 8 * j))
      arg := (match o with
        | some r => if r.resume = quadAt l b ∧ r.kind = kind then r.arg else waitedFor (c.side side) (before (quadAt l b))
        | none => waitedFor (c.side side) (before (quadAt l b))) }

/-- A stream descriptor (R126, R326): as kept when its bytes are those of the stream kept. -/
def streamAt (o : Option Stream) (l : List Byte) (n : Nat) : Option Stream :=
  let b := spanAt l (0x9000 + 1024 * n) 1024
  if zeroBytes b then none
  else
    match o with
    | some st => some (if streamImage st = b then st else { imageStream b with closed := st.closed, early := st.early, holder := st.holder, wants := st.wants })
    | none => some (imageStream b)

/-- The scratchpad bytes of POOL as cells of memory; a byte of 0 is not listed (log 7). -/
def padCells (c : Core) (num : Nat) (l : List Byte) : List Host.Cell :=
  ((spanAt l (0x20000 + c.padBase) c.spad).zipIdx.filter (fun p => p.1 != 0)).map (fun p => (poolKey num (c.padBase + p.2), p.1))

/-! ### A section -/

/-- The table of n values read from bytes. -/
def tableAt {α : Type} (n : Nat) (f : Nat → α) : Tbl α := (List.range n).map (fun i => (i, f i))

/-- The registers, queues and CSRs of a core that its section records before POOL. -/
def registersAt (k : Core) (l : List Byte) : Core :=
  { k with
    ap := sideAt k.ap l .ap, xp := sideAt k.xp l .xp
    aregs := tableAt 32 (fun i => ⟨quadAt l (0x100 + 8 * i), bitAt l 0x18 i⟩), preds := BitVec.ofNat 8 (fieldAt l 0x1C 1)
    xregs := tableAt 32 (fun i => quadAt l (0x200 + 8 * i))
    masks := tableAt 8 (fun i => BitVec.ofNat 1024 (fieldAt l (0x600 + 128 * i) 128))
    nregs := tableAt 8 (fun i => BitVec.ofNat 544 (fieldAt l (0xA00 + 68 * i) 68))
    vt := quadAt l 0x300, vcnt := BitVec.ofNat 11 (fieldAt l 0x308 8), g := BitVec.ofNat 16 (fieldAt l 0x310 8)
    flags := BitVec.ofNat 6 (fieldAt l 0x318 8), slip := BitVec.ofNat 6 (fieldAt l 0x320 8)
    inVec := startedAt k.inVec l 0 k.seq, inPass := startedAt k.inPass l 1 (k.seq + 1)
    inFun := startedAt k.inFun l 2 (k.seq + 2), inLoad := startedAt k.inLoad l 3 (k.seq + 3)
    pixVec := fieldAt l (sysAt + 0x7600) 2, pixMtx := fieldAt l (sysAt + 0x7602) 2, pixFun := fieldAt l (sysAt + 0x7604) 2
    queues := tableAt 8 (fun j => (List.range (fieldAt l (0x1040 + j) 1)).map (fun i => quadAt l (0xC40 + 128 * j + 8 * i)))
    scaleq := spanAt l 0x5900 (fieldAt l 0x8208 8), resultq := latchAt l 0x7200 (fieldAt l 0x8200 1 % 16)
    rqRes := fieldAt l 0x8200 1 / 16, sfault := BitVec.ofNat 512 (fieldAt l 0x8240 64)
    pending := (List.range (fieldAt l 0x8E00 8)).map (fun i => deliveryAt l (0x8600 + 32 * i))
    hasSeat := fieldAt l 0x360 1 == 1, stint := fieldAt l 0x361 1 }

/-- What a core's section records in POOL and STREAMS, the partition being that of the heat (R17, R18). -/
def poolAt (k : Core) (before : Addr → Nat) (l : List Byte) (c : Core) : Core :=
  { c with
    vregs := tableAt c.nv (fun i => BitVec.ofNat 4096 (fieldAt l (0x20000 + 512 * i) 512))
    tiles := tableAt c.acc (fun i => BitVec.ofNat 262144 (fieldAt l (0x20000 + c.nv * 512 + 0x8000 * i) 0x8000))
    rings := tableAt 4 (fun j => ringAt (k.ring j) l j), semas := tableAt 64 (semaAt c l), bars := tableAt 32 (barAt c l)
    pool := (List.range (16 * c.cont)).filterMap (fun i => (contAt (tfind k.pool i) before c l i).map (fun r => (i, r)))
    streams := (List.range 32).filterMap (fun n => (streamAt (tfind k.streams n) l n).map (fun st => (n, st))) }

/-- One core from its section: as kept when its bytes are those written, else read from them (R326-R328). -/
def sectionAt (o : Option ImageCore) (before : Addr → Nat) (hr : HeatRec) (num : Nat) (l : List Byte) : ImageCore :=
  let i := o.getD ⟨num, { Core.reset with ap := { SideSt.reset with run := .run }, xp := { SideSt.reset with run := .run } }, 0, 7, 0, 7, [], []⟩
  if o.isSome = true ∧ sectionImage i = l then i
  else
    let c := { registersAt i.core l with vregsCode := nfld hr.part 0 2, acc := nfld hr.part 2 5, cont := nfld hr.part 7 4 }
    let c := holdAt i.core l (poolAt i.core before l (queuesAt i.core l c))
    { num := num, core := c, actH := fieldAt l 0x364 4, actP := fieldAt l 0x368 4, shaH := fieldAt l 0x36C 4, shaP := fieldAt l 0x370 4
      pool := padCells c num l, bad := i.bad }

/-! ### An image -/

/-- Bytes of a context's memory as the cox reads them. -/
def coxRead (s : State) (ctx va n : Nat) : List Byte := (partRead ctx va n s).2

/-- Whether bytes are the header of an image of a record's context, number, origin and size (R325, check 9 of R287; DEDUCED,
log 54). -/
def headerFits (r : HeatRec) (l : List Byte) : Bool :=
  fieldAt l 0 4 == 0x45564153 && fieldAt l 4 2 == 1 && fieldAt l 6 2 == r.w * r.h && fieldAt l 8 4 == r.number &&
    fieldAt l 12 1 == r.ctx && fieldAt l 0x48 1 == r.x0 && fieldAt l 0x49 1 == r.y0 && fieldAt l 0x4A 1 == r.w && fieldAt l 0x4B 1 == r.h

/-- What the part kept of an image: of the one at a place, else of one of the same heat. -/
def keptImage (s : State) (r : HeatRec) : Option Image :=
  (s.images.find? (fun m => m.ctx == r.ctx && m.base == r.image)).orElse
    (fun _ => s.images.find? (fun m => m.ctx == r.ctx && m.hr.number == r.number))

/-- The state of a heat that an image's header records (R325). -/
def imageState (b : Nat) : HeatState := if b % 2 = 1 then .stopped else if b / 2 % 2 = 1 then .halted else .running

/-- The image that a resume record names, read from memory (R325, R328; DESIGN CHOICE, log 21). -/
def imageFor (s : State) (r : HeatRec) : Option Image :=
  let hd := coxRead s r.ctx r.image 4096
  if headerFits r hd = false then none
  else
    let o := keptImage s r
    let before := fun (a : Addr) => bytesNat (coxRead s r.ctx (a.toNat - 4) 4)
    some { ctx := r.ctx, base := r.image, time := fieldAt hd 16 8, hr := (o.map (fun m => m.hr)).getD r, was := imageState (fieldAt hd 13 1)
           accepted := (o.map (fun m => m.accepted)).getD s.accepts
           launched := (o.map (fun m => m.launched)).getD 0
           cores := r.cores.zipIdx.map (fun p =>
             sectionAt (o.bind (fun m => m.cores.find? (fun i => i.num == p.1))) before r p.1
               (coxRead s r.ctx (r.image + 4096 + p.2 * sectionSize) sectionSize)) }

end Sys2Proof.Machine
end

