-- ==== Sys2Proof/Machine/Special.lean ====
section
/-! DEFINITION. The special-function unit (R74, R75, R205). A result is computed to far more bits than any format holds, as an
integer m and an exponent e with the exact value either m 2^e or strictly between m 2^e and (m + 1) 2^e; where R74 admits
several patterns, the part's one choice is `Config.sfPick` (DESIGN CHOICE, log 12). -/

namespace Sys2Proof.Machine

/-- A magnitude: m 2^e, or strictly between it and (m + 1) 2^e when `st`; and its sign. -/
structure Near where
  s  : Bool
  m  : Nat
  e  : Int
  st : Bool
  deriving DecidableEq, Repr, Inhabited

/-- Fraction bits of the fixed-point numbers below. -/
def fxBits : Nat := 320

/-- 1 in fixed point. -/
def fxOne : Nat := 2 ^ fxBits

/-- A fixed-point product. -/
def fxMul (a b : Nat) : Nat := a * b / fxOne

/-- ln 2 = sum of 1 / (k 2^k). -/
def fxLn2 : Nat := (List.range 330).foldl (fun acc k => acc + fxOne / ((k + 1) * 2 ^ (k + 1))) 0

/-- atan (1 / q). -/
def fxAtan (q : Nat) : Nat :=
  ((List.range 75).foldl (fun (acc : Int) (k : Nat) =>
    let t : Int := (fxOne / ((2 * k + 1) * q ^ (2 * k + 1)) : Nat)
    if k % 2 = 0 then acc + t else acc - t) 0).toNat

/-- π = 16 atan (1/5) - 4 atan (1/239). -/
def fxPi : Nat := 16 * fxAtan 5 - 4 * fxAtan 239

/-- e^y for 0 ≤ y < 1. -/
def fxExp (y : Nat) : Nat :=
  ((List.range 80).foldl (fun (p : Nat × Nat) (k : Nat) => (p.1 + p.2, fxMul p.2 y / (k + 1))) (0, fxOne)).1

/-- sin y for 0 ≤ y < 2. -/
def fxSin (y : Nat) : Nat :=
  ((List.range 50).foldl (fun (p : Int × Nat) (k : Nat) =>
    (if k % 2 = 0 then p.1 + p.2 else p.1 - p.2, fxMul (fxMul p.2 y) y / ((2 * k + 2) * (2 * k + 3)))) (0, y)).1.toNat

/-- ln c for 1 ≤ c < 2: twice atanh ((c - 1) / (c + 1)). -/
def fxLn (c : Nat) : Nat :=
  let z := (c - fxOne) * fxOne / (c + fxOne)
  2 * ((List.range 105).foldl (fun (p : Nat × Nat) (k : Nat) => (p.1 + p.2 / (2 * k + 1), fxMul (fxMul p.2 z) z)) (0, z)).1

/-- Integer square root, bit by bit from bit n down. -/
def isqrt (n v r : Nat) : Nat :=
  let r' := if (r + 2 ^ n) * (r + 2 ^ n) ≤ v then r + 2 ^ n else r
  match n with
  | 0 => r'
  | n + 1 => isqrt n v r'

/-- A fixed-point number, known to about 300 bits and not exact, as a magnitude of 200 fraction bits scaled by 2^n. -/
def nearFx (s : Bool) (v : Nat) (n : Int) : Near := ⟨s, v / 2 ^ 120, n - 200, true⟩

/-- m 2^e in fixed point, its low bits dropped. -/
def fxOf (m : Nat) (e : Int) : Nat :=
  if e + fxBits ≥ 0 then m * 2 ^ (e + fxBits).toNat else m / 2 ^ (-(e + fxBits)).toNat

/-- 2^(n + f) for 0 < f < 1, f in fixed point. -/
def nearPow2 (n : Int) (f : Nat) : Near := nearFx false (fxExp (fxMul f fxLn2)) n

/-- 2^x for x = ±m 2^e, m not 0. -/
def nearExp2 (s : Bool) (m : Nat) (e : Int) : Near :=
  if (bitLen m : Int) + e > 12 then (if s then ⟨false, 1, -5000, true⟩ else ⟨false, 1, 5000, true⟩)
  else
    let v := fxOf m e
    let n := v / fxOne
    let f := v % fxOne
    if e ≥ 0 ∨ m % 2 ^ (-e).toNat = 0 then ⟨false, 1, if s then -(n : Int) else n, false⟩
    else if s then nearPow2 (-(n : Int) - 1) (fxOne - f)
    else nearPow2 n f

/-- log2 x for x = m 2^e, m not 0. -/
def nearLog2 (m : Nat) (e : Int) : Near :=
  let b := bitLen m - 1
  let k : Int := e + b
  if m = 2 ^ b then ⟨decide (k < 0), k.natAbs, 0, false⟩
  else
    let l := fxLn (m * fxOne / 2 ^ b) * fxOne / fxLn2
    let v : Int := k * fxOne + l
    nearFx (decide (v < 0)) v.natAbs 0

/-- 1 / x. -/
def nearRcp (s : Bool) (m : Nat) (e : Int) : Near := ⟨s, 2 ^ 200 / m, -e - 200, 2 ^ 200 % m != 0⟩

/-- 1 / √x. -/
def nearRsqrt (m : Nat) (e : Int) : Near :=
  let n := if e % 2 = 0 then m else 2 * m
  let d := if e % 2 = 0 then e else e - 1
  let r := isqrt 200 (2 ^ 400 / n) 0
  ⟨false, r, -(d / 2) - 200, r * r * n != 2 ^ 400⟩

/-- sin (π r) for r in fixed point, 0 < r < 1/2. -/
def nearSin (s : Bool) (r : Nat) : Near := nearFx s (fxSin (fxMul r fxPi)) 0

/-- ±1. -/
def nearOne (s : Bool) : Near := ⟨s, 1, 0, false⟩

/-- ±1 less a trace. -/
def belowOne (s : Bool) : Near := ⟨s, 2 ^ 200 - 1, -200, true⟩

/-- |x| mod 2 in fixed point: every format's values have less than `fxBits` fraction bits. -/
def fxMod2 (m : Nat) (e : Int) : Nat :=
  if e ≥ 1 then 0 else if e = 0 then m % 2 * fxOne else fxOf (m % 2 ^ (1 - e).toNat) e

/-- sin (π x), x no integer. -/
def nearSinpi (s : Bool) (m : Nat) (e : Int) : Near :=
  let v := fxMod2 m e
  let neg := s != decide (fxOne ≤ v)
  let r := v % fxOne
  if 2 * r = fxOne then nearOne neg else nearSin neg (if 2 * r > fxOne then fxOne - r else r)

/-- cos (π x), x no odd multiple of 1/2. -/
def nearCospi (m : Nat) (e : Int) : Near :=
  let v := fxMod2 m e
  let r := if v > fxOne then 2 * fxOne - v else v
  let neg := decide (2 * r > fxOne)
  let q := if 2 * r > fxOne then fxOne - r else r
  if q = 0 then nearOne neg
  else if q < 2 ^ (fxBits - 110) then belowOne neg
  else nearSin neg (fxOne / 2 - q)

/-- e^x for x in fixed point: a power of two and a fixed-point number in [1, 2). -/
def expParts (neg : Bool) (v : Nat) : Int × Nat :=
  let t := v * fxOne / fxLn2
  let n := t / fxOne
  let f := t % fxOne
  if neg then (-(n : Int) - 1, fxExp (fxMul (fxOne - f) fxLn2)) else (n, fxExp (fxMul f fxLn2))

/-- tanh x. -/
def nearTanh (s : Bool) (m : Nat) (e : Int) : Near :=
  let top : Int := e + bitLen m
  if top > 7 then belowOne s
  else if top < -64 then ⟨s, m * 2 ^ 120 - 1, e - 120, true⟩
  else
    let p := expParts false (2 * fxOf m e)
    let x := p.2 * 2 ^ p.1.toNat
    nearFx s ((x - fxOne) * fxOne / (x + fxOne)) 0

/-- 1 / (1 + e^-x). -/
def nearSigm (s : Bool) (m : Nat) (e : Int) : Near :=
  let top : Int := e + bitLen m
  if s then
    if top > 12 then ⟨false, 1, -5000, true⟩
    else
      let p := expParts true (fxOf m e)
      nearFx false (p.2 * fxOne / (fxOne + p.2 / 2 ^ (-p.1).toNat)) p.1
  else if top > 7 then belowOne false
  else
    let p := expParts true (fxOf m e)
    nearFx false (fxOne * fxOne / (fxOne + p.2 / 2 ^ (-p.1).toNat)) 0

/-! ### From a magnitude to a pattern (R74) -/

/-- Exponent of the last place of a magnitude in a format. -/
def lastPlace (f : Fmt) (x : Near) : Int :=
  let top := x.e + (bitLen x.m : Int) - 1
  if top < f.emin then f.emin - f.mb else top - f.mb

/-- The pattern at or below a magnitude, and whether the magnitude is that pattern's value. -/
def floorEnc (f : Fmt) (x : Near) : Nat × Bool :=
  let q := lastPlace f x
  let r := roundShift 1 false x.m (q - x.e) x.st
  ((q - (f.emin - f.mb)).toNat * 2 ^ f.mb + r.1, !r.2)

/-- Whether a magnitude lies so far below the smallest normal that both its neighbours do, the exponent range being unbounded
(R62). -/
def staysTiny (f : Fmt) (x : Near) : Bool :=
  let last := x.e + (bitLen x.m : Int) - 1 - f.mb
  decide (last + (bitLen (roundShift 3 false x.m (last - x.e) x.st).1 : Int) - 1 < f.emin)

/-- A pattern delivered for a magnitude: its overflow, and its flags. A result that rounds up to the smallest normal is tiny all the
same when no rounding of the magnitude under an unbounded exponent range reaches it (R61, R62, R74; DESIGN CHOICE, log 12). -/
def deliver (f : Fmt) (x : Near) (s : Bool) (enc : Nat) (exact : Bool) : FRes :=
  if enc > f.maxEnc then overflowRes f 0 false s
  else ⟨f.signed s enc, if exact then 0 else if decide (enc < 2 ^ f.mb) || staysTiny f x then fNX + fUF else fNX⟩

/-- Whether a magnitude reaches the power of two above the format's range. -/
def beyond (f : Fmt) (x : Near) : Bool :=
  decide (x.e + (bitLen x.m : Int) - 1 ≥ (2 ^ f.eb - 2 : Int) - f.bias + 1)

/-- The magnitude of a pattern at an exponent below its last place. -/
def encAt (f : Fmt) (enc : Nat) (e : Int) : Int :=
  match unpack f enc with
  | .fin s m d => Exact.at ⟨s, m, d⟩ e
  | _ => 0

/-- Patterns, counted from zero and negative past it, within a bound of a magnitude (R74: 2 ulp). -/
def within (f : Fmt) (x : Near) (bound : Int) : List Int :=
  let lo := (floorEnc f x).1
  let e := if x.e < f.emin - f.mb then x.e else f.emin - f.mb
  let m : Int := x.m * 2 ^ (x.e - e).toNat
  let up : Int := if x.st then m + 2 ^ (x.e - e).toNat else m
  let b : Int := 2 ^ (bound - e).toNat
  ((List.range 10).map (fun (d : Nat) => (lo : Int) + (d : Int) - 4)).filter (fun (o : Int) =>
    let v := if o < 0 then -(encAt f o.natAbs e) else encAt f o.natAbs e
    if v ≤ m then decide (up - v ≤ b) else decide (v - m ≤ b))

/-- The pattern that a magnitude rounds to, nearest-even (R74). -/
def roundNear (f : Fmt) (x : Near) : FRes := roundTo f 0 false x.s x.m x.e x.st

/-- One of the two patterns that bracket a magnitude, or the magnitude's own pattern (R74). -/
def faithful (f : Fmt) (pick : Nat) (x : Near) : FRes :=
  let r := floorEnc f x
  if beyond f x then overflowRes f 0 false x.s
  else if r.2 then deliver f x x.s r.1 true
  else deliver f x x.s (r.1 + pick % 2) false

/-- One of the patterns within 2 ulp of a magnitude, and within 2^-24 of it for `sigm` (R74). -/
def twoUlp (f : Fmt) (sigm : Bool) (pick : Nat) (x : Near) : FRes :=
  let q := lastPlace f x + 1
  let l := within f x (if sigm && decide (q > -24) then -24 else q)
  let r := floorEnc f x
  let o := l.getD (pick % l.length) (r.1 : Int)
  deliver f x (x.s != decide (o < 0)) o.natAbs (r.2 && o == (r.1 : Int))

/-! ### The eight functions (R74, R75) -/

/-- The special functions. -/
inductive Sf where
  | exp2
  | log2
  | rcp
  | rsqrt
  | sinpi
  | cospi
  | tanh
  | sigm
  deriving DecidableEq, Repr, Inhabited

/-- fn3 of a function (R46). -/
def Sf.num : Sf → Nat
  | .exp2 => 0
  | .log2 => 1
  | .rcp => 2
  | .rsqrt => 3
  | .sinpi => 4
  | .cospi => 5
  | .tanh => 6
  | .sigm => 7

/-- Whether m 2^e is an integer. -/
def isInt (m : Nat) (e : Int) : Bool := decide (e ≥ 0) || m % 2 ^ (-e).toNat == 0

/-- Whether m 2^e is odd times 1/2. -/
def isHalf (m : Nat) (e : Int) : Bool := isInt m (e + 1) && !isInt m e

/-- Whether m 2^e is 1. -/
def isOne (m : Nat) (e : Int) : Bool := decide (e ≤ 0) && m == 2 ^ (-e).toNat

/-- A special case of R75: a pattern and its flags. -/
def specialCase (fn : Sf) (f : Fmt) (v : Val) : Option FRes :=
  let one := f.bias * 2 ^ f.mb
  let half := (f.bias - 1) * 2 ^ f.mb
  match fn, v with
  | _, .nan _ _ _ => firstNan f [v]
  | .exp2, .inf s => some ⟨if s then 0 else f.infEnc, 0⟩
  | .exp2, .fin _ 0 _ => some ⟨one, 0⟩
  | .log2, .fin _ 0 _ => some ⟨f.signed true f.infEnc, 0⟩
  | .log2, .inf s => some (if s then invalid f else ⟨f.infEnc, 0⟩)
  | .log2, .fin s m e => if s then some (invalid f) else if isOne m e then some ⟨0, 0⟩ else none
  | .rcp, .fin s 0 _ => some ⟨f.signed s f.infEnc, 0⟩
  | .rcp, .inf s => some ⟨f.signed s 0, 0⟩
  | .rsqrt, .fin s 0 _ => some ⟨f.signed s f.infEnc, 0⟩
  | .rsqrt, .inf s => some (if s then invalid f else ⟨0, 0⟩)
  | .rsqrt, .fin s _ _ => if s then some (invalid f) else none
  | .sinpi, .inf _ => some (invalid f)
  | .cospi, .inf _ => some (invalid f)
  | .sinpi, .fin s m e => if isInt m e then some ⟨f.signed s 0, 0⟩ else none
  | .cospi, .fin _ 0 _ => some ⟨one, 0⟩
  | .cospi, .fin _ m e =>
    if isHalf m e then some ⟨0, 0⟩
    else if e + (bitLen m : Int) - 1 ≥ 23 then some ⟨f.signed (fxMod2 m e != 0) one, 0⟩
    else none
  | .tanh, .fin s 0 _ => some ⟨f.signed s 0, 0⟩
  | .tanh, .inf s => some ⟨f.signed s one, 0⟩
  | .sigm, .fin _ 0 _ => some ⟨half, 0⟩
  | .sigm, .inf s => some ⟨if s then 0 else one, 0⟩
  | _, _ => none

/-- The exact result of a function on ±m 2^e, m not 0, no special case. -/
def nearOf (fn : Sf) (s : Bool) (m : Nat) (e : Int) : Near :=
  match fn with
  | .exp2 => nearExp2 s m e
  | .log2 => nearLog2 m e
  | .rcp => nearRcp s m e
  | .rsqrt => nearRsqrt m e
  | .sinpi => nearSinpi s m e
  | .cospi => nearCospi m e
  | .tanh => nearTanh s m e
  | .sigm => nearSigm s m e

/-- A function on a pattern of a float element type (R74, R75). -/
def sfApply (fn : Sf) (e v : Nat) : FRes :=
  let f := etFmt e
  let x := unpack f v
  match specialCase fn f x with
  | some r => r
  | none =>
    match x with
    | .fin s m d =>
      let y := nearOf fn s m d
      let pick := Config.sfPick fn.num e v
      let algebraic := fn.num < 4
      if e ≠ 13 ∧ algebraic then roundNear f y
      else if e ≠ 13 ∨ algebraic then faithful f pick y
      else twoUlp f (fn == .sigm) pick y
    | _ => invalid f

/-- A word of the function queue (R205). -/
def sfWord (fn : Sf) (d a : Nat) (m : Bool) (s : State) : State := elemWord d a a m (fun e x _ _ => sfApply fn e x) s

/-- `exp2` (R205). -/
def execExp2 (d a : Nat) (m : Bool) (s : State) : Res := .next (sfWord .exp2 d a m s)

/-- `log2` (R205). -/
def execLog2 (d a : Nat) (m : Bool) (s : State) : Res := .next (sfWord .log2 d a m s)

/-- `rcp` (R205). -/
def execRcp (d a : Nat) (m : Bool) (s : State) : Res := .next (sfWord .rcp d a m s)

/-- `rsqrt` (R205). -/
def execRsqrt (d a : Nat) (m : Bool) (s : State) : Res := .next (sfWord .rsqrt d a m s)

/-- `sinpi` (R205). -/
def execSinpi (d a : Nat) (m : Bool) (s : State) : Res := .next (sfWord .sinpi d a m s)

/-- `cospi` (R205). -/
def execCospi (d a : Nat) (m : Bool) (s : State) : Res := .next (sfWord .cospi d a m s)

/-- `tanh` (R205). -/
def execTanh (d a : Nat) (m : Bool) (s : State) : Res := .next (sfWord .tanh d a m s)

/-- `sigm` (R205). -/
def execSigm (d a : Nat) (m : Bool) (s : State) : Res := .next (sfWord .sigm d a m s)

end Sys2Proof.Machine
end

