-- ==== Sys2Proof/Machine/Netting.lean ====
section
/-! DEFINITION. The netting engine (R155, R356, R359-R370): a NET record taken, its seats and plane loads, and the message step
of one receiver. -/

namespace Sys2Proof.Machine

/-! ### Reads of the engine (R359, R361, R368) -/

/-- What the engine reads for a receiver: a value and the poisoned addresses met, or a fault. -/
abbrev Gat (α : Type) := State × Except CFault (α × List Addr)

/-- A reading followed by another. -/
def gbind {α β : Type} (x : Gat α) (f : α → State → Gat β) : Gat β :=
  match x with
  | (s, .error e) => (s, .error e)
  | (s, .ok (a, p)) =>
    match f a s with
    | (s, .error e) => (s, .error e)
    | (s, .ok (b, q)) => (s, .ok (b, p ++ q))

/-- A reading of nothing. -/
def gret {α : Type} (a : α) (s : State) : Gat α := (s, .ok (a, []))

/-- n bytes read as an access of the issuing core's engines. -/
def gatBytes (c : Nat) (ea : Addr) (n : Nat) (s : State) : Gat (List Byte) :=
  match spanFault s c ea n .load with
  | some f => (s, .error f)
  | none =>
    let (s, ps) := readPieces (n / 16 + 2) c ea n s
    (s, .ok (ps.flatMap (fun p => p.1), (firstPoison ea ps).toList))

/-- Readings made one after another. -/
def gatList {α β : Type} (f : α → State → Gat β) (l : List α) (s : State) : Gat (List β) :=
  match l with
  | [] => gret [] s
  | a :: r => gbind (f a s) (fun b s => gbind (gatList f r s) (fun bs s => gret (b :: bs) s))

/-- Numbers of n bytes each in a list of bytes. -/
def numsOf (n : Nat) (l : List Byte) : List Nat := (List.range (l.length / n)).map (fun i => fieldAt l (n * i) n)

/-! ### Arithmetic (R362, R364, R71) -/

/-- √x for x = m 2^e as an f32, rounded once. -/
def sqrtF (m : Nat) (e : Int) : Nat :=
  if m = 0 then 0
  else
    let n := if e % 2 = 0 then m else 2 * m
    let d := if e % 2 = 0 then e else e - 1
    let v := n * 2 ^ 200
    let r := isqrt (bitLen v / 2 + 1) v 0
    (roundTo fmtF 0 false false r ((d - 200) / 2) (r * r != v)).v

/-- A square, exact. -/
def squareOf (v : Val) : Exact :=
  match v with
  | .fin s m e => exactMul ⟨s, m, e⟩ ⟨s, m, e⟩
  | _ => ⟨false, 0, 0⟩

/-- Whether a value is an infinity. -/
def Val.isInf : Val → Bool
  | .inf _ => true
  | _ => false

/-- len of R362 from dx, dy, dz. -/
def lengthF (l : List Nat) : Nat :=
  let vs := l.map (unpack fmtF)
  match firstNan fmtF vs with
  | some r => r.v
  | none =>
    if vs.any Val.isInf then fmtF.infEnc
    else
      let x := (vs.map squareOf).foldl (exactAdd false) ⟨false, 0, 0⟩
      sqrtF x.m x.e

/-- The geometry prefix (R362): from the sender's and the receiver's coordinates. -/
def geometry (ft : Nat) (xs xv : List Nat) : List Nat :=
  let d := (List.range 3).map (fun i => (fpSub fmtF 0 (xs.getD i 0) (xv.getD i 0)).v)
  (d ++ [lengthF d]).map (fun v => (convert 13 ft 0 false v).v)

/-- An activation (R364). -/
def netAct (act v : Nat) : Nat :=
  match act with
  | 0 => v
  | 1 =>
    (match unpack fmtF v with
      | .nan s p g => ((firstNan fmtF [.nan s p g]).getD ⟨fmtF.nanEnc, 0⟩).v
      | .inf s => if s then 0 else v
      | .fin s m _ => if s || m == 0 then 0 else v)
  | 2 => (fpMul fmtF 0 v (sfApply .sigm 13 v).v).v
  | _ => (sfApply .tanh 13 v).v

/-- One layer with its weights and bias as read (R363, R364). -/
structure LayerData where
  y    : NetLayer
  w    : List Byte
  bias : List Nat
  deriving DecidableEq, Repr, Inhabited

/-- Type of R189 of a descriptor's FTYPE. -/
def netTy (ft : Nat) : Nat := if ft = 11 then 3 else 1

/-- Output n of a layer, before its activation: the bias, then every block in increasing order (R66, R364). -/
def layerAcc (ft : Nat) (d : LayerData) (x : List Nat) (n : Nat) : Nat :=
  let es := if ft = 11 then 2 else 1
  let b := if ft = 11 then 8 else 32
  ((List.range (d.y.kin / b)).foldl (fun (a : FRes) (q : Nat) =>
    let pairs := (List.range b).map (fun i =>
      let k := b * q + i
      (tyVal (netTy ft) (x.getD k 0), tyVal (netTy ft) (fieldAt d.w ((k * d.y.nout + n) * es) es)))
    accFloat a (blockVal (blockSum pairs) (some 0))) ⟨d.bias.getD n 0, 0⟩).v

/-- The outputs of a layer. -/
def layerOut (ft : Nat) (d : LayerData) (x : List Nat) : List Nat :=
  (List.range d.y.nout).map (fun n => netAct d.y.act (layerAcc ft d x n))

/-- An edge's message: its input row through every layer (R364). -/
def message (ft : Nat) (x : List Nat) : List LayerData → List Nat
  | [] => x
  | [d] => layerOut ft d x
  | d :: r => message ft ((layerOut ft d x).map (fun v => (convert 13 ft 0 false v).v)) r

/-- The messages of a receiver added in increasing edge order (R71, R366). -/
def sumRows (n : Nat) : List (List Nat) → List Nat
  | [] => List.replicate n 0
  | m :: r => r.foldl (fun a x => (List.range n).map (fun j => (fpAdd fmtF 0 (a.getD j 0) (x.getD j 0)).v)) m

/-! ### One receiver (R361, R363) -/

/-- A descriptor's field. -/
abbrev Desc := List Byte

/-- A z32 entry of an index array, with whether it was read poisoned. -/
def gatIndex (c base i : Nat) (s : State) : Gat (Nat × Bool) :=
  match gatBytes c (BitVec.ofNat 64 (base + 4 * i)) 4 s with
  | (s, .ok (l, p)) => (s, .ok ((bytesNat l, !p.isEmpty), p))
  | (s, .error f) => (s, .error f)

/-- A feature row of w elements. -/
def gatRow (c : Nat) (d : Desc) (base pitch w i : Nat) (s : State) : Gat (List Nat) :=
  let es := netEs d
  gbind (gatBytes c (BitVec.ofNat 64 (base + pitch * i)) (w * es) s) (fun l s => gret (numsOf es l) s)

/-- Coordinates of a vertex. -/
def gatCoord (c : Nat) (d : Desc) (i : Nat) (s : State) : Gat (List Nat) :=
  gbind (gatBytes c (BitVec.ofNat 64 (fieldAt d 0x28 8 + 16 * i)) 12 s) (fun l s => gret (numsOf 4 l) s)

/-- The layer-0 input row of an edge (R361). -/
def edgeRow (c : Nat) (d : Desc) (v e snd : Nat) (s : State) : Gat (List Nat) :=
  let f := fun off n => fieldAt d off n
  let geo := fun (s : State) =>
    if f 0x28 8 = 0 then gret [] s
    else gbind (gatCoord c d snd s) (fun xs s => gbind (gatCoord c d v s) (fun xv s => gret (geometry (f 0x48 1) xs xv) s))
  gbind (geo s) (fun g s =>
    gbind (gatRow c d (f 0x18 8) (f 0x38 4) (f 0x44 2) snd s) (fun a s =>
      gbind (gatRow c d (f 0x18 8) (f 0x38 4) (f 0x44 2) v s) (fun b s =>
        gbind (if f 0x20 8 = 0 then gret [] s else gatRow c d (f 0x20 8) (f 0x3C 4) (f 0x46 2) e s) (fun x s =>
          gret (g ++ a ++ b ++ x) s))))

/-- An edge's message; a sender beyond NV ends the record, and a poisoned sender is not followed (DESIGN CHOICE, log 36). -/
def edgeMessage (c : Nat) (d : Desc) (v : Nat) (ls : List LayerData) (e : Nat) (s : State) : Gat (List Nat) :=
  gbind (gatIndex c (fieldAt d 0x10 8) e s) (fun x s =>
    if x.2 then gret [] s
    else if fieldAt d 0 4 ≤ x.1 then
      (s, .error ⟨.alignAccess, BitVec.ofNat 64 (fieldAt d 0x10 8 + 4 * e), e, false⟩)
    else gbind (edgeRow c d v e x.1 s) (fun r s => gret (message (fieldAt d 0x48 1) r ls) s))

/-- A layer's weights and bias read (R363). -/
def gatLayer (c : Nat) (d : Desc) (y : NetLayer) (s : State) : Gat LayerData :=
  gbind (gatBytes c (BitVec.ofNat 64 y.waddr) (y.kin * y.nout * netEs d) s) (fun w s =>
    gbind (if y.baddr = 0 then gret [] s else gatBytes c (BitVec.ofNat 64 y.baddr) (4 * y.nout) s) (fun b s =>
      gret ⟨y, w, numsOf 4 b⟩ s))

/-- NOUT of the last layer. -/
def netOut (d : Desc) : Nat := ((netLayers d).getLast?.map (fun y => y.nout)).getD 0

/-- The edges of a receiver (R361); poisoned offsets are not followed (DESIGN CHOICE, log 36). -/
def edgesOf (c : Nat) (d : Desc) (v : Nat) (s : State) : Gat (List Nat) :=
  let rp := fieldAt d 8 8
  gbind (gatIndex c rp v s) (fun e0 s =>
    gbind (gatIndex c rp (v + 1) s) (fun e1 s =>
      if e0.2 || e1.2 then gret [] s
      else if e1.1 < e0.1 ∨ fieldAt d 4 4 < e1.1 then
        (s, .error ⟨.alignAccess, BitVec.ofNat 64 (rp + 4 * (v + 1)), v, false⟩)
      else gret ((List.range (e1.1 - e0.1)).map (fun i => e0.1 + i)) s))

/-- The aggregate row of a receiver. -/
def aggregate (c : Nat) (d : Desc) (v : Nat) (es : List Nat) (s : State) : Gat (List Nat) :=
  if es = [] then gret (List.replicate (netOut d) 0) s
  else
    gbind (gatList (gatLayer c d) (netLayers d) s) (fun ls s =>
      gbind (gatList (edgeMessage c d v ls) es s) (fun ms s => gret (sumRows (netOut d) (ms.filter (fun m => !m.isEmpty))) s))

/-- The receiver's reads that fail end the record, or stop its ring. -/
def netFault (c r k : Nat) (f : CFault) (s : State) : State :=
  let s := chunkFault c r k f s
  if ((s.core c).ring r).st = .stop then dropNet c r s else s

/-- A row written to memory: the whole row is checked first (R142, R367). -/
def writeRow (c r k total : Nat) (a : Addr) (row : List Nat) (bad : List Addr) (s : State) : State :=
  let l := row.flatMap (natBytes 4)
  endChunk c r k total 1 l.length (writeAt c a l (!bad.isEmpty) .relaxed s, .ok (bad.map some))

/-- The stream that a record commits its rows to (R367). -/
def netStream (s : State) (d : Desc) : Option (Nat × Stream) :=
  match (s.core (fieldAt d 0x4A 2)).bound (fieldAt d 0x4C 1) with
  | some (n, _, st) => if opKind st.openw = 3 then some (n, st) else none
  | none => none

/-- A row committed to a port, in increasing v, when the ring has room (R367). -/
def commitRow (c r k total : Nat) (d : Desc) (row : List Nat) (bad : List Addr) (s : State) : State :=
  match netStream s d with
  | none =>
    netFault c r k (cfault .stream 0) s
  | some (n, st) =>
    let pitch := fieldAt d 0x40 4
    if ((s.core c).ring r).chunk ≠ k ∨ st.head + pitch > st.low + opRb st.openw then s
    else
      let l := row.flatMap (natBytes 4)
      let l := l ++ List.replicate (pitch - l.length) 0
      let s := commitBytes (fieldAt d 0x4A 2) n st l (opSwz st.openw) (fun _ => !bad.isEmpty) s
      endChunk c r k total 1 pitch (s, .ok (bad.map some))

/-! ### Planes and passes (R363, R365) -/

/-- Columns of a plane of a descriptor's FTYPE (R363). -/
def netCols (d : Desc) : Nat := if netEs d = 2 then 128 else 256

/-- The planes of layer l: first K-row and first column (R363). -/
def netPlanes (d : Desc) (l : Nat) : List (Nat × Nat) :=
  match (netLayers d)[l]? with
  | some y =>
    (List.range (y.kin / 128)).flatMap (fun q =>
      (List.range ((y.nout + netCols d - 1) / netCols d)).map (fun p => (128 * q, netCols d * p)))
  | none => []

/-- Crew of layer l. -/
def netCrew (d : Desc) (l : Nat) : Option Nat := (netLayers d)[l]?.map (fun y => y.crew)

/-- The crews that a descriptor names, each once. -/
def netCrews (d : Desc) : List Nat := (netLayers d).foldl (fun l y => if l.contains y.crew then l else l ++ [y.crew]) []

/-- The planes that an edge's row can pass next: those of its layer, K-planes in increasing order (R364). -/
def rowNext (d : Desc) (x : NetRow) : List (Nat × Nat × Nat) :=
  ((netPlanes d x.layer).filter (fun p =>
    !x.done.contains p && (p.1 == 0 || x.done.contains (p.1 - 128, p.2)))).map (fun p => (x.layer, p.1, p.2))

/-- An edge's row after a pass through a plane. -/
def rowPass (d : Desc) (g : Nat × Nat × Nat) (x : NetRow) : NetRow :=
  let l := x.done ++ [(g.2.1, g.2.2)]
  if l.length = (netPlanes d x.layer).length then { x with layer := x.layer + 1, done := [] } else { x with done := l }

/-- Whether an edge's message has come through every layer. -/
def rowDone (d : Desc) (x : NetRow) : Bool := decide ((netLayers d).length ≤ x.layer)

/-- How far an edge has come. -/
def NetJob.row (j : NetJob) (e : Nat) : NetRow := (j.rows.find? (fun x => x.edge == e)).getD ⟨e, 0, []⟩

/-- The receivers that the engine may work on: unmarked chunks of the window (R359). -/
def openChunks (g : Ring) : List Nat :=
  ((List.range 64).filter (fun i => !g.marks.getLsbD i && decide (g.chunk + i < recFld (headBytes g) 0x1C 4))).map (fun i => g.chunk + i)

/-- The edges of a receiver as they stand in memory; none where they cannot be read. -/
def edgesNow (s : State) (c : Nat) (d : Desc) (v : Nat) : List Nat :=
  match edgesOf c d v s with
  | (_, .ok (l, _)) => l
  | (_, .error _) => []

/-- The ring of a job. -/
def NetJob.head (s : State) (j : NetJob) : Ring := (s.core j.core).ring j.ring

/-- The descriptor of a job, as read at its start (R134). -/
def NetJob.desc (s : State) (j : NetJob) : Desc := (j.head s).desc.getD []

/-- The rows of a job that are not through: those of the edges of its open receivers. -/
def openRows (s : State) (j : NetJob) : List NetRow :=
  let g := j.head s
  ((openChunks g).flatMap (fun k => edgesNow s j.core (j.desc s) (recFld (headBytes g) 0x18 4 + k))).filterMap (fun e =>
    if rowDone (j.desc s) (j.row e) then none else some (j.row e))

/-- The planes of a crew that some open row can pass next. -/
def crewGoals (s : State) (j : NetJob) (crew : Nat) : List (Nat × Nat × Nat) :=
  ((openRows s j).flatMap (rowNext (j.desc s))).filter (fun g => netCrew (j.desc s) g.1 == some crew)

/-- Whether a job still has work for a crew: an open row before the last of its layers, or receivers beyond the window. -/
def netNeeds (s : State) (j : NetJob) (crew : Nat) : Bool :=
  let g := j.head s
  s.unitsLive j.core && (netCrews (j.desc s)).contains crew &&
    (decide (g.chunk + 64 < recFld (headBytes g) 0x1C 4) ||
      (openRows s j).any (fun x => (List.range (netLayers (j.desc s)).length).any (fun l =>
        decide (x.layer ≤ l) && netCrew (j.desc s) l == some crew)))

/-- The engine requests the seats that its rows need and it does not hold (R255, R356). -/
def askSeats (die : Nat) (s : State) : State :=
  match (s.die die).net with
  | some j =>
    ((netCrews (j.desc s)).filter (fun crew => !(crewGoals s j crew).isEmpty)).foldl (fun s crew =>
      if (s.crew crew).holder = 4 ∨ (s.crew crew).reqs.contains 4 = true then s else requestSeat crew 4 s) s
  | none => s

/-- A plane as the engine loads it: 128 K-rows, columns at and above NOUT +0 (R363). -/
def netPlane (c : Nat) (d : Desc) (h : Nat) (g : Nat × Nat × Nat) (s : State) : State × Option Plane :=
  let es := netEs d
  match (netLayers d)[g.1]? with
  | none => (s, none)
  | some y =>
    match gatBytes c (BitVec.ofNat 64 y.waddr) (y.kin * y.nout * es) s with
    | (s, .ok (l, _)) =>
      let els := (List.range 128).flatMap (fun k => (List.range (netCols d)).map (fun n =>
        if g.2.2 + n < y.nout then fieldAt l (((g.2.1 + k) * y.nout + g.2.2 + n) * es) es else 0))
      (s, some { w := BitVec.ofNat 262144 (els.foldr (fun v acc => v + 256 ^ es * acc) 0), ty := some (netTy (fieldAt d 0x48 1)),
                 scales := 0, tagH := h, holder := 4, stale := false, net := some g })
    | (s, .error _) => (s, none)

/-- The job of a die's engine changed. -/
def modNet (die : Nat) (f : NetJob → NetJob) (s : State) : State := s.modDie die (fun x => { x with net := x.net.map f })

/-- A batch that passes through a plane: at most 64 rows of bf16 or 32 of f8e4, chosen freely (R365). -/
def netBatch (d : Desc) (n : Nat) (l : List NetRow) : List NetRow :=
  let some := ((l.zipIdx.filter (fun p => n / 2 ^ p.2 % 2 = 1)).map (fun p => p.1)).take (if netEs d = 2 then 64 else 32)
  if some.isEmpty then l.take 1 else some

/-- A pass of a batch through the active plane of a crew. -/
def netPass (die crew : Nat) (j : NetJob) (g : Nat × Nat × Nat) (s : State) : State :=
  let d := j.desc s
  let (s, n) := freeNat s
  let l := netBatch d n ((openRows s j).filter (fun x => (rowNext d x).contains g))
  modNet die (fun j => { j with
    rows := j.rows.filter (fun x => !l.any (fun y => y.edge == x.edge)) ++ l.map (rowPass d g)
    goal := tdel j.goal crew }) s

/-- One array word of the engine on a crew that it holds: towards the plane that its next pass needs, a load into the shadow
plane, a swap, or the pass (R255, R363, R365; DESIGN CHOICE, log 37). -/
def netWord (die crew : Nat) (s : State) : State :=
  let x := s.crew crew
  match (s.die die).net with
  | none => s
  | some j =>
    let goals := crewGoals s j crew
    if s.unitsLive j.core = false ∨ x.holder ≠ 4 ∨ x.netStint = 0 ∨ goals = [] then s
    else
      let s := asSide j.core .ap s
      let (s, n) := freeNat s
      let g := ((tfind j.goal crew).filter (fun g => goals.contains g)).getD (goals.getD (n % goals.length) default)
      let s := modNet die (fun j => { j with goal := tset j.goal crew g }) s
      let count := fun (s : State) => s.modCrew crew (fun x => { x with netStint := x.netStint - 1 })
      if x.active.net = some g then count (netPass die crew j g s)
      else if x.shadow.net = some g then count (s.modCrew crew (fun x => { x with active := x.shadow, shadow := x.active }))
      else
        match netPlane j.core (j.desc s) (s.core j.core).heat g s with
        | (s, some w) => count (s.modCrew crew (fun x => { x with shadow := w }))
        | (s, none) => s

/-- Up to n array words on a crew. -/
def netWords (n die crew : Nat) (s : State) : State :=
  match n with
  | 0 => s
  | n + 1 => netWords n die crew (netWord die crew s)

/-- As many array words on a crew as the engine makes in this turn, none among them (DESIGN CHOICE, log 37). -/
def netTurn (die crew : Nat) (s : State) : State :=
  let (s, n) := freeNat s
  netWords (n % 17) die crew s

/-! ### Receivers (R356, R366, R367) -/

/-- Receiver k of the job of a die's engine: its reads, and its row once every message that it sums is through the layers. -/
def receiver (die k : Nat) (s : State) : State :=
  match (s.die die).net with
  | none => s
  | some j =>
    let c := j.core
    let r := j.ring
    match chunkHead s c r 9 k with
    | none => s
    | some (_, b) =>
      let v := recFld b 0x18 4 + k
      let total := recFld b 0x1C 4
      let d := j.desc s
      let agg := fieldAt d 0x30 8
      let a := BitVec.ofNat 64 (agg + fieldAt d 0x40 4 * v)
      if total ≤ k then s
      else
        match if agg = 0 then none else spanFault s c a (4 * netOut d) .store with
        | some f => netFault c r k f s
        | none =>
          match edgesOf c d v s with
          | (s, .error f) => netFault c r k f s
          | (t, .ok (es, p)) =>
            match aggregate c d v es t with
            | (s, .error f) => netFault c r k f s
            | (t, .ok (row, q)) =>
              if es.all (fun e => rowDone d (j.row e)) = false then s
              else if agg = 0 then commitRow c r k total d row (p ++ q) t else writeRow c r k total a row (p ++ q) t

/-- The receivers whose messages have all left the array are completed (R366, R370). -/
def finishReceivers (die : Nat) (s : State) : State :=
  match (s.die die).net with
  | none => s
  | some j =>
    let ready := fun (k : Nat) =>
      (edgesNow s j.core (j.desc s) (recFld (headBytes (j.head s)) 0x18 4 + k)).all (fun e => rowDone (j.desc s) (j.row e))
    ((openChunks (j.head s)).filter ready).foldl (fun s k => receiver die k s) s

/-- NET_RECEIVER_DONE (R366, R367, R71): the engine's work on the crews it holds, then the receiver. -/
def execNetReceiverDone (die i : Nat) (s : State) : Res :=
  .next (
    match (s.die die).net with
    | some j =>
      if s.unitsLive j.core then
        let s := asSide j.core .ap s
        let s := ((netCrews (j.desc s)).filter (fun crew => (s.crew crew).holder == 4)).foldl (fun s crew => netTurn die crew s) s
        askSeats die (receiver die i s)
      else s
    | none => s)

/-! ### Taking a record (R356, R359, R365) -/

/-- The record is the engine's: no plane left from an earlier record counts as its own, and it requests the seats that it
needs (R356). -/
def startNet (c r : Nat) (s : State) : State :=
  let die := dieOf c
  let s := s.modDie die (fun x => { x with net := some ⟨c, r, [], []⟩, netq := x.netq.filter (fun y => y != (c, r)) })
  let fresh := fun (p : Nat × Crew) => if crewDie p.1 = die then
      (p.1, { p.2 with active := { p.2.active with net := none }, shadow := { p.2.shadow with net := none } }) else p
  askSeats die { s with crews := s.crews.map fresh }

/-- The head NET record of a ring arrives at the engine, and is taken when its turn has come. -/
def takeNet (c r : Nat) (s : State) : State :=
  let g := (s.core c).ring r
  match chunkHead s c r 9 g.chunk with
  | none => s
  | some (_, b) =>
    let x := s.die (dieOf c)
    if recFld b 0x1C 4 ≤ g.chunk then completeRecord c r s
    else if x.net.any (fun j => j.core == c && j.ring == r) then s
    else if x.net.isSome ∨ (x.netq.head?.any (fun y => y != (c, r))) = true then
      s.modDie (dieOf c) (fun x => { x with netq := if x.netq.contains (c, r) then x.netq else x.netq ++ [(c, r)] })
    else
      match headDesc c r b s with
      | (s, .error f) => netFault c r g.chunk f s
      | (s, .ok d) =>
        if fieldAt d 0x30 8 = 0 ∧ (netStream s d).isNone = true then
          netFault c r g.chunk (cfault .stream 0) s
        else startNet c r s

/-- NET (R155, R359). -/
def execNet (c r : Nat) (s : State) : Res := .next (if s.unitsLive c then takeNet c r (asSide c .ap s) else s)

/-! ### Seats (R193, R255, R356) -/

/-- SEAT_GRANT (R193, R356): a grant to the netting engine begins its stint of 16 array words. -/
def execSeatGrant (crew : Nat) (s : State) : Res :=
  .next (
    let t := if crewMoves s crew then grantSeat crew s else s
    if (s.crew crew).holder = 7 ∧ (t.crew crew).holder = 4 then netTurn (crewDie crew) crew t else t)

/-- A seat that the engine may give up now: its work there is done, or its sixteenth array word has completed; then it asks for
the seat again, and keeps it when no core requests it (R255). -/
def leaveSeat (die crew : Nat) (s : State) : State :=
  let x := s.crew crew
  let needs := (s.die die).net.any (fun j => netNeeds s j crew)
  if x.holder ≠ 4 then s
  else if needs = false then endStint crew s
  else if x.netStint ≠ 0 then s
  else if x.reqs = [] then s.modCrew crew (fun x => { x with netStint := 16 })
  else requestSeat crew 4 (endStint crew s)

/-- NET_SEAT_RELEASE (R255): the words that its stint and its rows still allow are made, the receivers whose messages have left
the array are completed, and the seat is given up where it may be. -/
def execNetSeatRelease (die crew : Nat) (s : State) : Res :=
  .next (
    if crewDie crew ≠ die ∨ (s.crew crew).holder ≠ 4 then s
    else askSeats die (leaveSeat die crew (finishReceivers die (netWords 16 die crew s))))

end Sys2Proof.Machine
end

