-- ==== Sys2Proof/Machine/Sync.lean ====
section
/-! DEFINITION. Task, synchronisation and system words (R207-R231, R235, R278). -/

namespace Sys2Proof.Machine

/-- ILLEGAL at the word. -/
def refuseIllegal : Except Trap State := .error (trapAt .illegal)

/-- `nop` (R47, R207). -/
def execNop (s : State) : Res := .next (syncWord false [] [] (fun s => .ok (finish s)) s)

/-! ### Tasks (R209-R212) -/

/-- The checks of a core number (R211): DIE_ABSENT, OWNER. -/
def coreCheck (s : State) (b : Addr) : Option Trap :=
  let c := b.toNat
  if c < 192 ∧ s.form.hasDie (dieOf c) = false then some (trapAt .dieAbsent)
  else
    match s.heatOf s.cur.core with
    | some h => if c < 192 ∧ h.hr.has c = true then none else some (trapAt .owner)
    | none => some (trapAt .owner)

/-- A new task's record on a side of a core, enqueued at once (R211). -/
def enlistTask (c i : Nat) (sd : Side) (entry v : Addr) (s : State) : State :=
  s.modCore c (fun k =>
    let r : ContRec :=
      { resume := entry, mask := 2, task := (k.side sd).next, link := none, kind := .spawn, side := sd, dreg := 0, preds := 0,
        poison := 0, wvalue := 0, regs := [v], arg := 0 }
    { k with pool := tset k.pool i r }.modSide sd (fun x => { x with tq := x.tq ++ [i], next := x.next + 1 }))

/-- `spawn` toward a side (R211). -/
def spawnWord (sd : Side) (d a b : Nat) (s : State) : State :=
  syncWord true [d, a, b] [] (fun s =>
    let entry := s.rd a
    if entry.toNat % 4 ≠ 0 then .error (trapOn .alignIssue entry)
    else
      match coreCheck s (s.rd b) with
      | some t => .error t
      | none =>
        let c := (s.rd b).toNat
        match freeRec (s.core c) with
        | none => .error (trapAt .contFull)
        | some i => release (releaseTo c) (fun s => .ok (finish (enlistTask c i sd entry (s.rd d) s))) s) s

/-- `spawn.ap` (R211). -/
def execSpawnAp (d a b : Nat) (s : State) : Res := .next (spawnWord .ap d a b s)

/-- `spawn.xp` (R211). -/
def execSpawnXp (d a b : Nat) (s : State) : Res := .next (spawnWord .xp d a b s)

/-- Whether a record that carries the AP's TASK has not retired (R212). -/
def taskBusy (k : Core) : Bool :=
  [0, 1, 2, 3].any (fun r => (k.ring r).recs.any (fun p => p.2.task == k.ap.task))

/-- Whether `end` still waits on the moving side (R212); the XP's wait is that of `xfence`. -/
def endWaits (s : State) : Bool :=
  match s.cur.side with
  | .ap => taskBusy s.me
  | .xp => false

/-- A fault task that ends stops the heat, its delivery reported (R319, R321). -/
def endFaultTask (f : Frame) (s : State) : State :=
  let n := s.me.heat
  stopHeat n s.cur.core
    (((s.modHeat n (fun h => { h with reports := h.reports ++ [f.del] })).modMySide (fun x => { x with run := .idle })).act s.cur.core)

/-- `end` (R212, R319). -/
def execEndTask (s : State) : Res :=
  .next (syncWord true [] [] (fun s =>
    if endWaits s then .ok s
    else
      match s.mySide.frame with
      | some f => .ok (endFaultTask f s)
      | none => .ok ((s.modMySide (fun x => { x with run := .idle })).act s.cur.core)) s)

/-- TASK_START (R210, R294): a delivery that is due to the idle side goes first (R336). -/
def execTaskStart (c : Nat) (sd : Side) (s : State) : Res := .next (if s.live c && !deliveryDue s c sd then startTask c sd s else s)

/-! ### Waits (R210, R214, R217, R220, R223) -/

/-- Whether the registers that a wait would save still wait for a load (R95, R210). -/
def savesWait (s : State) (mask : Addr) : Bool :=
  match s.cur.side with
  | .ap => s.me.ldsWaits (maskList mask.toNat)
  | .xp => false

/-- A wait that is not satisfied registers, once the registers it saves have their values (R210). -/
def waitOn (kind : WKind) (mask : Addr) (d arg : Nat) (link : Option (Nat × Nat)) (enlist : Nat → State → State) (s : State) :
    Except Trap State :=
  if savesWait s mask then .ok s else registerWait kind mask d arg link enlist s

/-- `wait` (R214). -/
def execWait (d a cnt n : Nat) (s : State) : Res :=
  .next (xpFirst (illegalIf (cnt == 0)) (syncWord true [a] [d] (fun s =>
    let mask := s.rd a
    let x := s.me.sema n
    if cnt = 0 ∨ maskOk mask = false then refuseIllegal
    else if x.waiters = [] ∧ cnt ≤ x.count then
      .ok (finish ((s.modSema s.cur.core n (fun x => { x with count := x.count - cnt })).put d
        (BitVec.ofNat 64 (x.fault.toNat + x.overBit.toNat * 2))))
    else
      waitOn .wait mask d cnt none
        (fun i s => s.modSema s.cur.core n (fun x => { x with waiters := x.waiters ++ [i] })) s)) s)

/-- `raise` (R215, R224). -/
def execRaise (a cnt n : Nat) (s : State) : Res :=
  .next (xpFirst (illegalIf (cnt == 0)) (syncWord true [a] [] (fun s =>
    if cnt = 0 then refuseIllegal
    else if a = 0 then release id (fun s => .ok (finish (raiseSema s.cur.core n cnt false s))) s
    else
      match coreCheck s (s.rd a) with
      | some t => .error t
      | none => release (releaseTo (s.rd a).toNat) (fun s => .ok (finish (raiseSema (s.rd a).toNat n cnt false s))) s)) s)

/-- The place of a future address, or its fault (R216). -/
def futurePlace (s : State) (a : Addr) : Except Trap Place :=
  let tag := nfld a.toNat 56 8
  if a.toNat % 8 ≠ 0 then .error (trapOn .alignIssue a)
  else if tag ≠ 0xFC ∧ tag ≠ 0xF0 then .error (trapOn .aperture a)
  else
    match s.place s.cur.core a with
    | some p => .ok p
    | none => .error (trapOn .aperture a)

/-- The first record of a waiting future. -/
def futHead (w : Nat) : Option (Nat × Nat) := if futState w = 1 then some (nfld w 24 8, nfld w 16 8) else none

/-- `fwait` (R217): the mask is checked first (R210). -/
def execFwait (d a b : Nat) (s : State) : Res :=
  .next (syncWord true [a, b] [d] (fun s =>
    let mask := s.rd b
    if maskOk mask = false then refuseIllegal
    else
      match futurePlace s (s.rd a) with
      | .error t => .error t
      | .ok p =>
        let w := futureWord s p
        if futDone w then .ok (finish (s.put d (futValue w)))
        else
          waitOn .fwait mask d 0 (futHead w)
            (fun i s => setFuture p (1 + i * 2 ^ 16 + s.cur.core * 2 ^ 24) s) s) s)

/-- Whether a future's list holds a record of a core of the other die. -/
def listCrosses (fuel : Nat) (s : State) (o : Option (Nat × Nat)) : Bool :=
  match fuel, o with
  | fuel + 1, some (c, i) =>
    dieOf c != dieOf s.cur.core ||
      (match tfind (s.core c).pool i with
        | some r => listCrosses fuel s r.link
        | none => false)
  | _, _ => false

/-- A resolution by a word: a release toward every party it reaches, then the one atomic step (R218, R224, R304; DEDUCED, log 53). -/
def resolveWord (a : Nat) (word : State → Except Trap Nat) (srcs : List Nat) (s : State) : State :=
  syncWord true srcs [] (fun s =>
    match word s, futurePlace s (s.rd a) with
    | .error t, _ => .error t
    | _, .error t => .error t
    | .ok v, .ok p =>
      let w := futureWord s p
      if futDone w then .error (trapOn .doubleResolve (s.rd a))
      else
        let far := s.homeDie p != dieOf s.cur.core || listCrosses (192 * 256) s (futHead w)
        release (fun s => if far then flushDie (dieOf s.cur.core) s else s) (fun s => .ok (finish (resolveFuture p v s))) s) s

/-- `fres` (R218). -/
def execFres (a b : Nat) (s : State) : Res :=
  .next (resolveWord a (fun s => .ok (resolvedWord (s.rd b).toNat)) [a, b] s)

/-- `ffault` (R218). -/
def execFfault (a b : Nat) (s : State) : Res :=
  .next (resolveWord a (fun s =>
    if (s.rd b).toNat % 256 = 0 then .error (trapAt .illegal) else .ok (faultedWord (s.rd b).toNat)) [a, b] s)

/-- The records of a core that wait at a barrier's n-th arrival. -/
def hbarWaiters (k : Core) (sd : Side) (arg : Nat) : List Nat :=
  (k.pool.filter (fun p => p.2.kind == .hbar && p.2.side == sd && p.2.arg == arg)).map (fun p => p.1)

/-- An arrival at the barrier of a group of cores (R220, R224): the last one completes it. -/
def arrive (group : State → Option (List Nat)) (shape a : Nat) (s : State) : State :=
  syncWord true [a] [] (fun s =>
    let mask := s.rd a
    let sd := s.cur.side
    match group s with
    | none => refuseIllegal
    | some cores =>
      if maskOk mask = false then refuseIllegal
      else
        let n := tget s.mySide.hbars shape 0 + 1
        let others := cores.filter (fun c => c != s.cur.core)
        let counted := fun (s : State) => s.modMySide (fun x => { x with hbars := tset x.hbars shape n })
        let rel := fun (s : State) =>
          if cores.any (fun c => dieOf c != dieOf s.cur.core) then flushDie (dieOf s.cur.core) s else s
        if others.all (fun c => decide (n ≤ tget ((s.core c).side sd).hbars shape 0)) then
          release rel (fun s => .ok (finish (others.foldl (fun s c =>
            (hbarWaiters (s.core c) sd (n * 64 + shape)).foldl (fun s i => wake c i 0 s) s) (counted s)))) s
        else release rel (waitOn .hbar mask 0 (n * 64 + shape) none (fun _ s => counted s)) s) s

/-- The cores of the heat. -/
def heatGroup (s : State) : Option (List Nat) := (s.heatOf s.cur.core).map (fun h => h.hr.cores)

/-- The subgroup of w × h cores that holds the moving core, when it lies wholly in the rectangle (R220). -/
def subGroup (w h : Nat) (s : State) : Option (List Nat) :=
  match s.heatOf s.cur.core with
  | none => none
  | some t =>
    let gx := (coreX s.cur.core - t.hr.x0) / w * w
    let gy := (coreY s.cur.core - t.hr.y0) / h * h
    if gx + w ≤ t.hr.w ∧ gy + h ≤ t.hr.h then some (rectCores (t.hr.x0 + gx) (t.hr.y0 + gy) w h) else none

/-- `hbar.heat` (R220). -/
def execHbarHeat (a : Nat) (s : State) : Res := .next (arrive heatGroup 0 a s)

/-- `hbar.wWhH` (R220): h and w are logarithms. -/
def execHbarGroup (a h w : Nat) (s : State) : Res :=
  .next (arrive (subGroup (2 ^ w) (2 ^ h)) (1 + 4 * w + h) a s)

/-- A stage barrier armed (R222). -/
def armBar (clr : Bool) (a b : Nat) (s : State) : State :=
  syncWord false [a] [] (fun s =>
    let v := s.rd a
    let c := s.cur.core
    if v.toNat ≥ 2 ^ 32 then refuseIllegal
    else
      let s := s.modBar c b (fun x =>
        { x with target := v.setWidth 32, armed := v != 0, err := false, count := if clr then 0 else x.count,
                 last := if clr then 0 else x.last, phase := if clr then false else x.phase })
      .ok (finish (testBar c b (if clr then releasePhase c b false s else s)))) s

/-- `barm` (R222). -/
def execBarm (a b : Nat) (s : State) : Res := .next (armBar false a b s)

/-- `barm.clr` (R222). -/
def execBarmClr (a b : Nat) (s : State) : Res := .next (armBar true a b s)

/-- `bwait` (R223). -/
def execBwait (d a : Nat) (ph : Bool) (b : Nat) (s : State) : Res :=
  .next (syncWord true [a] [d] (fun s =>
    let mask := s.rd a
    let x := s.me.bar b
    if maskOk mask = false then refuseIllegal
    else if x.phase = ph then
      .ok (finish (s.put d (BitVec.ofNat 64 (x.last.toNat + x.err.toNat * 2 ^ 63))))
    else
      waitOn .bwait mask d ph.toNat none
        (fun i s => s.modBar s.cur.core b (fun x => { x with waiters := x.waiters ++ [i] })) s) s)

/-! ### Order, handover and time (R225-R227) -/

/-- HEAD of each open sink of a core: the bytes committed so far. -/
def sinkHeads (k : Core) : Tbl Nat := (k.streams.filter (fun p => opSink p.2.openw)).map (fun p => (p.1, p.2.head))

/-- Whether sinks have drained up to the positions given; one that is gone has. -/
def drainedTo (k : Core) (goals : Tbl Nat) : Bool :=
  goals.all (fun p => match tfind k.streams p.1 with
    | some st => decide (p.2 ≤ st.low)
    | none => true)

/-- Whether the records that entered the rings before an order number have retired, and the sinks have drained up to the positions
given. -/
def handDone (k : Core) (g : Nat × Tbl Nat) : Bool := [0, 1, 2, 3].all (fun r => doneBefore k r g.1) && drainedTo k g.2

/-- What a `hand` of a side waits for: the records enqueued and the bytes committed when it began (R225). -/
def handGoals (k : Core) (sd : Side) : Nat × Tbl Nat := (k.side sd).hand.getD (k.order, sinkHeads k)

/-- Whether every record of a core's rings has retired and every sink has drained: what a `hand` that begins now waits for. -/
def quiet (k : Core) : Bool := handDone k (k.order, sinkHeads k)

/-- One region of a context given to a core: an entry of its own before the others (R225, R267). -/
def giveRegion (ctx va : Nat) (r : RegionEntry) (c : Nat) (s : State) : State :=
  s.modCtx ctx (fun x =>
    { x with regions := { r with base := va, count := 1, owner := c } ::
        x.regions.filter (fun e => !(e.base == va && e.count == 1)) })

/-- `hand` (R225): UNMAPPED is a region without an entry, its pages mapped or not (R267). -/
def execHand (a b : Nat) (s : State) : Res :=
  .next (syncWord false [a, b] [] (fun s =>
    let ea := s.rd a
    if ea.toNat % 2 ^ 21 ≠ 0 then .error (trapOn .alignIssue ea)
    else
      match s.place s.cur.core ea with
      | some (.glob ctx va) =>
        (match s.region ctx va with
          | some r =>
            if r.st ≠ .priv ∨ r.owner ≠ s.cur.core then .error (trapOn .owner ea)
            else
              (match coreCheck s (s.rd b) with
                | some t => .error t
                | none =>
                  let goals := handGoals s.me s.cur.side
                  if s.me.lds ≠ [] ∨ s.owes (dieOf s.cur.core) = true ∨ handDone s.me goals = false then
                    .ok (s.modMySide (fun x => { x with hand := some goals }))
                  else .ok (finish ((giveRegion ctx va r (s.rd b).toNat s).modMySide (fun x => { x with hand := none }))))
          | none => .error (trapOn .xlate ea))
      | _ => .error (trapOn .xlate ea)) s)

/-- `fence` (R226, R278). -/
def execFence (sc : Nat) (s : State) : Res :=
  .next (syncWord true [] [] (fun s =>
    match s.cur.side with
    | .ap => release (releaseAt sc) (fun s => .ok (finish s)) s
    | .xp => .ok (finish s)) s)

/-- `tsr` (R227). -/
def execTsr (d : Nat) (s : State) : Res :=
  .next (syncWord false [] [d] (fun s => .ok (finish (s.put d (timebase s s.cur.core)))) s)

/-! ### Traps and system control (R228-R231) -/

/-- `trap` (R228). -/
def execTrap (_n : Nat) (s : State) : Res := .next (syncWord false [] [] (fun _ => .error (trapAt .brk)) s)

/-- `rtt` (R228, R320): the return from a fault task, once the loads of the delivery registers have returned (R95) and no steered
word's use of them is to come (R9; DEDUCED, log 89). -/
def execRtt (s : State) : Res :=
  .next (syncWord false [] [] (fun s =>
    match s.mySide.frame with
    | some f =>
      if (s.cur.side = .ap ∧ s.me.ldsWaits [1, 2, 3, 4] = true) ∨ (s.cur.side = .xp ∧ s.me.holdsDelivery = true) then .ok s
      else .ok ((restoreFrame s.cur.core s.cur.side f s).act s.cur.core)
    | none => refuseIllegal) s)

/-- A privileged SYNC word (R20, R49, R207): on the AP its sources' POISON comes first, then PRIV in user mode; on the XP PRIV
comes when the sequencer meets the word, before any wait. -/
def privSync (fenced : Bool) (srcs dsts : List Nat) (body : State → Except Trap State) (s : State) : State :=
  xpFirst (if s.sysMode s.cur.core then none else some (trapAt .priv))
    (syncWord fenced srcs dsts (fun s => if s.sysMode s.cur.core then body s else .error (trapAt .priv))) s

/-- A `sys` word (R229): d := 0 when its effect is complete, which the body says beside the state. -/
def sysWord (d a : Nat) (body : State → Except Trap (Bool × State)) (s : State) : State :=
  privSync false [a] [d] (fun s =>
    match body s with
    | .error t => .error t
    | .ok (true, s) => .ok (finish (s.put d 0))
    | .ok (false, s) => .ok s) s

/-- Translations that the caches of both dies lose. -/
def dropPages (gone : Page → Bool) (s : State) : State :=
  [0, 1].foldl (fun s d => s.modDie d (fun x => { x with tlb := x.tlb.filter (fun p => !gone p) })) s

/-- `sys.xpage` (R229): no later access uses an old translation of the page that holds a (R263). -/
def execSysXpage (d a : Nat) (s : State) : Res :=
  .next (sysWord d a (fun s => .ok (true, dropPages (fun p => p.holds (s.ctxOf s.cur.core) (s.rd a).toNat) s)) s)

/-- `sys.xctx` (R229, R263). -/
def execSysXctx (d a : Nat) (s : State) : Res :=
  .next (sysWord d a (fun s =>
    if (s.rd a).toNat ≥ 16 then .error (trapAt .illegal)
    else .ok (true, dropPages (fun p => p.ctx == (s.rd a).toNat) s)) s)

/-- A die's remote-line cache written back and emptied (R229). -/
def emptyRlc (die : Nat) (s : State) : State := emptyLines die (fun _ => true) s

/-- `sys.rlc` (R229). -/
def execSysRlc (d a : Nat) (s : State) : Res :=
  .next (sysWord d a (fun s => .ok (true, emptyRlc 1 (emptyRlc 0 s))) s)

/-- `sys.tbsync` (R229, R283): die B's count steps forward when it is behind; when it is ahead it runs at half rate, and the word
completes once the skew is at most 4 ns. -/
def execSysTbsync (d a : Nat) (s : State) : Res :=
  .next (sysWord d a (fun s =>
    if s.form.hasDie 1 = false then .ok (true, s)
    else if s.skew < 0 then .ok (true, raiseB 0 s)
    else .ok (decide (s.skew ≤ 4), s.modDie 1 (fun x => { x with slow := decide (0 < s.skew) }))) s)

/-- `slip` (R27, R230): while it waits for the occupancy it has not executed, so LIMIT changes as it completes (R235). -/
def execSlip (a : Nat) (s : State) : Res :=
  .next (privSync false [a] [] (fun s =>
    let v := (s.rd a).toNat
    if v = 0 ∨ v > 32 then refuseIllegal
    else if s.me.occupancy ≤ v then .ok (finish (s.modMe (fun k => { k with slip := BitVec.ofNat 6 v })))
    else .ok s) s)

/-- `halt` (R230); a heat that halts itself is not one that the bridge stopped (R316). -/
def execHalt (s : State) : Res :=
  .next (privSync true [] [] (fun s =>
    if endWaits s then .ok s
    else
      let n := s.me.heat
      let (s, e) := freeNat s
      .ok ((postEvent 3 (s.ctxOf s.cur.core) n (e % 256) none (finish s)).modHeat n (fun h => { h with st := .halted, bridge := false }))) s)

/-- `pixr` (R231). -/
def execPixr (d e : Nat) (s : State) : Res :=
  .next (syncWord false [] [d] (fun s => .ok (finish (s.put d (BitVec.ofNat 64 (pixField s.me e % 2 ^ 16))))) s)

/-- `pixw` (R231). -/
def execPixw (a e : Nat) (s : State) : Res :=
  .next (privSync true [a] [] (fun s =>
    let v := (s.rd a).toNat
    if (s.cur.side = .ap ∧ e ≠ 3) ∨ v ≥ 2 ^ 16 then refuseIllegal
    else if pixIdle s.me e then .ok (finish (s.modMe (fun k => setPixField k e v)))
    else .ok s) s)

end Sys2Proof.Machine
end

