-- ==== Sys2Proof/Machine/Heats.lean ====
section
/-! DEFINITION. Heats: the record and its checks (R286, R287), the queues (R288), the choice of what runs (R289-R292), launch
and resume (R293, R328, R270), pre-emption (R291, R323, R324), completion (R296), the stall detector (R301, R302) and the
delivery of faults (R317-R321). -/

namespace Sys2Proof.Machine

/-- Whether the part is up and takes heats (R391 step 7). -/
def isReady (s : State) : Bool := s.water.power == .ready

/-- Whether a die's cox is up. -/
def coxUp (s : State) (die : Nat) : Bool := if die = 0 then s.coxS.up else s.coxB.up

/-- Dies that a heat record names. -/
def HeatRec.dies (r : HeatRec) : List Nat := [0, 1].filter (fun d => r.die / 2 ^ d % 2 == 1)

/-- Whether a heat holds its cores (R289). -/
def Heat.holds (h : Heat) : Bool := h.st == .running || h.st == .stopped || h.st == .halted || h.st == .saving

/-! ### The record (R286, R287) -/

/-- A heat record's bytes read (R286). -/
def heatRecOf (l : List Byte) : HeatRec :=
  let f := fun off n => fieldAt l off n
  { ctx := f 2 1 % 16, prio := f 3 1 % 16, resume := f 4 1 == 1, system := f 5 1 % 2 == 1, any := f 5 1 / 2 % 2 == 1,
    faultXp := f 5 1 / 4 % 2 == 1, die := f 6 1 % 4, x0 := f 8 1, y0 := f 9 1, w := f 10 1, h := f 11 1, part := f 12 4,
    apEntry := BitVec.ofNat 64 (f 0x10 8), xpEntry := BitVec.ofNat 64 (f 0x18 8), fEntry := BitVec.ofNat 64 (f 0x20 8),
    number := f 0x28 4, stallUs := f 0x2C 4, image := f 0x30 8,
    hints := [0, 1, 2, 3].map (fun j => (f (0x40 + 16 * j) 8, f (0x48 + 16 * j) 8)) }

/-- Check 1 of R287 on the bytes. -/
def recFieldsOk (l : List Byte) : Bool :=
  let f := fun off n => fieldAt l off n
  f 0 2 == 1 && decide (f 2 1 < 16) && decide (f 3 1 < 16) && decide (f 4 1 < 2) && decide (f 5 1 < 8) && decide (f 6 1 < 4) &&
    f 6 1 != 0 && f 7 1 == 0 && f 0x38 8 == 0 && (f 0x2C 4 == 0 || decide (100 ≤ f 0x2C 4))

/-- R238 on a rectangle. -/
def rectOk (r : HeatRec) : Bool :=
  r.x0 % 2 == 0 && r.y0 % 2 == 0 && r.w % 2 == 0 && r.h % 2 == 0 && r.w != 0 && r.h != 0 && decide (r.x0 + r.w ≤ 24) &&
    decide (r.y0 + r.h ≤ 8)

/-- Check 3 of R287: DIE agrees with the rectangle. -/
def dieAgrees (r : HeatRec) : Bool :=
  match r.die with
  | 1 => decide (r.x0 + r.w ≤ 12)
  | 2 => decide (12 ≤ r.x0)
  | _ => decide (r.x0 < 12) && decide (12 < r.x0 + r.w)

/-- R17 on a partition word. -/
def partOk (p : Nat) : Bool := decide (nfld p 0 2 < 3) && decide (nfld p 2 5 ≤ 16) && decide (p < 2 ^ 11)

/-- The first check of R287 that a record fails; `regions` are the region entries of the heat, `fw` whether cox firmware
submits it. In island mode a record for both dies is refused (R399; DEDUCED, log 54). -/
def recordFault (s : State) (l : List Byte) (regions : List RegionEntry) (fw : Bool) : Option Code :=
  let r := heatRecOf l
  let entryOk := fun (a : Addr) => a != 0 && isMul a.toNat 4
  if recFieldsOk l = false ∨ rectOk r = false ∨ dieAgrees r = false ∨ partOk r.part = false then some .illegal
  else if entryOk r.apEntry = false ∨ entryOk r.xpEntry = false ∨ r.fEntry.toNat % 4 ≠ 0 ∨ (r.faultXp = true ∧ r.fEntry = 0) then
    some .illegal
  else if r.system = true ∧ fw = false then some .priv
  else if r.any = true ∧ (r.die = 3 ∨ r.resume = true ∨ regions.any (fun e => e.st == .priv) = true) then some .illegal
  else if r.hints.any (fun h => if h.2 = 0 then h.1 != 0 else !isMul h.1 4096 || !isMul h.2 4096) then some .illegal
  else if r.resume = false ∧ r.image ≠ 0 then some .illegal
  else if r.resume = true ∧ (r.image % 64 ≠ 0 ∨ (imageFor s r).isNone = true) then some .illegal
  else if s.bridge.island = true ∧ r.die = 3 then some .linkLost
  else none

/-! ### Queues (R288, R291) -/

/-- The queue of a context, oldest first. -/
def queueOf (s : State) (ctx : Nat) : List Nat := tget s.queues ctx []

/-- The record that a NUMBER in a queue stands for: the queued heat's, else that of a resume record accepted while its heat is
unfinished (R287; DESIGN CHOICE, log 54). -/
def queuedHeat (s : State) (n : Nat) : Option Heat :=
  match s.heatNo n with
  | some h => if h.st = .queued then some h else s.again.find? (fun x => x.hr.number == n)
  | none => s.again.find? (fun x => x.hr.number == n)

/-- Whether a resume record stands before another in its queue: by the order of first launches (R291; DEDUCED, log 28). -/
def resumesBefore (a b : Heat) : Bool :=
  decide (a.launched < b.launched) || (a.launched == b.launched && decide (a.hr.number ≤ b.hr.number))

/-- A resume record's place: at the head of the queue, among the other resume records (R291). -/
def insertResume (s : State) (h : Heat) : List Nat → List Nat
  | [] => [h.hr.number]
  | n :: q =>
    match queuedHeat s n with
    | some (x : Heat) => if x.hr.resume = true ∧ resumesBefore x h = true then n :: insertResume s h q else h.hr.number :: n :: q
    | none => h.hr.number :: n :: q

/-- A record is appended to its context's queue, a resume record among those at its head (R287, R288, R291). -/
def joinQueue (h : Heat) (s : State) : State :=
  let q := queueOf s h.hr.ctx
  { s with queues := tset s.queues h.hr.ctx (if h.hr.resume then insertResume s h q else q ++ [h.hr.number]) }

/-- The heat of a NUMBER is the one given. -/
def putHeat (h : Heat) (s : State) : State := { s with heats := s.heats.filter (fun (x : Heat) => x.hr.number != h.hr.number) ++ [h] }

/-- A heat joins its context's queue. -/
def enqueueHeat (h : Heat) (s : State) : State := joinQueue h (putHeat h s)

/-- A heat leaves its context's queue. -/
def dequeueHeat (h : Heat) (s : State) : State :=
  { s with queues := tset s.queues h.hr.ctx ((queueOf s h.hr.ctx).erase h.hr.number)
           claims := s.claims.filter (fun n => n != h.hr.number) }

/-! ### What can launch (R268, R289-R292) -/

/-- The region entries of a heat: those its launch carries, else the table in force (R268). -/
def heatRegions (s : State) (h : Heat) : List RegionEntry := if h.regions = [] then (s.ctx h.hr.ctx).regions else h.regions

/-- What a table gives a 2 MiB region: its state, its spread and, when it is PRIVATE, its owner; none for no entry (R267). -/
def regionGiven (l : List RegionEntry) (g : Nat) : Option (RegState × Spread × Nat) :=
  (entryAt l g).map (fun e => (e.st, e.spread, if e.st = .priv then e.owner else 0))

/-- The regions at which an entry of a table begins or ends. -/
def regionEdges (l : List RegionEntry) : List Nat := l.flatMap (fun e => [e.base / 2 ^ 21, e.base / 2 ^ 21 + e.count])

/-- Whether a launch would change a region of its context (R268): two tables agree on every region when they agree where an entry of
either begins or ends. -/
def changesRegions (s : State) (h : Heat) : Bool :=
  let t := (s.ctx h.hr.ctx).regions
  !h.regions.isEmpty && (regionEdges (t ++ h.regions)).any (fun g => regionGiven t g != regionGiven h.regions g)

/-- Whether a heat of a context runs or is being saved. -/
def ctxRuns (s : State) (ctx : Nat) : Bool := s.heats.any (fun h => h.hr.ctx == ctx && (h.st == .running || h.st == .saving))

/-- Whether a resume record's heat is unfinished, so that the record waits: a NUMBER names one heat (R287; DESIGN CHOICE, log 54). -/
def awaitsTwin (s : State) (h : Heat) : Bool := (s.heatNo h.hr.number).any (fun x => x.st != .queued && x.st != .complete)

/-- Whether a head takes DIE_ABSENT (R2, R264, R292). -/
def headAbsent (s : State) (h : Heat) : Bool :=
  s.form == .la2h && (decide (2 ≤ h.hr.die) || (heatRegions s h).any (fun e => e.spread == .dieB)) && !awaitsTwin s h

/-- The head of a context: the first of its queue, after a head that has pre-empted heats (R288, R291; DEDUCED, log 28). -/
def headOf (s : State) (ctx : Nat) : Option Heat :=
  let q := queueOf s ctx
  match q.find? (fun n => s.claims.contains n) with
  | some n => queuedHeat s n
  | none => q.head?.bind (queuedHeat s)

/-- The waiting heads. -/
def heads (s : State) : List Heat := (List.range 16).filterMap (headOf s)

/-- Origins a head can take: its own, or with PLACE_ANY every even one on its die in increasing X0 + 24 × Y0 (R289). -/
def origins (h : Heat) : List (Nat × Nat) :=
  if h.hr.any then
    (List.range 4).flatMap (fun j => (List.range 12).filterMap (fun i =>
      let x := 2 * i
      let y := 2 * j
      if y + h.hr.h ≤ 8 ∧ x + h.hr.w ≤ 24 ∧ (if h.hr.die = 1 then x + h.hr.w ≤ 12 else 12 ≤ x) then some (x, y) else none))
  else [(h.hr.x0, h.hr.y0)]

/-- Cores of a heat at an origin. -/
def coresAt (h : Heat) (o : Nat × Nat) : List Nat := rectCores o.1 o.2 h.hr.w h.hr.h

/-- The heats that hold cores of a rectangle. -/
def holders (s : State) (l : List Nat) : List Heat := l.filterMap (fun c => s.heatOf c)

/-- The origin that reservation and pre-emption count on: with PLACE_ANY the first held only by heats of lower priority, else
the first (R289). -/
def candidate (s : State) (h : Heat) : Nat × Nat :=
  ((origins h).find? (fun o => (holders s (coresAt h o)).all (fun x => decide (x.hr.prio < h.hr.prio)))).getD
    ((origins h).headD (h.hr.x0, h.hr.y0))

/-- Whether another head's reservation bars a head from cores (R290). -/
def barred (s : State) (h : Heat) (l : List Nat) : Bool :=
  match s.resv.bind s.heatNo with
  | some (x : Heat) =>
    x.hr.number != h.hr.number && decide (h.hr.prio ≤ x.hr.prio) && l.any (fun c => (coresAt x (candidate s x)).contains c)
  | none => false

/-- Whether a head can launch at an origin (R289, R398; DEDUCED, log 66). -/
def canLaunchAt (s : State) (h : Heat) (o : Nat × Nat) : Bool :=
  let l := coresAt h o
  l.all (fun c => (s.core c).heat == 0) && !barred s h l && !(changesRegions s h && ctxRuns s h.hr.ctx) &&
    h.hr.dies.all (coxUp s) && !(s.bridge.island && h.hr.die == 3) && !awaitsTwin s h

/-- Where a head can launch now. -/
def launchOrigin (s : State) (h : Heat) : Option (Nat × Nat) := (origins h).find? (canLaunchAt s h)

/-- Of two heads, the one of higher priority, then the one that has waited longer (R290). -/
def senior (a b : Heat) : Heat :=
  if b.hr.prio > a.hr.prio ∨ (b.hr.prio = a.hr.prio ∧ b.accepted < a.accepted) then b else a

/-- The best of a list under an order. -/
def bestOf (f : Heat → Heat → Heat) (l : List Heat) : Option Heat :=
  match l with
  | [] => none
  | h :: r => some (r.foldl f h)

/-- Whether a heat of a NUMBER is unfinished. -/
def unfinished (s : State) (n : Nat) : Bool := s.heats.any (fun h => h.hr.number == n && h.st != .complete)

/-- Resume records whose heats have finished meanwhile are their NUMBERs' heats; their places in the queues they have already (R287;
DESIGN CHOICE, log 54). -/
def rejoin (s : State) : State :=
  s.again.foldl (fun s h => if unfinished s h.hr.number then { s with again := s.again ++ [h] } else putHeat h s) { s with again := [] }

/-- The reservation after a change: the senior head among those that could not launch if nothing were reserved, and the one
that holds it (R290, R298; DEDUCED, log 28). -/
def reserve (s0 : State) : State :=
  let s := rejoin s0
  let free := { s with resv := none }
  let l := (heads s).filter (fun h => (launchOrigin free h).isNone || s.resv == some h.hr.number)
  { s with resv := (bestOf senior l).map (fun h => h.hr.number) }

/-- Place of a context in the rotation of a priority: after the context last launched at it (R289). -/
def rotation (s : State) (h : Heat) : Nat := (h.hr.ctx + 15 - tget s.lastAt h.hr.prio 15) % 16

/-- Of two heads, the one to launch: the higher priority, then the first in the rotation (R289). -/
def firstUp (s : State) (a b : Heat) : Heat :=
  if b.hr.prio > a.hr.prio ∨ (b.hr.prio = a.hr.prio ∧ rotation s b < rotation s a) then b else a

/-! ### Freeing cores -/

/-- The core whose unit waits for a read that a failed link lost. -/
def LostReader.core : LostReader → Nat
  | .ap c _ => c
  | .lds c _ => c
  | .filler c _ => c
  | .chunk c _ _ => c

/-- A core leaves its heat: its seat, its requests, the runs of its records, and what failed links owe it end. -/
def freeCore (c : Nat) (s : State) : State :=
  let s := dropReads (fun w => w.core == c) s
  let s := { s with bridge := { s.bridge with writes := s.bridge.writes.map (fun (w : LostWrite) => { w with cores := w.cores.filter (fun x => x != c) }) } }
  let crew := crewOf c
  let s := if (s.crew crew).holder = posOf c then endStint crew s else s
  let s := s.modCrew crew (fun w => { w with reqs := w.reqs.filter (fun p => p != posOf c) })
  let s := { s with lanes := s.lanes.map (fun (p : Nat × Lane) => (p.1, { p.2 with
      reqs := p.2.reqs.filter (fun x => x.1 != c)
      run := p.2.run.filter (fun y => y.core != c) })) }
  let s := s.modDie (dieOf c) (fun d => { d with
    netq := d.netq.filter (fun x => x.1 != c)
    net := d.net.filter (fun j => j.core != c) })
  s.modCore c (fun k => { k with heat := 0, hasSeat := false, stint := 0 })

/-- The netting engine releases the seats of a heat's crews (R323, R370). -/
def dropNetSeat (crew : Nat) (s : State) : State :=
  let s := if (s.crew crew).holder = 4 then endStint crew s else s
  s.modCrew crew (fun w => { w with reqs := w.reqs.filter (fun p => p != 4) })

/-- A heat's cores are freed. -/
def freeCores (h : Heat) (s : State) : State :=
  let l := h.hr.cores.filter (fun c => (s.core c).heat == h.hr.number)
  l.foldl (fun s c => dropNetSeat (crewOf c) (freeCore c s)) s

/-! ### Launch (R293, R270, R300, R328) -/

/-- A pool zeroed, its poison with it (R270). -/
def zeroPool (c : Nat) (s : State) : State :=
  let mine := fun (a : Nat) => decide (poolKey c 0 ≤ a) && decide (a < poolKey (c + 1) 0)
  { s with mem := s.mem.filter (fun (p : Host.Cell) => !mine p.1), bad := s.bad.filter (fun g => !mine g) }

/-- A crew's array passes to a context, the netting engine its last holder (R191, R193, R270). -/
def passCrew (crew ctx : Nat) (s : State) : State :=
  s.modCrew crew (fun w =>
    if w.ctx = some ctx then w else { w with active := Plane.reset, shadow := Plane.reset, last := 4, ctx := some ctx })

/-- A core and its crew pass to a context (R270). -/
def passCore (ctx c : Nat) (s : State) : State :=
  let s := if (s.core c).ctx = some ctx then s else zeroPool c s
  passCrew (crewOf c) ctx s

/-- A die's caches pass to a context: they lose the lines, dirty ones written back first, and the translations of every other
(R270). -/
def passRlc (die ctx : Nat) (s : State) : State :=
  (emptyLines die (fun x => x != ctx) s).modDie die (fun d => { d with tlb := d.tlb.filter (fun p => p.ctx == ctx) })

/-- What lines of a context held while none of its heats had begun is no longer kept for `.inv` loads (R99, R282). -/
def clearPast (ctx : Nat) (s : State) : State :=
  if s.heats.any (fun h => h.begun && h.hr.ctx == ctx) then s else { s with past := s.past.filter (fun p => p.2.ctx != ctx) }

/-- The caches before a launch: with new regions a line may have another home or be no longer cacheable, so every line of the
context leaves them; else what is on its way arrives, so that all copies of a line agree (R265, R272, R99; DESIGN CHOICE, log 18). -/
def readyCaches (h : Heat) (s : State) : State :=
  let other := !h.regions.isEmpty && (s.ctx h.hr.ctx).regions != h.regions
  let f := fun (s : State) (d : Nat) => if other then emptyLines d (fun x => x == h.hr.ctx) s else settleLines d h.hr.ctx s
  clearPast h.hr.ctx (f (f s 0) 1)

/-- The metadata blocks of a context as they stand now (R352). -/
def freshDescs (s : State) (ctx : Nat) : Tbl (List Byte) := (s.ctx ctx).meta2m.map (fun p => (p.1, metaBlock s ctx p.2))

/-- Hint j of a heat as a one-range set (R293). -/
def hintSet (hr : HeatRec) (j : Nat) (b : Nat × Nat) : MustSet :=
  let m : MustSet :=
    { ctx := hr.ctx, prio := hr.prio, st := false, setid := 0xFFFFFF00 + j, heat := hr.number, handle := 0, charge := 0,
      cores := 0, ranges := [(b.1, b.2, 0xFFFF)] }
  { m with charge := setCharge m }

/-- The used hints of a heat are admitted in order, up to the first that fails (R293 step 3); a set that the heat holds since an
earlier launch stays as it is. -/
def admitHints (hr : HeatRec) (s : State) : List ((Nat × Nat) × Nat) → Except Code State
  | [] => .ok s
  | (b, j) :: r =>
    if b.2 = 0 ∨ (admitted s).any (fun m => m.heat == hr.number && m.setid == 0xFFFFFF00 + j) = true then admitHints hr s r
    else
      match setCheck s hr 0 (hintSet hr j b) with
      | some t => .error t.code
      | none => admitHints hr (admitSet (hintSet hr j b) s).1 r

/-- A side at the start of task 0 (R293 step 5). -/
def freshSide (entry : Addr) : SideSt := { SideSt.reset with pc := entry, run := .run, land := true }

/-- The ring image that the loader placed in ring 0 (R41, R131, R145). -/
def freshRing (l : List (BitVec 512)) : Ring :=
  { Ring.reset with wp := BitVec.ofNat 32 l.length, st := if l.isEmpty then .idle else .wait
                    recs := l.zipIdx.map (fun p => (p.2, ⟨p.1, 0, false, p.2⟩)) }

/-- Accumulator tiles that a core keeps: those of its context under the same layout of the pool (DESIGN CHOICE, log 7). -/
def keptTiles (k : Core) (hr : HeatRec) : Tbl (BitVec 262144) :=
  if k.ctx = some hr.ctx ∧ k.vregsCode = nfld hr.part 0 2 then k.tiles else []

/-- A core at the launch of a fresh heat: every register at its reset value, the partition in place (R12, R293). -/
def freshCore (h : Heat) (k : Core) : Core :=
  { Core.reset with
    ap := freshSide h.hr.apEntry, xp := freshSide h.hr.xpEntry, heat := h.hr.number, ctx := some h.hr.ctx
    vregsCode := nfld h.hr.part 0 2, acc := nfld h.hr.part 2 5, cont := nfld h.hr.part 7 4, tiles := keptTiles k h.hr
    rings := [(0, freshRing h.ring)], order := h.ring.length }

/-- Scratchpad bytes of a restored set written, within the scratchpad (R390; DEDUCED, log 58). -/
def restorePart (p : Nat × Nat × List Byte) (s : State) : State :=
  let k := s.core p.1
  let l := p.2.2.take (k.spad - p.2.1)
  writeKey (poolKey p.1 (k.padBase + p.2.1)) l false s

/-- The restores that wait for a launch of a heat that holds their cores (R390). -/
def applyRestores (hr : HeatRec) (s : State) : State :=
  let due := fun (x : Restore) => x.ctx == hr.ctx && x.parts.all (fun p => hr.has p.1)
  let parts := (s.water.restores.filter due).flatMap (fun x => x.parts)
  parts.foldl (fun s p => restorePart p s)
    { s with water := { s.water with restores := s.water.restores.filter (fun x => !due x) } }

/-- Raises held for a core are applied as one (R300). -/
def applyHeld (hr : HeatRec) (s : State) : State :=
  (List.range 16).foldl (fun s i =>
    let ch := s.chan i
    match ch.conf.semCore with
    | some c =>
      if ch.conf.ctx = hr.ctx ∧ hr.has c = true ∧ ch.pend ≠ 0 then
        let s := s.modChan i (fun x => { x with pend := 0 })
        raiseSema c ch.conf.sem ch.pend false (partWrite ch.conf.ctx (ch.conf.block + 0x30) (natBytes 4 0) s)
      else s
    | none => s) s

/-- Steps 4 and 5 of R293 for a fresh heat. -/
def startFresh (h : Heat) (s : State) : State :=
  let s := h.hr.cores.foldl (fun s c => s.modCore c (freshCore h)) s
  (applyHeld h.hr (applyRestores h.hr s)).modHeat h.hr.number (fun x => { x with st := .running, was := .running })

/-- A resume (R328): every section is restored before any unit goes on, and the heat is as its image says. -/
def startResume (h : Heat) (m : Image) (s : State) : State :=
  let s := m.cores.foldl (fun s i => restoreCore h.hr.number h.hr.ctx i s) s
  let s := { s with images := s.images.filter (fun x => !(x.ctx == m.ctx && (x.base == m.base || x.hr.number == h.hr.number))) }
  (applyHeld h.hr (applyRestores h.hr s)).modHeat h.hr.number (fun x => { x with st := m.was, was := m.was })

/-- A launch that fails at step 3 of R293: reported, its sets released, its cores freed. -/
def failLaunch (h : Heat) (code : Code) (s : State) : State :=
  let s := releaseSets (fun m => m.heat == h.hr.number) (freeCores h s)
  postEvent 2 h.hr.ctx h.hr.number code.num none (s.modHeat h.hr.number (fun x => { x with st := .complete }))

/-- Steps 2-5 of R293 for a head at its origin. -/
def launchHeat (h0 : Heat) (o : Nat × Nat) (s : State) : State :=
  let tb := (s.die 0).tb.toNat
  let s := readyCaches h0 s
  let h := { h0 with hr := { h0.hr with x0 := o.1, y0 := o.2 }, active := tb, stalled := false
                     launched := if h0.hr.resume then h0.launched else s.launches
                     descs := some (h0.descs.getD (freshDescs s h0.hr.ctx)) }
  let s := (dequeueHeat h0 s).modHeat h.hr.number (fun _ => h)
  let s := { s with lastAt := tset s.lastAt h.hr.prio h.hr.ctx, launches := if h.hr.resume then s.launches else s.launches + 1 }
  let s := h.hr.cores.foldl (fun s c => s.modCore c (fun k => { k with heat := h.hr.number })) s
  let s := if h.regions = [] then s else s.modCtx h.hr.ctx (fun x => { x with regions := h.regions })
  match admitHints h.hr s (h.hr.hints.zipIdx) with
  | .error code => failLaunch h code s
  | .ok s =>
    let s := h.hr.cores.foldl (fun s c => passCore h.hr.ctx c s) s
    let s := h.hr.dies.foldl (fun s d => passRlc d h.hr.ctx s) s
    match h.hr.resume, imageFor s h.hr with
    | true, some m => startResume h m s
    | true, none => failLaunch h .illegal s
    | false, _ => startFresh h s

/-- Whether the coxes that act lead every die of a head (R398, R399). -/
def led (s : State) (h : Heat) : Bool := h.hr.dies.all (hasLeader s)

/-- HEAT_LAUNCH (R288-R293): a head that names an absent die is reported and removed; else, of the heads that can launch and whose
dies are led, the one that comes first is launched. -/
def execHeatLaunch (s : State) : Res :=
  .next (
    if isReady s = false ∨ (hasLeader s 0 = false ∧ hasLeader s 1 = false) then s
    else
      match (heads s).find? (headAbsent s) with
      | some h => reserve (failLaunch h .dieAbsent (dequeueHeat h s))
      | none =>
        match bestOf (firstUp s) ((heads s).filter (fun h => (launchOrigin s h).isSome && led s h)) with
        | some h => reserve (launchHeat h ((launchOrigin s h).getD (0, 0)) s)
        | none => s)

/-! ### Pre-emption (R291, R323, R324) -/

/-- Whether a head can pre-empt a holder: it runs, is stopped or halted, has lower priority, and an image has room. A heat
that the bridge stopped is not pre-empted (DEDUCED, log 28). -/
def canPreempt (s : State) (h x : Heat) : Bool :=
  decide (x.hr.prio < h.hr.prio) && (x.st == .saving || (!x.bridge && (imageRoom s x.hr.ctx (imageSize (x.hr.w * x.hr.h))).isSome))

/-- Whether a unit of a core is to complete a read that a failed link lost though its heat is being saved: a filler for a run
that an `sld` has reserved. Everything else is discarded, and runs again (R103, R125, R145). -/
def finishesRead (s : State) : LostReader → Bool
  | .filler c n => (tfind (s.core c).streams n).any (fun st => !st.slds.isEmpty)
  | _ => false

/-- The lanes that a heat's runs hold, and its requests of lanes, are given up: a run is stopped by a pre-emption, and replays (R145,
R346). -/
def freeLanes (number : Nat) (s : State) : State :=
  let mine := fun (c : Nat) => (s.core c).heat == number
  { s with lanes := s.lanes.map (fun (p : Nat × Lane) => (p.1, { p.2 with
      reqs := p.2.reqs.filter (fun x => !mine x.1), run := p.2.run.filter (fun y => !mine y.core) })) }

/-- A heat being saved, its image to be written at a place of its context's save area. -/
def markSaving (x : Heat) (s : State) : State :=
  match imageRoom s x.hr.ctx (imageSize (x.hr.w * x.hr.h)) with
  | some b =>
    dropReads (fun w => (s.core w.core).heat == x.hr.number && !finishesRead s w)
      ((freeLanes x.hr.number s).modHeat x.hr.number (fun y => { y with st := .saving, was := y.st, saveAt := b }))
  | none => s

/-- The netting engine's stop: the receivers of a heat's NET records whose messages have all left the array are completed, and then its
seats and its requests for seats on the heat's crews are given up (R323, R370). -/
def finishNets (x : Heat) (s : State) : State :=
  let s := [0, 1].foldl (fun s d =>
    match (s.die d).net with
    | some j =>
      if (s.core j.core).heat = x.hr.number then
        (finishReceivers d (asSide j.core .ap (noLink (s.modHeat x.hr.number (fun y => { y with st := .running }))))).modHeat x.hr.number
          (fun y => { y with st := x.st })
      else s
    | none => s) s
  (x.hr.cores.filter (fun c => (s.core c).heat == x.hr.number)).foldl (fun s c => dropNetSeat (crewOf c) s) s

/-- A heat's units stop, to be saved (R323, R370). -/
def stopForSave (x : Heat) (s : State) : State := markSaving x (finishNets x s)

/-- The holders that stand in a head's way and are not being saved yet, each once. -/
def toPreempt (s : State) (h : Heat) : List Heat :=
  ((holders s (coresAt h (candidate s h))).filter (fun x => x.st != .saving)).foldl (fun l x => if l.contains x then l else l ++ [x]) []

/-- Whether images of all of them have room together. -/
def roomForAll (l : List Heat) (s : State) : Bool :=
  (l.foldl (fun (p : State × Bool) x =>
    (markSaving x p.1, p.2 && (imageRoom p.1 x.hr.ctx (imageSize (x.hr.w * x.hr.h))).isSome)) (s, true)).2

/-- Whether a waiting head pre-empts (R291). -/
def preempts (s : State) (h : Heat) : Bool :=
  let l := coresAt h (candidate s h)
  (launchOrigin s h).isNone && !headAbsent s h && !awaitsTwin s h && led s h && !barred s h l && (holders s l).all (canPreempt s h) &&
    !(toPreempt s h).isEmpty && roomForAll (toPreempt s h) s

/-- PREEMPT (R291): the senior head that can pre-empts every lower-priority holder of its cores. -/
def execPreempt (s : State) : Res :=
  .next (
    if isReady s = false ∨ (hasLeader s 0 = false ∧ hasLeader s 1 = false) then s
    else
      match bestOf senior ((heads s).filter (preempts s)) with
      | some h =>
        reserve ((toPreempt s h).foldl (fun s x => stopForSave x s)
          { s with claims := if s.claims.contains h.hr.number then s.claims else s.claims ++ [h.hr.number] })
      | none => s)

/-- Whether a failed link still carries a read of a heat's core, or a write whose loss one of its cores is to be told (R314, R315,
R329). -/
def awaitsLost (s : State) (h : Heat) : Bool :=
  s.bridge.reads.any (fun r => h.hr.has r.who.core) || s.bridge.writes.any (fun w => w.cores.any h.hr.has)

/-- PREEMPT_SAVE_DONE (R323, R325, R291): the image is written, the cores freed, the resume record queued, in a queue that a leader
owns (R398). -/
def execPreemptSaveDone (num : Nat) (s : State) : Res :=
  .next (
    match s.heatNo num with
    | some h =>
      if isReady s = false ∨ h.st ≠ .saving ∨ awaitsLost s h = true ∨ h.hr.dies.any (hasLeader s) = false then s
      else
        let s := h.hr.cores.foldl (fun s c => settleCore c s) s
        let s := storeImage (imageOf h s) s
        let s := freeCores h s
        let h' := { h with st := .queued, regions := [], hr := { h.hr with resume := true, any := false, image := h.saveAt } }
        reserve (enqueueHeat h' s)
    | none => s)

/-! ### Completion (R296) -/

/-- Whether a core has nothing left to do for its heat: a delivery that waits keeps it (R317, R337; DEDUCED, log 65). -/
def coreDone (k : Core) : Bool :=
  k.ap.run == .idle && k.xp.run == .idle && k.ap.tq.isEmpty && k.xp.tq.isEmpty && k.pool.isEmpty && quiet k &&
    k.pending.isEmpty && k.held.isEmpty

/-- Source streams still open are closed and their rings released; a sink keeps what it shows (R296 step 1, R337). -/
def closeStreams (h : Heat) (s : State) : State := h.hr.cores.foldl (fun s c => s.modCore c (fun k => { k with streams := k.streams.filter (fun p => opSink p.2.openw) })) s

/-- A heat ends: its sets are released, its event posted, its cores freed. -/
def endHeat (h : Heat) (code : Nat) (s : State) : State :=
  let s := releaseSets (fun m => m.heat == h.hr.number) s
  let s := flushDie 1 (flushDie 0 s)
  let s := postEvent 1 h.hr.ctx h.hr.number code none s
  (freeCores h s).modHeat h.hr.number (fun x => { x with st := .complete })

/-- HEAT_COMPLETE (R296); a loss still to be told to one of its cores keeps a heat as a delivery does (R315; DEDUCED, log 65). -/
def execHeatComplete (num : Nat) (s : State) : Res :=
  .next (
    match s.heatNo num with
    | some h =>
      if isReady s = false ∨ h.st ≠ .running ∨ h.hr.cores.all (fun c => coreDone (s.core c)) = false ∨ awaitsLost s h = true ∨
          h.hr.dies.any (hasLeader s) = false then s
      else reserve (endHeat h 0 (closeStreams h s))
    | none => s)

/-! ### The stall detector (R301, R302) -/

/-- STALL_US of a heat, in nanoseconds. -/
def stallNs (h : Heat) : Nat := (if h.hr.stallUs = 0 then 10000 else h.hr.stallUs) * 1000

/-- Whether a matrix word waits for the seat: a `seat` before its grant, or a word that needs the seat with STINT_LEFT 0. -/
def onSeat (k : Core) (q : QWord) : Bool := q.isSeat || (q.needsSeat && k.stint == 0)

/-- Whether an engine of a core has a word that waits for a port, a queue or scales: one in progress, or the next to start, that
does not wait for the seat. -/
def portWait (k : Core) : Bool :=
  [Eng.vec, Eng.pass, Eng.load, Eng.func].any (fun e =>
    ((k.slot e).map (fun w => w.q)).any (fun q => !onSeat k q) ||
      ((k.slot e).isNone && (nextQueued k e).any (fun q => mayStart k q && !onSeat k q)))

/-- State of a blocked side: the XP shows 1 while a queued word waits at a port, whatever its own word; else the side shows what its
word at the pc waits for (R252, R302; DEDUCED, log 29). -/
def sideState (s : State) (c : Nat) (sd : Side) : Nat :=
  let k := s.core c
  if sd = .xp ∧ portWait k = true then 1
  else
    match (k.side sd).run with
    | .stopped => 4
    | .idle => if sd = .xp ∧ k.unfinished ≠ [] then 5 else 0
    | .run =>
      match fetchWord s c (k.side sd).pc with
      | .error _ => 5
      | .ok (s, w) =>
        match decodeAt s c sd (k.side sd).pc w with
        | .error _ => 5
        | .ok (_, i) =>
          match i with
          | .qput _ _ | .qget _ _ | .xpQput _ _ | .xpQget _ _ => 1
          | .nset x => if 96 ≤ x then 1 else 5
          | .cmd _ _ _ | .cengWait _ _ _ => 2
          | .endTask => 3
          | _ => 5

/-- RING j of a core's entry (R302). -/
def ringEntry (g : Ring) : Nat :=
  g.st.num + (match g.head with
    | some e => rkAwaitKind e.bytes * 2 ^ 8 + rkAwait e.bytes * 2 ^ 16 + rkAwaitN e.bytes * 2 ^ 24
    | none => 0) + g.rp.toNat * 2 ^ 32

/-- A core's entry of a snapshot (R302). -/
def snapCore (s : State) (c : Nat) : List Byte :=
  let k := s.core c
  layout 64 ([(0, natBytes 2 c), (2, natBytes 1 (sideState s c .ap)), (3, natBytes 1 (sideState s c .xp)),
    (4, natBytes 2 k.ap.tq.length), (6, natBytes 2 k.xp.tq.length), (8, natBytes 2 k.pool.length),
    (0x30, bvBytes 8 k.ap.pc), (0x38, bvBytes 8 k.xp.pc)] ++
    [0, 1, 2, 3].map (fun j => (0x10 + 8 * j, natBytes 8 (ringEntry (k.ring j)))))

/-- The snapshot of a quiet heat (R302). -/
def snapshotOf (s : State) (h : Heat) : List Byte :=
  let tb := (s.die 0).tb.toNat
  layout 64 [(0, natBytes 1 Code.stall.num), (1, natBytes 1 h.hr.ctx), (2, natBytes 2 (h.hr.w * h.hr.h)), (4, natBytes 4 h.hr.number),
    (8, natBytes 8 tb), (16, natBytes 8 (tb - h.active))] ++ h.hr.cores.flatMap (snapCore s)

/-- STALL (R301): reported once per quiet interval, while the coxes of the heat's dies are up (R398; DEDUCED, log 20). -/
def execStall (num : Nat) (s : State) : Res :=
  .next (
    match s.heatNo num with
    | some h =>
      if isReady s = true ∧ h.st = .running ∧ h.stalled = false ∧ h.active + stallNs h ≤ (s.die 0).tb.toNat ∧ h.hr.dies.all (coxUp s) = true then
        let snap := snapshotOf s h
        (postEvent 4 h.hr.ctx num Code.stall.num none s).modHeat num (fun x => { x with stalled := true, snapshot := snap })
      else s
    | none => s)

/-- The quiet interval of the heats on whose cores something counted happened ends (R301; DEDUCED, log 29). -/
def noteActivity (s : State) : State :=
  { s.acted.foldl (fun s c => s.modHeat (s.core c).heat (fun h => { h with active := (s.die 0).tb.toNat, stalled := false })) s with
    acted := [] }

/-! ### Faults (R317-R321) -/

/-- FAULT_DELIVERY. -/
def execFaultDelivery (c : Nat) (s : State) : Res := .next (deliverFault c s)

/-! ### Submission (R287, R401 LAUNCH, R300) -/

/-- A record that passes R287 is queued: a fresh one takes the next NUMBER, a resume one the state and the first acceptance of its
image (R290). -/
def submit (l : List Byte) (regions : List RegionEntry) (ring : List (BitVec 512)) (fw : Bool) (s : State) : Except Code (State × Nat) :=
  let r := heatRecOf l
  match recordFault s l (if regions.isEmpty then (s.ctx r.ctx).regions else regions) fw with
  | some c => .error c
  | none =>
    let n := if r.resume then r.number else s.nextNum
    let m := if r.resume then imageFor s r else none
    let was := m.elim .running (fun m => m.was)
    let h : Heat :=
      { hr := { r with number := n }, st := .queued, was := was, regions := regions, ring := ring
        accepted := m.elim s.accepts (fun m => m.accepted), launched := m.elim 0 (fun m => m.launched)
        active := 0, stalled := false, bridge := false, lanes := [], reports := [], snapshot := [], saveAt := r.image, descs := none }
    let s := { s with accepts := s.accepts + 1
                      nextNum := if r.resume then s.nextNum else if s.nextNum + 1 = 2 ^ 32 then 1 else s.nextNum + 1 }
    .ok (reserve (joinQueue h (if unfinished s n then { s with again := s.again ++ [h] } else putHeat h s)), n)

end Sys2Proof.Machine
end

