-- ==== Sys2Proof/Machine/Intake.lean ====
section
/-! DEFINITION. Intake channels (R299, R300). -/

namespace Sys2Proof.Machine

/-! ### Channels (R299) -/

/-- A field of a channel's control block written. -/
def putField (i off : Nat) (l : List Byte) (s : State) : State :=
  let ch := s.chan i
  partWrite ch.conf.ctx (ch.conf.block + off) l s

/-- RP of a channel, as home holds it. -/
def chanRp (s : State) (ch : Channel) : Nat := bytesNat (memRead s.mem (globKey ch.conf.ctx (ch.conf.block + 8)) 8)

/-- Occupancy of a channel, enabled or not: ring bytes reserved and not passed by RP, and the launch records not yet taken (R300). -/
def occupancy (s : State) (ch : Channel) : Nat :=
  (ch.resv - chanRp s ch) + ch.launches.foldl (fun n x => n + x.len) 0

/-- Total occupancy. -/
def totalOcc (s : State) : Nat := (List.range 16).foldl (fun n i => n + occupancy s (s.chan i)) 0

/-- STATE of a channel: enabled, and being shed (R299). -/
def chanState (s : State) (i : Nat) : Nat := (s.chan i).conf.enable.toNat + (s.shed == some i).toNat * 2

/-- STATE of a channel's control block. -/
def putState (i : Nat) (s : State) : State := putField i 0x1D (natBytes 1 (chanState s i)) s

/-- The channel to shed: the lowest PRIO with occupancy, among equals the highest number (R300). -/
def shedChoice (s : State) : Option Nat :=
  (((List.range 16).filter (fun i => decide (0 < occupancy s (s.chan i)))).foldl (fun o i =>
    match o with
    | none => some i
    | some j => if (s.chan i).conf.prio ≤ (s.chan j).conf.prio then some i else some j) (none : Option Nat))

/-- Shedding ends when the total falls below LOW (R300). -/
def endShedding (s : State) : State :=
  match s.shed with
  | some i => if totalOcc s < s.low then putState i { s with shed := none } else s
  | none => s

/-- The tests of R300 after a decision. -/
def testShedding (s : State) : State :=
  let s :=
    if s.shed.isNone = true ∧ totalOcc s > s.high then
      match shedChoice s with
      | some i => putState i { s with shed := some i }
      | none => s
    else s
  endShedding s

/-- The part reads RP of every channel at its home, as an acquire (R300). -/
def acquireRps (s : State) : State :=
  (List.range 16).foldl (fun s i =>
    let ch := s.chan i
    if ch.conf.size ≠ 0 then (partRead ch.conf.ctx (ch.conf.block + 8) 8 s).1 else s) s

/-! ### Records (R299, R300) -/

/-- LEN of a header. -/
def hdrLen (h : List Byte) : Nat := fieldAt h 0 4

/-- KIND of a header. -/
def hdrKind (h : List Byte) : Nat := fieldAt h 4 1

/-- Whether a header is malformed for a channel (R300). -/
def hdrBad (ch : Channel) (h : List Byte) : Bool :=
  !isMul (hdrLen h) 64 || decide (hdrLen h < 64) || decide (ch.conf.size < hdrLen h) || decide (1 < hdrKind h) ||
    fieldAt h 5 3 != 0 || (hdrKind h == 1 && decide (hdrLen h < 192))

/-- Bytes of the window's stream that a record takes (R300). -/
def takenBytes (ch : Channel) (h : List Byte) : Nat := if hdrBad ch h then Nat.max 64 (roundUp (hdrLen h) 64) else hdrLen h

/-- Where a data record starts: at the next multiple of SIZE when it would pass the end of the ring (R299). -/
def recordStart (ch : Channel) (len : Nat) : Nat :=
  if ch.resv % ch.conf.size + len > ch.conf.size then roundUp (ch.resv + 1) ch.conf.size else ch.resv

/-- Whether a data record fits (R300). -/
def recordFits (s : State) (ch : Channel) (len : Nat) : Bool := decide (recordStart ch len + len ≤ chanRp s ch + ch.conf.size)

/-- A counter of a channel raised, in the channel and its block. -/
def bumpFull (i : Nat) (s : State) : State :=
  let s := s.modChan i (fun x => { x with full := x.full + 1 })
  putField i 0x14 (bvBytes 4 (s.chan i).full) s

/-- SHED of a channel raised. -/
def bumpShed (i : Nat) (s : State) : State :=
  let s := s.modChan i (fun x => { x with shed := x.shed + 1 })
  putField i 0x10 (bvBytes 4 (s.chan i).shed) s

/-- ACCEPTED of a channel raised. -/
def bumpAccepted (i : Nat) (s : State) : State :=
  let s := s.modChan i (fun x => { x with accepted := x.accepted + 1 })
  putField i 0x18 (bvBytes 4 (s.chan i).accepted) s

/-- The channel whose oldest data record is the oldest of all that are accepted and not committed (R300). -/
def oldestChan (s : State) : Option Nat :=
  (List.range 16).foldl (fun o i =>
    match (s.chan i).data.head?, o.bind (fun j => (s.chan j).data.head?) with
    | none, _ => o
    | some _, none => some i
    | some d, some e => if d.order < e.order then some i else o) none

/-- Acceptance number of a data record: after those of every record still to be committed. -/
def nextOrder (s : State) : Nat := (List.range 16).foldl (fun n i => (s.chan i).data.foldl (fun n d => Nat.max n (d.order + 1)) n) 0

/-- A record accepted: a data record reserves ring bytes, a launch record waits for the cox; its header gets TIME (R299). -/
def acceptRecord (i : Nat) (h pay : List Byte) (s : State) : State :=
  let ch := s.chan i
  let len := hdrLen h
  let start := recordStart ch len
  let l := h.take 8 ++ natBytes 8 (s.die 0).tb.toNat ++ pay
  let s := s.modChan i (fun x =>
    if hdrKind h = 0 then
      { x with resv := start + len, data := x.data ++ [⟨i, start, len, start + len - x.resv, nextOrder s, l⟩] }
    else { x with launches := x.launches ++ [⟨i, 0, len, len, 0, l⟩] })
  bumpAccepted i s

/-- The decision on a record whose header arrives (R300). -/
def decideRecord (i : Nat) (h pay : List Byte) (s : State) : State :=
  let ch := s.chan i
  if hdrBad ch h then bumpFull i s
  else if s.shed = some i then bumpShed i s
  else if hdrKind h = 0 ∧ recordFits s ch (hdrLen h) = false then bumpFull i s
  else acceptRecord i h pay s

/-- INTAKE_RECORD (R300): the next record of a window's stream; `pay` are the bytes it takes after its header. The tests of shedding
follow it on a disabled channel too. Writes are dropped before READY (R405). -/
def execIntakeRecord (ch : Nat) (hdr pay : List Byte) (s : State) : Res :=
  .next (
    let x := s.chan ch
    let t := endShedding (acquireRps s)
    if isReady s = false ∨ pay.length + 16 ≠ takenBytes x hdr then s
    else testShedding (if x.conf.enable then decideRecord ch hdr pay t else t))

/-- Whether a raise reaches a core: its heat is of the channel's context and its state is in place (R300). -/
def raiseReaches (s : State) (ctx c : Nat) : Bool :=
  match s.heatOf c with
  | some h => h.hr.ctx == ctx && h.st != .saving
  | none => false

/-- The raise of a committed record, or a raise held (R300). -/
def intakeRaise (i : Nat) (s : State) : State :=
  let ch := s.chan i
  match ch.conf.semCore with
  | some c =>
    if raiseReaches s ch.conf.ctx c then raiseSema c ch.conf.sem 1 false s
    else
      let n := Nat.min (ch.pend + 1) 65535
      putField i 0x30 (natBytes 4 n) (s.modChan i (fun x => { x with pend := n }))
  | none => s

/-- An event toward a context ends the quiet intervals of its heats (R301). -/
def noteContext (ctx : Nat) (s : State) : State :=
  let tb := (s.die 0).tb.toNat
  { s with heats := s.heats.map (fun h => if h.hr.ctx = ctx then { h with active := tb, stalled := false } else h) }

/-- The oldest accepted data record of a channel is written whole, WP advances past it, and the raise follows (R300). -/
def commitOldest (ch : Nat) (s : State) : State :=
  let x := s.chan ch
  match x.data with
  | [] => s
  | d :: r =>
    let s := partWrite x.conf.ctx (x.conf.base + d.pos % x.conf.size) d.bytes s
    let wp := d.pos + d.len
    let s := putField ch 0 (natBytes 8 wp) (s.modChan ch (fun y => { y with data := r, wp := wp }))
    endShedding (noteContext x.conf.ctx (intakeRaise ch s))

/-- INTAKE_COMMIT (R300): data records are committed in acceptance order, over all channels. -/
def execIntakeCommit (ch : Nat) (s : State) : Res :=
  .next (if isReady s = true ∧ oldestChan s = some ch then commitOldest ch s else s)

/-- LAUNCH_RECORD_TAKEN (R299, R300): the cox takes the oldest launch record and checks it under R287; one that names another
context is refused. -/
def execLaunchRecordTaken (ch : Nat) (s : State) : Res :=
  .next (
    let x := s.chan ch
    match x.launches with
    | [] => s
    | d :: r =>
      if isReady s = false ∨ (hasLeader s 0 = false ∧ hasLeader s 1 = false) then s
      else
        let l := (d.bytes.drop 16).take 128
        let hr := heatRecOf l
        let refuse := fun (code : Code) (s : State) => postEvent 2 hr.ctx hr.number code.num none s
        let s := acquireRps (s.modChan ch (fun y => { y with launches := r }))
        let s :=
          if hr.ctx ≠ x.conf.ctx then refuse .illegal s
          else
            match submit l [] [] false s with
            | .error c => refuse c s
            | .ok (s, _) => s
        endShedding s)

/-! ### INTAKE (R299, R401) -/

/-- Fields of a control block that INTAKE writes: PRIO, STATE, SEMCORE, BASE, SIZE, SEM, and the bytes that are zero (R299). -/
def configFields (c : IntakeCfg) (state : Nat) : List (Nat × List Byte) :=
  [(0x1C, natBytes 1 c.prio), (0x1D, natBytes 1 state), (0x1E, natBytes 2 (c.semCore.getD 0xFFFF)), (0x20, natBytes 8 c.base),
   (0x28, natBytes 4 c.size), (0x2C, natBytes 1 c.sem), (0x2D, natBytes 3 0), (0x34, natBytes 12 0)]

/-- A channel configured anew, or, with the same block and ring, with its positions and counters kept (DEDUCED, log 30). -/
def configChannel (i : Nat) (c : IntakeCfg) (s : State) : State :=
  let old := s.chan i
  let same := old.conf.ctx == c.ctx && old.conf.block == c.block && old.conf.base == c.base && old.conf.size == c.size
  let s := s.modChan i (fun x => if same then { x with conf := c } else { Channel.reset with conf := c })
  let s := (configFields c (chanState s i)).foldl (fun s f => putField i f.1 f.2 s) s
  let s := if same then s
    else [(0, 8), (0x10, 4), (0x14, 4), (0x18, 4), (0x30, 4)].foldl (fun s f => putField i f.1 (natBytes f.2 0) s) s
  { s with high := c.high, low := c.low }

end Sys2Proof.Machine
end

