-- ==== Sys2Proof/Machine/Power.lean ====
section
/-! DEFINITION. Holding water: supply loss (R380), the sequence (R381-R384, R371, R388), the save area's bytes (R386), power-up
(R391, R402), the health test and the budget (R376, R385), judging (R387), lifetime records (R410) and the reserve's reports
(R376, R412). -/

namespace Sys2Proof.Machine

/-! ### Events of R409 and the error log (R410) -/

/-- An event joins the error log. -/
def logEvent (e : Event) (s : State) : State :=
  let l := s.water.life
  { s with water := { s.water with life := { l with log := tset l.log l.logIdx e, logIdx := (l.logIdx + 1) % 16383 } } }

/-- A report of R409: posted, and logged (DEDUCED, log 31). -/
def report (kind : Nat) (data : Option Nat) (s : State) : State :=
  let (s, e) := plainEvent kind data s
  logEvent e (pushEvent e s)

/-- Whether firmware runs. -/
def firmwareUp (s : State) : Bool := s.water.power == .firmware || s.water.power == .ready

/-! ### Supply loss (R380, R322) -/

/-- Whether the sequence runs or the part is off. -/
def supplyGone (s : State) : Bool := s.water.power == .quiesce || s.water.power == .saving || s.water.power == .off

/-- Every side and engine of the heats stops at its boundary, those of a halted heat too (R322), the netting engines at the end of the
receivers they have begun (R323, R370); POWER is not delivered. -/
def powerStop (s : State) : State :=
  let s := (s.heats.filter (fun h => h.holds && h.st != .saving)).foldl (fun s h => finishNets h s) s
  { s with heats := s.heats.map (fun h => if h.st = .running ∨ h.st = .halted then { h with st := .saving, was := h.st } else h) }

/-- Whether quiescing is over, so that no party runs (R381). -/
def afterQuiesce (s : State) : Bool := s.water.power == .saving || s.water.power == .off

/-- The writes of data records that the ports accepted are performed (R380). -/
def commitAccepted (s : State) : State :=
  ((List.range 16).flatMap (fun i => (s.chan i).data)).foldl (fun s _ => (oldestChan s).elim s (fun i => commitOldest i s)) s

/-- SUPPLY_LOSS (R380): ports close, units stop, what is in flight is performed, caches are written back (DEDUCED, log 56). A read
that a failed link lost is discarded with what it was for, as at a pre-emption (R323). -/
def execSupplyLoss (s : State) : Res :=
  .next (
    if supplyGone s then s
    else
      let s := powerStop (dropReads (fun w => !finishesRead s w) (commitAccepted (noLink s)))
      let s := flushDie 1 (flushDie 0 s)
      { s with water := { s.water with power := .quiesce, lossAt := (s.die 0).tb.toNat, lossEpo := s.water.epoch } })

/-! ### The order and bytes of the save (R381, R382, R384, R386) -/

/-- Priority of a context in the save: the highest of its heats that hold a set. -/
def savePrio (l : List MustSet) (ctx : Nat) : Nat := (l.filter (fun m => m.ctx == ctx)).foldl (fun n m => Nat.max n m.prio) 0

/-- The save order (R382). -/
def saveOrder (l : List MustSet) : List MustSet :=
  (List.range 16).flatMap (fun i => (List.range 16).flatMap (fun ctx =>
    if savePrio l ctx = 15 - i then l.filter (fun m => m.ctx == ctx) else []))

/-- Whether a set names a byte homed on die B or a core of it (R384). -/
def onDieB (s : State) (m : MustSet) : Bool :=
  (setCores m).any (fun c => dieOf c == 1) ||
    m.ranges.any (fun r =>
      if rangeGlobal r then (List.range (r.2.1 / 4096)).any (fun i => decide (64 ≤ s.channelOf m.ctx (r.1 + 4096 * i)))
      else dieOf r.2.2 == 1)

/-- A core of a set's heat: from the core it holds, or from its image when it was pre-empted (R381). -/
def savedCore (s : State) (n c : Nat) : Option ImageCore :=
  if (s.core c).heat = n then some (imageCore s c)
  else ((s.heatNo n).bind (fun h => imageFor s h.hr)).bind (fun m => m.cores.find? (fun i => i.num == c))

/-- Data bytes of a range. -/
def rangeData (s : State) (m : MustSet) (r : Nat × Nat × Nat) : List Byte :=
  if rangeGlobal r then memRead s.mem (globKey m.ctx r.1) r.2.1
  else
    match savedCore s m.heat r.2.2 with
    | some i => memRead i.pool (poolKey r.2.2 (i.core.padBase + r.1)) r.2.1
    | none => List.replicate r.2.1 0

/-- The core sections of a set, in increasing core number. -/
def setSections (s : State) (m : MustSet) : List Byte :=
  (setCores m).flatMap (fun c => ((savedCore s m.heat c).map sectionImage).getD (List.replicate sectionSize 0))

/-- Zero bytes up to the next multiple of 4 KiB. -/
def padding (n : Nat) : List Byte := List.replicate (roundUp n 4096 - n) 0

/-- The data of a set without padding: what the seal's digest covers. -/
def setData (s : State) (m : MustSet) : List Byte := m.ranges.flatMap (rangeData s m) ++ setSections s m

/-- The PLEN bytes of data as written (R382). -/
def paddedData (s : State) (m : MustSet) : List Byte :=
  m.ranges.flatMap (fun r => rangeData s m r ++ padding r.2.1) ++ setSections s m

/-- A set header (R386). -/
def headerImage (w : Water) (prio : Nat) (m : MustSet) : List Byte :=
  layout 4096 ([(0, natBytes 4 0x48444C53), (4, natBytes 2 1), (6, natBytes 1 m.ctx), (7, natBytes 1 prio), (8, natBytes 8 w.lossEpo),
    (0x10, natBytes 4 m.setid), (0x14, natBytes 4 m.heat), (0x18, natBytes 8 (setLength m)), (0x20, natBytes 1 m.ranges.length),
    (0x21, natBytes 1 m.st.toNat), (0x28, natBytes 8 w.lossAt), (0x40, bvBytes 24 m.cores)] ++
    m.ranges.zipIdx.map (fun p => (0x80 + 24 * p.2, rangeBytes p.1)))

/-- A set's seal (R386). -/
def sealImage (w : Water) (m : MustSet) (data : List Byte) : List Byte :=
  layout 4096 [(0, natBytes 4 0x48444C45), (8, natBytes 8 w.lossEpo), (0x10, natBytes 4 m.setid), (0x18, natBytes 8 (setLength m)),
    (0x20, sha3 data)]

/-- All the bytes of a set in the order written. -/
def setImage (s : State) (m : MustSet) : List Byte :=
  headerImage s.water (savePrio s.water.judged m.ctx) m ++ paddedData s m ++ sealImage s.water m (setData s m)

/-- The heat record and state of the heat of a set: of one that waits to be resumed, those that its image holds, the record as it was
launched (R325, R381, R390). -/
def setHeat (s : State) (m : MustSet) : HeatRec × HeatState :=
  match s.heatNo m.heat with
  | some h =>
    if h.st = .queued then ((imageFor s h.hr).map (fun i => (i.hr, i.was))).getD (h.hr, h.was)
    else (h.hr, if h.st = .saving then h.was else h.st)
  | none => (default, .running)

/-- The core sections of a set as the part keeps them beside their bytes (DESIGN CHOICE, log 21). -/
def setKept (s : State) (m : MustSet) : Image :=
  { ctx := m.ctx, base := 0, time := s.water.lossAt, hr := (setHeat s m).1, was := (setHeat s m).2
    accepted := (s.heatNo m.heat).elim s.accepts (fun h => h.accepted)
    launched := (s.heatNo m.heat).elim 0 (fun h => h.launched)
    cores := (setCores m).filterMap (savedCore s m.heat) }

/-- The sequence has nothing more to write. -/
def endSave (s : State) : State := if s.water.left = [] then { s with water := { s.water with power := .off } } else s

/-- The sets of the committed manifest are ordered, those that name die B left out when the bridge is down; nothing is written
while an earlier save awaits release (R382, R384, R389). -/
def startSave (s : State) : State :=
  let l := saveOrder (admitted s)
  let skip := fun m => s.bridgeDown && onDieB s m
  if s.water.awaiting = true ∨ l = [] then { s with water := { s.water with power := .off } }
  else
    endSave { s with water := { s.water with
      power := .saving, lossRan := true, awaiting := true, judged := l, left := l.filter (fun m => !skip m)
      skipped := l.filter skip, cut := none, pos := 0x1000000, written := 0, kept := [] } }

/-- QUIESCE_COMPLETE (R381): once every read and write under way is done, runs that `sld` reserved have committed, and nothing
runs after that. -/
def execQuiesceComplete (s : State) : Res :=
  .next (
    if s.water.power ≠ .quiesce ∨ s.bridge.reads ≠ [] ∨ s.bridge.writes ≠ [] then s
    else startSave (((s.heats.filter Heat.holds).flatMap (fun h => h.hr.cores)).foldl (fun s c => settleCore c s) (noLink s)))

/-- The first n bytes of the current set written: the sequence goes on at the place after the set. -/
def writeSet (m : MustSet) (r : List MustSet) (n : Nat) (s : State) : State :=
  let l := (setImage s m).take n
  let kept := if m.st then s.water.kept ++ [(s.water.pos, setKept s m)] else s.water.kept
  let s := boatWrite s.water.pos l s
  { s with water := { s.water with left := r, pos := s.water.pos + m.charge, written := s.water.written + n, kept := kept } }

/-- Bytes that the drill limit still lets the sequence write, of n (R371). -/
def drillRoom (w : Water) (n : Nat) : Nat :=
  match w.drill with
  | some l => Nat.min n (l - w.written)
  | none => n

/-- SAVE_SET_WRITTEN (R382): the next set is written whole. -/
def execSaveSetWritten (s : State) : Res :=
  .next (
    match s.water.power, s.water.left with
    | .saving, m :: r => if drillRoom s.water m.charge = m.charge then endSave (writeSet m r m.charge s) else s
    | _, _ => s)

/-- The sequence ends n bytes into a set, or where the drill limit ends it before (R371, R388). -/
def cutSave (n : Nat) (s : State) : State :=
  match s.water.left with
  | m :: _ =>
    let n := drillRoom s.water (Nat.min n m.charge)
    let at' := s.water.pos + n
    let s := writeSet m [] n s
    { s with water := { s.water with power := .off, cut := some at' } }
  | [] => { s with water := { s.water with power := .off } }

/-- DRILL_LIMIT_REACHED (R371). -/
def execDrillLimitReached (s : State) : Res :=
  .next (
    match s.water.power, s.water.left with
    | .saving, m :: _ => if drillRoom s.water m.charge = m.charge then s else cutSave m.charge s
    | _, _ => s)

/-- RESERVE_EXHAUSTED (R388): the reserve fails n bytes into the current set, or before the first byte of any. -/
def execReserveExhausted (n : Nat) (s : State) : Res :=
  .next (
    match s.water.power with
    | .saving => cutSave n s
    | .quiesce => cutSave 0 (startSave s)
    | _ => s)

/-! ### Power-up (R391, R402) -/

/-- What the boathouse keeps across power-ups, with the fault history of the bridge's links (R313, R389, R396, R402, R410). -/
def keepWater (w : Water) (strap : Bool) : Water :=
  { Water.reset with
    strap := strap, epoch := w.epoch, man0 := w.man0, man1 := w.man1, lossRan := w.lossRan, awaiting := w.awaiting
    judged := w.judged, skipped := w.skipped, cut := w.cut, dir := w.dir, lossAt := w.lossAt, lossEpo := w.lossEpo, kept := w.kept, owners := w.owners
    minSvn := w.minSvn, preauth := w.preauth, life := w.saved, saved := w.saved }

/-- POWER_UP (R391 step 1): the boot ROM starts; everything but the boathouse is as at reset (DEDUCED, log 60). The model's own counts
of acceptances and first launches go on, so that a heat whose image the save area keeps has waited longer than a new one (R290). -/
def execPowerUp (strap : Bool) (s : State) : Res :=
  .next (
    if s.water.power ≠ .off then s
    else
      { State.reset with
        form := s.form, mem := s.mem.filter (fun p => decide (boatKey 0 ≤ p.1) && decide (p.1 < stageKey 0))
        water := keepWater s.water strap
        bridge := { Bridge.reset with failed := s.bridge.failed, spares := s.bridge.spares }
        host := { HostIf.reset with nonces := s.host.nonces + 1 }
        accepts := s.accepts, launches := s.launches, plan := s.plan, count := s.count, cur := s.cur })

/-! ### Lifetime records (R410) -/

/-- 8-byte counts of a table. -/
def countBytes (n : Nat) (t : Tbl Nat) : List Byte := (List.range n).flatMap (fun i => natBytes 8 (tget t i 0))

/-- An event record's bytes (R403). -/
def eventBytes (e : Event) : List Byte :=
  layout 32 [(0, natBytes 1 e.kind), (1, natBytes 1 e.ctx), (4, natBytes 4 e.number), (8, natBytes 8 e.time), (16, natBytes 1 e.code),
    (24, natBytes 8 e.data)]

/-- Lifetime records as they lie in the boathouse (R410). -/
def lifeFields (l : Life) : List (Nat × List Byte) :=
  [(0x10000, countBytes 128 l.corrHbm), (0x10400, countBytes 192 l.corrPool),
   (0x10A00, (List.range 12).flatMap (fun i => natBytes 8 (tget l.retrains i 0) ++ natBytes 8 (tget l.linkReps i 0))),
   (0x10AC0, (List.range 128).flatMap (fun i => natBytes 8 (tget l.laneReps i 0 + tget l.rowReps i 0))),
   (0x10EC0, natBytes 8 l.powerUps ++ natBytes 8 l.powerFail), (0x11000, countBytes 64 l.temps),
   (0x11200, countBytes 64 l.trend ++ natBytes 8 l.trendIdx), (0xFFFE0, List.replicate 24 0 ++ natBytes 8 l.logIdx)] ++
    l.log.map (fun p => (0x80000 + 32 * p.1, eventBytes p.2))

/-- A second of a die's sensor counted in a bin of its histogram (R410). -/
def countSecond (die bin : Nat) (l : Life) : Life :=
  { l with temps := tset l.temps (32 * die + bin) (tget l.temps (32 * die + bin) 0 + 1), secs := tset l.secs die (tget l.secs die 0 + 1) }

/-- The seconds since power-up that a die's histogram lacks are counted, each in the bin of the temperature then, which is free
(R410; DESIGN CHOICE, log 83). -/
def countSeconds (die : Nat) (s : State) : State :=
  (List.range ((s.die die).tb.toNat / 10 ^ 9 - tget s.water.life.secs die 0)).foldl (fun s _ =>
    let (s, n) := freeNat s
    { s with water := { s.water with life := countSecond die (n % 32) s.water.life } }) s

/-- The cox's lifetime records written to the boathouse. -/
def writeLife (s : State) : State :=
  let s := if s.form.hasDie 1 then countSeconds 1 (countSeconds 0 s) else countSeconds 0 s
  (lifeFields s.water.life).foldl (fun s f => boatWrite f.1 f.2 s) { s with water := { s.water with saved := s.water.life } }

/-- LIFETIME_WRITE (R410): every 10 s, never during hold-water. -/
def execLifetimeWrite (s : State) : Res := .next (if firmwareUp s then writeLife s else s)

/-! ### The health test (R376, R385, R387, R391 steps 5-7) -/

/-- The cap of the budget (R2, R376). -/
def budgetCap (f : Form) : Nat := if f = .la2h then 24 * 2 ^ 20 else 48 * 2 ^ 20

/-- The budget that a capacitance of so many picofarads gives: whole MiB of (17.28 s/F × C − 0.75 ms) × 16 GB/s (R376). -/
def budgetFor (f : Form) (pf : Nat) : Nat := Nat.min ((pf * 27648 - 12 * 10 ^ 11) / (10 ^ 5 * 2 ^ 20) * 2 ^ 20) (budgetCap f)

/-- Whether the last save wrote every byte below an offset: one cut short left no header and no seal beyond (R387, R388; DEDUCED,
log 82). -/
def wroteUpTo (w : Water) (p : Nat) : Bool :=
  match w.cut with
  | some q => decide (p ≤ q)
  | none => true

/-- Whether the header at an offset matches an entry (R387). -/
def headerMatches (s : State) (p : Nat) (m : MustSet) : Bool :=
  let l := boatRead s p 32
  wroteUpTo s.water (p + 4096) && fieldAt l 0 4 == 0x48444C53 && fieldAt l 4 2 == 1 && fieldAt l 8 8 == s.water.lossEpo && fieldAt l 6 1 == m.ctx &&
    fieldAt l 0x10 4 == m.setid && fieldAt l 0x14 4 == m.heat && fieldAt l 0x18 8 == setLength m

/-- The data bytes found in the save area, padding left out. -/
def foundData (s : State) (p : Nat) (m : MustSet) : List Byte :=
  let r := m.ranges.foldl (fun (x : Nat × List Byte) r => (x.1 + roundUp r.2.1 4096, x.2 ++ boatRead s x.1 r.2.1)) (p + 4096, [])
  r.2 ++ boatRead s r.1 ((setCores m).length * sectionSize)

/-- Whether the seal of a set matches (R387). -/
def sealMatches (s : State) (p : Nat) (m : MustSet) : Bool :=
  let l := boatRead s (p + 4096 + setPlen m) 64
  wroteUpTo s.water (p + m.charge) && fieldAt l 8 8 == s.water.lossEpo && fieldAt l 0x10 4 == m.setid && fieldAt l 0x18 8 == setLength m &&
    (l.drop 0x20).take 32 == sha3 (foundData s p m)

/-- Verdict on a set whose header would begin at an offset (R387). -/
def judge (s : State) (p : Nat) (m : MustSet) : Judged :=
  if headerMatches s p m then (if sealMatches s p m then .whole else .torn) else .absent

/-- The directory: every set of the manifest valid at the loss, walked by charges (R387); a set left out for die B takes no place,
for the next was written where it would have begun (R384, R388; DEDUCED, log 55). -/
def judgeAll (s : State) (p : Nat) : List MustSet → List DirRec
  | [] => []
  | m :: r =>
    if s.water.skipped.contains m then ⟨m, .absent, p⟩ :: judgeAll s p r
    else ⟨m, judge s p m, p⟩ :: judgeAll s (p + m.charge) r

/-- The directory is judged once after a loss that ran the sequence (R387). -/
def judgeDir (s : State) : State :=
  if s.water.lossRan then
    { s with water := { s.water with dir := judgeAll s 0x1000000 s.water.judged, lossRan := false } }
  else s

/-- The counter of heat numbers at power-up: one above the largest HEAT of the manifest (R287). -/
def numbersFrom (l : List MustSet) : Nat :=
  let n := l.foldl (fun n m => Nat.max n m.heat) 0 + 1
  if n = 2 ^ 32 then 1 else n

/-- Steps 5-7 of R391 with the bank's measurements: power-up record, lifetime update, manifest and directory, the reports to the
host (R376; what their DATA holds is open: DESIGN CHOICE, log 84), READY. -/
def bringUp (pf uj budget : Nat) (s : State) : State :=
  let w := s.water
  let l := w.life
  let fix := w.preauth.getLsbD 2
  let life := { l with
    rowReps := if fix then l.rowErrs.foldl (fun t p => tset t p.1 (tget t p.1 0 + 1)) l.rowReps else l.rowReps
    rowErrs := if fix then [] else l.rowErrs
    secs := [], corrBank := [], powerUps := l.powerUps + 1, powerFail := l.powerFail + (if w.epoch = 0 then 0 else 1)
    trend := tset l.trend l.trendIdx pf, trendIdx := (l.trendIdx + 1) % 64 }
  let epoch := w.epoch + 1
  let s := { s with water := { w with epoch := epoch, cMeas := pf, energy := uj, budget := budget, healthy := decide (budget ≠ 0)
                                      power := .ready, life := life } }
  let s := boatWrite 0x100000 (natBytes 8 epoch ++ natBytes 8 pf ++ natBytes 8 uj ++ natBytes 8 budget) s
  let s := judgeDir (writeLife s)
  let s := { s with nextNum := numbersFrom (admitted s) }
  let s := if budget < budgetCap s.form then report 9 (some (Config.reserveDetail budget)) s else s
  postPlain 10 (some (Config.powerDetail pf uj budget)) s

/-- HEALTH_TEST (R376): the bank measures so many picofarads. -/
def execHealthTest (pf : Nat) (s : State) : Res :=
  .next (if s.water.power = .firmware then bringUp pf (1296 * pf / 10 ^ 6) (budgetFor s.form pf) s else s)

/-- BANK_CHARGE_TIMEOUT (R412): the bank is reported as failed and B = 0; what it would have measured is not stated. -/
def execBankChargeTimeout (s : State) : Res :=
  .next (
    if s.water.power = .firmware then
      let (s, pf) := freeNat s
      let (s, uj) := freeNat s
      bringUp (pf % 2 ^ 64) (uj % 2 ^ 64) 0 s
    else s)

/-- BANK_OVERVOLTAGE (R412): clamped, and an error event posted. -/
def execBankOvervoltage (s : State) : Res := .next (if firmwareUp s then report 8 none s else s)

end Sys2Proof.Machine
end

