-- ==== Sys2Proof/Machine/Bridge.lean ====
section
/-! DEFINITION. The bridge and its failures (R313-R316, R399, R408), errors and their reports (R409, R410), the remote-line
caches' own steps (R272, R273) and the lease between the coxes (R398). -/

namespace Sys2Proof.Machine

/-! ### Links (R313, R316, R399) -/

/-- Whether a heat has cores on both dies. -/
def twoDie (h : Heat) : Bool := h.holds && h.hr.die == 3

/-- A two-die heat stops, for good but for HEAT_END, and is reported (R316, R399). -/
def bridgeStop (h : Heat) (s : State) : State :=
  let s := s.modHeat h.hr.number (fun x => { x with st := if x.st = .halted then .halted else .stopped, bridge := true })
  postEvent 5 h.hr.ctx h.hr.number Code.linkLost.num none s

/-- Island mode begins and is reported: each cox comes to lead its own die as `acts` says (R398, R399). -/
def enterIsland (s : State) : State :=
  if s.bridge.island then s else postPlain 6 none { s with bridge := { s.bridge with island := true } }

/-- The last link of a kind has failed (R316). -/
def goDown (s : State) : State := if s.bridgeDown then enterIsland ((s.heats.filter twoDie).foldl (fun s h => bridgeStop h s) s) else s

/-- LINK_LOST (R313, R316): the link leaves service and is reported; the last of its kind takes the bridge down. -/
def execLinkLost (l : Nat) (s : State) : Res :=
  .next (
    if s.form.hasDie 1 = false ∨ s.bridge.failed.contains l = true ∨ supplyGone s = true then s
    else
      let s := { s with bridge := { s.bridge with failed := s.bridge.failed ++ [l] } }
      if firmwareUp s then goDown (report 5 (some l) s) else s)

/-! ### What a failed link lost (R314, R315) -/

/-- A step made for a core whose heat may have stopped: chunks and loads in flight complete all the same (R321, R323). -/
def whileLive (c : Nat) (f : State → State) (s : State) : State :=
  match s.heatOf c with
  | some h =>
    let t := f (s.modHeat h.hr.number (fun x => { x with st := .running }))
    t.modHeat h.hr.number (fun x => { x with st := h.st })
  | none => s

/-- The chunk of a ring's head, by its kind. -/
def serveChunk (c r k : Nat) (s : State) : State :=
  let b := headBytes ((s.core c).ring r)
  match rkKind b with
  | 1 => if rkDecode b then decodeChunk c r k s else copyChunk c r k s
  | 2 => raggedChunk c r k s
  | 3 => rowChunk true c r k s
  | 4 => rowChunk false c r k s
  | 5 => accwChunk (recFld b 0x2C 1) c r k s
  | 6 => fillChunk c r k s
  | 7 => laneLoadChunk c r k s
  | _ => s

/-- What the completion of a lost read does for the unit that waits: a load takes POISON, a speculative one poisons its
register, a filler or an engine goes on with poisoned bytes (R311, R314). -/
def completeLost (w : LostReader) (s : State) : State :=
  match w with
  | .ap c ea => takeTrap ⟨.poison, some ea, true⟩ (asSide c .ap s)
  | .lds c d =>
    match ldsOf (s.core c) d with
    | some _ => ldsReturn c d ⟨0, true⟩ s
    | none => s
  | .filler c n => fillerCommit c n (asSide c .ap s)
  | .chunk c r k => serveChunk c r k (asSide c .ap s)

/-- LOST_READ_COMPLETE (R314): a read outstanding on a failed link completes, carrying poison. -/
def execLostReadComplete (j : Nat) (s : State) : Res :=
  .next (
    match s.bridge.reads[j]? with
    | some r =>
      if s.bridge.failed.contains r.link = true ∧ afterQuiesce s = false then
        let s := { s with bridge := { s.bridge with reads := s.bridge.reads.eraseIdx j }
                          cur := { s.cur with link := some r.link, lost := true } }
        whileLive r.who.core (completeLost r.who) s
      else s
    | none => s)

/-- Line address that LINK_LOST delivers: that of the poisoned granule (R318). -/
def lineAddr (w : LostWrite) : Addr := BitVec.ofNat 64 (w.addr.toNat / granuleSize w.key * granuleSize w.key)

/-- A LINK_LOST delivery counts one more line. -/
def mergeLost (l : List Delivery) : List Delivery :=
  match l with
  | [] => []
  | d :: r => if d.source = 7 then { d with w3 := d.w3 + 1 } :: r else d :: mergeLost r

/-- LINK_LOST posted to a core, merged into the one that waits (R315, R317, R318). -/
def postLost (a : Addr) (c : Nat) (s : State) : State :=
  let k := s.core c
  if k.heat = 0 then s
  else if k.pending.any (fun d => d.source == 7) then s.modCore c (fun k => { k with pending := mergeLost k.pending })
  else if k.held.any (fun d => d.source == 7) then s.modCore c (fun k => { k with held := mergeLost k.held })
  else postDelivery c ⟨deliveryWord Code.linkLost.num false 7 0 false none c, a, 1, 0⟩ s

/-- Copies of the line of a granule of HBM leave both caches, a dirty one written back first: the poisoning is a write at home, in the
lost write's place in coherence order (R272, R315). -/
def dropCopies (key : Nat) (s : State) : State :=
  if key < 2 ^ 52 then
    [0, 1].foldl (fun s d => applyInv d (key / 2 ^ 48) (key % 2 ^ 48 / 64) (recallLine d (key / 2 ^ 48) (key % 2 ^ 48 / 64) s)) s
  else s

/-- LOST_WRITE_POISON (R315): the target line of a lost write is poisoned at home, and LINK_LOST posted. -/
def execLostWritePoison (j : Nat) (s : State) : Res :=
  .next (
    match s.bridge.writes[j]? with
    | some w =>
      if s.bridge.failed.contains w.link = true ∧ afterQuiesce s = false then
        let s := poisonKey w.key (dropCopies w.key (noLink { s with bridge := { s.bridge with writes := s.bridge.writes.eraseIdx j } }))
        w.cores.foldl (fun s c => postLost (lineAddr w) c s) s
      else s
    | none => s)

/-! ### Repairs (R408) -/

/-- Whether the owner has authorised a repair in advance. -/
def authorised (s : State) (bit : Nat) : Bool := s.water.preauth.getLsbD bit

/-- Lifetime records changed. -/
def modLife (f : Life → Life) (s : State) : State := { s with water := { s.water with life := f s.water.life } }

/-- A count of a table raised. -/
def bump (t : Tbl Nat) (k : Nat) : Tbl Nat := tset t k (tget t k 0 + 1)

/-- LINK_REPAIR_DONE (R408): failed lanes are moved onto spares, the link retrained and back in service. How many spares it
takes is open (DESIGN CHOICE, log 22). -/
def execLinkRepairDone (l : Nat) (s : State) : Res :=
  .next (
    let used := tget s.bridge.spares l 0
    if s.bridge.failed.contains l = false ∨ authorised s 0 = false ∨ firmwareUp s = false ∨ 4 ≤ used ∨
        s.bridge.reads.any (fun r => r.link == l) = true ∨ s.bridge.writes.any (fun w => w.link == l) = true then s
    else
      let (s, n) := freeNat s
      let s := { s with bridge := { s.bridge with failed := s.bridge.failed.filter (fun x => x != l)
                                                  spares := tset s.bridge.spares l (used + 1 + n % (4 - used)) } }
      modLife (fun x => { x with retrains := bump x.retrains l, linkReps := bump x.linkReps l }) s)

/-- The HBM channels that are held degraded, changed. -/
def setDegraded (l : List Nat) (s : State) : State := { s with water := { s.water with degraded := l } }

/-- HBM_LANE_REPAIR (R408): the repair is counted and no data changes; without authority for it the channel is held degraded and
reported. -/
def execHbmLaneRepair (ch : Nat) (s : State) : Res :=
  .next (
    if s.form.hasDie (ch / 64) = false ∨ firmwareUp s = false then s
    else if authorised s 1 then
      modLife (fun x => { x with laneReps := bump x.laneReps ch }) (setDegraded (s.water.degraded.filter (fun x => x != ch)) s)
    else if s.water.degraded.contains ch then s
    else report 8 (some ch) (setDegraded (s.water.degraded ++ [ch]) s))

/-! ### Errors (R409) -/

/-- Number of a bank of an SRAM: of a pool, a die's shared SRAM, or a remote-line cache. -/
def bankNo : ErrSite → Nat
  | .pool c bank => c * 64 + bank
  | .sram die bank => 2 ^ 24 + die * 2 ^ 20 + bank
  | .rlc die => 2 ^ 26 + die
  | _ => 0

/-- The count of a bank raised. -/
def bumpBank (site : ErrSite) (s : State) : State := modLife (fun x => { x with corrBank := bump x.corrBank (bankNo site) }) s

/-- The count of correctable errors of a bank or channel after one more, and the detail of its report: the channel or bank number
(R403, R409). -/
def countError (site : ErrSite) (s : State) : State × Nat × Option Nat :=
  let l := s.water.life
  let n := tget l.corrBank (bankNo site) 0 + 1
  match site with
  | .hbm ch => (modLife (fun x => { x with corrHbm := bump x.corrHbm ch }) s, tget l.corrHbm ch 0 + 1, some ch)
  | .pool c bank => (modLife (fun x => { x with corrPool := bump x.corrPool c }) (bumpBank site s), n, some bank)
  | .sram _ bank => (bumpBank site s, n, some bank)
  | .rlc _ => (bumpBank site s, n, none)
  | .boathouse => (modLife (fun x => { x with corrBoat := x.corrBoat + 1 }) s, l.corrBoat + 1, none)

/-- Whether this form of the part has the place of an error. -/
def siteHere (s : State) (site : ErrSite) : Bool :=
  match site with
  | .hbm ch => s.form.hasDie (ch / 64)
  | .pool c _ => s.hasCore c
  | .sram die _ => s.form.hasDie die
  | .rlc die => s.form.hasDie die
  | .boathouse => true

/-- ERROR_CORRECTABLE (R409): corrected and counted; an event at the first count and at every 64th. -/
def execErrorCorrectable (site : ErrSite) (s : State) : Res :=
  .next (
    if firmwareUp s = false ∨ siteHere s site = false then s
    else
      let (s, n, d) := countError site s
      if n = 1 ∨ n % 64 = 0 then report 8 d s else s)

/-- The generic address of a byte of a core's pool: a scratchpad byte's in its crew's window (R90); the rest of a pool has none. -/
def poolAddr (s : State) (c off : Nat) : Option Nat :=
  let k := s.core c
  if k.padBase ≤ off ∧ off < k.padBase + k.spad then some (0xF8 * 2 ^ 56 + posOf c * 2 ^ 20 + (off - k.padBase)) else none

/-- The line of a remote-line cache that a key names, with its die (R310). -/
def cachedAt (s : State) (key : Nat) : Option (Nat × RlcLine) :=
  let die := (key - 2 ^ 56) / 2 ^ 52
  let k := (key - 2 ^ 56) % 2 ^ 52
  if key < 2 ^ 56 ∨ 2 ≤ die then none else ((s.die die).line (k / 2 ^ 48) (k % 2 ^ 48 / 64)).map (fun l => (die, l))

/-- The address an event gives for a granule: generic where its place has one, else open (R409; DESIGN CHOICE, log 83). -/
def granuleAddr (s : State) (key : Nat) : Option Nat :=
  if key < 2 ^ 52 then some (granuleOf key % 2 ^ 48)
  else if key < 2 ^ 53 then some (0xF0 * 2 ^ 56 + (granuleOf key - 2 ^ 52) / 2 ^ 28 * 2 ^ 32 + granuleOf key % 2 ^ 24)
  else if key < 2 ^ 54 then poolAddr s ((granuleOf key - 2 ^ 53) / 2 ^ 20) ((granuleOf key - 2 ^ 53) % 2 ^ 20)
  else (cachedAt s key).map (fun p => p.2.line * 64)

/-- Whether a key is that of a byte of HBM, die SRAM or a pool of this part, or of a line that a remote-line cache holds. -/
def keyHere (s : State) (key : Nat) : Bool :=
  if key < 2 ^ 52 then (s.page (key / 2 ^ 48) (key % 2 ^ 48)).isSome
  else if key < 2 ^ 53 then decide ((key - 2 ^ 52) / 2 ^ 28 < 2) && s.form.hasDie ((key - 2 ^ 52) / 2 ^ 28)
  else if key < 2 ^ 54 then s.hasCore ((key - 2 ^ 53) / 2 ^ 20)
  else (cachedAt s key).isSome

/-- The granule of a key poisoned, at home or in the cache that holds it (R310). -/
def poisonGranule (key : Nat) (s : State) : State :=
  match cachedAt s key with
  | some (die, l) => s.modDie die (fun d => d.putLine { l with poison := true })
  | none => poisonKey key s

/-- A row with an uncorrectable error is recorded for repair at power-up (R408; DESIGN CHOICE, log 22). -/
def noteRow (key : Nat) (s : State) : State :=
  if key < 2 ^ 52 then
    let ch := s.channelOf (key / 2 ^ 48) (key % 2 ^ 48)
    modLife (fun x => if x.rowErrs.contains (ch, granuleOf key) then x else { x with rowErrs := x.rowErrs ++ [(ch, granuleOf key)] }) s
  else s

/-- ERROR_UNCORRECTABLE (R310, R409): the granule is poisoned and its address reported. -/
def execErrorUncorrectable (key : Nat) (s : State) : Res :=
  .next (
    if keyHere s key = false ∨ supplyGone s = true then s
    else
      let s := poisonGranule key s
      if firmwareUp s then report 8 (granuleAddr s key) (noteRow key s) else s)

/-- TEMPERATURE_HIGH (R409, R410): a second counted in a bin above 100 °C of the die's histogram, and an error event posted. -/
def execTemperatureHigh (die : Nat) (s : State) : Res :=
  .next (
    if firmwareUp s = false then s
    else
      let (s, n) := freeNat s
      report 8 none (modLife (countSecond die (28 + n % 4)) s))

/-! ### The remote-line caches (R272, R273) -/

/-- RLC_WRITEBACK: a dirty line is written back to its home. -/
def execRlcWriteback (die ctx line : Nat) (s : State) : Res := .next (recallLine die ctx line s)

/-- RLC_INVALIDATE: an invalidation under way arrives, while the bridge is up. -/
def execRlcInvalidate (die ctx line : Nat) (s : State) : Res :=
  .next (if (s.die die).invs.contains (ctx, line) = true ∧ s.bridgeDown = false then applyInv die ctx line s else s)

/-! ### The lease (R398) -/

/-- The cox that leads both dies: 0 is cox S, 1 cox B; none in island mode. -/
def leaderOf (s : State) : Option Nat :=
  if s.bridge.island then none
  else if s.coxS.up = true ∧ s.coxS.lead = true then some 0
  else if s.coxB.up = true ∧ s.coxB.lead = true then some 1
  else none

/-- The part with one cox changed. -/
def State.modCox (s : State) (n : Nat) (f : Cox → Cox) : State :=
  if n = 0 then { s with coxS := f s.coxS } else { s with coxB := f s.coxB }

/-- LEASE_RENEW: every 1 ms the leader's renewal is sent and acknowledged (DEDUCED, log 62). -/
def execLeaseRenew (s : State) : Res :=
  .next (
    match leaderOf s with
    | some n =>
      if firmwareUp s = true ∧ (s.cox (1 - n)).up = true ∧ (s.cox n).acked + 10 ^ 6 ≤ now s ∧
          now s < (s.cox n).acked + 3 * 10 ^ 6 then
        (s.modCox 0 (fun x => { x with acked := now s })).modCox 1 (fun x => { x with acked := now s })
      else s
    | none => s)

/-- LEASE_LAPSE: 3 ms after its last acknowledged renewal the leader no longer acts as leader. -/
def execLeaseLapse (s : State) : Res :=
  .next (
    match leaderOf s with
    | some n =>
      if firmwareUp s = true ∧ (s.cox (1 - n)).up = true ∧ (s.cox n).acked + 3 * 10 ^ 6 ≤ now s then
        s.modCox n (fun x => { x with lead := false, lapsed := true })
      else s
    | none => s)

/-- The follower that may take the lease: up, not the one that held it, 4 ms without a renewal (R398). -/
def taker (s : State) : Option Nat :=
  [1, 0].find? (fun n => (s.cox n).up && !(s.cox n).lead && !(s.cox n).lapsed && decide ((s.cox n).acked + 4 * 10 ^ 6 ≤ now s))

/-- LEASE_TAKEOVER: the follower leads at the next generation, and resets the cox that lapsed. -/
def execLeaseTakeover (s : State) : Res :=
  .next (
    match taker s with
    | some n =>
      if firmwareUp s = false ∨ s.bridge.island = true ∨ s.form.hasDie 1 = false then s
      else
        let g := Nat.max s.coxS.gen s.coxB.gen + 1
        let s := s.modCox (1 - n) (fun x => { x with up := false, lead := false, lapsed := false })
        let s := s.modCox n (fun x => { x with lead := true, gen := g, acked := now s })
        postPlain 7 none s
    | none => s)

/-- COX_RELOAD: the leader's fresh follower. -/
def execCoxReload (s : State) : Res :=
  .next (
    match leaderOf s with
    | some n =>
      if firmwareUp s = false ∨ (s.cox (1 - n)).up = true ∨ s.form.hasDie 1 = false then s
      else
        (s.modCox (1 - n) (fun x => { x with up := true, lead := false, lapsed := false, gen := (s.cox n).gen, acked := now s })).modCox n
          (fun x => { x with acked := now s })
    | none => s)

end Sys2Proof.Machine
end

