-- ==== Sys2Proof/Machine/Mailbox.lean ====
section
/-! DEFINITION. The host's side of the part: BAR0 and the mailbox slots (R400, R402, R405), the event ring's registers (R403),
BAR4 (R405, R406), the xSPI port (R392), and what the part does after every step. -/

namespace Sys2Proof.Machine

/-! ### Slots (R400) -/

/-- A mailbox slot. -/
def State.slot (s : State) (sl : Nat) : Slot := tget s.host.slots sl Slot.reset

/-- The part with its host side changed. -/
def State.modHost (s : State) (f : HostIf → HostIf) : State := { s with host := f s.host }

/-- The part with one slot changed. -/
def State.modSlot (s : State) (sl : Nat) (f : Slot → Slot) : State :=
  s.modHost (fun h => { h with slots := tset h.slots sl (f (tget h.slots sl Slot.reset)) })

/-- The ports are open: the part is powered and no loss of supply has closed them (R380). -/
def portsOpen (s : State) : Bool := !supplyGone s

/-- Code of a slot's STATE. -/
def SlotState.num : SlotState → Nat
  | .idle => 0
  | .pend => 1
  | .run => 2
  | .done => 3

/-- A slot's bytes (R400). -/
def slotBytes (x : Slot) : List Byte :=
  layout 4096 ([(0, bvBytes 4 x.seq), (4, bvBytes 2 x.cmd), (6, bvBytes 2 x.alen), (0xC, natBytes 1 x.st.num), (0xD, bvBytes 1 x.result),
    (0xE, bvBytes 2 x.rlen), (0x10, bvBytes 4 x.doneSeq)] ++ x.data.map (fun p => (0x40 + p.1, [p.2])))

/-! ### Reading BAR0 (R405) -/

/-- The die that leads. -/
def leaderDie (s : State) : Nat := (leaderOf s).getD 0

/-- STATUS (R405). -/
def statusReg (s : State) : Nat :=
  (isReady s).toNat + 2 * s.bridge.island.toNat + 4 * leaderDie s + 8 * (s.form == .la2h).toNat

/-- Bytes of a register block of BAR0 from 0x4000 on. -/
def regBytes (s : State) : List Byte :=
  layout 4096 [(0, bvBytes 4 s.host.evHead), (4, bvBytes 4 s.host.evTail), (8, bvBytes 4 s.host.evOver), (0x40, natBytes 1 s.host.winCtx),
    (0x48, natBytes 8 s.host.winBase), (0x80, bvBytes 32 (Config.nonce s.host.nonces)), (0xC0, natBytes 8 (statusReg s)),
    (0xD0, natBytes 16 Config.serial)]

/-- The event ring's bytes: 256 records (R403). -/
def ringBytes (s : State) : List Byte := layout 8192 (s.host.evRing.map (fun p => (32 * p.1, eventBytes p.2)))

/-- A byte of BAR0; an offset with no register reads zero. -/
def barByte (s : State) (off : Nat) : Byte :=
  if off < 0x1000 then (slotBytes (s.slot 0)).getD off 0
  else if off < 0x2000 then (slotBytes (s.slot 1)).getD (off - 0x1000) 0
  else if off < 0x4000 then (ringBytes s).getD (off - 0x2000) 0
  else if off < 0x5000 then (regBytes s).getD (off - 0x4000) 0
  else 0

/-! ### Writing BAR0 -/

/-- One byte of a number replaced. -/
def setByteAt (v i : Nat) (b : Byte) : Nat := v - v / 256 ^ i % 256 * 256 ^ i + b.toNat * 256 ^ i

/-- A byte written in a slot; the part's own fields and the zeros ignore it. -/
def putSlotByte (off : Nat) (b : Byte) (x : Slot) : Slot :=
  if off < 4 then { x with seq := BitVec.ofNat 32 (setByteAt x.seq.toNat off b) }
  else if off < 6 then { x with cmd := BitVec.ofNat 16 (setByteAt x.cmd.toNat (off - 4) b) }
  else if off < 8 then { x with alen := BitVec.ofNat 16 (setByteAt x.alen.toNat (off - 6) b) }
  else if 0x40 ≤ off then { x with data := tset x.data (off - 0x40) b }
  else x

/-- A byte written at an offset of BAR0. -/
def putBarByte (off : Nat) (b : Byte) (s : State) : State :=
  if off < 0x2000 then s.modSlot (off / 0x1000) (putSlotByte (off % 0x1000) b)
  else if 0x4004 ≤ off ∧ off < 0x4008 then
    s.modHost (fun h => { h with evTail := BitVec.ofNat 32 (setByteAt h.evTail.toNat (off - 0x4004) b) })
  else if off = 0x4040 then s.modHost (fun h => { h with winCtx := b.toNat })
  else if 0x4048 ≤ off ∧ off < 0x4050 then s.modHost (fun h => { h with winBase := setByteAt h.winBase (off - 0x4048) b })
  else s

/-- A byte that the host reads in a BAR other than BAR4: BAR2 reads zero (R405). -/
def barRead (s : State) (bar off : Nat) : Byte := if bar = 0 then barByte s off else 0

/-- Several bytes written, lowest first. -/
def putBarBytes (off : Nat) (l : List Byte) (s : State) : State :=
  match l with
  | [] => s
  | b :: r => putBarBytes (off + 1) r (putBarByte off b s)

/-- Whether a write of bytes at an offset writes 1 to the doorbell of a slot. -/
def ringsSlot (off : Nat) (l : List Byte) (sl : Nat) : Bool :=
  let d := 0x1000 * sl + 8
  decide (off ≤ d) && decide (d < off + l.length) && bytesNat ((l.drop (d - off)).take 4) == 1

/-- A doorbell; one rung while its slot is PEND or RUN is ignored (R402). -/
def ring (sl : Nat) (s : State) : State :=
  let x := s.slot sl
  if x.st = .pend ∨ x.st = .run then s
  else (s.modSlot sl (fun x => { x with st := .pend })).modHost (fun h => { h with rung := h.rung ++ [sl] })

/-- A host write to BAR0. -/
def barWrite (off : Nat) (l : List Byte) (s : State) : State :=
  let s := putBarBytes off l s
  let s := if ringsSlot off l 0 then ring 0 s else s
  if ringsSlot off l 1 then ring 1 s else s

/-- REGISTER_WRITE (R405). -/
def execRegisterWrite (off : Nat) (bytes : List Byte) (s : State) : Res := .next (if portsOpen s then barWrite off bytes s else s)

/-! ### Serving a slot (R400-R402) -/

/-- Command codes (R401). -/
def cmdCodes : List Nat :=
  [0x01, 0x02, 0x03, 0x04, 0x05, 0x06, 0x10, 0x11, 0x12, 0x13, 0x14, 0x20, 0x21, 0x22, 0x23, 0x30, 0x31, 0x32, 0x33, 0x40, 0x41, 0x42]

/-- The slot served next: in the order of the doorbells, slot 0 alone before READY (R400, R402). -/
def nextSlot (s : State) : Option Nat := if isReady s then s.host.rung.head? else s.host.rung.find? (fun sl => sl == 0)

/-- Whether something serves the mailbox: the boot ROM, or the leader of die S (R398, R399). -/
def mailServed (s : State) : Bool := s.water.power == .rom || (firmwareUp s && hasLeader s 0)

/-- Bytes put in a slot's DATA. -/
def putData (l : List Byte) (t : Tbl Byte) : Tbl Byte := l.zipIdx.foldl (fun t p => tset t p.2 p.1) t

/-- A command completes with a result and a response (R400, R403; DESIGN CHOICE, log 32). -/
def finishCmd (sl res : Nat) (resp : List Byte) (s : State) : State :=
  let l := resp.take 4032
  let s := s.modSlot sl (fun x => { x with
    st := .done, result := BitVec.ofNat 8 res, rlen := BitVec.ofNat 16 l.length, doneSeq := x.seq, data := putData l x.data })
  s.modHost (fun h => { h with rung := h.rung.filter (fun n => n != sl), msix := if sl = 1 then h.msix ++ [0] else h.msix })

/-- A command repeated with the SEQ of the last one completes again with its recorded result (R402). -/
def repeatCmd (sl : Nat) (s : State) : State :=
  let s := s.modSlot sl (fun x => { x with st := .done })
  s.modHost (fun h => { h with rung := h.rung.filter (fun n => n != sl), msix := if sl = 1 then h.msix ++ [0] else h.msix })

/-- Argument bytes of a slot (R400). -/
def slotArgs (x : Slot) : List Byte := (List.range (Nat.min x.alen.toNat 4032)).map (fun i => tget x.data i 0)

/-- What a command does: its result, its response and the part after it; none while it waits. -/
abbrev Cmd := State → Option (State × Nat × List Byte)

/-- Whether a slot's command can be served: its turn has come, its CMD is this one, and its argument bytes are those the spec
lays out for these arguments (DESIGN CHOICE, log 16). -/
def servable (sl cmd : Nat) (args : Option (List Byte)) (s : State) : Bool :=
  portsOpen s && mailServed s && nextSlot s == some sl && (s.slot sl).cmd.toNat == cmd &&
    !args.any (fun l => (s.slot sl).alen.toNat != l.length || slotArgs (s.slot sl) != l.take 4032)

/-- A command that has begun and waits: its slot's STATE is RUN (R400). -/
def runSlot (sl : Nat) (s : State) : State := s.modSlot sl (fun x => { x with st := .run })

/-- A slot's command is served when it can be; before READY only FW_LOAD is (R391). -/
def serve (sl cmd : Nat) (args : Option (List Byte)) (f : Cmd) (s : State) : State :=
  let x := s.slot sl
  if servable sl cmd args s = false then s
  else if x.seq = x.doneSeq then repeatCmd sl s
  else if isReady s = false ∧ cmd ≠ 1 then finishCmd sl 0xE2 [] s
  else
    match f s with
    | some (t, res, resp) => finishCmd sl res resp t
    | none => runSlot sl s

/-- Whether a region entry's bytes name a state and a spread (R41). -/
def entryFits (l : List Byte) : Bool := decide (1 ≤ fieldAt l 12 1) && decide (fieldAt l 12 1 ≤ 3) && decide (fieldAt l 13 1 ≤ 2)

/-- Whether a slot's argument bytes are some arguments of its command: OWNER_INSTALL takes whole hashes, LAUNCH a heat record and
whole region entries, SAVE_DIR an index (R401). -/
def argsFit (x : Slot) : Bool :=
  let n := x.alen.toNat
  match x.cmd.toNat with
  | 0x04 => isMul n 32
  | 0x20 => decide (128 ≤ n) && isMul (n - 128) 16 &&
      (List.range (Nat.min ((n - 128) / 16) 244)).all (fun i => entryFits ((slotArgs x).drop (128 + 16 * i)))
  | 0x30 => n == 4
  | _ => true

/-- A result code that the spec does not state: one of R400's (DESIGN CHOICE, log 34). -/
def freeCode (s : State) : State × Nat :=
  let (s, n) := freeNat s
  (s, 0xE1 + n % 5)

/-- A slot that no command can serve completes when its turn comes: with UNKNOWN where its CMD is no command (R400), with a free
code where its argument bytes are no arguments of its command (DESIGN CHOICE, log 34). -/
def answerUnknown (s : State) : State :=
  match nextSlot s with
  | some sl =>
    let x := s.slot sl
    let known := cmdCodes.contains x.cmd.toNat
    if mailServed s = false ∨ portsOpen s = false ∨ (known = true ∧ argsFit x = true) then s
    else if x.seq = x.doneSeq then repeatCmd sl s
    else if known = false then finishCmd sl 0xE1 [] s
    else if isReady s = false then finishCmd sl 0xE2 [] s
    else
      let (s, code) := freeCode s
      finishCmd sl code [] s
  | none => s

/-! ### BAR4 (R405, R406) -/

/-- Global address of the window. -/
def winAddr (s : State) (off : Nat) : Nat := s.host.winBase / 2 ^ 21 * 2 ^ 21 + off

/-- Pieces of an access of n bytes, each in one 4 KiB unit: address, offset in the access, bytes. -/
def unitPieces (fuel va i n : Nat) : List (Nat × Nat × Nat) :=
  match fuel with
  | 0 => []
  | fuel + 1 =>
    if n = 0 then []
    else
      let m := Nat.min n (4096 - va % 4096)
      (va, i, m) :: unitPieces fuel (va + m) (i + m) (n - m)

/-- An access to an unmapped page, reported as an error (R405). -/
def badAccess (va : Nat) (s : State) : State := report 8 (some va) s

/-- HOST_BAR4_WRITE (R405): performed at home in order; dropped before READY, and where no page is mapped. -/
def execHostBar4Write (off : Nat) (bytes : List Byte) (s : State) : Res :=
  .next (
    if isReady s = false ∨ 2 ^ 28 < off + bytes.length then s
    else
      (unitPieces (bytes.length / 4096 + 2) (winAddr s off) 0 bytes.length).foldl (fun s p =>
        if (s.page s.host.winCtx p.1).isSome then partWrite s.host.winCtx p.1 ((bytes.drop p.2.1).take p.2.2) s
        else badAccess p.1 s) s)

/-- HOST_BAR4_READ (R405, R406): bytes at home after any recall; all ones where no page is mapped. -/
def execHostBar4Read (off n : Nat) (s : State) : Res :=
  .next (
    if portsOpen s = false ∨ 2 ^ 28 < off + n then s
    else
      (unitPieces (n / 4096 + 2) (winAddr s off) 0 n).foldl (fun s p =>
        if (s.page s.host.winCtx p.1).isSome then
          let (s, l) := partRead s.host.winCtx p.1 p.2.2 s
          s.modHost (fun h => { h with out := h.out ++ l })
        else badAccess p.1 (s.modHost (fun h => { h with out := h.out ++ List.replicate p.2.2 0xFF })))
        (s.modHost (fun h => { h with out := [] })))

/-! ### xSPI (R392) -/

/-- Bytes of the staging buffer's window. -/
def isStage (a : Nat) : Bool := decide (0x01000000 ≤ a) && decide (a < 0x01402000)

/-- A byte that xSPI reads. -/
def xspiByte (s : State) (a : Nat) : Byte :=
  if a < 0x5000 then barRead s 0 a else if isStage a then memGet s.mem (stageKey (a - 0x01000000)) else 0

/-- What the host reads over xSPI. -/
def xspiOut (l : List Byte) (s : State) : State := s.modHost (fun h => { h with out := l, rstArm := false })

/-- XSPI_READ. -/
def execXspiRead (addr n : Nat) (s : State) : Res :=
  .next (if portsOpen s then xspiOut ((List.range n).map (fun i => xspiByte s (addr + i))) s else s)

/-- Bytes written to the staging buffer; other addresses ignore them. -/
def stageWrite (a : Nat) (l : List Byte) (s : State) : State :=
  match l with
  | [] => s
  | b :: r => stageWrite (a + 1) r (if isStage a then { s with mem := memSet s.mem (stageKey (a - 0x01000000)) b } else s)

/-- XSPI_WRITE: WRITE ENABLE must have come first, and is spent (PRESUMED, log 33). -/
def execXspiWrite (addr : Nat) (bytes : List Byte) (s : State) : Res :=
  .next (
    if portsOpen s = false then s
    else
      let go := s.host.wel
      let s := s.modHost (fun h => { h with wel := false, rstArm := false })
      if go then (if addr < 0x5000 then barWrite addr (bytes.take (0x5000 - addr)) s else stageWrite addr bytes s) else s)

/-- XSPI_WRITE_ENABLE. -/
def execXspiWriteEnable (s : State) : Res :=
  .next (if portsOpen s then s.modHost (fun h => { h with wel := true, rstArm := false }) else s)

/-- XSPI_READ_STATUS: bit 1 is WEL. -/
def execXspiReadStatus (s : State) : Res := .next (if portsOpen s then xspiOut [BitVec.ofNat 8 (2 * s.host.wel.toNat)] s else s)

/-- XSPI_WRITE_CONFIG: 0 selects 1S, 0xE7 selects 8D; another value changes nothing (PRESUMED, log 33). -/
def execXspiWriteConfig (v : BitVec 8) (s : State) : Res :=
  .next (
    if portsOpen s then
      s.modHost (fun h => { h with ddr := if v = 0 then false else if v = 0xE7 then true else h.ddr, rstArm := false })
    else s)

/-- XSPI_READ_SFDP: in 1S mode only. -/
def execXspiReadSfdp (addr n : Nat) (s : State) : Res :=
  .next (
    if portsOpen s = false then s
    else if s.host.ddr then s.modHost (fun h => { h with rstArm := false })
    else xspiOut ((List.range n).map (fun i => Config.sfdp (addr + i))) s)

/-- XSPI_RESET_ENABLE. -/
def execXspiResetEnable (s : State) : Res := .next (if portsOpen s then s.modHost (fun h => { h with rstArm := true }) else s)

/-- XSPI_RESET: directly after RESET ENABLE, back to 1S with the latch clear (PRESUMED, log 33). -/
def execXspiReset (s : State) : Res :=
  .next (
    if portsOpen s = true ∧ s.host.rstArm = true then s.modHost (fun h => { h with ddr := false, wel := false, rstArm := false }) else s)

/-! ### After every step -/

/-- The command served next may be taken up, so that its slot's STATE is RUN before it has an effect; when is free (R400;
DESIGN CHOICE, log 81). -/
def takeUp (s : State) : State :=
  match nextSlot s with
  | some sl =>
    if mailServed s = true ∧ portsOpen s = true ∧ (s.slot sl).st = .pend then
      let (s, n) := freeNat s
      if n % 2 = 1 then runSlot sl s else s
    else s
  | none => s

/-- What the part does beside a step: lines beyond a cache's capacity leave it (R3), quiet intervals end (R301), shedding ends
when an advance of RP allows it (R300), the reservation follows what the heads can do (R290), slots without a command are answered,
and the next command is taken up (R400). -/
def afterStep (after : State) : State :=
  let n := (after.die 0).rlc.length + (after.die 1).rlc.length
  takeUp (answerUnknown (answerUnknown (reserve (endShedding (noteActivity (evictLines n 1 (evictLines n 0 after)))))))

end Sys2Proof.Machine
end

