-- ==== Sys2Proof/Machine/Host.lean ====
section
/-! DEFINITION. The commands of the mailbox (R401): firmware and measurements (R393-R395), owners (R396, R397), contexts and maps
(R263, R266, R345, R351), intake (R299), heats (R287, R407), the save directory (R389, R390), drills, repairs and records (R371,
R408, R410), rejoining (R399). -/

namespace Sys2Proof.Machine

/-! ### Results -/

/-- A command that completes OK with a response. -/
def okay (resp : List Byte) (s : State) : Option (State × Nat × List Byte) := some (s, 0, resp)

/-- A command refused with a code, without effect. -/
def deny (code : Nat) (s : State) : Option (State × Nat × List Byte) := some (s, code, [])

/-- A command refused with a code that the spec does not state: one of its table's (DESIGN CHOICE, log 34). -/
def denyOpen (s : State) : Option (State × Nat × List Byte) :=
  let (s, n) := freeCode s
  some (s, n, [])

/-- A command whose argument numbers a thing of the part: refused with a free code where there is no such thing (DESIGN CHOICE,
log 34). -/
def numbered (n limit : Nat) (f : Cmd) : Cmd := fun s => if n < limit then f s else denyOpen s

/-! ### Measurements (R394) -/

/-- A measurement slot. -/
def State.ms (s : State) (i : Nat) : BitVec 256 := tget s.water.ms i 0

/-- The cox's copy of the slots in the boathouse (R394). -/
def copyMs (s : State) : State := boatWrite 0x2000 ((List.range 8).flatMap (fun i => bvBytes 32 (s.ms i))) s

/-- MSi extended with a digest. -/
def extendMs (i : Nat) (d : BitVec 256) (s : State) : State :=
  copyMs { s with water := { s.water with ms := tset s.water.ms i (sha3v (bvBytes 32 (s.ms i) ++ bvBytes 32 d)) } }

/-- The four owner slots (R396). -/
def ownerBytes (w : Water) : List Byte :=
  layout 256 (w.owners.zipIdx.map (fun p => (64 * p.2, bvBytes 32 p.1 ++ natBytes 1 1)))

/-- Owner slots given, kept in the boathouse, and measured (R394, R396). -/
def setOwners (l : List (BitVec 256)) (s : State) : State :=
  let s := { s with water := { s.water with owners := l } }
  extendMs 3 (sha3v (ownerBytes s.water)) (boatWrite 0 (ownerBytes s.water) s)

/-- The bytes of a command that are signed and measured: CMD, then its arguments (R394, R401). -/
def cmdBytes (cmd : Nat) (args : List Byte) : List Byte := natBytes 2 cmd ++ args

/-- MS4 extended with a command (R394; DEDUCED, log 64). -/
def measure (cmd : Nat) (args : List Byte) (s : State) : State := extendMs 4 (sha3v (cmdBytes cmd args)) s

/-- The owner check on a key (R396). -/
def ownerKey (s : State) (pk : List Byte) : Bool := s.water.owners.contains (sha3v pk)

/-- The owner check on a signed command (R401). -/
def signedOk (s : State) (cmd : Nat) (args : List Byte) (a : OwnerSig) : Bool :=
  s.water.owners.isEmpty || (ownerKey s a.pk &&
    Config.verifies a.pk (sha3 (cmdBytes cmd args ++ bvBytes 32 (Config.nonce s.host.nonces))) a.sig)

/-! ### FW_LOAD (R391, R393) -/

/-- Bytes of the staging buffer. -/
def staged (s : State) (off n : Nat) : List Byte := memRead s.mem (stageKey off) n

/-- Whether bytes are all zero. -/
def allZero (l : List Byte) : Bool := l.all (fun b => b == 0)

/-- The checks of R393 on the staged container. -/
def containerOk (s : State) : Bool :=
  let f := fun off n => bytesNat (staged s off n)
  let len := f 8 4
  f 0 4 == 0x31425254 && f 4 2 == 1 && f 6 2 == 0 && isMul len 4096 && decide (4096 ≤ len) && decide (len ≤ 2 ^ 22) &&
    allZero (staged s 0x30 16) && allZero (staged s 0xED4 44) && allZero (staged s 0x1D94 620) &&
    sha3 (staged s 0x40 1312) == sha3 (Config.pubKey 0) &&
    Config.verifies (staged s 0x40 1312) (staged s 0 0x40) (staged s 0x560 2420) &&
    staged s 0x10 32 == sha3 (staged s 0x2000 len) && decide (s.water.minSvn ≤ f 0xC 4) &&
    (s.water.owners.isEmpty || (ownerKey s (staged s 0xF00 1312) &&
      Config.verifies (staged s 0xF00 1312) (staged s 0 0x40) (staged s 0x1420 2420)))

/-- The measurements at boot (R394). -/
def measureBoot (s : State) : State :=
  let s := extendMs 0 (Config.romDigest 0) s
  let s := if s.form.hasDie 1 then extendMs 1 (Config.romDigest 1) s else s
  let s := extendMs 2 (sha3v (staged s 0 0x40)) s
  extendMs 3 (sha3v (ownerBytes s.water)) s

/-- Firmware starts: cox S leads at generation 1, cox B follows. With the bridge down, or when die B's own check of the container
fails, die B is held in reset and the part runs in island mode (R391, R398; DESIGN CHOICE, log 85). -/
def startFirmware (s : State) : State :=
  let b := s.form.hasDie 1 && !s.bridgeDown && Config.dieBPasses s.count
  let s := { s with
    count := s.count + 1, water := { s.water with power := .firmware }, coxS := ⟨true, true, false, 1, now s⟩
    coxB := ⟨b, false, false, 1, now s⟩ }
  if s.form.hasDie 1 = true ∧ b = false then enterIsland s else s

/-- FW_LOAD. -/
def execFwLoad (sl : Nat) (s : State) : Res :=
  .next (serve sl 0x01 none (fun s =>
    if s.water.power ≠ .rom then deny 0xE4 s
    else if containerOk s then okay [] (startFirmware (measureBoot s))
    else denyOpen s) s)

/-! ### QUOTE, EXTEND (R394, R395) -/

/-- The signed part of a quote (R395). -/
def quoteBody (s : State) (nonce : BitVec 256) (mask : BitVec 8) : List Byte :=
  layout 0x180 ([(0, natBytes 4 0x54454F51), (4, natBytes 4 1), (8, natBytes 16 Config.serial), (0x18, bvBytes 32 nonce),
    (0x38, bvBytes 1 mask), (0x40, natBytes 8 s.water.epoch), (0x148, natBytes 1 (!s.water.owners.isEmpty).toNat)] ++
    (List.range 8).map (fun i => (0x48 + 32 * i, if mask.getLsbD i then bvBytes 32 (s.ms i) else List.replicate 32 0)))

/-- The identity key and its certificate (R395). -/
def identity : List Byte := Config.pubKey 2 ++ Config.certificate

/-- QUOTE; MASK 0 asks for the identity. -/
def execQuote (sl : Nat) (nonce : BitVec 256) (mask : BitVec 8) (s : State) : Res :=
  .next (serve sl 0x02 none (fun s =>
    if mask = 0 then okay identity s
    else okay (quoteBody s nonce mask ++ Config.deviceSign (quoteBody s nonce mask)) s) s)

/-- QUOTE with MASK 0. -/
def execQuoteIdentity (sl : Nat) (s : State) : Res := .next (serve sl 0x02 none (okay identity) s)

/-- EXTEND. -/
def execExtend (sl j : Nat) (dig : BitVec 256) (s : State) : Res :=
  .next (serve sl 0x03 none (fun s => if j < 5 then deny 0xE5 s else numbered j 8 (fun s => okay [] (extendMs j dig s)) s) s)

/-! ### Owners (R396, R397) -/

/-- OWNER_INSTALL. -/
def execOwnerInstall (sl : Nat) (hs : List (BitVec 256)) (s : State) : Res :=
  .next (serve sl 0x04 (some (hs.flatMap (bvBytes 32))) (fun s =>
    if s.water.owners ≠ [] then deny 0xE3 s
    else if hs = [] ∨ 4 < hs.length then deny 0xE5 s
    else okay [] (setOwners hs s)) s)

/-- Whether a heat is queued, running, stopped or halted. -/
def heatsPresent (s : State) : Bool := s.heats.any (fun h => h.st != .complete)

/-- A token's layout, serial and nonce (R396). -/
def tokenOk (s : State) (magic : Nat) (t : List Byte) : Bool :=
  t.length == 0xECC && fieldAt t 0 4 == magic && fieldAt t 4 4 == 0 && fieldAt t 8 16 == Config.serial % 2 ^ 128 &&
    (t.drop 0x18).take 32 == bvBytes 32 (Config.nonce s.host.nonces) &&
    Config.verifies ((t.drop 0x38).take 1312) (t.take 0x38) (t.drop 0x558)

/-- Signer of a token. -/
def tokenKey (t : List Byte) : List Byte := (t.drop 0x38).take 1312

/-- A core's pool with nothing in it; no heat holds the core. -/
def wipeCore (k : Core) : Core :=
  { k with vregs := [], tiles := [], pool := [], rings := [], semas := [], bars := [], streams := [], hold := [], holdBad := none
           holdRing := none }

/-- What an accepted token does (R397). -/
def wipe (s : State) : State :=
  let save := fun (a : Nat) => decide (boatKey 0x100000 + 0x1000 ≤ a) && decide (a < stageKey 0)
  let keep := fun (p : Host.Cell) => decide (boatKey 0 ≤ p.1) && !save p.1
  let s := { s with
    mem := s.mem.filter keep, bad := [], images := []
    cores := s.cores.map (fun (p : Nat × Core) => (p.1, wipeCore p.2))
    dies := s.dies.map (fun (p : Nat × Die) => (p.1, { p.2 with rlc := [], invs := [] }))
    lanes := s.lanes.map (fun (p : Nat × Lane) => (p.1, { p.2 with table := [] }))
    water := { s.water with preauth := 0, drill := none, man0 := Manifest.reset, man1 := Manifest.reset, dir := [], judged := []
                            lossRan := false, kept := [], restores := [] }
    host := { s.host with nonces := s.host.nonces + 1 } }
  setOwners [] s

/-- A token's command (R397; DEDUCED, log 63). -/
def tokenCmd (ok : Bool) (s : State) : Option (State × Nat × List Byte) :=
  if heatsPresent s = true ∨ s.water.awaiting = true then deny 0xE4 s
  else if ok then okay [] (wipe s)
  else deny 0xE3 s

/-- OWNER_RELEASE: signed by an owner. -/
def execOwnerRelease (sl : Nat) (tok : List Byte) (s : State) : Res :=
  .next (serve sl 0x05 (some tok) (fun s => tokenCmd (tokenOk s 0x534C4552 tok && ownerKey s (tokenKey tok)) s) s)

/-- OWNER_RECOVER: signed by the maker's recovery key, with the presence strap held at this power-up. -/
def execOwnerRecover (sl : Nat) (tok : List Byte) (s : State) : Res :=
  .next (serve sl 0x06 (some tok) (fun s =>
    tokenCmd (tokenOk s 0x56434552 tok && sha3 (tokenKey tok) == sha3 (Config.pubKey 1) && s.water.strap) s) s)

/-! ### Contexts (R266, R345, R377, R401) -/

/-- Whether a heat of a context is present. -/
def ctxPresent (s : State) (ctx : Nat) : Bool := s.heats.any (fun h => h.hr.ctx == ctx && h.st != .complete)

/-- Bytes of CTX_CONFIG's arguments, as measured and signed (DESIGN CHOICE, log 16). -/
def cfgBytes (ctx : Nat) (c : CtxCfg) : List Byte :=
  natBytes 1 ctx ++ natBytes 4 c.wshS ++ natBytes 4 c.wshB ++ natBytes 8 c.saveBase ++ natBytes 8 c.saveSize ++
    natBytes 8 (c.quota.getD (2 ^ 64 - 1)) ++ bvBytes 16 c.lanes

/-- Windows of the other contexts on a die. -/
def otherWindows (s : State) (ctx die : Nat) : Nat :=
  ((List.range 16).filter (fun x => x != ctx)).foldl (fun n x => n + s.wsh x die) 0

/-- Whether the windows of a configuration are ones that R266 admits and the dies' 16 MiB hold (DEDUCED, log 70). -/
def windowsOk (s : State) (ctx : Nat) (c : CtxCfg) : Bool :=
  isMul c.wshS 65536 && isMul c.wshB 65536 && decide (c.wshS + otherWindows s ctx 0 ≤ 2 ^ 24) &&
    decide (c.wshB + otherWindows s ctx 1 ≤ 2 ^ 24) && (c.wshB == 0 || s.form.hasDie 1)

/-- A quota that R377 admits. -/
def quotaOk (q : Option Nat) : Bool :=
  match q with
  | some n => isMul n (2 ^ 20) && decide (n ≤ 48 * 2 ^ 20)
  | none => true

/-- Whether every lane of a mask can be reserved to a context (R401). -/
def lanesOk (s : State) (ctx : Nat) (m : BitVec 128) : Bool :=
  (List.range 128).all (fun l => !m.getLsbD l ||
    (s.form.hasDie (l / 64) && ((s.lane l).owner.getD ctx == ctx) &&
      !s.heats.any (fun h => h.st != .complete && h.hr.ctx != ctx && h.lanes.contains l)))

/-- Memory from a key on zeroed, its poison with it (R270). -/
def zeroKeys (key n : Nat) (s : State) : State :=
  let mine := fun (a : Nat) => decide (key ≤ a) && decide (a < key + n)
  { s with mem := s.mem.filter (fun (p : Host.Cell) => !mine p.1), bad := s.bad.filter (fun g => !mine g) }

/-- A window resized: the units gained or lost are zeroed (R270; DESIGN CHOICE, log 7). -/
def resizeWindow (die ctx old new : Nat) (s : State) : State :=
  zeroKeys (sramKey die ctx (Nat.min old new)) (Nat.max old new - Nat.min old new) s

/-- Lanes reserved to a context. -/
def reserveLanes (ctx : Nat) (m : BitVec 128) (s : State) : State :=
  (List.range 128).foldl (fun s l =>
    if m.getLsbD l then s.modLane l (fun x => { x with owner := some ctx })
    else if (s.lane l).owner = some ctx then s.modLane l (fun x => { x with owner := none })
    else s) s

/-- CTX_CONFIG. -/
def execCtxConfig (sl ctx : Nat) (cfg : CtxCfg) (s : State) : Res :=
  .next (serve sl 0x10 none (numbered ctx 16 (fun s =>
    if ctxPresent s ctx then deny 0xE4 s
    else if windowsOk s ctx cfg = false ∨ quotaOk cfg.quota = false ∨ lanesOk s ctx cfg.lanes = false then deny 0xE5 s
    else
      let s := resizeWindow 0 ctx (s.wsh ctx 0) cfg.wshS s
      let s := resizeWindow 1 ctx (s.wsh ctx 1) cfg.wshB s
      let s := reserveLanes ctx cfg.lanes (s.modCtx ctx (fun x => { x with conf := some cfg }))
      okay [] (measure 0x10 (cfgBytes ctx cfg) s))) s)

/-! ### MAP, UNMAP, META (R263, R351, R401) -/

/-- Bytes of HBM (R1, R2). -/
def hbmBytes (f : Form) : Nat := if f = .la2h then 128 * 2 ^ 30 else 256 * 2 ^ 30

/-- Bytes mapped. -/
def mappedBytes (s : State) : Nat := s.pages.foldl (fun n p => n + p.size) 0

/-- Whether two spans meet. -/
def spansMeet (a n b m : Nat) : Bool := decide (a < b + m) && decide (b < a + n)

/-- Whether MAP's arguments are admitted (R263, R401). -/
def mapOk (s : State) (ctx : Nat) (g : MapArgs) : Bool :=
  (g.page == 2 ^ 16 || g.page == 2 ^ 21) && isMul g.va g.page && isMul g.n g.page && decide (g.va + g.n ≤ 2 ^ 48) &&
    !s.pages.any (fun p => p.ctx == ctx && spansMeet p.va p.size g.va g.n) && decide (mappedBytes s + g.n ≤ hbmBytes s.form)

/-- The lines of a range leave a die's remote-line cache, dirty ones written back first. -/
def dropLines (die ctx va n : Nat) (s : State) : State :=
  let mine := fun (l : RlcLine) => l.ctx == ctx && spansMeet (64 * l.line) 64 va n
  let s := ((s.die die).rlc.filter mine).foldl (fun s l => writeBack die l s) s
  s.modDie die (fun d => { d with rlc := d.rlc.filter (fun l => !mine l)
                                  invs := d.invs.filter (fun p => !(p.1 == ctx && spansMeet (64 * p.2) 64 va n)) })

/-- MAP: fresh pages, zeroed (R270). -/
def execMap (sl ctx : Nat) (rg : MapArgs) (s : State) : Res :=
  .next (serve sl 0x11 none (numbered ctx 16 (fun s =>
    if mapOk s ctx rg then
      let s := zeroKeys (globKey ctx rg.va) rg.n s
      okay [] { s with pages := s.pages ++ (List.range (rg.n / rg.page)).map (fun i => ⟨ctx, rg.va + i * rg.page, rg.page, rg.r, rg.w⟩) }
    else deny 0xE5 s)) s)

/-- Pages of a context that a range meets. -/
def pagesMet (ctx va n : Nat) (p : Page) : Bool := p.ctx == ctx && spansMeet p.va p.size va n

/-- UNMAP begins: the pages leave the map, while a die's translation cache may still hold them (R263). -/
def startUnmap (sl ctx va n : Nat) (s : State) : State :=
  let gone := s.pages.filter (pagesMet ctx va n)
  runSlot sl ([0, 1].foldl (fun s d => s.modDie d (fun x => { x with tlb := x.tlb ++ gone }))
    { s with pages := s.pages.filter (fun p => !pagesMet ctx va n p) })

/-- UNMAP ends with its shootdown: no cache holds the pages, and the accesses that used them have been performed (R229, R263). -/
def endUnmap (ctx va n : Nat) (s : State) : State :=
  let gone := fun (l : RlcLine) => l.ctx == ctx && (s.page l.ctx (64 * l.line)).isNone
  let s := [0, 1].foldl (fun s d => ((s.die d).rlc.filter gone).foldl (fun s l => dropLines d ctx (64 * l.line) 64 s) s) s
  dropPages (pagesMet ctx va n) s

/-- UNMAP: every page that the range meets goes, in two turns where there is one, so that an access may race the change; the
command completes with the shootdown (R263, R401; DESIGN CHOICE, logs 25, 35). -/
def execUnmap (sl ctx va n : Nat) (s : State) : Res :=
  .next (
    if ctx < 16 ∧ servable sl 0x12 none s = true ∧ isReady s = true ∧ (s.slot sl).seq ≠ (s.slot sl).doneSeq ∧
        s.pages.any (pagesMet ctx va n) = true then startUnmap sl ctx va n s
    else serve sl 0x12 none (numbered ctx 16 (fun s => okay [] (endUnmap ctx va n s))) s)

/-- META: the metadata block of a 2 MiB region, for the heats launched after it (R351, R352). -/
def execMetaBlock (sl ctx rg blk : Nat) (s : State) : Res :=
  .next (serve sl 0x13 none (numbered ctx 16 (fun s =>
    if ctxRuns s ctx then deny 0xE4 s
    else if isMul blk 4096 = false ∨ 2 ^ 27 ≤ rg ∨ 2 ^ 48 ≤ blk then deny 0xE5 s
    else okay [] (s.modCtx ctx (fun x => { x with
      meta2m := if blk = 0 then tdel x.meta2m rg else tset x.meta2m rg blk })))) s)

/-! ### INTAKE (R299) -/

/-- Whether INTAKE's fields are within R299. -/
def intakeOk (c : IntakeCfg) : Bool :=
  decide (c.low < c.high) && decide (c.ctx < 16) && decide (c.prio < 16) && isMul c.base 65536 &&
    isMul c.size 65536 && decide (0 < c.size) && decide (c.size ≤ 2 ^ 26) && decide (c.sem < 64) && decide (c.semCore.getD 0 < 192)

/-- INTAKE. -/
def execIntake (sl ch : Nat) (cfg : IntakeCfg) (s : State) : Res :=
  .next (serve sl 0x14 none (numbered ch 16 (fun s => if intakeOk cfg then okay [] (configChannel ch cfg s) else deny 0xE5 s)) s)

/-! ### LAUNCH (R287, R268, R401) -/

/-- A region entry (R41). -/
def regionBytes (e : RegionEntry) : List Byte :=
  natBytes 8 e.base ++ natBytes 4 e.count ++
    natBytes 1 (match e.st with
      | .priv => 1
      | .frozen => 2
      | .commons => 3) ++
    natBytes 1 (match e.spread with
      | .dev => 0
      | .dieS => 1
      | .dieB => 2) ++ natBytes 2 e.owner

/-- LAUNCH by the host: the response is NUMBER. -/
def launchCmd (arg : LaunchArgs) (s : State) : Option (State × Nat × List Byte) :=
  if 244 < arg.regions.length then deny 0xE5 s
  else
    match submit arg.hr arg.regions arg.ring false s with
    | .error c => deny c.num s
    | .ok (s, n) => okay (natBytes 4 n) s

/-- A record that cox firmware submits itself (R20, R287). -/
def launchFw (arg : LaunchArgs) (s : State) : State :=
  if isReady s = false ∨ hasLeader s 0 = false then s
  else
    match submit arg.hr arg.regions arg.ring true s with
    | .error c => postEvent 2 (heatRecOf arg.hr).ctx (heatRecOf arg.hr).number c.num none s
    | .ok (s, _) => s

/-- LAUNCH. -/
def execLaunch (sl : Nat) (arg : LaunchArgs) (s : State) : Res :=
  .next (if arg.fw then launchFw arg s
    else serve sl 0x20 (some (arg.hr ++ arg.regions.flatMap regionBytes)) (launchCmd arg) s)

/-! ### Heats held by the host (R407) -/

/-- Code of a heat's state in HEAT_STATUS (DESIGN CHOICE, log 16). -/
def HeatState.num : HeatState → Nat
  | .queued => 0
  | .running => 1
  | .stopped => 2
  | .halted => 3
  | .complete => 4
  | .saving => 1

/-- Deliveries that a stopped heat has not had. -/
def pendingOf (s : State) (h : Heat) : List Delivery :=
  h.reports ++ h.hr.cores.flatMap (fun c => (s.core c).pending ++ (s.core c).held)

/-- HEAT_STATUS: the state, the deliveries of a stopped heat, and the last snapshot (R302, R407). -/
def execHeatStatus (sl num : Nat) (s : State) : Res :=
  .next (serve sl 0x21 none (fun s =>
    match s.heatNo num with
    | some h =>
      let st := if h.st = .saving then h.was.num else h.st.num
      let l := if h.st = .stopped ∨ (h.st = .saving ∧ h.was = .stopped) then pendingOf s h else []
      okay (natBytes 4 st ++ natBytes 4 l.length ++ l.flatMap Delivery.image ++ h.snapshot) s
    | none => deny 0xE1 s) s)

/-- A stopped ring's action (R407 step 2). -/
def ringAct (h : Heat) (a : Nat × Nat × RingAct) (s : State) : State :=
  let g := (s.core a.1).ring a.2.1
  if h.hr.has a.1 = false ∨ g.st ≠ .stop then s
  else
    match a.2.2 with
    | .leave => s
    | .res => s.modRing a.1 a.2.1 resRing
    | .drop => dropHead a.1 a.2.1 (asSide a.1 .ap s)

/-- A stopped walk continued (R407 step 3). -/
def walkAct (h : Heat) (a : Nat × Nat) (s : State) : State :=
  match h.hr.has a.1, tfind (s.core a.1).streams a.2 with
  | true, some st => if st.fill = .stop then putStream a.1 a.2 { st with fill := .run, err := 0 } s else s
  | _, _ => s

/-- The delivery that stopped a side of a core, among some. -/
def stoppedBy (l : List Delivery) (c : Nat) (sd : Side) : Option Delivery :=
  l.find? (fun d => decide (d.stoppedSide = some sd) && decide (d.w1.toNat / 2 ^ 32 % 2 ^ 16 = c))

/-- A side of a stopped heat goes on: out of a fault task it rests in, and from its recorded point (R407 step 4). -/
def continueStopped (l : List Delivery) (c : Nat) (sd : Side) (s : State) : State :=
  let s := match ((s.core c).side sd).frame with
    | some f => if ((s.core c).side sd).run = .run then s else restoreFrame c sd f s
    | none => s
  if ((s.core c).side sd).run = .stopped then
    let brk := (stoppedBy l c sd).filter (fun d => d.code == Code.brk.num)
    s.modSide c sd (fun x => match brk with
      | some d => { x with run := .run, land := false, wait := none, pc := d.w3 + 4 }
      | none => { x with run := .run, wait := none })
  else s

/-- What HEAT_CONTINUE does (R407). -/
def continueHeat (h : Heat) (acts : HeatActs) (s : State) : State :=
  let l := pendingOf s h
  let s := h.hr.cores.foldl (fun s c => s.modCore c (fun k => { k with pending := [], held := [] })) s
  let s := acts.rings.foldl (fun s a => ringAct h a s) s
  let s := acts.walks.foldl (fun s a => walkAct h a s) s
  let s := h.hr.cores.foldl (fun s c => continueStopped l c .xp (continueStopped l c .ap s)) s
  s.modHeat h.hr.number (fun x => { x with st := .running, was := .running, reports := [] })

/-- HEAT_CONTINUE: of a heat stopped under R321, and not by the bridge; BUSY for any other. -/
def execHeatContinue (sl num : Nat) (acts : HeatActs) (s : State) : Res :=
  .next (serve sl 0x22 none (fun s =>
    match s.heatNo num with
    | some h => if h.st = .stopped ∧ h.bridge = false then okay [] (continueHeat h acts s) else deny 0xE4 s
    | none => deny 0xE4 s) s)

/-- A heat removed in any state (R407): of one that has completed what is known is forgotten; another's units stop as at a pre-emption,
and it has completed with CODE 0xE4 (DESIGN CHOICE, log 101). -/
def removeHeat (h : Heat) (s : State) : State :=
  match h.st with
  | .complete => postEvent 1 h.hr.ctx h.hr.number 0xE4 none { s with heats := s.heats.filter (fun x => x.hr.number != h.hr.number) }
  | .queued =>
    let s := dequeueHeat h s
    let s := { s with images := s.images.filter (fun m => !(h.hr.resume && m.ctx == h.hr.ctx && m.base == h.hr.image)) }
    reserve (endHeat h 0xE4 s)
  | _ => reserve (endHeat h 0xE4 (h.hr.cores.foldl (fun s c => settleCore c s) (finishNets h s)))

/-- HEAT_END. -/
def execHeatEnd (sl num : Nat) (s : State) : Res :=
  .next (serve sl 0x23 none (fun s =>
    match s.heatNo num with
    | some h => okay [] (removeHeat h s)
    | none => deny 0xE1 s) s)

/-! ### The save directory (R389, R390) -/

/-- Code of a verdict (R389). -/
def Judged.num : Judged → Nat
  | .whole => 0
  | .torn => 1
  | .absent => 2

/-- A directory record (R389). -/
def dirBytes (d : DirRec) : List Byte :=
  layout 256 ([(0, natBytes 1 d.set.ctx), (1, natBytes 1 d.st.num), (2, natBytes 1 d.set.ranges.length), (3, natBytes 1 d.set.st.toNat),
    (4, natBytes 4 d.set.setid), (8, natBytes 4 d.set.heat), (0x10, natBytes 8 d.p), (0x18, natBytes 8 (setLength d.set)),
    (0x20, bvBytes 24 d.set.cores)] ++ d.set.ranges.zipIdx.map (fun p => (0x40 + 24 * p.2, rangeBytes p.1)))

/-- SAVE_DIR: COUNT, then up to 15 records from the index. -/
def execSaveDir (sl j : Nat) (s : State) : Res :=
  .next (serve sl 0x30 (some (natBytes 4 j)) (fun s =>
    let n := s.water.dir.length
    if n < j then deny 0xE5 s
    else okay (natBytes 4 n ++ List.replicate 60 0 ++ ((s.water.dir.drop j).take 15).flatMap dirBytes) s) s)

/-- Ranges of a saved set with their bytes in the save area, and the offset after them. -/
def savedRanges (s : State) (p : Nat) : List (Nat × Nat × Nat) → List ((Nat × Nat × Nat) × List Byte) × Nat
  | [] => ([], p)
  | r :: l =>
    let (x, q) := savedRanges s (p + roundUp r.2.1 4096) l
    ((r, boatRead s p r.2.1) :: x, q)

/-- Whether every page of a global range is mapped with write permission. -/
def rangeWritable (s : State) (ctx va n : Nat) : Bool :=
  (firstUnmapped (s.pages.length + 1) s ctx va (va + n)).isNone &&
    s.pages.all (fun p => !(p.ctx == ctx && spansMeet p.va p.size va n) || p.w)

/-- Whether CORES names exactly the rectangle of the recorded heat (R390). -/
def wholeRect (m : MustSet) (i : Image) : Bool := setCores m == i.hr.cores

/-- A whole set's core sections: an image in the save area, or their bytes at a target (R390). -/
def restoreSections (d : DirRec) (off target : Nat) (s : State) : Option State :=
  if d.set.st = false then some s
  else
    let n := (setCores d.set).length * sectionSize
    match (s.water.kept.find? (fun p => p.1 == d.p)).map (fun p => p.2) with
    | some i =>
      if wholeRect d.set i then (imageRoom s d.set.ctx (imageSize i.cores.length)).map (fun b => storeImage { i with ctx := d.set.ctx, base := b } s)
      else if rangeWritable s d.set.ctx target n then some (partWrite d.set.ctx target (boatRead s off n) s)
      else none
    | none => none

/-- What RESTORE does for a set (R390; DEDUCED, log 59). -/
def restoreSet (d : DirRec) (target : Nat) (s : State) : Option (State × Nat × List Byte) :=
  let x := savedRanges s (d.p + 4096) d.set.ranges
  let globals := x.1.filter (fun r => rangeGlobal r.1)
  let pads := x.1.filter (fun r => !rangeGlobal r.1)
  if d.st ≠ .whole ∨ globals.all (fun r => rangeWritable s d.set.ctx r.1.1 r.1.2.1) = false then denyOpen s
  else if globals ≠ [] ∧ ctxRuns s d.set.ctx = true then none
  else
    match restoreSections d x.2 target s with
    | none => denyOpen s
    | some s =>
      let s := globals.foldl (fun s r => partWrite d.set.ctx r.1.1 r.2 s) s
      let parts := pads.map (fun r => (r.1.2.2, r.1.1, r.2))
      okay [] (if parts = [] then s
        else { s with water := { s.water with restores := s.water.restores ++ [⟨d.set.ctx, parts⟩] } })

/-- RESTORE: before the release, of a set of the directory. -/
def execRestore (sl setid ctx target : Nat) (s : State) : Res :=
  .next (serve sl 0x31 none (fun s =>
    match s.water.dir.find? (fun d => d.set.setid == setid && d.set.ctx == ctx), s.water.awaiting with
    | some d, true => restoreSet d target s
    | _, _ => denyOpen s) s)

/-- SAVE_RELEASE: an empty manifest, and admission opens; nothing when no save awaits (DEDUCED, log 67). -/
def execSaveRelease (sl : Nat) (s : State) : Res :=
  .next (serve sl 0x32 none (fun s =>
    if s.water.awaiting then
      okay [] (commit [] { s with water := { s.water with awaiting := false, dir := [], judged := [], kept := [] } })
    else okay [] s) s)

/-! ### Drill, pre-authorisation, records, rejoining -/

/-- DRILL (R371). -/
def execDrill (sl l : Nat) (auth : OwnerSig) (s : State) : Res :=
  .next (serve sl 0x33 none (fun s =>
    if signedOk s 0x33 (natBytes 8 l) auth = false then deny 0xE3 s
    else if isMul l 4096 = false ∨ l < 4096 then deny 0xE5 s
    else okay [] (measure 0x33 (natBytes 8 l) { s with water := { s.water with drill := some l } })) s)

/-- PREAUTH (R408). -/
def execPreauth (sl : Nat) (mask : BitVec 8) (auth : OwnerSig) (s : State) : Res :=
  .next (serve sl 0x40 none (fun s =>
    if signedOk s 0x40 (bvBytes 1 mask) auth = false then deny 0xE3 s
    else if 8 ≤ mask.toNat then deny 0xE5 s
    else okay [] (measure 0x40 (bvBytes 1 mask) { s with water := { s.water with preauth := mask.setWidth 3 } })) s)

/-- LIFE_READ: bytes of the lifetime records, within them (R410; DEDUCED, log 68). -/
def execLifeRead (sl off n : Nat) (s : State) : Res :=
  .next (serve sl 0x41 none (fun s =>
    if off < 0x10000 ∨ 0x100000 < off + n ∨ 4032 < n then deny 0xE5 s else okay (boatRead s off n) s) s)

/-- REJOIN (R399): island mode ends with a new election that cox S wins. -/
def execRejoin (sl : Nat) (s : State) : Res :=
  .next (serve sl 0x42 none (fun s =>
    if s.bridge.failed ≠ [] ∨ s.form.hasDie 1 = false then deny 0xE4 s
    else
      let g := Nat.max s.coxS.gen s.coxB.gen + 1
      let s := { s with coxS := ⟨true, true, false, g, now s⟩, coxB := ⟨true, false, false, g, now s⟩, bridge := { s.bridge with island := false } }
      okay [] (postPlain 6 none s)) s)

end Sys2Proof.Machine
end

