-- ==== Sys2Proof/Machine/Steer.lean ====
section
/-! DEFINITION. Steering: the checks of a queued word (R173, R190, R205) and XP_STEER (R9-R11, R320). -/

namespace Sys2Proof.Machine

/-! ### Checks (R173, R190, R205) -/

/-- A vector operand code: a port, or a register below nv after rotation (R16). -/
def codeOk (nv : Nat) (vt : BitVec 64) (c : Nat) : Bool := decide (96 ≤ c) || decide (rename vt c < nv)

/-- A span of f register codes below nv (R179). -/
def spanOk (nv : Nat) (vt : BitVec 64) (c f : Nat) : Bool :=
  (List.range f).all (fun i => decide (c + i < 96) && decide (rename vt (c + i) < nv))

/-- No destination register of a span is a source register (R179). -/
def apart (vt : BitVec 64) (d f : Nat) (srcs : List Nat) : Bool :=
  srcs.all (fun a => decide (96 ≤ a) || (List.range f).all (fun i => rename vt (d + i) != rename vt a))

/-- Integer element types. -/
def etInts (e : Nat) : Bool := decide (e < 8)

/-- Float element types of the float words. -/
def etFloats (e : Nat) : Bool := e == 11 || e == 12 || e == 13

/-- Any element type. -/
def etAny (e : Nat) : Bool := decide (e < 15)

/-- Types that a pair or quad of integers widens (R173). -/
def etWide (e : Nat) (q : Bool) : Bool := if q then [0, 1, 4, 5].contains e else [0, 1, 2, 4, 5, 6].contains e

/-- The checks of an integer or bit word. -/
def word3Ok (nv : Nat) (vt : BitVec 64) (ok : Nat → Bool) (codes : List Nat) : Bool :=
  ok (vtType vt) && codes.all (codeOk nv vt)

/-- The checks of a widening word (R179). -/
def wideOk (nv : Nat) (vt : BitVec 64) (d a b : Nat) (sat q : Bool) : Bool :=
  let e := vtType vt
  let f := quadFactor q
  ((etWide e q) || ((e == 11 || e == 12) && !q && !sat)) && codeOk nv vt a && codeOk nv vt b && spanOk nv vt d f &&
    apart vt d f [a, b]

/-- The checks of `vcvt` (R181). -/
def cvtWordOk (nv : Nat) (vt : BitVec 64) (d a : Nat) (satf : Bool) (src : Nat) : Bool :=
  let dst := vtType vt
  let fs := cvtSpan src dst
  let fd := cvtSpan dst src
  cvtOk src dst && (!satf || [9, 10, 11, 12, 13].contains dst) &&
    (if fs > 1 then spanOk nv vt a fs && codeOk nv vt d
    else if fd > 1 then spanOk nv vt d fd && codeOk nv vt a && apart vt d fd [a]
    else codeOk nv vt a && codeOk nv vt d)

/-- The checks of `vred` (R182). -/
def redOk (nv : Nat) (vt : BitVec 64) (d a r o : Nat) (sat : Bool) : Bool :=
  let e := vtType vt
  codeOk nv vt d && codeOk nv vt a &&
    (if etFloats e then decide (o < 3) && !sat && (r == 0 || o == 0)
    else etInts e && decide (o < 6) && r == 0 && (!sat || o == 0))

/-- Type of a matrix word's f5: the element type, MX apart (R189, R190). -/
def mtxTypeOk (mx : Bool) (t : Nat) : Bool := decide (t < 7) && (!mx || !([3, 4, 6].contains t))

/-- The check of a queued word at steering, under the VT it captures. -/
def steerOk (k : Core) (i : Instr) : Bool :=
  let vt := k.vt
  let nv := k.nv
  match i with
  | .vadd d a b _ _ => word3Ok nv vt etInts [d, a, b]
  | .vsub d a b _ _ => word3Ok nv vt etInts [d, a, b]
  | .vmul d a b _ _ => word3Ok nv vt etInts [d, a, b]
  | .vmulh d a b _ => word3Ok nv vt etInts [d, a, b]
  | .vmad d a b _ _ => word3Ok nv vt etInts [d, a, b]
  | .vmin d a b _ => word3Ok nv vt etInts [d, a, b]
  | .vmax d a b _ => word3Ok nv vt etInts [d, a, b]
  | .vabs d a _ _ => word3Ok nv vt etInts [d, a]
  | .vand d a b _ => word3Ok nv vt etAny [d, a, b]
  | .vor d a b _ => word3Ok nv vt etAny [d, a, b]
  | .vxor d a b _ => word3Ok nv vt etAny [d, a, b]
  | .vnot d a _ => word3Ok nv vt etAny [d, a]
  | .vshl d a b _ _ => word3Ok nv vt etInts [d, a, b]
  | .vshr d a b _ _ => word3Ok nv vt etInts [d, a, b]
  | .vsra d a b _ _ => word3Ok nv vt etInts [d, a, b]
  | .vcmp _ a b _ => word3Ok nv vt etInts [a, b]
  | .vsel d a b => word3Ok nv vt etAny [d, a, b]
  | .vwadd d a b sat q _ => wideOk nv vt d a b sat q
  | .vwmul d a b sat q _ => wideOk nv vt d a b sat q
  | .vwmad d a b sat q _ => wideOk nv vt d a b sat q
  | .vnarrow d a _ q _ => etWide (vtType vt) q && codeOk nv vt d && spanOk nv vt a (quadFactor q)
  | .vcvt d a satf e _ _ => cvtWordOk nv vt d a satf e
  | .vfadd d a b _ _ => word3Ok nv vt etFloats [d, a, b]
  | .vfsub d a b _ _ => word3Ok nv vt etFloats [d, a, b]
  | .vfmul d a b _ _ => word3Ok nv vt etFloats [d, a, b]
  | .vfma d a b _ _ => word3Ok nv vt etFloats [d, a, b]
  | .vfmin d a b _ _ => word3Ok nv vt etFloats [d, a, b]
  | .vfmax d a b _ _ => word3Ok nv vt etFloats [d, a, b]
  | .vfcmp _ a b _ => word3Ok nv vt etFloats [a, b]
  | .vfsgn d a b _ _ => word3Ok nv vt etFloats [d, a, b]
  | .vred d a r o sat _ => redOk nv vt d a r o sat
  | .vcompress d a => word3Ok nv vt etAny [d, a]
  | .vexpand d a => word3Ok nv vt etAny [d, a]
  | .vperm d a _ => word3Ok nv vt etAny [d, a]
  | .vslide d a _ => word3Ok nv vt etAny [d, a]
  | .vbcast d a j => word3Ok nv vt etAny [d, a] && decide (j < etCount (vtType vt))
  | .mand _ _ _ => etAny (vtType vt)
  | .mor _ _ _ => etAny (vtType vt)
  | .mnot _ _ => etAny (vtType vt)
  | .mpop _ _ => etAny (vtType vt)
  | .wload _ mx t => mtxTypeOk mx t
  | .mmul t _ mx _ e => mtxTypeOk mx e && decide (t < k.acc)
  | .mmulg t _ _ mx _ e => mtxTypeOk mx e && decide (t < k.acc)
  | .azero t => decide (t < k.acc)
  | .drain t _ sf f => decide (t < k.acc) && decide (f < 7) && (!sf || decide (f < 5))
  | .rpop v => decide (v < 96) && decide (rename vt v < nv)
  | .exp2 d a _ => word3Ok nv vt etFloats [d, a]
  | .log2 d a _ => word3Ok nv vt etFloats [d, a]
  | .rcp d a _ => word3Ok nv vt etFloats [d, a]
  | .rsqrt d a _ => word3Ok nv vt etFloats [d, a]
  | .sinpi d a _ => word3Ok nv vt etFloats [d, a]
  | .cospi d a _ => word3Ok nv vt etFloats [d, a]
  | .tanh d a _ => word3Ok nv vt etFloats [d, a]
  | .sigm d a _ => word3Ok nv vt etFloats [d, a]
  | _ => true

/-! ### Steering -/

/-- A word put into the queue of its unit, in steering order. -/
def enqueueWord (u : Unit) (q : QWord) (k : Core) : Core :=
  match u with
  | .vec => { k with vq := insertSeq q k.vq }
  | .mtx => { k with mq := insertSeq q k.mq }
  | _ => { k with fq := insertSeq q k.fq }

/-- Whether SLIP lets a word be steered (R10). -/
def slipOpen (k : Core) : Bool := decide (k.occupancy < k.slip.toNat)

/-- A word set aside by a queue fault is steered again (R320). -/
def resteer (s : State) : State :=
  match s.me.aside with
  | q :: r =>
    if slipOpen s.me = false then s
    else
      match wordInstr q.word with
      | some i => s.modMe (fun k => enqueueWord i.unit q { k with aside := r })
      | none => s.modMe (fun k => { k with aside := r })
  | [] => s

/-- A fetched word is checked and steered with the VT and G it captures (R9-R11, R173, R190). -/
def steerWord (w : Word) (i : Instr) (s : State) : State :=
  if steerOk s.me i = false then takeTrap (trapAt .illegal) s
  else if slipOpen s.me = false then s
  else
    let k := s.me
    let q : QWord := ⟨s.cur.addr, w, k.vt, k.g, k.seq⟩
    moveOn 4 (s.modMe (fun k => enqueueWord i.unit q { k with seq := k.seq + 1 }))

/-- XP_STEER: the sequencer of a core steers the word at its pc, or the oldest word set aside. -/
def xpSteer (c : Nat) (s : State) : State :=
  let s := asSide c .xp s
  let x := s.mySide
  if s.live c = false ∨ x.run ≠ .run then s
  else if s.me.aside ≠ [] then resteer s
  else if x.land = true ∨ stageSkips s.me x.pc = true then s
  else
    match fetchWord s c x.pc with
    | .error _ => s
    | .ok (s, w) =>
      match wordInstr w with
      | some i => if isQueued i.unit then steerWord w i s else s
      | none => s

/-- XP_STEER (R9). -/
def execXpSteer (c : Nat) (s : State) : Res := .next (xpSteer c s)

end Sys2Proof.Machine
end

