-- ==== Sys2Proof/Machine/XpCtl.lean ====
section
/-! DEFINITION. The XP's sequencer words: scalar integer and f32 arithmetic, transfers and loops, queues, CSRs, `xfence`, `vset`
and `nset` (R160-R171). -/

namespace Sys2Proof.Machine

/-! ### Scalar arithmetic (R161, R162) -/

/-- A write of an x register by the moving XP. -/
def putX (d : Nat) (v : Addr) (s : State) : State := s.modMe (fun k => k.setXreg d v)

/-- A scalar word that writes d from the x registers named. -/
def xpAlu (srcs : List Nat) (d : Nat) (f : Core → Addr) (s : State) : State :=
  xpWord srcs [d] (fun s => .ok (finish (putX d (f s.me) s))) s

/-- d := f(a, b). -/
def xpAlu3 (f : Addr → Addr → Addr) (d a b : Nat) (s : State) : State := xpAlu [a, b] d (fun k => f (k.xreg a) (k.xreg b)) s

/-- `add` of the XP. -/
def execXpAdd (d a b : Nat) (s : State) : Res := .next (xpAlu3 (fun a b => a + b) d a b s)

/-- `sub` of the XP. -/
def execXpSub (d a b : Nat) (s : State) : Res := .next (xpAlu3 (fun a b => a - b) d a b s)

/-- `and` of the XP. -/
def execXpAnd (d a b : Nat) (s : State) : Res := .next (xpAlu3 (fun a b => a &&& b) d a b s)

/-- `or` of the XP. -/
def execXpOr (d a b : Nat) (s : State) : Res := .next (xpAlu3 (fun a b => a ||| b) d a b s)

/-- `xor` of the XP. -/
def execXpXor (d a b : Nat) (s : State) : Res := .next (xpAlu3 (fun a b => a ^^^ b) d a b s)

/-- `shl` of the XP. -/
def execXpShl (d a b : Nat) (s : State) : Res := .next (xpAlu3 (fun a b => a <<< (b.toNat % 64)) d a b s)

/-- `shr` of the XP. -/
def execXpShr (d a b : Nat) (s : State) : Res := .next (xpAlu3 (fun a b => a >>> (b.toNat % 64)) d a b s)

/-- `sra` of the XP. -/
def execXpSra (d a b : Nat) (s : State) : Res := .next (xpAlu3 (fun a b => a.sshiftRight (b.toNat % 64)) d a b s)

/-- `mul` of the XP. -/
def execXpMul (d a b : Nat) (s : State) : Res := .next (xpAlu3 (fun a b => a * b) d a b s)

/-- `min` of the XP: signed. -/
def execXpMin (d a b : Nat) (s : State) : Res := .next (xpAlu3 (fun a b => if b.slt a then b else a) d a b s)

/-- `max` of the XP: signed. -/
def execXpMax (d a b : Nat) (s : State) : Res := .next (xpAlu3 (fun a b => if a.slt b then b else a) d a b s)

/-- `sel` of the XP: a register tested for nonzero. -/
def execXpSel (d a b c : Nat) (s : State) : Res :=
  .next (xpAlu [a, b, c] d (fun k => if k.xreg c ≠ 0 then k.xreg a else k.xreg b) s)

/-- `cmp` of the XP: 1 or 0. -/
def execXpCmp (d a b c : Nat) (s : State) : Res := .next (xpAlu3 (fun a b => if condHolds c a b then 1 else 0) d a b s)

/-- `addi` of the XP. -/
def execXpAddi (d a : Nat) (i : BitVec 13) (s : State) : Res := .next (xpAlu [a] d (fun k => k.xreg a + sx i) s)

/-- `li` of the XP. -/
def execXpLi (d : Nat) (i : BitVec 13) (s : State) : Res := .next (xpAlu [] d (fun _ => sx i) s)

/-- `lil` of the XP. -/
def execXpLil (d : Nat) (i : BitVec 32) (s : State) : Res :=
  .next (xpWord [] [d] (fun s => .ok (finishN 8 (putX d (sx i) s))) s)

/-- `addil` of the XP. -/
def execXpAddil (d a : Nat) (i : BitVec 32) (s : State) : Res :=
  .next (xpWord [a] [d] (fun s => .ok (finishN 8 (putX d (s.me.xreg a + sx i) s))) s)

/-- Bits [31:0] of an x register. -/
def lowF32 (k : Core) (n : Nat) : Nat := (k.xreg n).toNat % 2 ^ 32

/-- A scalar f32 word: one rounding, flags into FLAGS (R162). -/
def xpFloat (srcs : List Nat) (d : Nat) (f : Core → FRes) (s : State) : State :=
  xpWord srcs [d] (fun s =>
    let r := f s.me
    .ok (finish (raiseFlags r.fl (putX d (BitVec.ofNat 64 r.v) s)))) s

/-- `fadd` (R162). -/
def execFadd (d a b r : Nat) (s : State) : Res := .next (xpFloat [a, b] d (fun k => fpAdd fmtF r (lowF32 k a) (lowF32 k b)) s)

/-- `fmul` (R162). -/
def execFmul (d a b r : Nat) (s : State) : Res := .next (xpFloat [a, b] d (fun k => fpMul fmtF r (lowF32 k a) (lowF32 k b)) s)

/-- `fma` (R162): c is the old d. -/
def execFma (d a b r : Nat) (s : State) : Res :=
  .next (xpFloat [a, b, d] d (fun k => fpFma fmtF r (lowF32 k a) (lowF32 k b) (lowF32 k d)) s)

/-! ### Transfers and loops (R163-R166) -/

/-- `b` of the XP. -/
def execXpB (o : BitVec 18) (s : State) : Res := .next (xpWord [] [] (fun s => .ok (branch (branchTarget s o) s)) s)

/-- `bp` of the XP. -/
def execXpBp (c : Nat) (o : BitVec 18) (s : State) : Res :=
  .next (xpWord [c] [] (fun s => .ok (if s.me.xreg c ≠ 0 then branch (branchTarget s o) s else finish s)) s)

/-- Whether an `lsp` entry is on the stack. -/
def lspOpen (s : State) : Bool := s.mySide.loops.any (fun e => e.sl != 0)

/-- What makes `loop` and `lsp` ILLEGAL whatever the register holds (R164, R165). -/
def loopBad (o : BitVec 18) (s : State) : Option Trap :=
  illegalIf (decide (o.toInt < 1) || decide (s.mySide.loops.length ≥ 3) || lspOpen s)

/-- `loop` of the XP (R164, R166). -/
def execXpLoop (c : Nat) (o : BitVec 18) (s : State) : Res :=
  .next (xpChecked (loopBad o s) [c] [] (fun s => openLoop (s.me.xreg c).toNat o s) s)

/-- `lsp` (R165): stages S, iterations N, body of L_w words. -/
def openLsp (v : Addr) (o : BitVec 18) (s : State) : Except Trap State :=
  let stop := branchTarget s o
  let st := nfld v.toNat 32 4 + 1
  let n := nfld v.toNat 0 32
  if nfld v.toNat 36 28 ≠ 0 ∨ o.toNat % st ≠ 0 then
    .error (trapAt .illegal)
  else if n = 0 then .ok ((s.modMySide (fun x => { x with pc := stop + 4, land := false })).act s.cur.core)
  else
    let e : Loop := ⟨s.cur.addr + 4, stop, n + st - 1, 1, n, o.toNat / st⟩
    .ok (((s.modMe (fun k => { k with g := 1 })).modMySide (fun x =>
      { x with loops := e :: x.loops, pc := s.cur.addr + 4, land := false })).act s.cur.core)

/-- `lsp` (R165). -/
def execLsp (c : Nat) (o : BitVec 18) (s : State) : Res := .next (xpChecked (loopBad o s) [c] [] (fun s => openLsp (s.me.xreg c) o s) s)

/-! ### Queues, CSRs, fence (R167-R169) -/

/-- `qget` of the XP. -/
def execXpQget (d q : Nat) (s : State) : Res :=
  .next (xpChecked (illegalIf (decide (q ≥ 4))) [] [d] (fun s => .ok (queueGet d q s)) s)

/-- `qput` of the XP. -/
def execXpQput (q a : Nat) (s : State) : Res :=
  .next (xpChecked (illegalIf (decide (q < 4))) [a] [] (fun s => .ok (queuePut q (s.me.xreg a) s)) s)

/-- CSRs whose access waits as `xfence` does (R9 rule 4). -/
def csrFenced (n : Nat) : Bool := n == 0x011 || n == 0x013 || n == 0x014 || n == 0x020

/-- `csrr` of the XP (R168). -/
def execXpCsrr (d c : Nat) (s : State) : Res :=
  .next (
    match csrRead s .xp c with
    | none => takeTrap (trapAt .illegal) s
    | some v => xpWord [] [d] (fun s => if csrFenced c && !s.me.xpIdle then .ok s else .ok (finish (putX d v s))) s)

/-- A CSR write of the XP (R168): the checks of the CSR come when the sequencer meets the word (R49). -/
def xpCsrWrite (len c : Nat) (srcs : List Nat) (v : Core → Addr) (s : State) : State :=
  xpChecked (csrWriteOk s .xp c) srcs [] (fun s =>
    if csrFenced c && !s.me.xpIdle then .ok s else (csrWrite .xp c (v s.me) s).map (csrDone len)) s

/-- `csrw` of the XP. -/
def execXpCsrw (a c : Nat) (s : State) : Res := .next (xpCsrWrite 4 c [a] (fun k => k.xreg a) s)

/-- `csrw` of the XP, long form. -/
def execXpCsrwLong (c : Nat) (i : BitVec 32) (s : State) : Res :=
  .next (xpCsrWrite 8 c [] (fun _ => i.setWidth 64) s)

/-- `xfence` (R169). -/
def execXfence (s : State) : Res := .next (xpWord [] [] (fun s => if s.me.xpIdle then .ok (finish s) else .ok s) s)

/-! ### `vset` and `nset` (R170, R171) -/

/-- VT with ETYPE and MSEL set (R170). -/
def vtSet (vt : BitVec 64) (m e : Nat) : BitVec 64 := BitVec.ofNat 64 (vt.toNat / 2 ^ 8 * 2 ^ 8 + m * 2 ^ 5 + e)

/-- A `vset`: ILLEGAL leaves VT unchanged; an ETYPE above 14 takes it before any wait (R23, R49, R170). -/
def vsetWord (srcs : List Nat) (e : Nat) (f : Core → BitVec 64) (s : State) : State :=
  xpChecked (illegalIf (decide (15 ≤ e))) srcs [] (fun s =>
    let v := f s.me
    if vtOk s.me.nv v then .ok (finish (s.modMe (fun k => { k with vt := v }))) else .error (trapAt .illegal)) s

/-- `vset` (R170). -/
def execVset (m e : Nat) (s : State) : Res := .next (vsetWord [] e (fun k => vtSet k.vt m e) s)

/-- `vset` with rotation fields from a register (R170). -/
def execVsetRot (a m e : Nat) (s : State) : Res :=
  .next (vsetWord [a] e (fun k => BitVec.ofNat 64 (nfld (k.xreg a).toNat 8 21 * 2 ^ 8 + m * 2 ^ 5 + e)) s)

/-- The Benes control word from 1,024 bytes (R171). -/
def loadControl (v : Nat) (k : Core) : Core :=
  { k with nregs := (List.range 8).map (fun j => (j, BitVec.ofNat 544 (v / 2 ^ (544 * j)))) }

/-- Whether an unfinished `vperm` may still read n0-n7. -/
def permWaits (k : Core) : Bool := k.vq.any (fun q => q.regs.1.contains .n)

/-- Both units of a port that `nset` reads (R127, R171). It reads on the sequencer, but R129 gives its port the faults of an XP port
operand: they are taken where it would execute, for both units in the order of a word's ports, and it waits while a `wload`
claims the entry (R129, R160, R196; DESIGN CHOICE, logs 45, 94, 97). -/
def nsetPort (port : Nat) (s : State) : Except Trap State :=
  let c := s.cur.core
  let p := portPos s c port
  match joinChecks [unitReady s port, unitReady (portSeek c port (p + 512) s) port] with
  | .trap t => .error t
  | .wait => .ok s
  | .ready =>
    let s' := portAdvance c port 512 s
    let l := portBytes s c port 512 ++ portBytes s' c port 512
    .ok (finish ((portAdvance c port 512 s').modMe (loadControl (bytesNat l))))

/-- Whether R16 refuses the operand code of `nset`: its two registers do not both exist. -/
def nsetBad (c : Nat) (k : Core) : Bool :=
  decide (c < 96) && (decide (k.nv < c + 2) || decide (k.nv ≤ rename k.vt c) || decide (k.nv ≤ rename k.vt (c + 1)))

/-- `nset` (R171): the check of its code comes before its waits (R49). -/
def nsetWord (c : Nat) (s : State) : Except Trap State :=
  if nsetBad c s.me then .error (trapAt .illegal)
  else if permWaits s.me then .ok s
  else if c ≥ 96 then nsetPort (c - 96) s
  else
    let vt := s.me.vt
    let r0 := rename vt c
    let r1 := rename vt (c + 1)
    if s.me.holdsBack [.v r0, .v r1] [.n] then .ok s
    else .ok (finish (s.modMe (loadControl ((s.me.vreg r0).toNat + (s.me.vreg r1).toNat * 2 ^ 4096))))

/-- `nset` (R171). -/
def execNset (c : Nat) (s : State) : Res := .next (settle (nsetWord c s) s)

end Sys2Proof.Machine
end

