-- ==== Sys2Proof/Machine/Dispatch.lean ====
section
/-! DEFINITION. What each instruction does: one arm per constructor, each one call of its meaning. -/

namespace Sys2Proof.Machine

def exec (i : Instr) (s : State) : Host.Outcome State Fault Refusal :=
  match i with
  | .add d a b => Sys2Proof.Machine.execAdd d a b s
  | .sub d a b => Sys2Proof.Machine.execSub d a b s
  | .and d a b => Sys2Proof.Machine.execAnd d a b s
  | .or d a b => Sys2Proof.Machine.execOr d a b s
  | .xor d a b => Sys2Proof.Machine.execXor d a b s
  | .andn d a b => Sys2Proof.Machine.execAndn d a b s
  | .shl d a b => Sys2Proof.Machine.execShl d a b s
  | .shr d a b => Sys2Proof.Machine.execShr d a b s
  | .sra d a b => Sys2Proof.Machine.execSra d a b s
  | .mul d a b => Sys2Proof.Machine.execMul d a b s
  | .mulh d a b => Sys2Proof.Machine.execMulh d a b s
  | .mulhz d a b => Sys2Proof.Machine.execMulhz d a b s
  | .div d a b => Sys2Proof.Machine.execDiv d a b s
  | .rem d a b => Sys2Proof.Machine.execRem d a b s
  | .divz d a b => Sys2Proof.Machine.execDivz d a b s
  | .remz d a b => Sys2Proof.Machine.execRemz d a b s
  | .min d a b => Sys2Proof.Machine.execMin d a b s
  | .max d a b => Sys2Proof.Machine.execMax d a b s
  | .minz d a b => Sys2Proof.Machine.execMinz d a b s
  | .maxz d a b => Sys2Proof.Machine.execMaxz d a b s
  | .sel d a b p => Sys2Proof.Machine.execSel d a b p s
  | .cmp p a b c => Sys2Proof.Machine.execCmp p a b c s
  | .sext d a w => Sys2Proof.Machine.execSext d a w s
  | .zext d a w => Sys2Proof.Machine.execZext d a w s
  | .clz d a => Sys2Proof.Machine.execClz d a s
  | .popc d a => Sys2Proof.Machine.execPopc d a s
  | .pand d a b => Sys2Proof.Machine.execPand d a b s
  | .por d a b => Sys2Proof.Machine.execPor d a b s
  | .pxor d a b => Sys2Proof.Machine.execPxor d a b s
  | .pnot d a => Sys2Proof.Machine.execPnot d a s
  | .csrr d c => Sys2Proof.Machine.execCsrr d c s
  | .csrw a c => Sys2Proof.Machine.execCsrw a c s
  | .addi d a imm => Sys2Proof.Machine.execAddi d a imm s
  | .andi d a imm => Sys2Proof.Machine.execAndi d a imm s
  | .ori d a imm => Sys2Proof.Machine.execOri d a imm s
  | .xori d a imm => Sys2Proof.Machine.execXori d a imm s
  | .shli d a sf => Sys2Proof.Machine.execShli d a sf s
  | .shri d a sf => Sys2Proof.Machine.execShri d a sf s
  | .srai d a sf => Sys2Proof.Machine.execSrai d a sf s
  | .li d imm => Sys2Proof.Machine.execLi d imm s
  | .cmpiEq p a imm => Sys2Proof.Machine.execCmpiEq p a imm s
  | .cmpiNe p a imm => Sys2Proof.Machine.execCmpiNe p a imm s
  | .cmpiLt p a imm => Sys2Proof.Machine.execCmpiLt p a imm s
  | .cmpiGe p a imm => Sys2Proof.Machine.execCmpiGe p a imm s
  | .cmpiLtz p a imm => Sys2Proof.Machine.execCmpiLtz p a imm s
  | .cmpiGez p a imm => Sys2Proof.Machine.execCmpiGez p a imm s
  | .br o => Sys2Proof.Machine.execBr o s
  | .bp p o => Sys2Proof.Machine.execBp p o s
  | .bnp p o => Sys2Proof.Machine.execBnp p o s
  | .call o => Sys2Proof.Machine.execCall o s
  | .loop c o => Sys2Proof.Machine.execLoop c o s
  | .jr d a => Sys2Proof.Machine.execJr d a s
  | .lil d imm => Sys2Proof.Machine.execLil d imm s
  | .addil d a imm => Sys2Proof.Machine.execAddil d a imm s
  | .csrwLong c imm => Sys2Proof.Machine.execCsrwLong c imm s
  | .ld n z w d a imm => Sys2Proof.Machine.execLd n z w d a imm s
  | .lds z w d a imm => Sys2Proof.Machine.execLds z w d a imm s
  | .ldsDataArrive c d => Sys2Proof.Machine.execLdsDataArrive c d s
  | .st w d a imm => Sys2Proof.Machine.execSt w d a imm s
  | .ldAcq w d a z sf => Sys2Proof.Machine.execLdAcq w d a z sf s
  | .stRel w d a sf => Sys2Proof.Machine.execStRel w d a sf s
  | .chk a => Sys2Proof.Machine.execChk a s
  | .cvtaTo d a p => Sys2Proof.Machine.execCvtaTo d a p s
  | .cvtaOf d a p => Sys2Proof.Machine.execCvtaOf d a p s
  | .isap d a p => Sys2Proof.Machine.execIsap d a p s
  | .qput q a => Sys2Proof.Machine.execQput q a s
  | .qget d q => Sys2Proof.Machine.execQget d q s
  | .shape k a => Sys2Proof.Machine.execShape k a s
  | .sopen k a b => Sys2Proof.Machine.execSopen k a b s
  | .sld k a b => Sys2Proof.Machine.execSld k a b s
  | .sfill k a => Sys2Proof.Machine.execSfill k a s
  | .sfillRes k => Sys2Proof.Machine.execSfillRes k s
  | .sfork n m sf t w => Sys2Proof.Machine.execSfork n m sf t w s
  | .smark k => Sys2Proof.Machine.execSmark k s
  | .smarkClr k => Sys2Proof.Machine.execSmarkClr k s
  | .srew k => Sys2Proof.Machine.execSrew k s
  | .sclose k => Sys2Proof.Machine.execSclose k s
  | .scloseFin k => Sys2Proof.Machine.execScloseFin k s
  | .sdrain d k => Sys2Proof.Machine.execSdrain d k s
  | .sstat d k => Sys2Proof.Machine.execSstat d k s
  | .ssave k a => Sys2Proof.Machine.execSsave k a s
  | .srest a => Sys2Proof.Machine.execSrest a s
  | .cmd d a r => Sys2Proof.Machine.execCmd d a r s
  | .cengStat d r => Sys2Proof.Machine.execCengStat d r s
  | .cengSeq d r => Sys2Proof.Machine.execCengSeq d r s
  | .cengWait d a r => Sys2Proof.Machine.execCengWait d a r s
  | .cengRes d r => Sys2Proof.Machine.execCengRes d r s
  | .cengDrop d r => Sys2Proof.Machine.execCengDrop d r s
  | .xpAdd d a b => Sys2Proof.Machine.execXpAdd d a b s
  | .xpSub d a b => Sys2Proof.Machine.execXpSub d a b s
  | .xpAnd d a b => Sys2Proof.Machine.execXpAnd d a b s
  | .xpOr d a b => Sys2Proof.Machine.execXpOr d a b s
  | .xpXor d a b => Sys2Proof.Machine.execXpXor d a b s
  | .xpShl d a b => Sys2Proof.Machine.execXpShl d a b s
  | .xpShr d a b => Sys2Proof.Machine.execXpShr d a b s
  | .xpSra d a b => Sys2Proof.Machine.execXpSra d a b s
  | .xpMul d a b => Sys2Proof.Machine.execXpMul d a b s
  | .xpMin d a b => Sys2Proof.Machine.execXpMin d a b s
  | .xpMax d a b => Sys2Proof.Machine.execXpMax d a b s
  | .xpSel d a b c => Sys2Proof.Machine.execXpSel d a b c s
  | .xpCmp d a b c => Sys2Proof.Machine.execXpCmp d a b c s
  | .xpCsrr d c => Sys2Proof.Machine.execXpCsrr d c s
  | .xpCsrw a c => Sys2Proof.Machine.execXpCsrw a c s
  | .xpAddi d a imm => Sys2Proof.Machine.execXpAddi d a imm s
  | .xpLi d imm => Sys2Proof.Machine.execXpLi d imm s
  | .xpB o => Sys2Proof.Machine.execXpB o s
  | .xpBp c o => Sys2Proof.Machine.execXpBp c o s
  | .xpLoop c o => Sys2Proof.Machine.execXpLoop c o s
  | .xfence => Sys2Proof.Machine.execXfence s
  | .xpQget d q => Sys2Proof.Machine.execXpQget d q s
  | .xpQput q a => Sys2Proof.Machine.execXpQput q a s
  | .fadd d a b r => Sys2Proof.Machine.execFadd d a b r s
  | .fmul d a b r => Sys2Proof.Machine.execFmul d a b r s
  | .fma d a b r => Sys2Proof.Machine.execFma d a b r s
  | .lsp c o => Sys2Proof.Machine.execLsp c o s
  | .vset m e => Sys2Proof.Machine.execVset m e s
  | .vsetRot a m e => Sys2Proof.Machine.execVsetRot a m e s
  | .nset c => Sys2Proof.Machine.execNset c s
  | .xpLil d imm => Sys2Proof.Machine.execXpLil d imm s
  | .xpAddil d a imm => Sys2Proof.Machine.execXpAddil d a imm s
  | .xpCsrwLong c imm => Sys2Proof.Machine.execXpCsrwLong c imm s
  | .xpSteer c => Sys2Proof.Machine.execXpSteer c s
  | .vadd d a b sf m => Sys2Proof.Machine.execVadd d a b sf m s
  | .vsub d a b sf m => Sys2Proof.Machine.execVsub d a b sf m s
  | .vmul d a b sf m => Sys2Proof.Machine.execVmul d a b sf m s
  | .vmulh d a b m => Sys2Proof.Machine.execVmulh d a b m s
  | .vmad d a b sf m => Sys2Proof.Machine.execVmad d a b sf m s
  | .vmin d a b m => Sys2Proof.Machine.execVmin d a b m s
  | .vmax d a b m => Sys2Proof.Machine.execVmax d a b m s
  | .vabs d a sf m => Sys2Proof.Machine.execVabs d a sf m s
  | .vand d a b m => Sys2Proof.Machine.execVand d a b m s
  | .vor d a b m => Sys2Proof.Machine.execVor d a b m s
  | .vxor d a b m => Sys2Proof.Machine.execVxor d a b m s
  | .vnot d a m => Sys2Proof.Machine.execVnot d a m s
  | .vshl d a b sf m => Sys2Proof.Machine.execVshl d a b sf m s
  | .vshr d a b sf m => Sys2Proof.Machine.execVshr d a b sf m s
  | .vsra d a b sf m => Sys2Proof.Machine.execVsra d a b sf m s
  | .vcmp d a b c => Sys2Proof.Machine.execVcmp d a b c s
  | .vsel d a b => Sys2Proof.Machine.execVsel d a b s
  | .vwadd d a b sf q m => Sys2Proof.Machine.execVwadd d a b sf q m s
  | .vwmul d a b sf q m => Sys2Proof.Machine.execVwmul d a b sf q m s
  | .vwmad d a b sf q m => Sys2Proof.Machine.execVwmad d a b sf q m s
  | .vnarrow d a sf q m => Sys2Proof.Machine.execVnarrow d a sf q m s
  | .vcvt d a f e r m => Sys2Proof.Machine.execVcvt d a f e r m s
  | .vfadd d a b r m => Sys2Proof.Machine.execVfadd d a b r m s
  | .vfsub d a b r m => Sys2Proof.Machine.execVfsub d a b r m s
  | .vfmul d a b r m => Sys2Proof.Machine.execVfmul d a b r m s
  | .vfma d a b r m => Sys2Proof.Machine.execVfma d a b r m s
  | .vfmin d a b n m => Sys2Proof.Machine.execVfmin d a b n m s
  | .vfmax d a b n m => Sys2Proof.Machine.execVfmax d a b n m s
  | .vfcmp d a b c => Sys2Proof.Machine.execVfcmp d a b c s
  | .vfsgn d a b sf m => Sys2Proof.Machine.execVfsgn d a b sf m s
  | .vred d a r o sf m => Sys2Proof.Machine.execVred d a r o sf m s
  | .vcompress d a => Sys2Proof.Machine.execVcompress d a s
  | .vexpand d a => Sys2Proof.Machine.execVexpand d a s
  | .vperm d a m => Sys2Proof.Machine.execVperm d a m s
  | .vslide d a imm => Sys2Proof.Machine.execVslide d a imm s
  | .vbcast d a j => Sys2Proof.Machine.execVbcast d a j s
  | .mand d a b => Sys2Proof.Machine.execMand d a b s
  | .mor d a b => Sys2Proof.Machine.execMor d a b s
  | .mnot d a => Sys2Proof.Machine.execMnot d a s
  | .mpop d a => Sys2Proof.Machine.execMpop d a s
  | .seat x => Sys2Proof.Machine.execSeat x s
  | .unseat => Sys2Proof.Machine.execUnseat s
  | .wload k m t => Sys2Proof.Machine.execWload k m t s
  | .wswap => Sys2Proof.Machine.execWswap s
  | .sclq k => Sys2Proof.Machine.execSclq k s
  | .mmul t k m h e => Sys2Proof.Machine.execMmul t k m h e s
  | .mmulg t k x m h e => Sys2Proof.Machine.execMmulg t k x m h e s
  | .azero t => Sys2Proof.Machine.execAzero t s
  | .drain t x sf f => Sys2Proof.Machine.execDrain t x sf f s
  | .rpop v => Sys2Proof.Machine.execRpop v s
  | .rsend k => Sys2Proof.Machine.execRsend k s
  | .exp2 d a m => Sys2Proof.Machine.execExp2 d a m s
  | .log2 d a m => Sys2Proof.Machine.execLog2 d a m s
  | .rcp d a m => Sys2Proof.Machine.execRcp d a m s
  | .rsqrt d a m => Sys2Proof.Machine.execRsqrt d a m s
  | .sinpi d a m => Sys2Proof.Machine.execSinpi d a m s
  | .cospi d a m => Sys2Proof.Machine.execCospi d a m s
  | .tanh d a m => Sys2Proof.Machine.execTanh d a m s
  | .sigm d a m => Sys2Proof.Machine.execSigm d a m s
  | .stintEndCount crew => Sys2Proof.Machine.execStintEndCount crew s
  | .seatGrant crew => Sys2Proof.Machine.execSeatGrant crew s
  | .nop => Sys2Proof.Machine.execNop s
  | .spawnAp d a b => Sys2Proof.Machine.execSpawnAp d a b s
  | .spawnXp d a b => Sys2Proof.Machine.execSpawnXp d a b s
  | .endTask => Sys2Proof.Machine.execEndTask s
  | .wait d a c sf => Sys2Proof.Machine.execWait d a c sf s
  | .raise a c sf => Sys2Proof.Machine.execRaise a c sf s
  | .fwait d a b => Sys2Proof.Machine.execFwait d a b s
  | .fres a b => Sys2Proof.Machine.execFres a b s
  | .ffault a b => Sys2Proof.Machine.execFfault a b s
  | .hbarHeat a => Sys2Proof.Machine.execHbarHeat a s
  | .hbarGroup a h w => Sys2Proof.Machine.execHbarGroup a h w s
  | .barm a b => Sys2Proof.Machine.execBarm a b s
  | .barmClr a b => Sys2Proof.Machine.execBarmClr a b s
  | .bwait d a p b => Sys2Proof.Machine.execBwait d a p b s
  | .hand a b => Sys2Proof.Machine.execHand a b s
  | .fence sf => Sys2Proof.Machine.execFence sf s
  | .tsr d => Sys2Proof.Machine.execTsr d s
  | .trap n => Sys2Proof.Machine.execTrap n s
  | .rtt => Sys2Proof.Machine.execRtt s
  | .sysXpage d a => Sys2Proof.Machine.execSysXpage d a s
  | .sysXctx d a => Sys2Proof.Machine.execSysXctx d a s
  | .sysRlc d a => Sys2Proof.Machine.execSysRlc d a s
  | .sysTbsync d a => Sys2Proof.Machine.execSysTbsync d a s
  | .slip a => Sys2Proof.Machine.execSlip a s
  | .halt => Sys2Proof.Machine.execHalt s
  | .pixr d e => Sys2Proof.Machine.execPixr d e s
  | .pixw a e => Sys2Proof.Machine.execPixw a e s
  | .must d a => Sys2Proof.Machine.execMust d a s
  | .unmust a => Sys2Proof.Machine.execUnmust a s
  | .taskStart c sd => Sys2Proof.Machine.execTaskStart c sd s
  | .engineHeadStart c r => Sys2Proof.Machine.execEngineHeadStart c r s
  | .copy c r k => Sys2Proof.Machine.execCopy c r k s
  | .copyDecode c r k => Sys2Proof.Machine.execCopyDecode c r k s
  | .fill c r k => Sys2Proof.Machine.execFill c r k s
  | .ragged c r k => Sys2Proof.Machine.execRagged c r k s
  | .gather c r k => Sys2Proof.Machine.execGather c r k s
  | .scatter c r k => Sys2Proof.Machine.execScatter c r k s
  | .accwAdd c r k => Sys2Proof.Machine.execAccwAdd c r k s
  | .accwAdds c r k => Sys2Proof.Machine.execAccwAdds c r k s
  | .accwFadd c r k => Sys2Proof.Machine.execAccwFadd c r k s
  | .accwXadd c r k => Sys2Proof.Machine.execAccwXadd c r k s
  | .accwOr c r k => Sys2Proof.Machine.execAccwOr c r k s
  | .accwAnd c r k => Sys2Proof.Machine.execAccwAnd c r k s
  | .accwXor c r k => Sys2Proof.Machine.execAccwXor c r k s
  | .accwMin c r k => Sys2Proof.Machine.execAccwMin c r k s
  | .accwMax c r k => Sys2Proof.Machine.execAccwMax c r k s
  | .accwFmin c r k => Sys2Proof.Machine.execAccwFmin c r k s
  | .accwFmax c r k => Sys2Proof.Machine.execAccwFmax c r k s
  | .accwSwap c r k => Sys2Proof.Machine.execAccwSwap c r k s
  | .accwCas c r k => Sys2Proof.Machine.execAccwCas c r k s
  | .laneLoad c r k => Sys2Proof.Machine.execLaneLoad c r k s
  | .laneRun c r => Sys2Proof.Machine.execLaneRun c r s
  | .net c r => Sys2Proof.Machine.execNet c r s
  | .qfence c r => Sys2Proof.Machine.execQfence c r s
  | .semaSignal c r => Sys2Proof.Machine.execSemaSignal c r s
  | .semaSet c r => Sys2Proof.Machine.execSemaSet c r s
  | .fillerCommit c n => Sys2Proof.Machine.execFillerCommit c n s
  | .drainerWrite c n len => Sys2Proof.Machine.execDrainerWrite c n len s
  | .coreSlotTransfer c n => Sys2Proof.Machine.execCoreSlotTransfer c n s
  | .laneStep lane => Sys2Proof.Machine.execLaneStep lane s
  | .laneLoopLimit lane => Sys2Proof.Machine.execLaneLoopLimit lane s
  | .netReceiverDone die imm => Sys2Proof.Machine.execNetReceiverDone die imm s
  | .netSeatRelease die crew => Sys2Proof.Machine.execNetSeatRelease die crew s
  | .rlcWriteback die ctx line => Sys2Proof.Machine.execRlcWriteback die ctx line s
  | .rlcInvalidate die ctx line => Sys2Proof.Machine.execRlcInvalidate die ctx line s
  | .faultDelivery c => Sys2Proof.Machine.execFaultDelivery c s
  | .heatLaunch => Sys2Proof.Machine.execHeatLaunch s
  | .preempt => Sys2Proof.Machine.execPreempt s
  | .preemptSaveDone num => Sys2Proof.Machine.execPreemptSaveDone num s
  | .heatComplete num => Sys2Proof.Machine.execHeatComplete num s
  | .stall num => Sys2Proof.Machine.execStall num s
  | .intakeRecord ch hdr pay => Sys2Proof.Machine.execIntakeRecord ch hdr pay s
  | .intakeCommit ch => Sys2Proof.Machine.execIntakeCommit ch s
  | .hostBar4Write off bytes => Sys2Proof.Machine.execHostBar4Write off bytes s
  | .hostBar4Read off n => Sys2Proof.Machine.execHostBar4Read off n s
  | .registerWrite off bytes => Sys2Proof.Machine.execRegisterWrite off bytes s
  | .linkLost l => Sys2Proof.Machine.execLinkLost l s
  | .lostReadComplete j => Sys2Proof.Machine.execLostReadComplete j s
  | .lostWritePoison j => Sys2Proof.Machine.execLostWritePoison j s
  | .linkRepairDone l => Sys2Proof.Machine.execLinkRepairDone l s
  | .hbmLaneRepair ch => Sys2Proof.Machine.execHbmLaneRepair ch s
  | .errorCorrectable site => Sys2Proof.Machine.execErrorCorrectable site s
  | .errorUncorrectable key => Sys2Proof.Machine.execErrorUncorrectable key s
  | .temperatureHigh die => Sys2Proof.Machine.execTemperatureHigh die s
  | .bankOvervoltage => Sys2Proof.Machine.execBankOvervoltage s
  | .supplyLoss => Sys2Proof.Machine.execSupplyLoss s
  | .quiesceComplete => Sys2Proof.Machine.execQuiesceComplete s
  | .saveSetWritten => Sys2Proof.Machine.execSaveSetWritten s
  | .drillLimitReached => Sys2Proof.Machine.execDrillLimitReached s
  | .reserveExhausted n => Sys2Proof.Machine.execReserveExhausted n s
  | .powerUp strap => Sys2Proof.Machine.execPowerUp strap s
  | .healthTest pf => Sys2Proof.Machine.execHealthTest pf s
  | .bankChargeTimeout => Sys2Proof.Machine.execBankChargeTimeout s
  | .leaseRenew => Sys2Proof.Machine.execLeaseRenew s
  | .leaseLapse => Sys2Proof.Machine.execLeaseLapse s
  | .leaseTakeover => Sys2Proof.Machine.execLeaseTakeover s
  | .coxReload => Sys2Proof.Machine.execCoxReload s
  | .lifetimeWrite => Sys2Proof.Machine.execLifetimeWrite s
  | .fwLoad sl => Sys2Proof.Machine.execFwLoad sl s
  | .quote sl nonce mask => Sys2Proof.Machine.execQuote sl nonce mask s
  | .quoteIdentity sl => Sys2Proof.Machine.execQuoteIdentity sl s
  | .extend sl j dig => Sys2Proof.Machine.execExtend sl j dig s
  | .ownerInstall sl hs => Sys2Proof.Machine.execOwnerInstall sl hs s
  | .ownerRelease sl tok => Sys2Proof.Machine.execOwnerRelease sl tok s
  | .ownerRecover sl tok => Sys2Proof.Machine.execOwnerRecover sl tok s
  | .ctxConfig sl ctx cfg => Sys2Proof.Machine.execCtxConfig sl ctx cfg s
  | .map sl ctx rg => Sys2Proof.Machine.execMap sl ctx rg s
  | .unmap sl ctx va n => Sys2Proof.Machine.execUnmap sl ctx va n s
  | .metaBlock sl ctx rg blk => Sys2Proof.Machine.execMetaBlock sl ctx rg blk s
  | .intake sl ch cfg => Sys2Proof.Machine.execIntake sl ch cfg s
  | .launch sl arg => Sys2Proof.Machine.execLaunch sl arg s
  | .heatStatus sl num => Sys2Proof.Machine.execHeatStatus sl num s
  | .heatContinue sl num acts => Sys2Proof.Machine.execHeatContinue sl num acts s
  | .heatEnd sl num => Sys2Proof.Machine.execHeatEnd sl num s
  | .saveDir sl j => Sys2Proof.Machine.execSaveDir sl j s
  | .restore sl setid ctx target => Sys2Proof.Machine.execRestore sl setid ctx target s
  | .saveRelease sl => Sys2Proof.Machine.execSaveRelease sl s
  | .drill sl l auth => Sys2Proof.Machine.execDrill sl l auth s
  | .preauth sl mask auth => Sys2Proof.Machine.execPreauth sl mask auth s
  | .lifeRead sl off n => Sys2Proof.Machine.execLifeRead sl off n s
  | .rejoin sl => Sys2Proof.Machine.execRejoin sl s
  | .xspiRead addr n => Sys2Proof.Machine.execXspiRead addr n s
  | .xspiWrite addr bytes => Sys2Proof.Machine.execXspiWrite addr bytes s
  | .xspiWriteEnable => Sys2Proof.Machine.execXspiWriteEnable s
  | .xspiReadStatus => Sys2Proof.Machine.execXspiReadStatus s
  | .xspiWriteConfig v => Sys2Proof.Machine.execXspiWriteConfig v s
  | .xspiReadSfdp addr n => Sys2Proof.Machine.execXspiReadSfdp addr n s
  | .xspiResetEnable => Sys2Proof.Machine.execXspiResetEnable s
  | .xspiReset => Sys2Proof.Machine.execXspiReset s
  | .launchRecordTaken ch => Sys2Proof.Machine.execLaunchRecordTaken ch s

end Sys2Proof.Machine
end

