-- ==== Sys2Proof/Machine/Place.lean ====
section
/-! DEFINITION. A program placed for its first instruction: what the loader and the launch of a heat do (R41, R293), in one
stroke, for one instruction on core 0 (DESIGN CHOICE, log 3). -/

namespace Sys2Proof.Machine

/-- Where the placed instruction lies. -/
def placeAddr : Addr := 0x10000000

/-- The record of the placed heat: context 1, system mode, cores 0, 1, 24 and 25, 96 vector registers, 8 tiles (R286). -/
def placeRec : HeatRec :=
  { ctx := 1, prio := 4, resume := false, system := true, any := false, faultXp := false, die := 1, x0 := 0, y0 := 0, w := 2,
    h := 2, part := 2 + 8 * 4 + 4 * 128, apEntry := placeAddr, xpEntry := placeAddr, fEntry := 0, number := 1, stallUs := 0,
    image := 0, hints := [] }

/-- The placed heat, running. -/
def placeHeat : Heat :=
  { hr := placeRec, st := .running, was := .running, regions := [], ring := [], accepted := 0, launched := 0, active := 0,
    stalled := false, bridge := false, lanes := [], reports := [], snapshot := [], descs := none, saveAt := 0 }

/-- The placed heat's one region: COMMONS, on die S (R267). -/
def placeRegion : RegionEntry := { base := 0x10000000, count := 1, st := .commons, spread := .dieS, owner := 0 }

/-- The placed heat runs on core 0, its region mapped and its partition installed. -/
def placeProgram (s : State) : State :=
  let s := { s with heats := [placeHeat], pages := [⟨1, 0x10000000, 2 ^ 21, true, true⟩]
                    water := { s.water with power := .ready }, coxS := { s.coxS with up := true, lead := true } }
  let s := s.modCtx 1 (fun x => { x with regions := [placeRegion] })
  s.modCore 0 (fun k => { k with heat := 1, ctx := some 1, vregsCode := 2, acc := 8, cont := 4 })

/-- One instruction stored where a side of core 0 fetches next. -/
def placeSide (sd : Side) (nbits w : Nat) (s : State) : State :=
  let s := { s with mem := memWrite s.mem (globKey 1 placeAddr.toNat) (leBytes 8 (w % 2 ^ nbits)) }
  (s.modSide 0 sd (fun x => { x with pc := placeAddr, run := .run, land := false })).modCore 0 (fun k => { k with aside := [] })

/-- One word at the head of the queue that runs it: where an engine takes its next word from. -/
def placeQueued (u : Unit) (w : Nat) (s : State) : State :=
  let q : QWord := ⟨placeAddr, BitVec.ofNat 32 w, (s.core 0).vt, (s.core 0).g, (s.core 0).seq⟩
  s.modCore 0 (fun k =>
    { k with
      vq := if u = .vec then [q] else []
      mq := if u = .mtx then [q] else []
      fq := if u = .func then [q] else []
      seq := k.seq + 1 })

/-- The turn of a unit, alone in the plan. -/
def placeTurn (a : Act) (s : State) : State :=
  { s with plan := [{ act := a, dt := 2, dtB := 2, steps := 64, link := none }] }

/-- The section that runs a matrix word (R258). -/
def mtxEng (i : Instr) : Eng :=
  match i with
  | .wload _ _ _ => .load
  | _ => .pass

/-- The engine that runs a queued word. -/
def engOf (i : Instr) : Eng :=
  match i.unit with
  | .vec => .vec
  | .func => .func
  | _ => mtxEng i

/-- An instruction placed so that the very next step runs it (DESIGN CHOICE, log 3). -/
def placeWord (s : State) (nbits w : Nat) : State :=
  let s := placeProgram s
  match decodeTableWord nbits w with
  | none => placeTurn (.side 0 .ap) (placeSide .ap nbits w s)
  | some i =>
    match i.unit with
    | .xp => placeTurn (.side 0 .xp) (placeSide .xp nbits w s)
    | .vec | .mtx | .func => placeTurn (.eng 0 (engOf i)) (placeQueued i.unit w s)
    | _ => placeTurn (.side 0 .ap) (placeSide .ap nbits w s)

end Sys2Proof.Machine
end

