-- ==== Sys2Proof/Machine/Step.lean ====
section
/-! DEFINITION. One step of the part: the next turn, and what the unit it names does (DESIGN CHOICE, log 1). -/

namespace Sys2Proof.Machine

/-- The state with an instruction placed where the next step fetches it (DESIGN CHOICE, log 3). -/
def State.withFetchWord (s : State) (nbits w : Nat) : State := placeWord s nbits w

/-- An instruction runs, and the part does what it does after every step. -/
def runInstr (i : Instr) (s : State) : Host.Outcome State Fault Refusal :=
  match exec i s with
  | .next t => .next (afterStep t)
  | .fault f => .fault f
  | .refused r => .refused r

/-- A turn's outcome: it is over, or an instruction runs. -/
def runTodo (t : Todo) : Host.Outcome State Fault Refusal :=
  match t with
  | .ended s => .next s
  | .run i s => runInstr i s

/-- One step: the units of an absent die have no turn, and a turn that is no step of the opcode table is refused. -/
def step (s : State) : Host.Outcome State Fault Refusal :=
  let (t, s) := nextTurn s
  let s := tick t s
  match t.act with
  | .side c sd => if s.hasCore c = true then runTodo (sideTurn c sd t s) else .fault .absentUnit
  | .eng c e => if s.hasCore c = true then runTodo (engTurn c e t s) else .fault .absentUnit
  | .ev i =>
    if i.unit = .event ∧ i.wf = true then
      if unitPresent i s = true then runInstr i (eventTurn t s) else .fault .absentUnit
    else .refused .illFormed

end Sys2Proof.Machine
end

