-- ==== Sys2Proof/Safety.lean ====
section
/-! DEFINITION. What a state of the part must keep, and the words that claims use for states in which an instruction meets
nothing that it waits for, and for what it leaves. -/

namespace Sys2Proof

open Sys2Proof.Machine

/-- A step that ends the run: a planned turn of an absent unit or of no step of the part (R2; DESIGN CHOICE, log 1). -/
def Safety.stops (s : State) : Prop :=
  match step s with
  | .next _ => False
  | _ => True

/-- Memory lists its bytes in the canonical form. -/
abbrev Safety.memOk (s : State) : Prop := Memory.wf s.mem = true

/-! ### A step -/

/-- What a step that runs an instruction comes to: what exec answers, and what the part does after every step (DESIGN CHOICE, log 1). -/
def Safety.around (i : Instr) (u : State) : Res :=
  match exec i u with
  | .next t => .next (afterStep t)
  | .fault f => .fault f
  | .refused r => .refused r

/-- The state in which a side moves at its pc in a turn. -/
def Safety.sideMoves (c : Nat) (sd : Side) (t : Turn) (s : State) : State :=
  let k := s.core c
  { s with cur := ⟨c, sd, (k.side sd).pc, k.vt, k.g, none, 0, t.steps, turnLink s t, false⟩ }

/-- The state in which an engine takes up a queued word in a turn, with the VT and G it captured (R11). -/
def Safety.engMoves (c : Nat) (e : Eng) (q : QWord) (t : Turn) (s : State) : State :=
  { s with cur := ⟨c, .xp, q.addr, q.vt, q.g, some e, q.seq, t.steps, turnLink s t, false⟩ }

/-- A side fetches in this turn: its heat runs, the AP waits for no lost read, no delivery is due, the side runs a task, no word
set aside goes first, and its pc passes the landing check (R51, R294, R314, R317, R320). -/
abbrev Safety.fetches (c : Nat) (sd : Side) (s : State) : Prop :=
  s.live c = true ∧ (sd = .ap → apAwaitsLink s c = false) ∧ deliveryDue s c sd = false ∧ ((s.core c).side sd).run = .run ∧
    (sd = .xp → (s.core c).aside = []) ∧
    (((s.core c).side sd).land = true → landsBad s c ((s.core c).side sd).pc = false)

/-! ### A unit that waits for nothing -/

/-- A word of the AP moves, and no load that has not returned will write one of the registers (R95). -/
abbrev Safety.apFree (regs : List Nat) (s : State) : Prop :=
  s.cur.side = .ap ∧ s.cur.eng = none ∧ s.me.ldsWaits regs = false

/-- A sequencer word of the XP moves, and no earlier word that has not completed holds one of the x registers (R9 rule 1). -/
abbrev Safety.xpFree (regs : List Nat) (s : State) : Prop :=
  s.cur.side = .xp ∧ s.cur.eng = none ∧ s.me.holdsBack [] (regs.map .x) = false

/-- A SYNC word moves and no load or queued word holds its registers; `fenced` that on the XP every queued word has completed
(R95, R207, R208). -/
abbrev Safety.syncFree (fenced : Bool) (regs : List Nat) (s : State) : Prop :=
  s.cur.eng = none ∧ ((s.cur.side = .ap ∧ s.me.ldsWaits regs = false) ∨
    (s.cur.side = .xp ∧ s.me.holdsBack [] (regs.map .x) = false ∧ (fenced = true → s.me.unfinished = [])))

/-- An engine takes up a word that has not started: nothing is in progress in it, and its start step is 0 (R26). -/
abbrev Safety.starts (e : Eng) (s : State) : Prop :=
  s.cur.eng = some e ∧ s.cur.side = .xp ∧ s.me.slot e = none ∧ s.me.kept = [] ∧ s.me.pix e = 0

/-- The moving core holds its crew's seat with words left in its stint (R193). -/
abbrev Safety.seated (s : State) : Prop :=
  s.me.hasSeat = true ∧ s.me.stint ≠ 0 ∧ reseating s s.cur.core = false

/-- The source ports of a word hold their unit and its sink port has room for one (R127, R129); true without ports. -/
abbrev Safety.portsReady (srcs dsts : List Nat) (s : State) : Prop := portsCheck s (portsOf srcs) (portsOf dsts) = .ready

/-! ### Elements -/

/-- Element i of w bits (R14). -/
def Safety.el (w i : Nat) (v : BitVec 4096) : Nat := (v.extractLsb' (w * i) w).toNat

/-- Whether element i is active: without M, or where the mask of MSEL has its bit (R172). -/
def Safety.act (s : State) (m : Bool) (i : Nat) : Bool := !m || (s.me.mask (vtMask s.cur.vt)).getLsbD i

/-- The first n units that a port gives, one after another (R127). -/
def Safety.portUnits (port : Nat) : Nat → State → List (BitVec 4096)
  | 0, _ => []
  | n + 1, s => unitOf s port :: Safety.portUnits port n (portAdvance s.cur.core port 512 s)

/-! ### What a word leaves -/

/-- The AP writes an a register and its word of `len` bytes completes. -/
def Safety.apPut (len d : Nat) (v : Addr) (bad : Bool) (s : State) : Res := .next (finishN len (putA d ⟨v, bad⟩ s))

/-- The AP writes a predicate and its word completes. -/
def Safety.apPred (p : Nat) (v : Bool) (s : State) : Res := .next (finish (s.modMe (fun k => k.setPred p v)))

/-- The XP writes an x register and its word of `len` bytes completes. -/
def Safety.xpPut (len d : Nat) (v : Addr) (s : State) : Res := .next (finishN len (s.modMe (fun k => k.setXreg d v)))

/-- The moving unit takes a fault at its word: POISON at a use (R97), another code at its address, or at a data address. -/
def Safety.traps (t : Trap) (s : State) : Res := .next (takeTrap t s)

/-- What a SYNC word comes to: POISON at a poisoned source on the AP, else r (R207). -/
def Safety.synced (srcs : List Nat) (s : State) (r : Res) : Res :=
  if s.cur.side = .ap ∧ s.me.anyPoison srcs = true then Safety.traps trapPoison s else r

/-- No source of a SYNC word is poisoned where that matters, on the AP (R207). -/
abbrev Safety.clean (srcs : List Nat) (s : State) : Prop := s.cur.side = .ap → s.me.anyPoison srcs = false

/-- What a task that registers a wait leaves: a record of it in pool place i, and an idle side (R210). -/
def Safety.registered (r : Res) (s : State) (kind : WKind) (mask : Addr) (d arg : Nat) (i : Nat) (f : State → Prop) : Prop :=
  ∃ t, r = .next t ∧ f t ∧ t.mySide.run = .idle ∧ t.mySide.task = s.mySide.task ∧
    ∃ c, tfind t.me.pool i = some c ∧ c.resume = s.cur.addr + 4 ∧ c.mask = mask.setWidth 32 ∧ c.task = s.mySide.task ∧
      c.kind = kind ∧ c.side = s.cur.side ∧ c.dreg = d ∧ c.arg = arg ∧
      c.regs = (maskList mask.toNat).map (fun r => (s.me.reg s.cur.side r).val)

/-- What a wait that is not satisfied comes to: ILLEGAL in a fault task, CONT_FULL without a free record, else it registers
(R210, R319); on the AP it first waits for loads into the registers it saves (R95). -/
def Safety.waits (r : Res) (s : State) (kind : WKind) (mask : Addr) (d arg : Nat) (f : Nat → State → Prop) : Prop :=
  (s.cur.side = .ap → s.me.ldsWaits (maskList mask.toNat) = false) →
    (s.mySide.frame.isSome = true → r = Safety.traps (trapAt .illegal) s) ∧
    (s.mySide.frame = none → freeRec s.me = none → r = Safety.traps (trapAt .contFull) s) ∧
    (∀ i, s.mySide.frame = none → freeRec s.me = some i → Safety.registered r s kind mask d arg i (f i))

/-- What a release waits for is done: an AP's speculative loads have returned, and no lost write of its die is to be made again,
neither before nor by the release's own write-backs (R95, R275, R276, R315). -/
abbrev Safety.loadsDone (s : State) : Prop :=
  let d := dieOf s.cur.core
  (s.cur.side = .ap → s.me.lds = []) ∧ s.owes d = false ∧ (flushDie d s).owes d = false

/-- What a die's release at device scope leaves: no dirty line in its cache, no invalidation pending at the other (R224, R275). -/
abbrev Safety.released (die : Nat) (t : State) : Prop :=
  (∀ l ∈ (t.die die).rlc, l.dirty = false) ∧ (t.die (1 - die)).invs = []

/-- The task waiters that a count serves, oldest first while it covers the next, with the count and the waiters left (R214). -/
def Safety.served (need : Nat → Nat) : List Nat → Nat → List Nat × Nat × List Nat
  | [], n => ([], n, [])
  | i :: r, n => if need i ≤ n then let x := Safety.served need r (n - need i); (i :: x.1, x.2) else ([], n, i :: r)

/-- The records of a future's list, from its head along the links to the end (R216, R218). -/
def Safety.listIs (s : State) : Option (Nat × Nat) → List (Nat × Nat) → Prop
  | o, [] => o = none
  | o, p :: l => o = some p ∧ ∃ r, tfind (s.core p.1).pool p.2 = some r ∧ Safety.listIs s r.link l

/-- Records of a core's pool that are given a value and join their side's task queue, in order (R210, R294). -/
def Safety.woken (s t : State) (v : Addr) (l : List (Nat × Nat)) : Prop :=
  (∀ c i r, (c, i) ∈ l → tfind (s.core c).pool i = some r → tfind (t.core c).pool i = some { r with wvalue := v }) ∧
    ∀ c sd, ((t.core c).side sd).tq = ((s.core c).side sd).tq ++
      (l.filter (fun p => p.1 == c && ((tfind (s.core c).pool p.2).any (fun r => r.side == sd)))).map (fun p => p.2)

/-! ### PIX (R26) -/

/-- The step at which an engine's next long word or record begins, as PIX numbers the engines. -/
def Safety.pixStart (k : Core) : Nat → Nat
  | 0 => k.pixVec
  | 1 => k.pixMtx
  | 2 => k.pixFun
  | _ => (k.ring 0).chunk

/-- What a write of PIX comes to: the fields are set in turn, each once its engine is idle; with all four set the word completes,
else it stays where it is with those before the first busy engine set. -/
def Safety.pixWritten (r : Res) (s : State) (len v : Nat) : Prop :=
  let n := s.mySide.pix
  n < 4 →
    ((∀ e, n ≤ e → e < 4 → pixIdle s.me e = true) →
      ∃ u, r = .next (finishN len u) ∧ u.cur = s.cur ∧
        ∀ e, e < 4 → Safety.pixStart u.me e = if n ≤ e then v / 2 ^ (16 * e) % 2 ^ 16 else Safety.pixStart s.me e) ∧
    (∀ e, n ≤ e → e < 4 → (∀ j, n ≤ j → j < e → pixIdle s.me j = true) → pixIdle s.me e = false →
      ∃ t, r = .next t ∧ t.mySide.pix = e ∧ t.mySide.pc = s.mySide.pc ∧
        ∀ j, j < 4 → Safety.pixStart t.me j = if n ≤ j ∧ j < e then v / 2 ^ (16 * j) % 2 ^ 16 else Safety.pixStart s.me j)

/-! ### Records of the rings -/

/-- The record b at the head of a ring has chunk k of its kind to do, and every link serves (R132, R141). -/
abbrev Safety.chunkDue (c r kind k : Nat) (b : BitVec 512) (s : State) : Prop :=
  s.unitsLive c = true ∧ s.cur.link = none ∧ s.bridge.reads.any (fun q => q.who == .chunk c r k) = false ∧
    (chunkHead s c r kind k).map (fun p => p.2) = some b

/-- Chunk k of a ring's head is done, n bytes delivered: with every other chunk of the record done before and no poison met before,
the record has retired, unless the pending list is too full for what that may report (R317) or a lost write of the die is to come
(R315); else it is the head still, with k
marked (R132, R140). -/
def Safety.chunkDone (t s : State) (c r k total n : Nat) : Prop :=
  let g := (s.core c).ring r
  let h := (t.core c).ring r
  let rest := ∀ j, j < total → j ≠ k → j < g.chunk ∨ (g.chunk ≤ j ∧ g.marks.getLsbD (j - g.chunk) = true)
  (rest → g.carried = none → g.lost = false → (s.core c).pending.length < 63 → s.owes (dieOf c) = false → h.rp = g.rp + 1) ∧
    (¬ rest → h.rp = g.rp ∧ h.bytes = g.bytes + n ∧ (k < h.chunk ∨ h.marks.getLsbD (k - h.chunk) = true))

/-- The lines that a die's cache holds are homed on the other die, and their keys are those of global memory: what makes a release
of that die write nothing else (R272). -/
abbrev Safety.farLines (die : Nat) (s : State) : Prop :=
  ∀ l ∈ (s.die die).rlc, s.homeDie (.glob l.ctx (l.line * 64)) ≠ die ∧ l.ctx < 16 ∧ l.line < 2 ^ 42

/-- What a DEVREL record asks of the die that it releases. -/
abbrev Safety.devrelOk (c : Nat) (b : BitVec 512) (s : State) : Prop :=
  rkDevrel b = true → Safety.farLines (dieOf c) s

/-- The n bytes that a chunk reads from an address on, granule after granule. -/
def Safety.chunkRead (s : State) (c : Nat) (ea : Addr) (n : Nat) : List Byte :=
  (readPieces (n / 16 + 2) c ea n s).2.flatMap (fun p => p.1)

/-- A list holds the n bytes that a core's die sees from an address on. -/
abbrev Safety.readsAs (s : State) (c : Nat) (ea : Addr) (n : Nat) (l : List Byte) : Prop :=
  l.length = n ∧ ∀ i p, i < n → s.place c (ea + BitVec.ofNat 64 i) = some p → l[i]? = some (peek s (dieOf c) p)

/-- The n bytes that a core's die sees from an address on. -/
def Safety.seen (s : State) (c : Nat) (ea : Addr) (n : Nat) : List Byte :=
  match s.place c ea with
  | some p => (List.range n).map (fun i => peek s (dieOf c) (p.plus i))
  | none => []

/-- No element that a moving sink has still to write lies under the n bytes from an address of a core on: a fetch of them meets no mixture
of R261. -/
abbrev Safety.settled (s : State) (c0 : Nat) (ea : Addr) (len : Nat) : Prop :=
  ∀ q, s.place c0 ea = some q → ∀ c n st, tfind (s.core c).streams n = some st → s.unitsLive c = true →
    ∀ p ∈ undrained st, underRun s c p.2 (2 ^ shElem st.shape) q.key len = false

/-- The stream number n of a core after a step that left its reader entries alone. -/
def Safety.streamIs (t : State) (c n : Nat) (f : Stream → Prop) : Prop := ∃ st, tfind (t.core c).streams n = some st ∧ f st

/-- A word of the vector or function queue has completed: its ports have moved on, its result is in d, every active element of
which is what f gives and every other the old one, and FLAGS took in the flags of the active elements (R172, R188). -/
def Safety.elementwise (r : Res) (s : State) (d : Nat) (srcs : List Nat) (m : Bool) (f : Nat → FRes) : Prop :=
  let w := etBits (vtType s.cur.vt)
  ∃ v fl, r = .next (dropWord (raiseFlags fl (putDest d v (takeUnits srcs s)))) ∧
    (∀ i, i < 4096 / w → Safety.el w i v = if Safety.act s m i = true then (f i).v % 2 ^ w else Safety.el w i (oldDest s d)) ∧
    (∀ j, fl.testBit j = true ↔ ∃ i, i < 4096 / w ∧ Safety.act s m i = true ∧ (f i).fl.testBit j = true)

/-- A word whose result spans `fac` registers of elements of w bits has completed: element i lies in register d + i mod fac at
position i div fac, no other register has changed, and the engine is free (R179, R187). -/
def Safety.spanwise (r : Res) (s : State) (d fac w n : Nat) (m : Bool) (f : Nat → FRes) : Prop :=
  ∃ t, r = .next t ∧
    (∀ i, i < n →
      let reg := rename s.cur.vt (d + i % fac)
      Safety.el w (i / fac) (t.me.vreg reg) =
        if Safety.act s m i = true then (f i).v % 2 ^ w else Safety.el w (i / fac) (s.me.vreg reg)) ∧
    (∀ reg, (∀ j, j < fac → reg ≠ rename s.cur.vt (d + j)) → t.me.vreg reg = s.me.vreg reg) ∧
    t.me.inVec = none ∧ (∀ q ∈ t.me.vq, q.seq ≠ s.cur.seq)

/-- A word has left its engine with a result; the seat's count has fallen by `cost` (R193). -/
def Safety.leaves (r : Res) (s : State) (cost : Nat) (f : State → Prop) : Prop :=
  ∃ t, r = .next t ∧ f t ∧ t.me.stint = s.me.stint - cost ∧ t.me.slot s.eng = none ∧
    (∀ q ∈ t.me.vq ++ t.me.mq ++ t.me.fq, q.seq ≠ s.cur.seq)

/-! ### Frames -/

/-- Whether a place is one of the part's: its key is then no other place's (R90, R266). -/
def Safety.placed : Place → Bool
  | .glob ctx va => decide (ctx < 16) && decide (va < 2 ^ 48)
  | .sram die ctx off => decide (die < 2) && decide (ctx < 16) && decide (off < 2 ^ 24)
  | .pool c off => decide (c < 192) && decide (off < 2 ^ 20)

/-- The line of global memory that a place lies in. -/
def Safety.lineOf : Place → Option (Nat × Nat)
  | .glob ctx va => some (ctx, va / 64)
  | _ => none

/-- A party of either die sees the byte at a place as before. -/
abbrev Safety.alike (s t : State) (q : Place) : Prop := ∀ die, die < 2 → peek t die q = peek s die q

/-- Two places share no line of global memory. -/
abbrev Safety.apart (p q : Place) : Prop := Safety.lineOf q = none ∨ Safety.lineOf q ≠ Safety.lineOf p

/-- A place outside the n bytes from an address of a core on, and outside their lines. -/
def Safety.beyond (s : State) (c : Nat) (ea : Addr) (n : Nat) (q : Place) : Prop :=
  ∀ p i, s.place c ea = some p → i < n → q.key ≠ p.key + i ∧ Safety.apart (p.plus i) q

/-- The a registers that a word of the AP reads. -/
def Safety.apReads : Instr → List Nat
  | .add _ a b | .sub _ a b | .and _ a b | .or _ a b | .xor _ a b | .andn _ a b | .shl _ a b | .shr _ a b | .sra _ a b | .mul _ a b
  | .mulh _ a b | .mulhz _ a b | .div _ a b | .rem _ a b | .divz _ a b | .remz _ a b | .min _ a b | .max _ a b | .minz _ a b
  | .maxz _ a b | .sel _ a b _ | .cmp _ a b _ | .sopen _ a b | .sld _ a b | .fwait _ a b | .fres a b | .ffault a b | .hand a b => [a, b]
  | .sext _ a _ | .zext _ a _ | .clz _ a | .popc _ a | .csrw a _ | .addi _ a _ | .andi _ a _ | .ori _ a _ | .xori _ a _
  | .shli _ a _ | .shri _ a _ | .srai _ a _ | .cmpiEq _ a _ | .cmpiNe _ a _ | .cmpiLt _ a _ | .cmpiGe _ a _ | .cmpiLtz _ a _
  | .cmpiGez _ a _ | .loop a _ | .jr _ a | .addil _ a _ | .ld _ _ _ _ a _ | .lds _ _ _ a _ | .ldAcq _ _ a _ _ | .chk a | .cvtaTo _ a _
  | .cvtaOf _ a _ | .isap _ a _ | .qput _ a | .shape _ a | .sfill _ a | .ssave _ a | .srest a | .cmd _ a _ | .cengWait _ a _
  | .wait _ a _ _ | .raise a _ _ | .hbarHeat a | .hbarGroup a _ _ | .barm a _ | .barmClr a _ | .bwait _ a _ _ | .sysXpage _ a
  | .sysXctx _ a | .sysRlc _ a | .sysTbsync _ a | .slip a | .pixw a _ | .must _ a | .unmust a => [a]
  | .st _ d a _ | .stRel _ d a _ => [d, a]
  | .spawnAp d a b | .spawnXp d a b => [d, a, b]
  | _ => []

/-- The destination code of a vector or function word that one register or a port takes; `rsend` names its port. -/
def Safety.destCode : Instr → Option Nat
  | .vadd d .. | .vsub d .. | .vmul d .. | .vmulh d .. | .vmad d .. | .vmin d .. | .vmax d .. | .vabs d .. | .vand d .. | .vor d ..
  | .vxor d .. | .vnot d .. | .vshl d .. | .vshr d .. | .vsra d .. | .vsel d .. | .vnarrow d .. | .vcvt d .. | .vfadd d ..
  | .vfsub d .. | .vfmul d .. | .vfma d .. | .vfmin d .. | .vfmax d .. | .vfsgn d .. | .vred d .. | .vcompress d .. | .vexpand d ..
  | .vperm d .. | .vslide d .. | .vbcast d .. | .exp2 d .. | .log2 d .. | .rcp d .. | .rsqrt d .. | .sinpi d .. | .cospi d ..
  | .tanh d .. | .sigm d .. => some d
  | .rsend k => some (k + 96)
  | _ => none

/-- The accumulator tile that a matrix word writes (R199-R202). -/
def Safety.tileOf : Instr → Option Nat
  | .mmul t .. | .mmulg t .. | .azero t => some t
  | _ => none

/-- What a queued word leaves of the part: no register, mask, tile or plane changes but those it names, FLAGS only rise, memory
changes only in the unit it commits to its destination's sink port, and of other cores no more than the seat that it frees. -/
def Safety.engineKeeps (i : Instr) (s t : State) : Prop :=
  let c := s.cur.core
  let w := (wordRegs s.cur.vt i).2
  let x := s.me
  (∀ k, k ≠ c → { t.core k with hasSeat := (s.core k).hasSeat, stint := (s.core k).stint } = s.core k) ∧
    (∀ k, k ≠ crewOf c → t.crew k = s.crew k) ∧
    { t with cores := s.cores, crews := s.crews, mem := s.mem, bad := s.bad, acted := s.acted } = s ∧
    { t.me.xp with run := x.xp.run, faddr := x.xp.faddr, fcode := x.xp.fcode } = x.xp ∧
    { t.me with
      xp := x.xp, xregs := x.xregs, vregs := x.vregs, masks := x.masks, vcnt := x.vcnt, flags := x.flags, aside := x.aside, faulted := x.faulted
      vq := x.vq, mq := x.mq, fq := x.fq, inVec := x.inVec, inPass := x.inPass, inLoad := x.inLoad, inFun := x.inFun
      kept := x.kept, done := x.done, pixVec := x.pixVec, pixMtx := x.pixMtx, pixFun := x.pixFun, tiles := x.tiles
      scaleq := x.scaleq, resultq := x.resultq, rqRes := x.rqRes, streams := x.streams, pending := x.pending, held := x.held
      hasSeat := x.hasSeat, stint := x.stint } = x ∧
    (∀ n, RegName.x n ∉ w → t.me.xreg n = x.xreg n) ∧
    (∀ n, RegName.v n ∉ w → t.me.vreg n = x.vreg n) ∧
    (∀ n, RegName.m n ∉ w → t.me.mask n = x.mask n) ∧
    (∀ n, Safety.tileOf i ≠ some n → t.me.tile n = x.tile n) ∧
    (∀ n, x.flags.getLsbD n = true → t.me.flags.getLsbD n = true) ∧
    ((∀ d a, i ≠ .vcompress d a) → t.me.vcnt = x.vcnt) ∧
    ((∀ k m ty, i ≠ .wload k m ty) → i ≠ .wswap →
      (t.crew (crewOf c)).active = (s.crew (crewOf c)).active ∧ (t.crew (crewOf c)).shadow = (s.crew (crewOf c)).shadow) ∧
    ∀ a, (∀ p ∈ x.streams, ∀ q, (p.2.readers.any (fun r => Safety.destCode i == some (r.2.port + 96))) = true →
        p.2.head ≤ q → q < p.2.head + 512 → a ≠ ringKey x c p.2 (opSwz p.2.openw) q) →
      memGet t.mem a = memGet s.mem a

/-- What a SYNC word or a stream word leaves of the sides and register files: the moving side's register d, when it names one, its
control, VT and G at the end of a loop pass, and the task queues of the sides that it wakes. -/
def Safety.sidesKeep (d : Option Nat) (s t : State) : Prop :=
  let own := fun (c : Nat) (sd : Side) => c = s.cur.core ∧ sd = s.cur.side
  (∀ c sd n, ¬ (own c sd ∧ d = some n) → (t.core c).reg sd n = (s.core c).reg sd n) ∧
    (∀ c sd, let x := (s.core c).side sd
      let y := (t.core c).side sd
      if own c sd then
        { y with pc := x.pc, run := x.run, land := x.land, loops := x.loops, next := x.next, tq := x.tq, faddr := x.faddr,
                 fcode := x.fcode, hbars := x.hbars, wait := x.wait, hand := x.hand } = x
      else { y with tq := x.tq, next := x.next } = x) ∧
    (∀ c, (t.core c).preds = (s.core c).preds ∧ (t.core c).vregs = (s.core c).vregs ∧ (t.core c).masks = (s.core c).masks ∧
      (t.core c).flags = (s.core c).flags ∧ (t.core c).tiles = (s.core c).tiles ∧ (t.core c).vcnt = (s.core c).vcnt ∧
      (t.core c).nregs = (s.core c).nregs) ∧
    (∀ c, c ≠ s.cur.core ∨ (∀ e ∈ s.mySide.loops, e.sl = 0) → (t.core c).vt = (s.core c).vt ∧ (t.core c).g = (s.core c).g)

/-- What a step of an engine, a filler or a drainer leaves of every core: all but its task queues, the records its raise wakes, its
streams, its rings, what the hold buffer holds, and the faults to deliver. -/
def Safety.coresKeep (s t : State) : Prop :=
  ∀ c, let x := s.core c
    let y := t.core c
    { y.ap with tq := x.ap.tq } = x.ap ∧ { y.xp with tq := x.xp.tq } = x.xp ∧
    { y with ap := x.ap, xp := x.xp, streams := x.streams, sfault := x.sfault, rings := x.rings, hold := x.hold
             holdBad := x.holdBad, holdRing := x.holdRing, semas := x.semas, bars := x.bars, pool := x.pool
             pending := x.pending, held := x.held } = x

/-- The spans that chunk k of a record writes: address and bytes (R146-R152). -/
def Safety.chunkSpans (s : State) (c r k : Nat) (b : BitVec 512) : List (Addr × Nat) :=
  let n := match (headDesc c r b s).2 with
    | .ok (x :: l) => nestOf (x :: l)
    | _ => Nest.one
  let row := recFld b 0x2C 4
  let pitch := if recFld b 0x30 4 = 0 then row else recFld b 0x30 4
  match rkKind b with
  | 1 =>
    if rkDecode b then [(BitVec.ofNat 64 (recFld b 0x18 8 + 4096 * k), 4096)]
    else [(addrPlus (recFld b 0x18 8) (runOfs k n.counts n.ds), recFld b 0x28 4)]
  | 2 => [(BitVec.ofNat 64 (recFld b 0x18 8 + k * recFld b 0x38 4), row)]
  | 3 => [(BitVec.ofNat 64 (recFld b 0x18 8 + k * pitch), row)]
  | 4 =>
    let o := bytesNat (readAt s c (BitVec.ofNat 64 (recFld b 0x20 8 + 4 * k)) 4 .relaxed).2.bytes
    [(BitVec.ofNat 64 (recFld b 0x18 8 + o), row)]
  | 5 =>
    (match (elemsOf c b s ((List.range (Nat.min 16 (recFld b 0x28 4 - 16 * k))).map (fun i => 16 * k + i))).2 with
      | .ok l => ((accwSpans b (l.map (fun p => p.1))).filter (fun p => p.2.2 == .store)).map (fun p => (p.1, p.2.1))
      | .error _ => [])
  | 6 => [(addrPlus (recFld b 0x10 8) (runOfs k n.counts n.ds), recFld b 0x20 4)]
  | _ => []

/-- A place outside every span of a list. -/
def Safety.clear (s : State) (c : Nat) (l : List (Addr × Nat)) (q : Place) : Prop := ∀ p ∈ l, Safety.beyond s c p.1 p.2 q

/-! ### The mailbox -/

/-- A slot's turn has come on a ready part with a leader on die S, with a command code and a new SEQ (R400-R402). -/
abbrev Safety.asked (sl cmd : Nat) (s : State) : Prop :=
  isReady s = true ∧ hasLeader s 0 = true ∧ s.host.rung.head? = some sl ∧ (s.slot sl).cmd.toNat = cmd ∧
    (s.slot sl).seq ≠ (s.slot sl).doneSeq

/-- The argument bytes of a slot are those of a list, of which the slot holds at most 4,032 (R400). -/
abbrev Safety.argsAre (sl : Nat) (l : List Byte) (s : State) : Prop :=
  (s.slot sl).alen.toNat = l.length ∧ slotArgs (s.slot sl) = l.take 4032

/-- The commands of the doorbell table: each with its slot, its code, and its argument bytes where the spec lays them out (R401). -/
def Safety.mailOf : Instr → Option (Nat × Nat × Option (List Byte))
  | .fwLoad sl => some (sl, 0x01, none)
  | .quote sl _ _ => some (sl, 0x02, none)
  | .quoteIdentity sl => some (sl, 0x02, none)
  | .extend sl _ _ => some (sl, 0x03, none)
  | .ownerInstall sl hs => some (sl, 0x04, some (hs.flatMap (bvBytes 32)))
  | .ownerRelease sl tok => some (sl, 0x05, some tok)
  | .ownerRecover sl tok => some (sl, 0x06, some tok)
  | .ctxConfig sl _ _ => some (sl, 0x10, none)
  | .map sl _ _ => some (sl, 0x11, none)
  | .unmap sl _ _ _ => some (sl, 0x12, none)
  | .metaBlock sl _ _ _ => some (sl, 0x13, none)
  | .intake sl _ _ => some (sl, 0x14, none)
  | .launch sl arg => if arg.fw = true then none else some (sl, 0x20, some (arg.hr ++ arg.regions.flatMap regionBytes))
  | .heatStatus sl _ => some (sl, 0x21, none)
  | .heatContinue sl _ _ => some (sl, 0x22, none)
  | .heatEnd sl _ => some (sl, 0x23, none)
  | .saveDir sl j => some (sl, 0x30, some (natBytes 4 j))
  | .restore sl _ _ _ => some (sl, 0x31, none)
  | .saveRelease sl => some (sl, 0x32, none)
  | .drill sl _ _ => some (sl, 0x33, none)
  | .preauth sl _ _ => some (sl, 0x40, none)
  | .lifeRead sl _ _ => some (sl, 0x41, none)
  | .rejoin sl => some (sl, 0x42, none)
  | _ => none

/-- What a slot shows when its command has completed, and that it is rung no more (R400, R402). -/
def Safety.slotDone (s t : State) (sl res : Nat) (resp : List Byte) : Prop :=
  (t.slot sl).st = .done ∧ (t.slot sl).result = BitVec.ofNat 8 res ∧ (t.slot sl).doneSeq = (s.slot sl).seq ∧
    (t.slot sl).rlen = BitVec.ofNat 16 (Nat.min resp.length 4032) ∧
    (∀ j, j < Nat.min resp.length 4032 → tget (t.slot sl).data j 0 = resp.getD j 0) ∧ sl ∉ t.host.rung

/-- A command completes with a result, a response and an effect. -/
def Safety.answers (r : Res) (s : State) (sl res : Nat) (resp : List Byte) (f : State → Prop) : Prop :=
  ∃ t, r = .next t ∧ Safety.slotDone s t sl res resp ∧ f t

/-- A command is refused with a code of the table that the spec does not state (DESIGN CHOICE, log 34). -/
def Safety.deniesOpen (r : Res) (s : State) (sl : Nat) : Prop :=
  ∃ code, 0xE1 ≤ code ∧ code ≤ 0xE5 ∧ Safety.answers r s sl code [] (fun t => { t with host := s.host, count := s.count } = s)

/-- A command is refused with a code: nothing but the host's side of the part has changed. -/
def Safety.denies (r : Res) (s : State) (sl res : Nat) : Prop :=
  Safety.answers r s sl res [] (fun t => { t with host := s.host } = s)

end Sys2Proof
end

