-- ==== Sys2Proof/Certificates/Slice0/Obligations.lean ====
section
/-! DEFINITION. The statements about the model, for the provers: each formalises rules of spec/ or rests on the sections it
cites. -/

open Sys2Proof Sys2Proof.Machine

/-- For every well-formed instruction that has words (any of the fetched rows of the opcode table, whatever its
operands), the decoder, on the bytes of its words followed by any bytes, answers that instruction and those bytes: no
bit of an encoding is dropped and no word is claimed by another row. (R5; R6; R8; R43; R44; R45; R46; R47; R48;
section "Formats") -/
def Obligations.DecodeInvertsEncode : Prop :=
  ∀ (i : Instr) (rest : List Byte), i.wf = true → encode i ≠ [] → decode (encodeBytes i ++ rest) = .ok (i, rest)

/-- If the decoder answers an instruction and the bytes after it, the instruction is well formed, it has words, and
the bytes read are its encoding followed by those bytes: each instruction has one encoding, and a word with a nonzero
reserved field or an unlisted selector decodes to nothing. (R6; R8; R49; section "Formats") -/
def Obligations.EncodeInvertsDecode : Prop :=
  ∀ (bs : List Byte) (i : Instr) (rest : List Byte), decode bs = .ok (i, rest) →
    i.wf = true ∧ encode i ≠ [] ∧ bs = encodeBytes i ++ rest

/-- Words of every class, each written as the sum of the fields that its format places (class, op6 or op5, and the
operands), decode to their instruction: add, csrr, st.d, cmd, loop, vset, vwmul, vcompress, seat, mmul, drain, rpop,
exp2, end, bwait, and the LONG pair of lil. (R6; R8; R42; section "Formats") -/
def Obligations.WordsOfTheSpecDecode : Prop :=
  let s3 := fun (cls op d a b fn : Nat) => cls * 2 ^ 29 + op * 2 ^ 23 + d * 2 ^ 18 + a * 2 ^ 13 + b * 2 ^ 8 + fn
  let si := fun (cls op d a imm : Nat) => cls * 2 ^ 29 + op * 2 ^ 23 + d * 2 ^ 18 + a * 2 ^ 13 + imm
  let v3 := fun (op d a b f : Nat) => 3 * 2 ^ 29 + op * 2 ^ 24 + d * 2 ^ 17 + a * 2 ^ 10 + b * 2 ^ 3 + f
  let ma := fun (op t pa pb xd f : Nat) => 4 * 2 ^ 29 + op * 2 ^ 24 + t * 2 ^ 20 + pa * 2 ^ 15 + pb * 2 ^ 10 + xd * 2 ^ 5 + f
  let is := fun (w : Nat) (i : Instr) => decodeWord w = .ok i
  is (s3 0 0x01 3 2 7 0) (.add 3 2 7) ∧
  is (si 0 0x1F 1 0 0x001) (.csrr 1 1) ∧
  is (si 1 0x1B 5 7 0x40) (.st 3 5 7 0x40) ∧
  is (s3 1 0x35 9 4 0 1) (.cmd 9 4 1) ∧
  is (2 * 2 ^ 29 + 0x34 * 2 ^ 23 + 4 * 2 ^ 18 + 3) (.xpLoop 4 3) ∧
  is (s3 2 0x3C 0 0 0 0x43) (.vset 2 3) ∧
  is (v3 0x10 10 2 3 0) (.vwmul 10 2 3 false false false) ∧
  is (v3 0x1C 8 4 0 0) (.vcompress 8 4) ∧
  is (ma 0x01 0 0 0 4 0) (.seat 4) ∧
  is (ma 0x06 1 3 0 0 3) (.mmul 1 3 false false 3) ∧
  is (ma 0x09 0 0 0 7 1) (.drain 0 7 false 1) ∧
  is (ma 0x0A 0 0 9 0 0) (.rpop 9) ∧
  is (4 * 2 ^ 29 + 0x10 * 2 ^ 24 + 1 * 2 ^ 17 + 2 * 2 ^ 10) (.exp2 1 2 false) ∧
  is (s3 5 0x03 0 0 0 0) .endTask ∧
  is (s3 5 0x0B 5 9 0 0x23) (.bwait 5 9 true 3) ∧
  decodeLong (s3 7 0x01 2 0 0 0) 0x20000000 = .ok (.lil 2 0x20000000)

/-- A side that fetches (its heat runs, it runs a task, its pc passes the landing check) takes the word at its pc, the
four bytes its die sees there: unless the stage rule skips it, if it decodes to an instruction of that side the step
is exec of it (of XP_STEER for a word of a queue); a LONG pair takes its second word with it. An engine's step is exec
of its word in progress, or of the head of its queue that may start, under the VT and G it captured. A turn that is a
well-formed step without a word is exec of it. Turns of units the part lacks end in the fault absentUnit, a turn that
is no step is refused as illFormed. Turns are the model's schedule (log 1). (R6; R7; R9; R11; R49; R50; R51; R166;
section "Steering on the XP") -/
def Obligations.StepRunsTheDecodedInstruction : Prop :=
  (∀ (s s1 : State) (t : Turn), nextTurn s = (t, s1) →
    let u := tick t s1
    (∀ (c : Nat) (sd : Side), t.act = .side c sd → s1.hasCore c = true →
      let s2 := Safety.sideMoves c sd t u
      Safety.fetches c sd s2 →
      ∀ (s4 : State) (w : Word),
        fetchWord (s2.modSide c sd (fun x => { x with land := false })) c s2.cur.addr = .ok (s4, w) →
        (sd = .xp → stageSkips (s4.core c) s2.cur.addr = false) → ∀ i : Instr, i.unit.onSide sd = true →
        (fld w.toNat 29 3 ≠ 7 → decodeWord w.toNat = .ok i →
          step s = Safety.around (if isQueued i.unit = true then .xpSteer c else i) s4) ∧
        (∀ (s5 : State) (w1 : Word), fld w.toNat 29 3 = 7 → longOk w.toNat = true →
          fetchWord s4 c (s2.cur.addr + 4) = .ok (s5, w1) → decodeLong w.toNat w1.toNat = .ok i →
          step s = Safety.around i s5)) ∧
    (∀ (c : Nat) (e : Eng) (q : QWord) (i : Instr), t.act = .eng c e → s1.hasCore c = true → u.live c = true →
      (((u.core c).slot e).map (fun w => w.q) = some q ∨
        ((u.core c).slot e = none ∧ nextQueued (u.core c) e = some q ∧ mayStart (u.core c) q = true)) →
      wordInstr q.word = some i → step s = Safety.around i (Safety.engMoves c e q t u)) ∧
    (∀ i : Instr, t.act = .ev i →
      (i.unit = .event → i.wf = true → unitPresent i u = true → step s = Safety.around i (eventTurn t u)) ∧
      (i.unit = .event → i.wf = true → unitPresent i u = false → step s = .fault .absentUnit) ∧
      ((i.unit ≠ .event ∨ i.wf = false) → step s = .refused .illFormed)) ∧
    (∀ c : Nat, ((∃ sd, t.act = .side c sd) ∨ (∃ e, t.act = .eng c e)) → s1.hasCore c = false → step s = .fault .absentUnit)) ∧
  (∀ (s t : State) (c : Nat) (pc : Addr) (w : Word), pc.toNat % 4 = 0 → fetchWord s c pc = .ok (t, w) →
    leBytes 4 w.toNat = Safety.seen s c pc 4)

/-- In State.reset, on every core: each a, x, v, m and n register and each predicate reads 0 but for the constant
entries (a0, x0 and p0 and m0 read as the rules say); queues, ports, streams, rings, semaphores, barriers and engine
queues are empty; VT, VCNT, G, FLAGS, FADDR, FCODE, SSTAT0-3 and the four indices of PIX are 0 and SLIP's limit is 32;
both planes of each crew hold zero bytes and no tag, seats have no holder, memory lists nothing, no page is mapped, no
heat is known and the next heat number is 1. The rules give the registers' reset values at a launch; that they hold
before any heat, a timebase of 0 and memory of zeros are the model's choice (logs 5, 6, 7). (R12; R14; R21; R24; R27;
R29; R191; R213; R221; R287; section "Control and status registers") -/
def Obligations.ResetLeavesThePart : Prop :=
  let s := State.reset
  (∀ (c n : Nat) (sd : Side),
    let k := s.core c
    k.areg n = ⟨0, false⟩ ∧ k.xreg n = 0 ∧ k.vreg n = 0 ∧ (k.pred n = decide (n = 0)) ∧
    k.mask n = (if n = 0 then BitVec.allOnes 1024 else 0) ∧ k.queue n = [] ∧ tfind k.streams n = none ∧
    tget k.nregs n 0 = 0 ∧ tget k.sstat n 0 = 0 ∧ k.pixVec = 0 ∧ k.pixMtx = 0 ∧ k.pixFun = 0 ∧ csrPix k = 0 ∧
    (k.ring n).rp = 0 ∧ (k.ring n).wp = 0 ∧ (k.ring n).st = .idle ∧ (k.ring n).chunk = 0 ∧ (k.ring n).marks = 0 ∧
    (k.sema n).count = 0 ∧ (k.sema n).waiters = [] ∧ (k.bar n).armed = false ∧ (k.bar n).count = 0 ∧
    (k.side sd).faddr = 0 ∧ (k.side sd).fcode = 0 ∧ (k.side sd).task = 0 ∧ (k.side sd).run = .idle ∧ (k.side sd).loops = [] ∧
    k.vt = 0 ∧ k.vcnt = 0 ∧ k.g = 0 ∧ k.flags = 0 ∧ k.slip = 32 ∧ k.unfinished = [] ∧ k.heat = 0) ∧
  (∀ n, (s.crew n).active.w = 0 ∧ (s.crew n).active.holder = 7 ∧ (s.crew n).shadow.w = 0 ∧ (s.crew n).shadow.holder = 7 ∧
    (s.crew n).holder = 7 ∧ (s.die n).tb = 0) ∧
  (∀ a, memGet s.mem a = 0) ∧ s.pages = [] ∧ s.heats = [] ∧ s.nextNum = 1 ∧ s.water.power = .rom

/-- Safety.memOk holds at State.reset: the list of bytes of memory rises strictly and lists no byte that equals what
an unlisted one reads as. The form is the model's (logs 7, 8). (R391; section "Power-up") -/
def Obligations.ResetMemoryIsCanonical : Prop :=
  Safety.memOk State.reset

/-- From every state whose memory is in the canonical form, whichever unit moves and whatever it does (a store of the
AP, a write-back of a remote-line cache, a record of a ring, a lane, a netting engine, a host write, a save, a
restore), a step that answers a next state leaves memory in the canonical form, so that equal memories are equal
lists. (R5; R263; R272; R310; section "Where a byte lives") -/
def Obligations.StepKeepsMemoryCanonical : Prop :=
  ∀ s t : State, Safety.memOk s → step s = .next t → Safety.memOk t

/-- After a list of bytes is written from a key on, each of its keys reads the byte written there and every other key
reads what it read before; a write to memory in the canonical form leaves the canonical form; and memories in the
canonical form that read alike everywhere are equal. (R5; R92; R93; section "Loads and stores") -/
def Obligations.MemoryReadsWhatWasWritten : Prop :=
  ∀ (m : List Host.Cell) (a : Nat) (l : List Byte),
    (∀ j, memGet (memWrite m a l) j = if h : a ≤ j ∧ j < a + l.length then l[j - a]'(by omega) else memGet m j) ∧
    (Memory.wf m = true → Memory.wf (memWrite m a l) = true) ∧
    (∀ m' : List Host.Cell, Memory.wf m = true → Memory.wf m' = true → (∀ j, memGet m j = memGet m' j) → m = m')

/-- Each of add, sub, and, or, xor, andn, shl, shr, sra, mul, mulh, mulhz, div, rem, divz, remz, min, max, minz and
maxz, when no load that has not returned holds one of its registers, answers the next state in which d holds the
listed function of a and b, poisoned when a or b is poisoned, and the word has completed. Division never faults: a
zero divisor and -2^63 by -1 give the listed values. (R77; R78) -/
def Obligations.ApRegisterArithmetic : Prop :=
  ∀ (s : State) (d a b : Nat), Safety.apFree [d, a, b] s →
    let x := (s.me.areg a).val
    let y := (s.me.areg b).val
    let res := fun v => Safety.apPut 4 d v ((s.me.areg a).bad || (s.me.areg b).bad) s
    exec (.add d a b) s = res (x + y) ∧
    exec (.sub d a b) s = res (x - y) ∧
    exec (.and d a b) s = res (x &&& y) ∧
    exec (.or d a b) s = res (x ||| y) ∧
    exec (.xor d a b) s = res (x ^^^ y) ∧
    exec (.andn d a b) s = res (x &&& ~~~y) ∧
    exec (.shl d a b) s = res (x <<< (y.extractLsb' 0 6).toNat) ∧
    exec (.shr d a b) s = res (x >>> (y.extractLsb' 0 6).toNat) ∧
    exec (.sra d a b) s = res (x.sshiftRight (y.extractLsb' 0 6).toNat) ∧
    exec (.mul d a b) s = res ((x.signExtend 128 * y.signExtend 128).extractLsb' 0 64) ∧
    exec (.mulh d a b) s = res ((x.signExtend 128 * y.signExtend 128).extractLsb' 64 64) ∧
    exec (.mulhz d a b) s = res ((x.zeroExtend 128 * y.zeroExtend 128).extractLsb' 64 64) ∧
    exec (.div d a b) s =
      res (if y = 0 then -1 else if x = BitVec.intMin 64 ∧ y = -1 then BitVec.intMin 64 else x.sdiv y) ∧
    exec (.rem d a b) s = res (if y = 0 then x else if x = BitVec.intMin 64 ∧ y = -1 then 0 else x.srem y) ∧
    exec (.divz d a b) s = res (if y = 0 then -1 else x / y) ∧
    exec (.remz d a b) s = res (if y = 0 then x else x % y) ∧
    exec (.min d a b) s = res (if x.toInt ≤ y.toInt then x else y) ∧
    exec (.max d a b) s = res (if x.toInt ≤ y.toInt then y else x) ∧
    exec (.minz d a b) s = res (if x.toNat ≤ y.toNat then x else y) ∧
    exec (.maxz d a b) s = res (if x.toNat ≤ y.toNat then y else x)

/-- Each of addi, andi, ori, xori, shli, shri, srai, li, lil, addil, sext, zext, clz, popc and sel, when no load that
has not returned holds one of its registers, answers the next state in which d holds the listed value, poisoned when a
register it reads as a value is poisoned (for sel: when either source is, whichever is chosen), and the word, of one
word or two, has completed. The width of sext and zext is from 1 to 64. (R79; R80; R81; R83) -/
def Obligations.ApImmediatesAndUnaryWords : Prop :=
  ∀ (s : State) (d a b p n w : Nat) (i : BitVec 13) (j : BitVec 32), 1 ≤ w → w ≤ 64 → Safety.apFree [d, a, b] s →
    let x := (s.me.areg a).val
    let y := (s.me.areg b).val
    let res := fun v => Safety.apPut 4 d v (s.me.areg a).bad s
    exec (.addi d a i) s = res (x + i.signExtend 64) ∧
    exec (.andi d a i) s = res (x &&& i.signExtend 64) ∧
    exec (.ori d a i) s = res (x ||| i.signExtend 64) ∧
    exec (.xori d a i) s = res (x ^^^ i.signExtend 64) ∧
    exec (.shli d a n) s = res (x <<< n) ∧
    exec (.shri d a n) s = res (x >>> n) ∧
    exec (.srai d a n) s = res (x.sshiftRight n) ∧
    exec (.li d i) s = Safety.apPut 4 d (i.signExtend 64) false s ∧
    exec (.lil d j) s = Safety.apPut 8 d (j.signExtend 64) false s ∧
    exec (.addil d a j) s = Safety.apPut 8 d (x + j.signExtend 64) (s.me.areg a).bad s ∧
    exec (.sext d a w) s = res ((x.extractLsb' 0 w).signExtend 64) ∧
    exec (.zext d a w) s = res ((x.extractLsb' 0 w).zeroExtend 64) ∧
    exec (.clz d a) s = res x.clz ∧
    exec (.popc d a) s = res (BitVec.ofNat 64 ((List.range 64).filter (fun k => x.getLsbD k)).length) ∧
    exec (.sel d a b p) s =
      Safety.apPut 4 d (if s.me.pred p = true then x else y) ((s.me.areg a).bad || (s.me.areg b).bad) s

/-- cmp under each of its six conditions and the six cmpi words, when no load that has not returned holds a source: a
poisoned source takes POISON with FCODE.DEFERRED at the word's own address, else predicate p is written with the
comparison (eq, ne, lt and ge signed, ltz and gez unsigned, the immediate sign-extended) and the word completes. pand,
por, pxor and pnot write the combination of the predicates they read and complete. (R82; R84) -/
def Obligations.ApComparesAndPredicates : Prop :=
  ∀ (s : State) (p a b q r : Nat) (i : BitVec 13), Safety.apFree [a, b] s →
    let x := (s.me.areg a).val
    let y := (s.me.areg b).val
    let z := i.signExtend 64
    let poison := Safety.traps ⟨.poison, none, true⟩ s
    let two := fun v => if (s.me.areg a).bad = true ∨ (s.me.areg b).bad = true then poison else Safety.apPred p v s
    let one := fun v => if (s.me.areg a).bad = true then poison else Safety.apPred p v s
    exec (.cmp p a b 0) s = two (decide (x = y)) ∧
    exec (.cmp p a b 1) s = two (decide (x ≠ y)) ∧
    exec (.cmp p a b 2) s = two (decide (x.toInt < y.toInt)) ∧
    exec (.cmp p a b 3) s = two (decide (y.toInt ≤ x.toInt)) ∧
    exec (.cmp p a b 4) s = two (decide (x.toNat < y.toNat)) ∧
    exec (.cmp p a b 5) s = two (decide (y.toNat ≤ x.toNat)) ∧
    exec (.cmpiEq p a i) s = one (decide (x = z)) ∧
    exec (.cmpiNe p a i) s = one (decide (x ≠ z)) ∧
    exec (.cmpiLt p a i) s = one (decide (x.toInt < z.toInt)) ∧
    exec (.cmpiGe p a i) s = one (decide (z.toInt ≤ x.toInt)) ∧
    exec (.cmpiLtz p a i) s = one (decide (x.toNat < z.toNat)) ∧
    exec (.cmpiGez p a i) s = one (decide (z.toNat ≤ x.toNat)) ∧
    exec (.pand p q r) s = Safety.apPred p (s.me.pred q && s.me.pred r) s ∧
    exec (.por p q r) s = Safety.apPred p (s.me.pred q || s.me.pred r) s ∧
    exec (.pxor p q r) s = Safety.apPred p (xor (s.me.pred q) (s.me.pred r)) s ∧
    exec (.pnot p q) s = Safety.apPred p (!s.me.pred q) s

/-- Under each of these words, when it completes, the core counts as active for the stall detector. b, bp and bnp go
to the branch word's address plus four times the signed offset when taken, with the landing check due and every loop
entry popped whose body does not hold the target, and complete in line when not taken. call writes a31 and keeps the
loop stack. loop takes POISON on a poisoned count, ILLEGAL for an offset below 1 or a full stack, for a count of 0
goes to END + 4 with no loop check, even where an enclosing body ends at the loop word (the model's choice, log 75),
and else pushes START, END and the count. jr takes POISON, then ILLEGAL with FADDR the value of a when it is not a
multiple of 4, and else writes d and transfers. Each holds when no load that has not returned holds a register of the
word. (R85; R86; R87; R88) -/
def Obligations.ApTransfers : Prop :=
  ∀ (s : State) (p c d a : Nat) (o : BitVec 18), Safety.apFree [31, c, d, a] s →
    let T := s.cur.addr + 4 * o.signExtend 64
    let c₀ := s.cur.core
    let taken := Host.Outcome.next ((s.modMySide (fun x => { x with
      pc := T, land := true, loops := x.loops.dropWhile (fun e => !decide (e.start ≤ T ∧ T ≤ e.stop)) })).act c₀)
    let n := (s.me.areg c).val
    let x := (s.me.areg a).val
    exec (.br o) s = taken ∧
    exec (.bp p o) s = (if s.me.pred p = true then taken else .next (finish s)) ∧
    exec (.bnp p o) s = (if s.me.pred p = true then .next (finish s) else taken) ∧
    exec (.call o) s =
      .next (((putA 31 ⟨s.cur.addr + 4, false⟩ s).modMySide (fun x => { x with pc := T, land := true })).act c₀) ∧
    exec (.loop c o) s =
      (if (s.me.areg c).bad = true then Safety.traps ⟨.poison, none, true⟩ s
       else if o.toInt < 1 ∨ 3 ≤ s.mySide.loops.length then Safety.traps (trapAt .illegal) s
       else if n = 0 then .next ((s.modMySide (fun x => { x with pc := T + 4, land := false })).act c₀)
       else .next ((s.modMySide (fun x => { x with
         loops := ⟨s.cur.addr + 4, T, n.toNat, 0, 0, 0⟩ :: x.loops, pc := s.cur.addr + 4, land := false })).act c₀)) ∧
    exec (.jr d a) s =
      (if (s.me.areg a).bad = true then Safety.traps ⟨.poison, none, true⟩ s
       else if x.toNat % 4 ≠ 0 then Safety.traps (trapOn .illegal x) s
       else .next (((putA d ⟨s.cur.addr + 4, false⟩ s).modMySide (fun y => { y with pc := x, land := true })).act c₀))

/-- csrr of CORE, CREW, DIE, HEAT, CTX, TASK, MODE, PIX, TB, FADDR, FCODE and SSTAT0-3 on the AP gives the value that
the state holds for it, each 16-bit field of PIX the engine's step count; csrr of any other number takes ILLEGAL. csrw
of FADDR stores the value and of FCODE stores it with bits [63:16] and [11:8] zero; csrw of PIX takes PRIV in user
mode and in system mode sets the four start steps in turn, each once its engine is idle; any other csrw takes ILLEGAL;
these come before the POISON of a poisoned source. The long form writes the zero-extended immediate. (R21; R22; R26;
R28; R89) -/
def Obligations.ApReadsAndWritesCsrs : Prop :=
  ∀ (s : State) (d a i n : Nat) (j : BitVec 32), Safety.apFree [d, a] s → i < 4 →
    let c := s.cur.core
    let rd := fun v => Safety.apPut 4 d v false s
    let ill := Safety.traps (trapAt .illegal) s
    let bad := (s.me.areg a).bad
    let v := (s.me.areg a).val
    let poison := Safety.traps ⟨.poison, none, true⟩ s
    exec (.csrr d 0x000) s = rd (BitVec.ofNat 64 (c + c % 24 * 2 ^ 8 + c / 24 * 2 ^ 13)) ∧
    exec (.csrr d 0x001) s = rd (BitVec.ofNat 64 (crewOf c + c % 24 / 2 * 2 ^ 8 + c / 48 * 2 ^ 12 + posOf c * 2 ^ 16)) ∧
    exec (.csrr d 0x002) s = rd (BitVec.ofNat 64 ((if c % 24 < 12 then 0 else 1) + 2 + (if s.form = .la2h then 0 else 4))) ∧
    exec (.csrr d 0x003) s = rd (BitVec.ofNat 64 s.me.heat) ∧
    (∀ h, s.heatOf c = some h → exec (.csrr d 0x004) s = rd (BitVec.ofNat 64 (h.hr.ctx + h.hr.prio * 2 ^ 4)) ∧
      exec (.csrr d 0x006) s = rd (if h.hr.system = true then 1 else 0)) ∧
    exec (.csrr d 0x005) s = rd (s.me.ap.task.zeroExtend 64) ∧
    exec (.csrr d 0x020) s = rd (csrPix s.me) ∧
    (∀ e, e < 4 → (csrPix s.me).toNat / 2 ^ (16 * e) % 2 ^ 16 = pixField s.me e % 2 ^ 16) ∧
    exec (.csrr d 0x022) s = rd (s.die (dieOf c)).tb ∧
    exec (.csrr d 0x030) s = rd s.me.ap.faddr ∧
    exec (.csrr d 0x031) s = rd s.me.ap.fcode ∧
    exec (.csrr d (0x040 + i)) s = rd (tget s.me.sstat i 0) ∧
    (n ∉ [0x000, 0x001, 0x002, 0x003, 0x004, 0x005, 0x006, 0x020, 0x022, 0x030, 0x031, 0x040, 0x041, 0x042, 0x043] →
      exec (.csrr d n) s = ill) ∧
    exec (.csrw a 0x030) s =
      (if bad = true then poison else .next (finish (s.modMe (fun k => { k with ap := { k.ap with faddr := v } })))) ∧
    exec (.csrw a 0x031) s =
      (if bad = true then poison else .next (finish (s.modMe (fun k => { k with ap := { k.ap with fcode := v &&& 0xF0FF } })))) ∧
    (s.sysMode c = false → exec (.csrw a 0x020) s = Safety.traps (trapAt .priv) s ∧
      exec (.csrwLong 0x020 j) s = Safety.traps (trapAt .priv) s) ∧
    (s.sysMode c = true → (bad = true → exec (.csrw a 0x020) s = poison) ∧
      (bad = false → Safety.pixWritten (exec (.csrw a 0x020) s) s 4 v.toNat) ∧
      Safety.pixWritten (exec (.csrwLong 0x020 j) s) s 8 j.toNat) ∧
    (n ∉ [0x020, 0x030, 0x031] → exec (.csrw a n) s = ill ∧ exec (.csrwLong n j) s = ill) ∧
    exec (.csrwLong 0x030 j) s =
      .next (finishN 8 (s.modMe (fun k => { k with ap := { k.ap with faddr := j.zeroExtend 64 } }))) ∧
    exec (.csrwLong 0x031 j) s =
      .next (finishN 8 (s.modMe (fun k => { k with ap := { k.ap with fcode := j.zeroExtend 64 &&& 0xF0FF } })))

/-- For an access of an aligned power of two of bytes by a core: an address that is invalid in its aperture takes
APERTURE; at a global address, no page (and no translation still cached by the core's die) or no region entry takes
XLATE, then a region private to another core OWNER, then a load or fetch without read permission or a store to a
frozen region or without write permission PERM, then a unit in a compressed format COMPRESSED; each records the
address itself. A misaligned address takes ALIGN_ISSUE first. With none of these the access has its place. That an
access of a page that is gone but cached takes XLATE or is checked with the old translation, as the free value says,
is the model's choice under R263 (log 25). (R91; R263; section "Loads and stores") -/
def Obligations.AccessChecksInOrder : Prop :=
  ∀ (s : State) (c n : Nat) (ea : Addr) (acc : Acc),
    let got := checkAccess s c ea n acc
    (ea.toNat % n ≠ 0 → got = .error (trapOn .alignIssue ea)) ∧
    (ea.toNat % n = 0 →
      (s.place c ea = none → got = .error (trapOn .aperture ea)) ∧
      (∀ p, s.place c ea = some p → (∀ ctx va, p ≠ .glob ctx va) → got = .ok p) ∧
      (∀ ctx va, s.place c ea = some (.glob ctx va) →
        let cached := (s.die (dieOf c)).tlb.filter (fun p => p.holds ctx va)
        let under := fun (p : Page) (r : RegionEntry) =>
          let foreign := r.st = .priv ∧ r.owner ≠ c
          let denied := if acc = .store then r.st = .frozen ∨ p.w = false else p.r = false
          let packed := (s.unitMeta c va).1 ≠ 0
          (foreign → got = .error (trapOn .owner ea)) ∧
          (¬ foreign → denied → got = .error (trapOn .perm ea)) ∧
          (¬ foreign → ¬ denied → packed → got = .error (trapOn .compressed ea)) ∧
          (¬ foreign → ¬ denied → ¬ packed → got = .ok (.glob ctx va))
        ((s.page ctx va = none ∧ cached = [] ∨ s.region ctx va = none) → got = .error (trapOn .xlate ea)) ∧
        (∀ p r, s.page ctx va = some p → s.region ctx va = some r → under p r) ∧
        (∀ r, s.page ctx va = none → s.region ctx va = some r →
          got = .error (trapOn .xlate ea) ∨ ∃ p ∈ cached, under p r)))

/-- For ld of each width, with and without .z and .inv, and ld.acq at each scope, when no load that has not returned
holds a register and no bridge link fails under the step: a poisoned base takes POISON at the word; a failed check of
R91 takes its fault with FADDR the effective address; bytes that return poisoned take POISON with FCODE.DEFERRED and
FADDR the effective address; else d gets the bytes read at the place, least significant first, zero-extended or sign-
extended, and the word completes. The read may bring a line into the die's cache. An acquire at .dev or .sys reads at
home; an .inv load may be served by any copy that R282 allows, and as any load while the copies agree. Where an
earlier speculative load of the bytes has not returned, or a lost write of the die there is not yet poison, the word
waits. (R91; R92; R98; R311; section "Loads and stores") -/
def Obligations.ApLoadsReadOrTrap : Prop :=
  ∀ (s : State) (inv z : Bool) (w d a sc : Nat) (i : BitVec 13), Safety.apFree [d, a] s → s.cur.link = none → w ≤ 3 →
    let n := 2 ^ w
    let load := fun (ea : Addr) (sv : Serve) =>
      if (s.me.areg a).bad = true then Safety.traps ⟨.poison, none, true⟩ s
      else
        match checkAccess s s.cur.core ea n .load with
        | .error t => Safety.traps t s
        | .ok p =>
          if ldsOverlaps s p n = true ∨ s.owesAt (dieOf s.cur.core) p.key n = true then .next s else
          let (t, g) := readPlace s (dieOf s.cur.core) p n sv
          if g.poison = true then Safety.traps ⟨.poison, some ea, true⟩ t
          else
            let v := BitVec.ofNat (8 * n) (bytesNat g.bytes)
            Safety.apPut 4 d (if z = true then v.zeroExtend 64 else v.signExtend 64) false t
    exec (.ld inv z w d a i) s = load ((s.me.areg a).val + i.signExtend 64) (if inv = true then .inv else .relaxed) ∧
    exec (.ldAcq w d a z sc) s = load (s.me.areg a).val (if 3 ≤ sc then .home else .relaxed)

/-- An lds that waits for no earlier one, in a step under which no bridge link fails, completes; when its base is
poisoned or a check of R91 fails, d is poisoned with value 0 and no access is made; else the load is outstanding and d
unchanged. When the data of the oldest outstanding lds of d arrives on a core whose units move, no failed link carries
it, no lost write of its die is pending and no earlier lds that has not returned reads a byte of it, the entry leaves
the list and d holds the extended bytes, or poison 0 when a check fails then or the bytes are poisoned. Until then a
word of the AP that reads d, other than a0, leaves the state as it is. (R95) -/
def Obligations.ApSpeculativeLoads : Prop :=
  (∀ (s : State) (z : Bool) (w d a : Nat) (i : BitVec 13), Safety.apFree [d, a] s → s.cur.link = none →
    let ea := (s.me.areg a).val + i.signExtend 64
    let n := 2 ^ w
    exec (.lds z w d a i) s =
      (if (s.me.areg a).bad = true then Safety.apPut 4 d 0 true s
       else match checkAccess s s.cur.core ea n .load with
        | .error _ => Safety.apPut 4 d 0 true s
        | .ok _ => .next (finish (s.modMe (fun k => { k with lds := k.lds ++ [⟨d, ea, n, z, none⟩] }))))) ∧
  (∀ (s : State) (c d : Nat) (w : LdsWait), s.unitsLive c = true → (s.core c).lds.find? (fun x => x.d == d) = some w → w.link = none →
    let u := asSide c .ap s
    ldsBehind u c d w = false → s.owes (dieOf c) = false →
    ∃ t, exec (.ldsDataArrive c d) s = .next t ∧
      (t.core c).lds = (s.core c).lds.eraseP (fun x => x.d == d) ∧
      (∀ e, e ≠ d → (t.core c).areg e = (s.core c).areg e) ∧
      (d ≠ 0 → (t.core c).areg d =
        match checkAccess u c w.ea w.n .load with
        | .error _ => ⟨0, true⟩
        | .ok p =>
          let g := (readPlace u (dieOf c) p w.n .relaxed).2
          if g.poison = true then ⟨0, true⟩ else ⟨loadValue w.z g.bytes, false⟩)) ∧
  (∀ (s : State) (i : Instr) (r : Nat), s.cur.side = .ap → s.cur.eng = none → r ≠ 0 → r ∈ Safety.apReads i →
    (∃ w ∈ s.me.lds, w.d = r) → exec i s = .next s)

/-- For st of each width and st.rel at each scope, when no speculative load of the AP is outstanding and no lost write
of its die pending: a poisoned base or data takes POISON; a failed check of R91 takes its fault with FADDR the
effective address; else the 8n low bits of the data are written at the place, least significant byte first, and the
word completes. A st.rel at .dev or .sys whose address belongs to no one core first writes back the die's cached lines
and lets pending invalidations take effect, and waits where a failing link loses a write-back. In every aperture, the
next word of the core being a load of the same width at the same address that passes its checks, it returns the bytes
stored, zero-extended, or takes POISON when a granule of them is still poisoned; it changes nothing but its
destination. (R91; R93; R98; section "Loads and stores") -/
def Obligations.ApStoresWriteOrTrap : Prop :=
  ∀ (s : State) (w d a sc : Nat) (i : BitVec 13), s.cur.side = .ap → s.cur.eng = none → s.me.lds = [] → s.owes (dieOf s.cur.core) = false →
    w ≤ 3 →
    let n := 2 ^ w
    let c := s.cur.core
    let base := (s.me.areg a).val
    let good := (s.me.areg a).bad = false ∧ (s.me.areg d).bad = false
    let bytes := natBytes n (s.me.areg d).val.toNat
    let store := fun (ea : Addr) (before : Place → State) =>
      if (s.me.areg a).bad = true ∨ (s.me.areg d).bad = true then Safety.traps ⟨.poison, none, true⟩ s
      else
        match checkAccess s c ea n .store with
        | .error t => Safety.traps t s
        | .ok p =>
          if (before p).owes (dieOf c) = true then .next (before p)
          else .next (finish (writePlace c (dieOf c) p bytes false .relaxed (before p)))
    let own : Place → Bool := fun p => match p with
      | .glob ctx va => (s.region ctx va).any (fun r => r.st == .priv)
      | _ => false
    exec (.st w d a i) s = store ((s.me.areg a).val + i.signExtend 64) (fun _ => s) ∧
    exec (.stRel w d a sc) s = store (s.me.areg a).val
      (fun p => if own p = true ∨ sc < 3 then s else flushDie (dieOf c) s) ∧
    (∀ (e : Nat) (pc : Addr) (p : Place), good → s.cur.link = none →
      checkAccess s c (base + i.signExtend 64) n .store = .ok p → checkAccess s c (base + i.signExtend 64) n .load = .ok p →
      ∃ t, exec (.st w d a i) s = .next t ∧
        let u := { t with cur := { t.cur with addr := pc } }
        exec (.ld false true w e a i) u =
          (if (readPlace u (dieOf c) p n .relaxed).2.poison = true then
            Safety.traps ⟨.poison, some (base + i.signExtend 64), true⟩ u
          else Safety.apPut 4 e (BitVec.ofNat 64 ((s.me.areg d).val.toNat % 2 ^ (8 * n))) false u))

/-- cvta.to and cvta.of write the converted address, poison d from a poisoned source, and take APERTURE on the invalid
address; isap writes whether the address is valid in the aperture, or takes POISON; chk takes POISON or does nothing.
qput to q4-q7 and qget from q0-q3 take ILLEGAL; else a poisoned qput takes POISON, a qput to a full queue and a qget
from an empty one leave the state as it is, and otherwise qput appends the value and qget removes the oldest entry
into d. Valid means that the tag is the aperture's and the address has a place. (R96; R97; R100; R101; R102) -/
def Obligations.ApAddressAndQueueWords : Prop :=
  ∀ (s : State) (d a p q : Nat), p < 4 → Safety.apFree [d, a] s →
    let c := s.cur.core
    let x := (s.me.areg a).val
    let bad := (s.me.areg a).bad
    let tag := [0x00, 0xF0, 0xF8, 0xFC].getD p 0
    let poison := Safety.traps ⟨.poison, none, true⟩ s
    let up := BitVec.ofNat 64 (tag * 2 ^ 56) ||| x
    let valid := decide (x.toNat / 2 ^ 56 = tag) && (s.place c x).isSome
    exec (.chk a) s = (if bad = true then poison else .next (finish s)) ∧
    exec (.cvtaTo d a p) s =
      (if bad = true then Safety.apPut 4 d up true s
       else if (s.place c up).isSome = true then Safety.apPut 4 d up false s
       else Safety.traps (trapOn .aperture up) s) ∧
    exec (.cvtaOf d a p) s =
      (if bad = true then Safety.apPut 4 d (x &&& 0x00FFFFFFFFFFFFFF) true s
       else if valid = true then Safety.apPut 4 d (x &&& 0x00FFFFFFFFFFFFFF) false s
       else Safety.traps (trapOn .aperture x) s) ∧
    exec (.isap d a p) s = (if bad = true then poison else Safety.apPred d valid s) ∧
    exec (.qput q a) s =
      (if 4 ≤ q then Safety.traps (trapAt .illegal) s
       else if bad = true then poison
       else if 16 ≤ (s.me.queue q).length then .next s
       else .next (finish (s.modMe (fun k => { k with queues := tset k.queues q (k.queue q ++ [x]) })))) ∧
    exec (.qget d q) s =
      (if q < 4 then Safety.traps (trapAt .illegal) s
       else match s.me.queue q with
        | [] => .next s
        | v :: r => Safety.apPut 4 d v false (s.modMe (fun k => { k with queues := tset k.queues q r })))

/-- When no register of the word waits for a load: a poisoned register takes POISON; else shape stores a record that
is aligned, readable and sound as the port's shape; sopen binds a free port to a new stream on an aligned ring inside
the scratchpad; sld reserves a run for a MEM source that is open, idle and has a shape, once the window has room
(until then nothing changes); sfill starts a walk; sfill.res lets a stopped walk go on with ERR clear; sfork adds a
reader entry, the lowest free one (the model's choice, log 76), at the position of an existing one. Each other case
takes ALIGN_ISSUE, ALIGN_SHAPE, APERTURE, the fault of the read, or STREAM, in the order of the word's entry. (R108;
R112; R114; R115; R117; R118; R119; R120; R244; section "Instructions") -/
def Obligations.StreamsOpenAndStart : Prop :=
  ∀ (s : State) (k m a b w : Nat) (sf t : Bool), Safety.apFree [a, b] s →
    let c := s.cur.core
    let ea := (s.me.areg a).val
    let o := (s.me.areg b).val
    let sum := ea + o
    let poison := Safety.traps ⟨.poison, none, true⟩ s
    let no := Safety.traps (trapAt .stream) s
    let put := fun (n : Nat) (st : Stream) => Host.Outcome.next (finish (putStream c n st s))
    exec (.shape k a) s =
      (if (s.me.areg a).bad = true then poison
       else if ea.toNat % 64 ≠ 0 then Safety.traps (trapOn .alignIssue ea) s
       else match readRecord ea 64 s with
        | .error t => Safety.traps t s
        | .ok (u, l) =>
          let v := BitVec.ofNat 512 (bytesNat l)
          if shapeOk v = true then .next (finish (u.modMe (fun x => { x with shapes := tset x.shapes k v })))
          else Safety.traps (trapOn .alignShape ea) s) ∧
    exec (.sopen k a b) s =
      (if (s.me.areg a).bad = true ∨ (s.me.areg b).bad = true then poison
       else if ea.toNat % 512 ≠ 0 then Safety.traps (trapOn .alignIssue ea) s
       else if ringInside s.me ea (opRb o) = false then Safety.traps (trapOn .aperture ea) s
       else if openOk s c o = false ∨ (s.me.bound k).isSome = true ∨ (tfind s.me.streams k).isSome = true ∨
          ringTaken s.me ea (opRb o) = true then no
       else put k (newStream k ea o)) ∧
    (∀ n j st sh, s.me.bound k = some (n, j, st) → tfind s.me.shapes k = some sh →
      exec (.sld k a b) s =
        (if (s.me.areg a).bad = true ∨ (s.me.areg b).bad = true then poison
         else if opKind st.openw ≠ 0 ∨ st.fin = true ∨ st.fill ≠ .idle ∨ opRb st.openw < shLen sh then no
         else if sum.toNat % 2 ^ shElem sh ≠ 0 then Safety.traps (trapOn .alignIssue sum) s
         else match checkRange s c sum (shLen sh) .load with
          | some (e, x) => Safety.traps (trapOn e x) s
          | none =>
            if st.low + opRb st.openw < st.head + st.reserved + shLen sh then .next s
            else put n { st with slds := st.slds ++ [(sum, shLen sh, shInv sh)] }) ∧
      exec (.sfill k a) s =
        (if (s.me.areg a).bad = true then poison
         else if (opKind st.openw ≠ 0 ∧ opKind st.openw ≠ 8) ∨ st.fin = true ∨ st.fill = .run ∨ st.fill = .stop then no
         else if opKind st.openw = 0 ∧ opRb st.openw < shLen sh then no
         else if (ea + BitVec.ofInt 64 (shOffset sh)).toNat % 2 ^ shElem sh ≠ 0 then Safety.traps (trapOn .alignIssue ea) s
         else put n { st with shape := sh, walkBase := ea, walkRun := 0, walkOfs := 0, fill := .run })) ∧
    ((s.me.bound k = none ∨ tfind s.me.shapes k = none) → (s.me.areg a).bad = false → (s.me.areg b).bad = false →
      exec (.sld k a b) s = no ∧ exec (.sfill k a) s = no) ∧
    exec (.sfillRes k) s =
      (match s.me.bound k with
       | some (n, _, st) => if st.fill = .stop then put n { st with fill := .run, err := 0 } else no
       | none => no) ∧
    exec (.sfork k m sf t w) s =
      (match s.me.bound m with
       | none => no
       | some (i, j, st) =>
         match freeEntry st, tfind st.readers j with
         | some e, some r =>
           if opSink st.openw = true ∨ (s.me.bound k).isSome = true ∨ (sf = true ∧ swzFits w (opSlot st.openw) = false) then no
           else
             let r' : Reader := ⟨k, if sf = true then w else r.swz, if sf = true then t else r.tag, r.rdpos, none⟩
             put i { st with readers := tset st.readers e r' }
         | _, _ => no)

/-- When no register of the word waits for a load: on a source entry smark sets the mark to the read position,
smark.clr removes it and srew returns to it; srew without a mark and any of them on a sink or an unbound port takes
STREAM. sclose unbinds the port; sclose.fin ends a MEM source that is idle or done once its reserved runs have
committed. sdrain gives ERR with bit 63 when the sink is stopped, 0 once RDPOS has reached the HEAD of the word's
first turn, and waits otherwise. sstat writes SSTAT0-3 and d. ssave to an aligned, storable image writes it and ends
the stream. srest from an aligned, readable, sound image rebuilds the stream with its ring bytes. The number that
srest gives the stream and when POISON of the image is met are the model's reading (log 42); the image's bytes for an
absent entry and the order of ssave's checks are its choice (log 77), as what an image that R126 does not judge reads
as (log 93). (R105; R112; R121; R122; R123; R124; R125; R126; section "Instructions") -/
def Obligations.StreamsMarkCloseAndReport : Prop :=
  ∀ (s : State) (k d a : Nat), Safety.apFree [d, a] s →
    let c := s.cur.core
    let ea := (s.me.areg a).val
    let no := Safety.traps (trapAt .stream) s
    let put := fun (n : Nat) (st : Stream) => Host.Outcome.next (finish (putStream c n st s))
    (s.me.bound k = none → exec (.smark k) s = no ∧ exec (.smarkClr k) s = no ∧ exec (.srew k) s = no ∧ exec (.sclose k) s = no ∧
      exec (.scloseFin k) s = no ∧ exec (.sdrain d k) s = no ∧ exec (.sstat d k) s = no) ∧
    (∀ n j st r, s.me.bound k = some (n, j, st) → tfind st.readers j = some r →
      let mark := fun (r' : Reader) => if opSink st.openw = true then no else put n (st.setReader j r')
      exec (.smark k) s = mark { r with mark := some r.rdpos } ∧
      exec (.smarkClr k) s = mark { r with mark := none } ∧
      exec (.srew k) s = (match r.mark with
        | some p => mark { r with rdpos := p }
        | none => no) ∧
      exec (.sclose k) s = .next (finish (closePort c n j st s)) ∧
      exec (.scloseFin k) s =
        (if opKind st.openw ≠ 0 ∨ st.fill = .run ∨ st.fill = .stop then no
         else if st.slds ≠ [] then .next s
         else put n { st with fin := true }) ∧
      exec (.sdrain d k) s =
        (if opSink st.openw = false then no
         else if st.fill = .stop then Safety.apPut 4 d (BitVec.ofNat 64 (2 ^ 63 + st.err.toNat)) false s
         else
           let goal := s.mySide.wait.getD st.head
           if goal ≤ st.low then Safety.apPut 4 d 0 false s
           else .next (s.modMySide (fun x => { x with wait := some goal }))) ∧
      exec (.sstat d k) s =
        Safety.apPut 4 d (streamStatus st j) false (s.modMe (fun x => { x with sstat :=
          [(0, streamStatus st j), (1, BitVec.ofNat 64 st.head), (2, BitVec.ofNat 64 r.rdpos),
           (3, match r.mark with
            | some p => BitVec.ofNat 64 p
            | none => BitVec.allOnes 64)] })) ∧
      ((s.me.areg a).bad = false → ea.toNat % 64 = 0 → st.slds = [] →
        exec (.ssave k a) s = (match checkRange s c ea (1024 + opRb st.openw) .store with
          | some (e, x) => Safety.traps (trapOn e x) s
          | none => .next (finish (dropStream c n
              (writeRing c (ea + 1024) st (writeAt c ea (streamImage st) false .relaxed s)))))) ∧
      ((s.me.areg a).bad = false → ea.toNat % 64 ≠ 0 → exec (.ssave k a) s = Safety.traps (trapOn .alignIssue ea) s)) ∧
    ((s.me.areg a).bad = false → ea.toNat % 64 = 0 →
      exec (.srest a) s = (match readRecord ea 1024 s with
        | .error t => Safety.traps t s
        | .ok (u, l) =>
          let st := imageStream l
          if imageOk u st = false then no
          else match readRecord (ea + 1024) (opRb st.openw) u with
            | .error t => Safety.traps t s
            | .ok (u, data) => .next (finish (putStream u.cur.core (imageNumber st) st (ringWrite u.cur.core st 0 0 data u))))) ∧
    ((s.me.areg a).bad = false → ea.toNat % 64 ≠ 0 → exec (.srest a) s = Safety.traps (trapOn .alignIssue ea) s)

/-- When no register of the word waits for a load: cmd takes POISON, then ALIGN_ISSUE, then the fault of reading the
64 bytes, then the first failed check of the record; with all passed it changes nothing while the ring holds 64
records, waits while a speculative load is outstanding or a lost write of its die is pending, and else stores the
record at WP, advances WP, leaves an idle ring waiting, and writes the old WP to d. ceng.stat and ceng.seq write the
status word and RP. ceng.wait changes nothing until its record has retired, then writes the status word. ceng.res
makes a stopped ring run with its code clear, and ceng.drop retires a stopped head with its code, or takes it off its
ring where its raise has been made; on another ring each only writes the status word. That a head whose raise has been
made is only taken off its ring is the model's reading of R317 (log 87). (R131; R134; R135; R317; section "The AP
instructions") -/
def Obligations.EngineWords : Prop :=
  ∀ (s : State) (d a r : Nat), Safety.apFree [a, d] s →
    let c := s.cur.core
    let ea := (s.me.areg a).val
    let g := s.me.ring r
    let n := (g.rp - ea.setWidth 32).toNat
    let status := fun (g : Ring) => BitVec.ofNat 64 (g.st.num + (g.wp - g.rp).toNat * 2 ^ 16 + g.fcode.toNat * 2 ^ 32)
    exec (.cmd d a r) s =
      (if (s.me.areg a).bad = true then Safety.traps ⟨.poison, none, true⟩ s
       else if ea.toNat % 64 ≠ 0 then Safety.traps (trapOn .alignIssue ea) s
       else match readRecord ea 64 s with
        | .error t => Safety.traps t s
        | .ok (u, l) =>
          let v := BitVec.ofNat 512 (bytesNat l)
          match recordCheck u.cur.core ea v u with
          | .error t => Safety.traps t s
          | .ok u =>
            if 64 ≤ ((u.me.ring r).wp - (u.me.ring r).rp).toNat then .next s
            else if u.me.lds ≠ [] ∨ u.owes (dieOf u.cur.core) = true then .next u
            else .next (finish ((enqueue r v u).put d ((u.me.ring r).wp.zeroExtend 64)))) ∧
    exec (.cengStat d r) s = Safety.apPut 4 d (status g) false s ∧
    exec (.cengSeq d r) s = Safety.apPut 4 d (g.rp.zeroExtend 64) false s ∧
    ((s.me.areg a).bad = false →
      exec (.cengWait d a r) s = (if 1 ≤ n ∧ n ≤ 2 ^ 31 then Safety.apPut 4 d (status g) false s else .next s)) ∧
    ((s.me.areg a).bad = true → exec (.cengWait d a r) s = Safety.traps ⟨.poison, none, true⟩ s) ∧
    exec (.cengRes d r) s =
      (let t := s.modRing c r (fun g => if g.st = .stop then { g with st := .run, fcode := 0 } else g)
       Safety.apPut 4 d (status (t.me.ring r)) false t) ∧
    exec (.cengDrop d r) s =
      (let t := if g.st ≠ .stop then s else if g.due = some .raised then endRetire c r (headBytes g) s
         else retire c r (some g.fcode.toNat) s
       .next (finish (t.put d (status (t.me.ring r)))))

/-- Each of the XP's add, sub, and, or, xor, shl, shr, sra, mul, min, max, sel, cmp, addi, li, lil, addil, fadd, fmul
and fma, when no earlier word that has not completed holds one of its registers, answers the next state in which d
holds the listed value of the x registers and the word, of one word or two, has completed. The f32 words read bits
[31:0] of their registers, write the result zero-extended and OR its flags into FLAGS; fma adds the old d. (R60; R77;
R161; R162; section "Scalar words on the sequencer") -/
def Obligations.XpScalarWords : Prop :=
  ∀ (s : State) (d a b c m : Nat) (i : BitVec 13) (j : BitVec 32), Safety.xpFree [d, a, b, c] s →
    let x := s.me.xreg a
    let y := s.me.xreg b
    let sh := (y.extractLsb' 0 6).toNat
    let res := fun v => Safety.xpPut 4 d v s
    let fl := fun (r : FRes) => Host.Outcome.next (finish (raiseFlags r.fl (s.modMe (fun k => k.setXreg d (BitVec.ofNat 64 r.v)))))
    let f32 := fun (n : Nat) => (s.me.xreg n).toNat % 2 ^ 32
    let holds := fun (v : Bool) => if v = true then 1 else 0
    exec (.xpAdd d a b) s = res (x + y) ∧
    exec (.xpSub d a b) s = res (x - y) ∧
    exec (.xpAnd d a b) s = res (x &&& y) ∧
    exec (.xpOr d a b) s = res (x ||| y) ∧
    exec (.xpXor d a b) s = res (x ^^^ y) ∧
    exec (.xpShl d a b) s = res (x <<< sh) ∧
    exec (.xpShr d a b) s = res (x >>> sh) ∧
    exec (.xpSra d a b) s = res (x.sshiftRight sh) ∧
    exec (.xpMul d a b) s = res (x * y) ∧
    exec (.xpMin d a b) s = res (if x.toInt ≤ y.toInt then x else y) ∧
    exec (.xpMax d a b) s = res (if x.toInt ≤ y.toInt then y else x) ∧
    exec (.xpSel d a b c) s = res (if s.me.xreg c ≠ 0 then x else y) ∧
    exec (.xpCmp d a b 0) s = res (holds (x = y)) ∧
    exec (.xpCmp d a b 1) s = res (holds (x ≠ y)) ∧
    exec (.xpCmp d a b 2) s = res (holds (x.toInt < y.toInt)) ∧
    exec (.xpCmp d a b 3) s = res (holds (y.toInt ≤ x.toInt)) ∧
    exec (.xpCmp d a b 4) s = res (holds (x.toNat < y.toNat)) ∧
    exec (.xpCmp d a b 5) s = res (holds (y.toNat ≤ x.toNat)) ∧
    exec (.xpAddi d a i) s = res (x + i.signExtend 64) ∧
    exec (.xpLi d i) s = res (i.signExtend 64) ∧
    exec (.xpLil d j) s = Safety.xpPut 8 d (j.signExtend 64) s ∧
    exec (.xpAddil d a j) s = Safety.xpPut 8 d (x + j.signExtend 64) s ∧
    exec (.fadd d a b m) s = fl (fpAdd fmtF m (f32 a) (f32 b)) ∧
    exec (.fmul d a b m) s = fl (fpMul fmtF m (f32 a) (f32 b)) ∧
    exec (.fma d a b m) s = fl (fpFma fmtF m (f32 a) (f32 b) (f32 d))

/-- When no earlier unfinished word holds the count register: b, and bp on a nonzero register, go to the target with
the landing check due and pop every loop entry whose body does not hold it; bp on zero completes. loop takes ILLEGAL
inside an open lsp, for an offset below 1 or a full stack, and otherwise pushes its entry or skips its body. lsp takes
ILLEGAL on an offset below 1, a full stack, an open lsp, a nonzero [63:36] or a body that the stages do not divide;
skips its body for N = 0; and else sets G to 1 and pushes START, END, N + S - 1, 1, N and the words of a stage. xfence
completes when no steered word is unfinished and otherwise leaves the state as it is. That the two skips go to END + 4
with no loop check is the model's choice (log 75). A word that completes marks its core as active. (R163; R164; R165;
R169) -/
def Obligations.XpTransfersAndLoops : Prop :=
  ∀ (s : State) (c : Nat) (o : BitVec 18), Safety.xpFree [c] s →
    let T := s.cur.addr + 4 * o.signExtend 64
    let c₀ := s.cur.core
    let taken := Host.Outcome.next ((s.modMySide (fun x => { x with
      pc := T, land := true, loops := x.loops.dropWhile (fun e => !decide (e.start ≤ T ∧ T ≤ e.stop)) })).act c₀)
    let skip := Host.Outcome.next ((s.modMySide (fun x => { x with pc := T + 4, land := false })).act c₀)
    let push := fun (u : State) (e : Loop) =>
      Host.Outcome.next ((u.modMySide (fun x => { x with loops := e :: x.loops, pc := s.cur.addr + 4, land := false })).act c₀)
    let ill := Safety.traps (trapAt .illegal) s
    let v := s.me.xreg c
    let n := (v.extractLsb' 0 32).toNat
    let st := (v.extractLsb' 32 4).toNat + 1
    let inLsp := s.mySide.loops.any (fun e => e.sl != 0)
    exec (.xpB o) s = taken ∧
    exec (.xpBp c o) s = (if v ≠ 0 then taken else .next (finish s)) ∧
    exec (.xpLoop c o) s =
      (if inLsp = true ∨ o.toInt < 1 ∨ 3 ≤ s.mySide.loops.length then ill
       else if v = 0 then skip
       else push s ⟨s.cur.addr + 4, T, v.toNat, 0, 0, 0⟩) ∧
    exec (.lsp c o) s =
      (if o.toInt < 1 ∨ 3 ≤ s.mySide.loops.length ∨ inLsp = true ∨ v.extractLsb' 36 28 ≠ 0 ∨ o.toNat % st ≠ 0 then ill
       else if n = 0 then skip
       else push (s.modMe (fun k => { k with g := 1 })) ⟨s.cur.addr + 4, T, n + st - 1, 1, n, o.toNat / st⟩) ∧
    exec .xfence s = .next (if s.me.unfinished = [] then finish s else s)

/-- After a word of 4 or 8 bytes completes: with no loop entry, or a top entry whose END is no word of it, the pc
moves past it. With a plain top entry ending at it, the entry's count falls; with passes left the pc goes to START
with the landing check due, else the entry is popped and the next is checked. With an lsp entry ending at it, VT's
rotation offset steps back once within ROT_SIZE, G shifts left taking in whether an iteration was left to start, and
the pass count falls in the same way. Nothing else of the state changes but what a word in progress had set aside for
itself and that the core counts as active. (R87; R164; R165; section "Control transfer"; section "The software-
pipelined loop") -/
def Obligations.LoopChecksAfterAWord : Prop :=
  ∀ (s : State) (len : Nat), (len = 4 ∨ len = 8) →
    let here := fun (e : Loop) => e.stop = s.cur.addr ∨ (len = 8 ∧ e.stop = s.cur.addr + 4)
    let past := (s.modMySide (fun x => { x with pc := s.cur.addr + BitVec.ofNat 64 len, land := false, wait := none })).act s.cur.core
    (s.mySide.loops = [] → finishN len s = past) ∧
    (∀ (t : Loop) (r : List Loop), s.mySide.loops = t :: r →
      let back := fun (u : State) (t' : Loop) =>
        (u.modMySide (fun x => { x with loops := t' :: r, pc := t.start, land := true, wait := none })).act s.cur.core
      let popped := fun (u : State) => finishN len (u.modMySide (fun x => { x with loops := r }))
      let rotated := BitVec.ofNat 64 (s.me.vt.toNat % 2 ^ 22 +
        (vtOfs s.me.vt + vtSize s.me.vt - 1) % vtSize s.me.vt * 2 ^ 22)
      let turned := s.modMe (fun k => { k with
        vt := if vtSize k.vt = 0 then k.vt else rotated
        g := (k.g <<< 1) ||| (if t.started < t.n then 1 else 0) })
      (¬ here t → finishN len s = past) ∧
      (here t → t.sl = 0 → t.n = 0 →
        (1 < t.left → finishN len s = back s { t with left := t.left - 1 }) ∧
        (t.left ≤ 1 → finishN len s = popped s)) ∧
      (here t → t.sl ≠ 0 →
        let t' := { t with left := t.left - 1, started := if t.started < t.n then t.started + 1 else t.started }
        (1 < t.left → finishN len s = back turned t') ∧
        (t.left ≤ 1 → finishN len s = popped turned)))

/-- When no earlier unfinished word holds a register of the word: qget of q4-q7 and qput to q0-q3 take ILLEGAL, block
on an empty or full queue, and else move one entry. csrr gives CORE, CREW, DIE, HEAT, CTX, TASK, MODE, VT, G, SLIP,
TB, FADDR and FCODE at once, and VCNT, FLAGS, SEATST and PIX once no steered word is unfinished; another number takes
ILLEGAL. csrw, and its long form with the zero-extended immediate, of VT, G and VCNT takes ILLEGAL on a value R23 or a
reserved bit refuses; FLAGS and FCODE store reserved bits as zero; SLIP and PIX take PRIV in user mode; SLIP takes
ILLEGAL for a LIMIT outside 1-32 (bits above it are not looked at: the model's reading, log 40); PIX sets its four
fields in turn, each once its engine is idle; another CSR takes ILLEGAL. VCNT, FLAGS and PIX wait while a steered word
is unfinished. vset sets ETYPE and MSEL, and in its second form the rotation fields, or takes ILLEGAL leaving VT. nset
of a register pair or of two units of a port loads n0-n7 from their 1,024 bytes, or takes ILLEGAL past the registers
present, or the port's fault, or waits for the port; which of a claimed entry's wait and a fault comes first, and the
order of two units' faults, are the model's reading (logs 45, 94 and 97). (R21; R22; R23; R24; R25; R26; R27; R28;
R167; R168; R170; R171) -/
def Obligations.XpQueuesCsrsAndVt : Prop :=
  ∀ (s : State) (d a q m e n c : Nat) (j : BitVec 32), Safety.xpFree [d, a] s → m < 8 → e < 32 →
    let v := s.me.xreg a
    let core := s.cur.core
    let ill := Safety.traps (trapAt .illegal) s
    let priv := Safety.traps (trapAt .priv) s
    let rd := fun (v : Addr) => Safety.xpPut 4 d v s
    let vt1 := s.me.vt &&& ~~~(0xFF : BitVec 64) ||| BitVec.ofNat 64 (m * 32 + e)
    let vt2 := v &&& 0x1FFFFF00 ||| BitVec.ofNat 64 (m * 32 + e)
    let r0 := rename s.me.vt c
    let r1 := rename s.me.vt (c + 1)
    let fenced := fun (r : Res) => if s.me.unfinished = [] then r else .next s
    let own := fun (p : Plane) => decide (p.tagH = s.me.heat ∧ p.holder = posOf core ∧ p.holder ≠ 7)
    let w := s.crew (crewOf core)
    let load := fun (k : Core) (b : BitVec 8192) =>
      { k with nregs := (List.range 8).map (fun j => (j, b.extractLsb' (544 * j) 544)) }
    let write := fun (len : Nat) (i : Nat → Instr) (v : Addr) =>
      let done := fun (f : Core → Core) => Host.Outcome.next (finishN len (s.modMe f))
      let lim := v.extractLsb' 0 6
      exec (i 0x010) s = (if vtOk s.me.nv v = true then done (fun k => { k with vt := v }) else ill) ∧
      exec (i 0x012) s = (if v.toNat < 2 ^ 16 then done (fun k => { k with g := v.extractLsb' 0 16 }) else ill) ∧
      exec (i 0x011) s =
        fenced (if v.toNat < 2 ^ 11 then done (fun k => { k with vcnt := v.extractLsb' 0 11 }) else ill) ∧
      exec (i 0x013) s = fenced (done (fun k => { k with flags := v.extractLsb' 0 6 })) ∧
      exec (i 0x030) s = done (fun k => { k with xp := { k.xp with faddr := v } }) ∧
      exec (i 0x031) s = done (fun k => { k with xp := { k.xp with fcode := v &&& 0xF0FF } }) ∧
      exec (i 0x021) s =
        (if s.sysMode core = false then priv else if lim = 0 ∨ 32 < lim.toNat then ill else done (fun k => { k with slip := lim })) ∧
      (s.sysMode core = false → exec (i 0x020) s = priv) ∧
      (s.sysMode core = true → s.me.unfinished ≠ [] → exec (i 0x020) s = .next s) ∧
      (s.sysMode core = true → s.me.unfinished = [] → Safety.pixWritten (exec (i 0x020) s) s len v.toNat) ∧
      (n ∉ [0x010, 0x011, 0x012, 0x013, 0x020, 0x021, 0x030, 0x031] → exec (i n) s = ill)
    exec (.xpQget d q) s =
      (if 4 ≤ q then ill else match s.me.queue q with
        | [] => .next s
        | x :: r => Safety.xpPut 4 d x (s.modMe (fun k => { k with queues := tset k.queues q r }))) ∧
    exec (.xpQput q a) s =
      (if q < 4 then ill else if 16 ≤ (s.me.queue q).length then .next s
       else .next (finish (s.modMe (fun k => { k with queues := tset k.queues q (k.queue q ++ [v]) })))) ∧
    exec (.xpCsrr d 0x000) s = rd (BitVec.ofNat 64 (core + core % 24 * 2 ^ 8 + core / 24 * 2 ^ 13)) ∧
    exec (.xpCsrr d 0x001) s =
      rd (BitVec.ofNat 64 (crewOf core + core % 24 / 2 * 2 ^ 8 + core / 48 * 2 ^ 12 + posOf core * 2 ^ 16)) ∧
    exec (.xpCsrr d 0x002) s =
      rd (BitVec.ofNat 64 ((if core % 24 < 12 then 0 else 1) + 2 + (if s.form = .la2h then 0 else 4))) ∧
    exec (.xpCsrr d 0x003) s = rd (BitVec.ofNat 64 s.me.heat) ∧
    (∀ h, s.heatOf core = some h → exec (.xpCsrr d 0x004) s = rd (BitVec.ofNat 64 (h.hr.ctx + h.hr.prio * 2 ^ 4)) ∧
      exec (.xpCsrr d 0x006) s = rd (if h.hr.system = true then 1 else 0)) ∧
    exec (.xpCsrr d 0x010) s = rd s.me.vt ∧
    exec (.xpCsrr d 0x012) s = rd (s.me.g.zeroExtend 64) ∧
    exec (.xpCsrr d 0x021) s = rd (s.me.slip.zeroExtend 64) ∧
    exec (.xpCsrr d 0x005) s = rd (s.me.xp.task.zeroExtend 64) ∧
    exec (.xpCsrr d 0x030) s = rd s.me.xp.faddr ∧
    exec (.xpCsrr d 0x031) s = rd s.me.xp.fcode ∧
    exec (.xpCsrr d 0x022) s = rd (s.die (dieOf core)).tb ∧
    exec (.xpCsrr d 0x011) s = fenced (rd (s.me.vcnt.zeroExtend 64)) ∧
    exec (.xpCsrr d 0x013) s = fenced (rd (s.me.flags.zeroExtend 64)) ∧
    exec (.xpCsrr d 0x014) s = fenced (rd (BitVec.ofNat 64 (s.me.hasSeat.toNat + (own w.active).toNat * 2 +
      (own w.shadow).toNat * 2 ^ 2 + s.me.stint * 2 ^ 3 + w.holder * 2 ^ 8))) ∧
    exec (.xpCsrr d 0x020) s = fenced (rd (csrPix s.me)) ∧
    (n ∉ [0x000, 0x001, 0x002, 0x003, 0x004, 0x005, 0x006, 0x010, 0x011, 0x012, 0x013, 0x014, 0x020, 0x021, 0x022, 0x030, 0x031] →
      exec (.xpCsrr d n) s = ill) ∧
    write 4 (.xpCsrw a) v ∧ write 8 (fun n => .xpCsrwLong n j) (j.zeroExtend 64) ∧
    exec (.vset m e) s = (if vtOk s.me.nv vt1 = true then .next (finish (s.modMe (fun k => { k with vt := vt1 }))) else ill) ∧
    exec (.vsetRot a m e) s = (if vtOk s.me.nv vt2 = true then .next (finish (s.modMe (fun k => { k with vt := vt2 }))) else ill) ∧
    (s.me.unfinished = [] →
      (c < 96 → exec (.nset c) s =
        (if s.me.nv < c + 2 ∨ s.me.nv ≤ r0 ∨ s.me.nv ≤ r1 then ill
         else .next (finish (s.modMe (fun k => load k (s.me.vreg r1 ++ s.me.vreg r0)))))) ∧
      (96 ≤ c →
        let p := c - 96
        let u := portAdvance core p 512 s
        let bytes := portBytes s core p 512 ++ portBytes u core p 512
        let second := portSeek core p (portPos s core p + 512) s
        exec (.nset c) s = (match joinChecks [unitReady s p, unitReady second p] with
          | .trap t => Safety.traps t s
          | .wait => .next s
          | .ready => .next (finish ((portAdvance core p 512 u).modMe (fun k =>
                load k (BitVec.ofNat 8192 (bytesNat bytes))))))))

/-- On a live core whose XP runs with nothing set aside, no landing check due and no stage skip at its pc, when the
word there can be fetched and is a vector, matrix or function word: ILLEGAL is taken when the steering check refuses
it under the current VT; while the queues hold SLIP words nothing changes but what the fetch does; else the word joins
the queue of its unit with its address, the VT and G of that moment and the next steering number, and the sequencer
moves past the word. (R9; R10; R11; R173; section "Steering on the XP") -/
def Obligations.XpSteersQueuedWords : Prop :=
  ∀ (s u : State) (c : Nat) (w : Word) (i : Instr),
    let t := asSide c .xp s
    s.live c = true → (s.core c).xp.run = .run → (s.core c).xp.land = false → (s.core c).aside = [] →
    stageSkips (s.core c) (s.core c).xp.pc = false → fetchWord t c (s.core c).xp.pc = .ok (u, w) →
    wordInstr w = some i → isQueued i.unit = true →
    let q : QWord := ⟨u.cur.addr, w, u.me.vt, u.me.g, u.me.seq⟩
    exec (.xpSteer c) s =
      (if steerOk u.me i = false then Safety.traps (trapAt .illegal) u
       else if u.me.slip.toNat ≤ u.me.vq.length + u.me.mq.length + u.me.fq.length then .next u
       else .next (moveOn 4 (u.modMe (fun k => enqueueWord i.unit q { k with seq := k.seq + 1 }))))

/-- For vadd, vsub, vmul, vmulh, vmad, vmin, vmax, vabs, vshl, vshr, vsra, vand, vor, vxor and vnot, with operands in
registers or at ports whose units are there: the word completes, every active element of the result is the listed
function of the operands' elements, wrapped to the element's width or clamped with SAT under .sat, rounded half up
under .rnd; every inactive element is the old one (0 at a port); FLAGS takes in SAT where an active element was
clamped. (R172; R174; R175; R177) -/
def Obligations.VectorIntegerWords : Prop :=
  ∀ (s : State) (d a b : Nat) (sat rnd m : Bool), Safety.portsReady [a, b] [d] s → Safety.portsReady [a] [d] s →
    let e := vtType s.cur.vt
    let w := etBits e
    let A := fun i => Safety.el w i (operand s a)
    let B := fun i => Safety.el w i (operand s b)
    let D := fun i => Safety.el w i (oldDest s d)
    let int := etInt e
    let cnt := fun i => B i % w
    let down := fun (x : Int) (c : Nat) => if rnd = true ∧ 0 < c then (x + 2 ^ (c - 1)) / 2 ^ c else x / 2 ^ c
    let bits := fun (x : Nat) => (⟨x, 0⟩ : FRes)
    let two := fun (i : Instr) (f : Nat → FRes) => Safety.elementwise (exec i s) s d [a, b] m f
    let one := fun (i : Instr) (f : Nat → FRes) => Safety.elementwise (exec i s) s d [a] m f
    two (.vadd d a b sat m) (fun i => intRes sat e (int (A i) + int (B i))) ∧
    two (.vsub d a b sat m) (fun i => intRes sat e (int (A i) - int (B i))) ∧
    two (.vmul d a b sat m) (fun i => intRes sat e (int (A i) * int (B i))) ∧
    two (.vmulh d a b m) (fun i => bits (ofInt w (int (A i) * int (B i) / 2 ^ w))) ∧
    two (.vmad d a b sat m) (fun i => intRes sat e (int (A i) * int (B i) + int (D i))) ∧
    two (.vmin d a b m) (fun i => bits (if int (A i) ≤ int (B i) then A i else B i)) ∧
    two (.vmax d a b m) (fun i => bits (if int (A i) ≤ int (B i) then B i else A i)) ∧
    one (.vabs d a sat m) (fun i => intRes sat e ((int (A i)).natAbs : Int)) ∧
    two (.vshl d a b sat m) (fun i => intRes sat e (int (A i) * 2 ^ cnt i)) ∧
    two (.vshr d a b rnd m) (fun i => bits (ofInt w (down (A i : Nat) (cnt i)))) ∧
    two (.vsra d a b rnd m) (fun i => bits (ofInt w (down (toSigned w (A i)) (cnt i)))) ∧
    two (.vand d a b m) (fun i => bits (A i &&& B i)) ∧
    two (.vor d a b m) (fun i => bits (A i ||| B i)) ∧
    two (.vxor d a b m) (fun i => bits (A i ^^^ B i)) ∧
    one (.vnot d a m) (fun i => bits (2 ^ w - 1 - A i))

/-- For vfadd, vfsub, vfmul, vfma, vfmin, vfmax, vfsgn and exp2, log2, rcp, rsqrt, sinpi, cospi, tanh and sigm, with
operands in registers or at ports whose units are there: the word completes, every active element of the result is the
operation of the element format on the operands' elements (for a special function, the model's pick among the results
R74 and R75 admit: log 12), every inactive element is the old one (0 at a port), and FLAGS takes in the flags of the
active elements. (R74; R75; R172; R178; R205; section "Integer, bit and float arithmetic"; section "Special
functions") -/
def Obligations.VectorFloatAndFunctionWords : Prop :=
  ∀ (s : State) (d a b r sg : Nat) (num m : Bool), Safety.portsReady [a, b] [d] s → Safety.portsReady [a] [d] s →
    let e := vtType s.cur.vt
    let w := etBits e
    let fm := etFmt e
    let A := fun i => Safety.el w i (operand s a)
    let B := fun i => Safety.el w i (operand s b)
    let D := fun i => Safety.el w i (oldDest s d)
    let sgn := fun (x : Nat) => x / 2 ^ (w - 1) % 2
    let two := fun (i : Instr) (f : Nat → FRes) => Safety.elementwise (exec i s) s d [a, b] m f
    let fn := fun (i : Instr) (f : Sf) => Safety.elementwise (exec i s) s d [a] m (fun i => sfApply f e (A i))
    two (.vfadd d a b r m) (fun i => fpAdd fm r (A i) (B i)) ∧
    two (.vfsub d a b r m) (fun i => fpSub fm r (A i) (B i)) ∧
    two (.vfmul d a b r m) (fun i => fpMul fm r (A i) (B i)) ∧
    two (.vfma d a b r m) (fun i => fpFma fm r (A i) (B i) (D i)) ∧
    two (.vfmin d a b num m) (fun i => fpMinMax fm false num (A i) (B i)) ∧
    two (.vfmax d a b num m) (fun i => fpMinMax fm true num (A i) (B i)) ∧
    two (.vfsgn d a b sg m) (fun i => ⟨A i % 2 ^ (w - 1) + 2 ^ (w - 1) *
      (if sg = 0 then sgn (B i) else if sg = 1 then 1 - sgn (B i) else (sgn (A i) + sgn (B i)) % 2), 0⟩) ∧
    fn (.exp2 d a m) .exp2 ∧ fn (.log2 d a m) .log2 ∧ fn (.rcp d a m) .rcp ∧ fn (.rsqrt d a m) .rsqrt ∧
    fn (.sinpi d a m) .sinpi ∧ fn (.cospi d a m) .cospi ∧ fn (.tanh d a m) .tanh ∧ fn (.sigm d a m) .sigm

/-- With operands in registers or at ports whose units are there, n the element count of the captured type: vcmp and
vfcmp set mask bit i < n by the comparison and clear the rest; vsel takes A or B by the mask of MSEL; vcompress
gathers the selected elements in order and sets VCNT to their number; vexpand spreads leading elements to the selected
places; vslide and vbcast move elements; vperm routes bytes through the network; vred leaves the tree's value in
element 0 and zeros after it; mand, mor, mnot combine mask bits below n and clear the rest; mpop counts them into an x
register. vfcmp ORs its flags into FLAGS, as vred does with its tree's. Each word leaves its engine. (R70; R171; R176;
R177; R182; R183; R184; R185; R186; section "Reductions and rearrangement") -/
def Obligations.VectorMaskAndMoveWords : Prop :=
  ∀ (s : State) (d a b c r o : Nat) (i10 : BitVec 10) (sat m : Bool), Safety.portsReady [a, b] [d] s →
    Safety.portsReady [a, b] [] s → Safety.portsReady [a] [d] s →
    let e := vtType s.cur.vt
    let w := etBits e
    let n := 4096 / w
    let A := fun i => Safety.el w i (operand s a)
    let B := fun i => Safety.el w i (operand s b)
    let sel := fun i => (s.me.mask (vtMask s.cur.vt)).getLsbD i
    let low := (List.range n).filter sel
    let whole := fun (i : Instr) (f : Nat → Nat) => Safety.elementwise (exec i s) s d [a] false (fun i => ⟨f i, 0⟩)
    let maskIs := fun (i : Instr) (g : Nat → BitVec 1024 → State) (f : Nat → Bool) (fl : Nat → Nat) =>
      ∃ v : BitVec 1024, ∃ x, exec i s = .next (dropWord (g x v)) ∧
        (∀ j, v.getLsbD j = (decide (j < n) && f j)) ∧
        (∀ j, Nat.testBit x j = true ↔ ∃ i, i < n ∧ (fl i).testBit j = true)
    let order := fun (x y : Int) => [decide (x = y), decide (x ≠ y), decide (x < y), decide (y ≤ x), decide (y < x), decide (x ≤ y)]
    let cmp := fun (x : Nat) (v : BitVec 1024) => raiseFlags x ((takeUnits [a, b] s).modMe (fun k => k.setMask d v))
    let plain := fun (_ : Nat) (v : BitVec 1024) => s.modMe (fun k => k.setMask d v)
    (c < 6 → maskIs (.vcmp d a b c) cmp (fun i => (order (etInt e (A i)) (etInt e (B i))).getD c false) (fun _ => 0)) ∧
    maskIs (.vfcmp d a b c) cmp (fun i => (fpCmp (etFmt e) c (A i) (B i)).v == 1)
      (fun i => (fpCmp (etFmt e) c (A i) (B i)).fl) ∧
    Safety.elementwise (exec (.vsel d a b) s) s d [a, b] false (fun i => ⟨if sel i = true then A i else B i, 0⟩) ∧
    (∃ v, exec (.vcompress d a) s = .next (dropWord ((putDest d v (takeUnits [a] s)).modMe
        (fun k => { k with vcnt := BitVec.ofNat 11 low.length }))) ∧
      ∀ i, i < n → Safety.el w i v = (low[i]?).elim 0 A) ∧
    whole (.vexpand d a) (fun i => if sel i = true then A ((List.range i).filter sel).length else 0) ∧
    whole (.vslide d a i10) (fun i => if 0 ≤ (i : Int) + i10.toInt ∧ (i : Int) + i10.toInt < n then A ((i : Int) + i10.toInt).toNat else 0) ∧
    (c < n → whole (.vbcast d a c) (fun _ => A c)) ∧
    Safety.elementwise (exec (.vperm d a m) s) s d [a] m (fun i => ⟨Safety.el w i (benes s.me (operand s a)), 0⟩) ∧
    let red := treeRed n.log2 (redOp e r o sat)
      ((List.range n).map (fun i => (⟨if Safety.act s m i = true then A i else redIdent e o, 0⟩ : FRes)))
    (∃ v, exec (.vred d a r o sat m) s = .next (dropWord (raiseFlags red.fl (putDest d v (takeUnits [a] s)))) ∧
      (∀ i, 0 < i → i < n → Safety.el w i v = 0) ∧ Safety.el w 0 v = red.v % 2 ^ w) ∧
    maskIs (.mand d a b) plain (fun i => (s.me.mask a).getLsbD i && (s.me.mask b).getLsbD i) (fun _ => 0) ∧
    maskIs (.mor d a b) plain (fun i => (s.me.mask a).getLsbD i || (s.me.mask b).getLsbD i) (fun _ => 0) ∧
    maskIs (.mnot d a) plain (fun i => !(s.me.mask a).getLsbD i) (fun _ => 0) ∧
    exec (.mpop d a) s = .next (dropWord (s.modMe (fun k => k.setXreg d
      (BitVec.ofNat 64 ((List.range n).filter (fun i => (s.me.mask a).getLsbD i)).length))))

/-- A word that starts, with its port units there and a budget that reaches its span: vwadd, vwmul and vwmad write the
exact sum, product or product plus old element at twice or four times the width, and vcvt to a wider type its
conversion, each element i in register d + i mod f at position i div f, the rest unchanged. vnarrow and vcvt from a
wider type read element i from register a + i mod f at position i div f, and vcvt of equal widths acts element by
element. (R179; R180; R181; R187; section "Changing width") -/
def Obligations.VectorWidthWords : Prop :=
  ∀ (s : State) (d a b src r : Nat) (sat q satf m : Bool), Safety.starts .vec s → src < 15 →
    let e := vtType s.cur.vt
    let w := etBits e
    let f := if q = true then 4 else 2
    let A := fun i => Safety.el w i (operand s a)
    let B := fun i => Safety.el w i (operand s b)
    let W := fun i => Safety.el (w * f) (i / f) (s.me.vreg (rename s.cur.vt (d + i % f)))
    let span := fun (i : Instr) (g : Nat → FRes) => Safety.spanwise (exec i s) s d f (w * f) (4096 / w) m g
    (wideOk s.me.nv s.cur.vt d a b sat q = true → f ≤ s.cur.steps → Safety.portsReady [a, b] [] s →
      span (.vwadd d a b sat q m) (fun i =>
        if e < 8 then intRes sat (wideType e f) (etInt e (A i) + etInt e (B i)) else wideFloat e (A i) (B i) (fpAdd fmtF 0)) ∧
      span (.vwmul d a b sat q m) (fun i =>
        if e < 8 then intRes sat (wideType e f) (etInt e (A i) * etInt e (B i)) else wideFloat e (A i) (B i) (fpMul fmtF 0)) ∧
      span (.vwmad d a b sat q m) (fun i =>
        if e < 8 then intRes sat (wideType e f) (etInt e (A i) * etInt e (B i) + etInt (wideType e f) (W i))
        else wideFloat e (A i) (B i) (fun x y => fpFma fmtF 0 x y (W i)))) ∧
    (etWide e q = true → spanOk s.me.nv s.cur.vt a f = true → Safety.portsReady [] [d] s →
      Safety.elementwise (exec (.vnarrow d a sat q m) s) s d [] m (fun i =>
        intRes sat e (etInt (wideType e f) (Safety.el (w * f) (i / f) (s.me.vreg (rename s.cur.vt (a + i % f))))))) ∧
    (cvtWordOk s.me.nv s.cur.vt d a satf src = true →
      let ws := etBits src
      (ws < w → w / ws ≤ s.cur.steps → Safety.portsReady [a] [] s →
        Safety.spanwise (exec (.vcvt d a satf src r m) s) s d (w / ws) w (4096 / ws) m (fun i =>
          convert src e r satf (Safety.el ws i (operand s a)))) ∧
      (w < ws → Safety.portsReady [] [d] s →
        Safety.elementwise (exec (.vcvt d a satf src r m) s) s d [] m (fun i =>
          convert src e r satf (Safety.el ws (i / (ws / w)) (s.me.vreg (rename s.cur.vt (a + i % (ws / w))))))) ∧
      (w = ws → Safety.portsReady [a] [d] s →
        Safety.elementwise (exec (.vcvt d a satf src r m) s) s d [a] m (fun i =>
          convert src e r satf (Safety.el w i (operand s a)))))

/-- For each elementwise, rearrangement and function word with its source and sink operand codes: while a unit is
missing, or a sink has no room, the word leaves the state as it is; when a port refuses it, or its unit carries poison
or another layout, the word takes that fault in its queue, with every word steered after it set aside behind it.
(R127; R129; R172; section "Ports as XP operands") -/
def Obligations.EngineWordsWaitOrTrapAtPorts : Prop :=
  ∀ (s : State) (d a b r c : Nat) (i10 : BitVec 10) (x m : Bool),
    let two : List Instr := [.vadd d a b x m, .vsub d a b x m, .vmul d a b x m, .vmulh d a b m, .vmad d a b x m, .vmin d a b m,
      .vmax d a b m, .vand d a b m, .vor d a b m, .vxor d a b m, .vshl d a b x m, .vshr d a b x m, .vsra d a b x m, .vsel d a b,
      .vfadd d a b r m, .vfsub d a b r m, .vfmul d a b r m, .vfma d a b r m, .vfmin d a b x m, .vfmax d a b x m, .vfsgn d a b r m]
    let one : List Instr := [.vabs d a x m, .vnot d a m, .vred d a r c x m, .vcompress d a, .vexpand d a, .vperm d a m,
      .vslide d a i10, .vbcast d a c, .exp2 d a m, .log2 d a m, .rcp d a m, .rsqrt d a m, .sinpi d a m, .cospi d a m, .tanh d a m,
      .sigm d a m]
    let met := fun (i : Instr) (p : PortCheck) =>
      (p = .wait → exec i s = .next s) ∧ (∀ t, p = .trap t → exec i s = .next (queueTrap t s))
    (∀ i ∈ two, met i (portsCheck s (portsOf [a, b]) (portsOf [d]))) ∧
    (∀ i ∈ one, met i (portsCheck s (portsOf [a]) (portsOf [d]))) ∧
    (∀ i ∈ [Instr.vcmp d a b c, Instr.vfcmp d a b c], met i (portsCheck s (portsOf [a, b]) []))

/-- Where no wload in progress claims the port that a word reads: seat asks for the crew's seat in place of its own
stint, and once it is granted writes SEATST; unseat ends the stint. A seated core's wload that starts with 64 units
there counted from its entry's position at that moment, makes the shadow plane the core's, wswap exchanges the planes,
and mmul and mmulg on an admitted, current plane add each row's products to their tile, one word of the stint each.
sclq appends 512 scale bytes, azero clears a tile, drain appends its entries, converted, to the result queue, rpop and
rsend take its oldest entry. Without the seat a seat-needing word takes SEAT. (R192; R193; R194; R196; R197; R198;
R200; R201; R202; R203; R204; section "Loading weights and scales") -/
def Obligations.MatrixWords : Prop :=
  ∀ (s : State) (x k tl f e v : Nat) (mx h satf : Bool),
    let c := s.cur.core
    let me := crewOf c
    let pass := s.cur.eng = some .pass ∧ s.cur.side = .xp
    (pass → begun s = false → s.me.inLoad = none → reseating s c = false →
      ∃ t, exec (.seat x) s = .next t ∧ posOf c ∈ (t.crew me).reqs ∧ t.me.inPass.isSome = true ∧
        (s.me.hasSeat = true → (s.crew me).holder = posOf c →
          (t.crew me).holder = 7 ∧ t.me.hasSeat = false ∧ t.me.stint = 0)) ∧
    (pass → begun s = true → s.me.hasSeat = true →
      exec (.seat x) s = .next (dropWord (s.modMe (fun m => m.setXreg x (seatst s c))))) ∧
    (pass → s.me.inLoad = none → reseating s c = false →
      exec .unseat s = .next (dropWord (if s.me.hasSeat = true then endStint me s else s))) ∧
    let unit := fun (j : Nat) => portSeek c k (portPos s c k + 512 * j) s
    (Safety.starts .load s → Safety.seated s → wloadScales e mx ≤ s.me.scaleq.length →
      wloadStream s k = false → 64 ≤ s.cur.steps →
      (∀ j, j < 64 → portReadable (unit j) c k 512 = .ready) →
      Safety.leaves (exec (.wload k mx e) s) s 1 (fun t =>
        let p := (t.crew me).shadow
        p.ty = some (e + (if mx = true then 16 else 0)) ∧ p.tagH = s.me.heat ∧ p.holder = posOf c ∧ p.stale = false ∧
          (∀ j, j < 64 → p.w.extractLsb' (4096 * j) 4096 = unitOf (unit j) k) ∧
          t.me.scaleq = s.me.scaleq.drop (wloadScales e mx) ∧ (t.crew me).active = (s.crew me).active)) ∧
    (Safety.starts .pass s → Safety.seated s →
      Safety.leaves (exec .wswap s) s 1 (fun t =>
        (t.crew me).active = (s.crew me).shadow ∧ (t.crew me).shadow = (s.crew me).active)) ∧
    (Safety.starts .pass s → Safety.seated s → ∀ p, passOf (s.crew me).active.ty e h mx = some p → (s.crew me).active.stale = false →
      p.scaleBytes ≤ s.me.scaleq.length → claimed s.me k = false → streamBad s k = false → p.r ≤ s.cur.steps →
      let made := fun (units : List (BitVec 4096)) (t : State) =>
        (∀ i j, i < p.r → j < p.n → nfld (t.me.tile tl).toNat (32 * (i * p.n + j)) 32 =
          (accElem (s.crew me).active p (s.me.scaleq.take p.scaleBytes) (rowOf p units i) i j
            (nfld (s.me.tile tl).toNat (32 * (i * p.n + j)) 32)).v) ∧
        (∀ u, u ≠ tl → t.me.tile u = s.me.tile u) ∧ t.me.scaleq = s.me.scaleq.drop p.scaleBytes
      let n := p.r / p.rowsPerUnit
      ((∀ j, j < n → portReadable ((List.range j).foldl (fun t _ => portAdvance c k 512 t) s) c k 512 = .ready) →
        Safety.leaves (exec (.mmul tl k mx h e) s) s 1 (made (Safety.portUnits k n s))) ∧
      (portReadable s c k 512 = .ready →
        let idx := (List.range p.r).map (fun i => nfld (unitOf s k).toNat (32 * i) 32)
        idx.findSome? (gatherFault s x p.rowBytes) = none →
        Safety.leaves (exec (.mmulg tl k x mx h e) s) s 1
          (made (unitsOf (p.r + 1) (idx.flatMap (gatherRow s x p.rowBytes)))))) ∧
    (Safety.starts .load s → s.me.hasSeat = false → reseating s c = false →
      exec (.wload k mx e) s = .next (queueTrap (trapAt .seat) s)) ∧
    (Safety.starts .pass s → s.me.hasSeat = false → reseating s c = false →
      exec .wswap s = .next (queueTrap (trapAt .seat) s) ∧ exec (.mmul tl k mx h e) s = .next (queueTrap (trapAt .seat) s) ∧
      exec (.mmulg tl k x mx h e) s = .next (queueTrap (trapAt .seat) s)) ∧
    (pass → reseating s c = false →
      (s.me.scaleq.length + 512 ≤ 4096 → claimed s.me k = false → portReadable s c k 512 = .ready →
        exec (.sclq k) s = .next (dropWord ((portAdvance c k 512 s).modMe (fun m => { m with
          scaleq := m.scaleq ++ portBytes s c k 512 })))) ∧
      exec (.azero tl) s = .next (dropWord (s.modMe (fun m => { m with tiles := tset m.tiles tl 0 }))) ∧
      (∀ q r, s.me.resultq = q :: r →
        exec (.rpop v) s = .next (dropWord (s.modMe (fun m => { m.setVreg (rename s.cur.vt v) q with resultq := r }))) ∧
        (portWritable s c k = .ready →
          exec (.rsend k) s = .next (dropWord ((portWrite c k (bvBytes 512 q) s).modMe (fun m => { m with resultq := r }))))) ∧
      (s.me.resultq = [] → s.me.rqRes = 0 → exec (.rpop v) s = .next (queueTrap (trapAt .queue) s))) ∧
    (Safety.starts .pass s → reseating s c = false →
      let ctl := (s.me.xreg x).toNat
      let e0 := ctl % 64
      let n := ctl / 2 ^ 8 % 16
      ctl = e0 + n * 256 → 1 ≤ n → n ≤ 8 → e0 + n ≤ 16 * drainBytes f → s.me.resultq.length + s.me.rqRes + n ≤ 8 → n ≤ s.cur.steps →
      Safety.leaves (exec (.drain tl x satf f) s) s 0 (fun t =>
        t.me.resultq = s.me.resultq ++ (List.range n).map (fun i => (drainEntry f satf (s.me.tile tl) (e0 + i)).1) ∧
          t.me.rqRes = s.me.rqRes))

/-- Granting a free seat gives it to the first requester after the last holder in the order POS 0-3, netting engine:
it becomes holder and last holder, its request is taken off, and a core gets a stint of 16 words unless it resumes the
stint its image held. A held seat or no requester changes nothing. When a core's sixteenth word has completed and no
word that needs the seat is unfinished, the stint ends and the seat is free if another unit requests it; otherwise the
core keeps the seat with a new stint of 16. Where no unit of the crew's heats moves, stopped to be saved or by the
loss of the supply, neither changes anything. (R193; R206; R255; R323; R381) -/
def Obligations.SeatTurns : Prop :=
  ∀ (s : State) (crew : Nat),
    let w := s.crew crew
    let order := (List.range 5).map (fun i => (w.last + 1 + i) % 5)
    let next := order.find? (fun p => w.reqs.contains p)
    (crewMoves s crew = false → exec (.seatGrant crew) s = .next s ∧ exec (.stintEndCount crew) s = .next s) ∧
    ((w.holder ≠ 7 ∨ next = none) → exec (.seatGrant crew) s = .next s) ∧
    (∀ p, crewMoves s crew = true → w.holder = 7 → next = some p →
      ∃ t, exec (.seatGrant crew) s = .next t ∧ (t.crew crew).holder = p ∧ (t.crew crew).last = p ∧
        (t.crew crew).reqs = w.reqs.filter (fun q => q != p) ∧
        (p < 4 → reseating s (coreAt crew p) = false →
          (t.core (coreAt crew p)).hasSeat = true ∧ (t.core (coreAt crew p)).stint = 16) ∧
        (p < 4 → reseating s (coreAt crew p) = true →
          (t.core (coreAt crew p)).hasSeat = true ∧ (t.core (coreAt crew p)).stint = (s.core (coreAt crew p)).stint) ∧
        (p = 4 → t.cores = s.cores)) ∧
    (crewMoves s crew = true → w.holder < 4 →
      let c := coreAt crew w.holder
      let others := w.reqs.any (fun p => p != w.holder)
      (s.core c).hasSeat = true → (s.core c).stint = 0 → seatBusy (s.core c) = false →
      ∃ t, exec (.stintEndCount crew) s = .next t ∧
        (others = true → (t.crew crew).holder = 7 ∧ (t.core c).hasSeat = false) ∧
        (others = false → (t.crew crew).holder = w.holder ∧ (t.core c).hasSeat = true ∧ (t.core c).stint = 16))

/-- On either side, when no load or queued word holds a register of the word (and, for fence, halt and pixw on the XP,
no steered word is unfinished): nop completes; tsr and pixr write d with the timebase and the named PIX field; trap
takes BREAK; slip and pixw take PRIV in user mode and ILLEGAL on a value out of range (pixw on the AP also for a field
other than COPY), pixw waits for its engine, slip, with nothing changed, for the occupancy; fence on the AP waits for
its outstanding loads, at device or system scope writes back its die's cache, and waits while a lost write of its die
is not yet poison at home; halt takes PRIV in user mode, waits as end does, and stops the sides of the heat as halted,
its engines going on, with its pc past the halt. A poisoned source takes POISON first. (R20; R27; R207; R208; R226;
R227; R228; R230; R231; section "Traps and system control") -/
def Obligations.SyncScalarWords : Prop :=
  ∀ (s : State) (d a e n sc : Nat), Safety.syncFree false [d, a] s → e < 4 →
    let v := (s.rd a).toNat
    let sys := s.sysMode s.cur.core = true
    let priv := Safety.traps (trapAt .priv) s
    let ill := Safety.traps (trapAt .illegal) s
    exec .nop s = .next (finish s) ∧
    exec (.tsr d) s = .next (finish (s.put d (s.die (dieOf s.cur.core)).tb)) ∧
    exec (.pixr d e) s = .next (finish (s.put d (BitVec.ofNat 64 (pixField s.me e % 2 ^ 16)))) ∧
    exec (.trap n) s = Safety.traps (trapAt .brk) s ∧
    exec (.slip a) s = Safety.synced [a] s (
      if ¬ sys then priv else if v = 0 ∨ 32 < v then ill
      else .next (if s.me.vq.length + s.me.mq.length + s.me.fq.length ≤ v then
          finish (s.modMe (fun k => { k with slip := BitVec.ofNat 6 v }))
        else s)) ∧
    ((s.cur.side = .xp → s.me.unfinished = []) →
      exec (.pixw a e) s = Safety.synced [a] s (
        if ¬ sys then priv else if (s.cur.side = .ap ∧ e ≠ 3) ∨ 2 ^ 16 ≤ v then ill
        else .next (if pixIdle s.me e = true then finish (s.modMe (fun k => setPixField k e v)) else s)) ∧
      exec (.fence sc) s = .next (
        let u := if sc < 3 then s else flushDie (dieOf s.cur.core) s
        if s.cur.side = .xp then finish s else if s.me.lds ≠ [] then s
        else if u.owes (dieOf s.cur.core) = true then u else finish u) ∧
      (¬ sys → exec .halt s = priv) ∧
      (sys → endWaits s = true → exec .halt s = .next s) ∧
      (sys → endWaits s = false →
        ∃ t, exec .halt s = .next t ∧ (∃ g, t.heatOf s.cur.core = some g ∧ g.st = .halted) ∧
          t.live s.cur.core = false ∧ t.unitsLive s.cur.core = true ∧
          t.mySide.pc = (finish s).mySide.pc ∧ t.mem = s.mem))

/-- A spawn on either side, when nothing holds it back: the first of ALIGN_ISSUE, DIE_ABSENT, OWNER and CONT_FULL that
applies, else the target's lowest free record (which free record is taken is the model's choice, log 98) holds the new
task (RESUME a, MASK 2, the 64 bits of d as register 1, the TASK number the target side allocates next), is the last
of its task queue, and the spawning task continues; toward the other die its own die's cache is released first. The
AP's speculative loads return before, and no lost write of its die is to come. An end waits while a record of the AP's
task has not retired, and else ends the task; in a fault task it stops the heat. An idle side of a running heat, no
delivery due to it, starts its oldest record: the record's registers, DREG and TASK are loaded, loops emptied, the pc
at RESUME with the landing check due, the record freed. (R209; R210; R211; R212; R224; R294; R319; R321) -/
def Obligations.TasksSpawnedEndedAndStarted : Prop :=
  ∀ (s : State) (d a b : Nat),
    (Safety.syncFree true [d, a, b] s → ∀ h, s.heatOf s.cur.core = some h →
      let entry := s.rd a
      let c := (s.rd b).toNat
      let trap := fun t => Safety.synced [d, a, b] s (Safety.traps t s)
      let spawned := fun (i : Instr) (sd : Side) =>
        (entry.toNat % 4 ≠ 0 → exec i s = trap (trapOn .alignIssue entry)) ∧
        (entry.toNat % 4 = 0 → c < 192 → s.form.hasDie (dieOf c) = false → exec i s = trap (trapAt .dieAbsent)) ∧
        (entry.toNat % 4 = 0 → (192 ≤ c ∨ (s.form.hasDie (dieOf c) = true ∧ h.hr.has c = false)) →
          exec i s = trap (trapAt .owner)) ∧
        (entry.toNat % 4 = 0 → c < 192 → s.form.hasDie (dieOf c) = true → h.hr.has c = true →
          (freeRec (s.core c) = none → exec i s = trap (trapAt .contFull)) ∧
          (∀ r, freeRec (s.core c) = some r → Safety.loadsDone s → ∃ t, exec i s = Safety.synced [d, a, b] s (.next (finish t)) ∧
            tfind (t.core c).pool r = some
              ⟨entry, 2, ((s.core c).side sd).next, none, .spawn, sd, 0, 0, 0, 0, [s.rd d], 0⟩ ∧
            ((t.core c).side sd).tq = ((s.core c).side sd).tq ++ [r] ∧
            ((t.core c).side sd).next = ((s.core c).side sd).next + 1 ∧ t.me.aregs = s.me.aregs ∧ t.me.xregs = s.me.xregs ∧
            (dieOf c ≠ dieOf s.cur.core → Safety.released (dieOf s.cur.core) t)))
      spawned (.spawnAp d a b) .ap ∧ spawned (.spawnXp d a b) .xp) ∧
    (Safety.syncFree true [] s →
      (endWaits s = true → exec .endTask s = .next s) ∧
      (endWaits s = false → s.mySide.frame = none →
        exec .endTask s = .next ((s.modMySide (fun x => { x with run := .idle })).act s.cur.core)) ∧
      (endWaits s = false → s.mySide.frame.isSome = true → (s.heatOf s.cur.core).isSome = true →
        ∃ t g, exec .endTask s = .next t ∧ t.heatOf s.cur.core = some g ∧ g.st = .stopped)) ∧
    (∀ (c : Nat) (sd : Side) (i : Nat) (q : List Nat) (r : ContRec), s.live c = true → deliveryDue s c sd = false →
      ((s.core c).side sd).run = .idle → ((s.core c).side sd).tq = i :: q → tfind (s.core c).pool i = some r → r.side = sd →
      (sd = .ap → (s.core c).ldsWaits (r.dreg :: maskList r.mask.toNat) = false) →
      ∃ t, exec (.taskStart c sd) s = .next t ∧ tfind (t.core c).pool i = none ∧
        (t.core c).side sd = { (s.core c).side sd with
          tq := q, run := .run, pc := r.resume, land := true, loops := [], task := r.task } ∧
        (r.dreg ≠ 0 → (t.core c).reg sd r.dreg = ⟨r.wvalue, false⟩) ∧
        (∀ j v, (j, v) ∈ (maskList r.mask.toNat).zip r.regs → j ≠ r.dreg → ((t.core c).reg sd j).val = v) ∧
        (∀ j, j ∉ maskList r.mask.toNat → j ≠ r.dreg → (t.core c).reg sd j = (s.core c).reg sd j))

/-- With nothing holding the word back and unpoisoned sources: wait with a count of 0 or an inadmissible mask takes
ILLEGAL; with no earlier waiter and COUNT at least the count it takes the count and writes d with FAULT + 2 OVER; else
it registers in its core's lowest free record (the model's choice, log 98), last on the semaphore's list. raise with a
count of 0 takes ILLEGAL, toward a core on an absent die DIE_ABSENT, outside the rectangle OWNER, and completes once
the AP's speculative loads have returned and no lost write of its die is to come: COUNT becomes min(COUNT + count,
65535), OVER set when clamped, FAULT unchanged, and every waiter that it covers is served, until neither the first
task waiter nor the head of a ring is covered. Where no head of a ring waits, the task waiters are served oldest
first, each waking with FAULT + 2 OVER (between a task and a ring's head the choice is free, log 19); where no task
waits, one head that is covered takes its count and its record runs, or is to be skipped when FAULT is set and RUNF is
not. Toward another die it first releases its die's cache. (R139; R209; R210; R214; R215; R224; R315) -/
def Obligations.SemaphoreWaitsAndRaises : Prop :=
  ∀ (s : State) (d a n cnt : Nat), Safety.syncFree true [a, d] s → Safety.clean [a] s →
    ∀ h, s.heatOf s.cur.core = some h →
    let x := s.me.sema n
    let m := s.rd a
    let c := if a = 0 then s.cur.core else m.toNat
    let v := BitVec.ofNat 64 (x.fault.toNat + 2 * x.overBit.toNat)
    let raised := ({ (s.core c).sema n with
      count := Nat.min (((s.core c).sema n).count + cnt) 65535
      overBit := ((s.core c).sema n).overBit || decide (65535 < ((s.core c).sema n).count + cnt) } : Sema)
    ((cnt = 0 ∨ maskOk m = false) → exec (.wait d a cnt n) s = Safety.traps (trapAt .illegal) s) ∧
    (cnt ≠ 0 → maskOk m = true →
      (x.waiters = [] → cnt ≤ x.count → exec (.wait d a cnt n) s =
        .next (finish ((s.modSema s.cur.core n (fun y => { y with count := y.count - cnt })).put d v))) ∧
      ((x.waiters ≠ [] ∨ x.count < cnt) → Safety.waits (exec (.wait d a cnt n) s) s .wait m d cnt (fun i t =>
        t.me.sema n = { x with waiters := x.waiters ++ [i] }))) ∧
    (cnt = 0 → exec (.raise a cnt n) s = Safety.traps (trapAt .illegal) s) ∧
    (cnt ≠ 0 → a ≠ 0 → c < 192 → s.form.hasDie (dieOf c) = false →
      exec (.raise a cnt n) s = Safety.traps (trapAt .dieAbsent) s) ∧
    (cnt ≠ 0 → a ≠ 0 → (192 ≤ c ∨ (s.form.hasDie (dieOf c) = true ∧ h.hr.has c = false)) →
      exec (.raise a cnt n) s = Safety.traps (trapAt .owner) s) ∧
    (cnt ≠ 0 → (a = 0 ∨ (c < 192 ∧ s.form.hasDie (dieOf c) = true ∧ h.hr.has c = true)) → Safety.loadsDone s →
      ∃ t, exec (.raise a cnt n) s = .next (finish t) ∧
        (∀ k, k ≠ n → (t.core c).sema k = (s.core c).sema k) ∧
        (dieOf c ≠ dieOf s.cur.core → Safety.released (dieOf s.cur.core) t) ∧
        headsOn (t.core c) n = [] ∧
        (∀ i l, ((t.core c).sema n).waiters = i :: l →
          ((t.core c).sema n).count < (tfind (t.core c).pool i).elim 0 (fun r => r.arg)) ∧
        (headsOn ((s.modSema c n (fun _ => raised)).core c) n = [] →
          let v := Safety.served (fun i => (tfind (s.core c).pool i).elim 0 (fun r => r.arg)) raised.waiters raised.count
          (t.core c).sema n = { raised with count := v.2.1, waiters := v.2.2 } ∧
          Safety.woken s t (BitVec.ofNat 64 (raised.fault.toNat + 2 * raised.overBit.toNat)) (v.1.map (fun i => (c, i)))) ∧
        (∀ r e, raised.waiters = [] → headsOn ((s.modSema c n (fun _ => raised)).core c) n = [r] →
          ((s.core c).ring r).head = some e →
          (t.core c).sema n = { raised with count := raised.count - rkAwaitN e.bytes } ∧ ((t.core c).ring r).st = .run ∧
          ((t.core c).ring r).skip = if rkRunf e.bytes = false ∧ raised.fault = true then some 0x19 else none))

/-- With nothing holding the word back and unpoisoned sources: fwait with an inadmissible mask takes ILLEGAL, whatever
the address; else, as fres and ffault do, it takes the fault of an address that names no future. fwait on a RESOLVED
word writes d with VALUE, on a FAULTED one with 2^63 + code; on an EMPTY or WAITING one the task registers, in its
core's lowest free record (the model's choice, log 98), with the old head as its link, and the word becomes WAITING
with the new head. ffault with a code of 0 takes ILLEGAL; fres and ffault on a RESOLVED or FAULTED word take
DOUBLE_RESOLVE (its FADDR, the future's address, is the model's choice, log 53) and change no memory; on an EMPTY or
WAITING word they complete, once the AP's speculative loads have returned and no lost write of its die is to come,
leaving it RESOLVED with b[31:0] or FAULTED with b[7:0], and every record of a WAITING list, from its head along the
links, gets its value and joins its side's task queue. Where the word or a record of the list lies on the other die,
the resolver's die is released first. (R209; R210; R216; R217; R218; R224; R315) -/
def Obligations.FuturesResolveOnceAndWake : Prop :=
  ∀ (s : State) (d a b : Nat), Safety.syncFree true [a, b, d] s → Safety.clean [a, b] s →
    let m := s.rd b
    let code := m.toNat % 256
    (maskOk m = false → exec (.fwait d a b) s = Safety.traps (trapAt .illegal) s) ∧
    (code = 0 → exec (.ffault a b) s = Safety.traps (trapAt .illegal) s) ∧
    (∀ t, futurePlace s (s.rd a) = .error t →
      (maskOk m = true → exec (.fwait d a b) s = Safety.traps t s) ∧ exec (.fres a b) s = Safety.traps t s ∧
      (code ≠ 0 → exec (.ffault a b) s = Safety.traps t s)) ∧
    (∀ p, futurePlace s (s.rd a) = .ok p →
      let w := bytesNat (memRead s.mem p.key 8)
      let st := w % 4
      let value := w / 2 ^ 32
      let head : Option (Nat × Nat) := if st = 1 then some (w / 2 ^ 24 % 256, w / 2 ^ 16 % 256) else none
      let far := s.homeDie p ≠ dieOf s.cur.core ∨ listCrosses (192 * 256) s head = true
      let resolves := fun (i : Instr) (nw : Nat) (v : Addr) =>
        (2 ≤ st → exec i s = Safety.traps (trapOn .doubleResolve (s.rd a)) s) ∧
        (st < 2 → Safety.loadsDone s → ∀ u, (far → u = flushDie (dieOf s.cur.core) s) → (¬ far → u = s) →
          ∃ t, exec i s = .next (finish t) ∧ t.mem = memWrite u.mem p.key (natBytes 8 nw) ∧
            (far → Safety.released (dieOf s.cur.core) t) ∧
            (bytesNat (memRead u.mem p.key 8) = w → (st = 0 → t.cores = s.cores) ∧
              ∀ l, Safety.listIs s head l → l.length ≤ 192 * 256 → Safety.woken s t v l))
      (maskOk m = true →
        (st = 2 → exec (.fwait d a b) s = .next (finish (s.put d (BitVec.ofNat 64 value)))) ∧
        (st = 3 → exec (.fwait d a b) s = .next (finish (s.put d (BitVec.ofNat 64 (2 ^ 63 + value % 256))))) ∧
        (st < 2 → Safety.waits (exec (.fwait d a b) s) s .fwait m d 0 (fun i t =>
          t.mem = memWrite s.mem p.key (natBytes 8 (1 + i * 2 ^ 16 + s.cur.core * 2 ^ 24)) ∧
            (tfind t.me.pool i).elim none (fun r => r.link) = head))) ∧
      resolves (.fres a b) (2 + m.toNat % 2 ^ 32 * 2 ^ 32) (BitVec.ofNat 64 (m.toNat % 2 ^ 32)) ∧
      (code ≠ 0 → resolves (.ffault a b) (3 + code * 2 ^ 32) (BitVec.ofNat 64 (2 ^ 63 + code))))

/-- With nothing holding the word back and an unpoisoned source: hbar.heat and hbar.wWhH (ILLEGAL for a subgroup not
wholly in the rectangle or an inadmissible mask) count the core's arrival at the group; when every other core of the
group has arrived as often the task continues and every task that waits at this arrival wakes, else it registers; a
group that spans both dies releases the core's die first, and the AP's speculative loads return, and lost writes of
the die become poison, before. barm with bits above 31 set takes ILLEGAL; else TARGET is set, ARMED is TARGET not 0,
ERR is 0, with .clr COUNT, LAST and PHASE are 0 first; below a whole TARGET, or disarmed, nothing completes. bwait at
its phase writes d with LAST and ERR in bit 63, else registers, last on the barrier's list. A task that registers
takes its core's lowest free record (the model's choice, log 98). (R209; R210; R220; R221; R222; R223; R224; section
"Barriers") -/
def Obligations.BarriersArriveArmAndWait : Prop :=
  ∀ (s : State) (d a h w b : Nat) (ph : Bool), Safety.syncFree true [a, d] s → Safety.clean [a] s → ∀ ht, s.heatOf s.cur.core = some ht →
    let me := s.cur.core
    let m := s.rd a
    let gx := ht.hr.x0 + (coreX me - ht.hr.x0) / 2 ^ w * 2 ^ w
    let gy := ht.hr.y0 + (coreY me - ht.hr.y0) / 2 ^ h * 2 ^ h
    let fits := gx + 2 ^ w ≤ ht.hr.x0 + ht.hr.w ∧ gy + 2 ^ h ≤ ht.hr.y0 + ht.hr.h
    let arrives := fun (i : Instr) (cores : List Nat) (shape : Nat) =>
      let n := tget s.mySide.hbars shape 0 + 1
      let last := ∀ c ∈ cores, c ≠ me → n ≤ tget ((s.core c).side s.cur.side).hbars shape 0
      let crosses := ∃ c ∈ cores, dieOf c ≠ dieOf me
      Safety.loadsDone s →
        (last → ∃ t, exec i s = .next (finish t) ∧ tget t.mySide.hbars shape 0 = n ∧ t.mySide.pc = s.mySide.pc ∧
          (crosses → Safety.released (dieOf me) t) ∧
          (∀ c ∈ cores, c ≠ me → ∀ j r, tfind (s.core c).pool j = some r → r.kind = .hbar → r.side = s.cur.side →
            r.arg = n * 64 + shape →
              tfind (t.core c).pool j = some { r with wvalue := 0 } ∧ j ∈ ((t.core c).side r.side).tq)) ∧
        (¬ last → Safety.waits (exec i s) s .hbar m 0 (n * 64 + shape) (fun _ t => tget t.mySide.hbars shape 0 = n ∧
          (crosses → Safety.released (dieOf me) t)))
    let x := s.me.bar b
    let armed := fun (clr : Bool) => ({ (if clr = true then { x with count := 0, last := 0, phase := false } else x) with
      target := m.setWidth 32, armed := decide (m ≠ 0), err := false } : StageBar)
    let arms := fun (i : Instr) (clr : Bool) =>
      (2 ^ 32 ≤ m.toNat → exec i s = Safety.traps (trapAt .illegal) s) ∧
      (m.toNat < 2 ^ 32 → ∃ t, exec i s = .next (finish t) ∧
        ((armed clr).waiters = [] → (m = 0 ∨ (armed clr).count < m.toNat) → t.me.bar b = armed clr))
    (maskOk m = true → arrives (.hbarHeat a) ht.hr.cores 0) ∧
    (maskOk m = true → fits → arrives (.hbarGroup a h w) (rectCores gx gy (2 ^ w) (2 ^ h)) (1 + 4 * w + h)) ∧
    ((¬ fits ∨ maskOk m = false) → exec (.hbarGroup a h w) s = Safety.traps (trapAt .illegal) s) ∧
    (maskOk m = false → exec (.hbarHeat a) s = Safety.traps (trapAt .illegal) s ∧
      exec (.bwait d a ph b) s = Safety.traps (trapAt .illegal) s) ∧
    arms (.barm a b) false ∧ arms (.barmClr a b) true ∧
    (maskOk m = true →
      (x.phase = ph → exec (.bwait d a ph b) s =
        .next (finish (s.put d (BitVec.ofNat 64 (x.last.toNat + x.err.toNat * 2 ^ 63))))) ∧
      (x.phase ≠ ph → Safety.waits (exec (.bwait d a ph b) s) s .bwait m d ph.toNat (fun i t =>
        t.me.bar b = { x with waiters := x.waiters ++ [i] })))

/-- With nothing holding the word back and unpoisoned sources: hand takes the first of ALIGN_ISSUE, XLATE (no region
entry), OWNER, DIE_ABSENT and OWNER of R225, waits while an AP load is outstanding, a lost write of its die is to
come, a record enqueued before the hand began has not retired or a sink has not drained the bytes committed before it,
and else makes core b the owner of that region alone. sys.xpage, sys.xctx (ILLEGAL for a[63:4] not 0), sys.rlc and
sys.tbsync take PRIV in user mode and else write d with 0: sys.xpage leaves no cached translation of the page that
holds the address, sys.xctx none of the context, sys.rlc both remote-line caches empty, sys.tbsync die B's timebase no
less than die S's and at most 4 ns ahead; while it is further ahead it runs at half rate and the word waits. (R225;
R229; R283; section "Traps and system control") -/
def Obligations.HandoverAndSystemWords : Prop :=
  ∀ (s : State) (d a b : Nat), Safety.syncFree false [a, b, d] s →
    (Safety.clean [a, b] s → ∀ h, s.heatOf s.cur.core = some h →
      let ea := s.rd a
      let c := (s.rd b).toNat
      let is := fun t => exec (.hand a b) s = Safety.traps t s
      (ea.toNat % 2 ^ 21 ≠ 0 → is (trapOn .alignIssue ea)) ∧
      (ea.toNat % 2 ^ 21 = 0 →
        ((∀ x v, s.place s.cur.core ea ≠ some (.glob x v)) → is (trapOn .xlate ea)) ∧
        (∀ x v, s.place s.cur.core ea = some (.glob x v) →
          (s.region x v = none → is (trapOn .xlate ea)) ∧
          (∀ r, s.region x v = some r →
            ((r.st ≠ .priv ∨ r.owner ≠ s.cur.core) → is (trapOn .owner ea)) ∧
            (r.st = .priv → r.owner = s.cur.core →
              (c < 192 → s.form.hasDie (dieOf c) = false → is (trapAt .dieAbsent)) ∧
              ((192 ≤ c ∨ (s.form.hasDie (dieOf c) = true ∧ h.hr.has c = false)) → is (trapAt .owner)) ∧
              (c < 192 → s.form.hasDie (dieOf c) = true → h.hr.has c = true →
                let begun := s.mySide.hand.getD
                  (s.me.order, (s.me.streams.filter (fun p => opSink p.2.openw)).map (fun p => (p.1, p.2.head)))
                let ready := s.me.lds = [] ∧ s.owes (dieOf s.cur.core) = false ∧
                  (∀ r < 4, ∀ e ∈ (s.me.ring r).recs, begun.1 ≤ e.2.order) ∧
                  (∀ g ∈ begun.2, ∀ st, tfind s.me.streams g.1 = some st → g.2 ≤ st.low)
                (¬ ready → exec (.hand a b) s = .next (s.modMySide (fun x => { x with hand := some begun }))) ∧
                (ready → ∃ t, exec (.hand a b) s = .next (finish t) ∧ t.mySide.hand = none ∧
                  (∃ r', t.region x v = some r' ∧ r'.st = .priv ∧ r'.owner = c) ∧
                  (∀ u, u / 2 ^ 21 ≠ v / 2 ^ 21 → t.region x u = s.region x u)))))))) ∧
    (Safety.clean [a] s →
      let done := fun t => Host.Outcome.next (finish (State.put t d 0))
      let user := s.sysMode s.cur.core = false
      let x := (s.die 0).tb
      let skew := ((s.die 1).tb - x).toInt
      let b := fun (f : Die → Die) => s.modDie 1 f
      let keeps := fun (t : State) => t.cores = s.cores ∧ t.mem = s.mem ∧ ∀ i, (t.die i).rlc = (s.die i).rlc
      (user → ∀ i ∈ [Instr.sysXpage d a, .sysXctx d a, .sysRlc d a, .sysTbsync d a], exec i s = Safety.traps (trapAt .priv) s) ∧
      (¬ user →
        (∃ t, exec (.sysXpage d a) s = done t ∧ keeps t ∧
          ∀ i < 2, (t.die i).tlb = (s.die i).tlb.filter (fun p => !p.holds (s.ctxOf s.cur.core) (s.rd a).toNat)) ∧
        (16 ≤ (s.rd a).toNat → exec (.sysXctx d a) s = Safety.traps (trapAt .illegal) s) ∧
        ((s.rd a).toNat < 16 → ∃ t, exec (.sysXctx d a) s = done t ∧ keeps t ∧
          ∀ i < 2, (t.die i).tlb = (s.die i).tlb.filter (fun p => p.ctx ≠ (s.rd a).toNat)) ∧
        (∃ t, exec (.sysRlc d a) s = done t ∧ (t.die 0).rlc = [] ∧ (t.die 1).rlc = [] ∧ t.cores = s.cores) ∧
        (s.form.hasDie 1 = false → exec (.sysTbsync d a) s = done s) ∧
        (s.form.hasDie 1 = true →
          (skew < 0 → exec (.sysTbsync d a) s = done (b (fun t => { t with tb := x }))) ∧
          (0 ≤ skew → skew ≤ 4 → exec (.sysTbsync d a) s = done (b (fun t => { t with slow := decide (0 < skew) }))) ∧
          (4 < skew → exec (.sysTbsync d a) s = .next (b (fun t => { t with slow := true }))))))

/-- For a heat whose units move, with every link in service. A MEM source in a walk whose window has room and whose
run, of LEN bytes, passes its checks takes it at HEAD: HEAD advances by LEN, the ring holds at those positions, under
the stream's swizzle, the bytes that the core's die sees in memory in that step (logs 9 and 95; those of an invariant
fetch, and of a run over which a moving sink has elements to write, are not said), their slots carry its TAG and are
FULL where whole, WALK_RUN advances, FILL is DONE after the last; a run whose check fails stops the walk with its
code, HEAD as it was. The oldest sld run commits first in the same way; one whose check fails commits poisoned, with a
delivery. A drainer that runs writes the whole elements in the smallest of the piece asked for, the committed bytes
and the rest of the run, to the run's address plus WALK_OFS: with nothing poisoned, and no element met early by a
reader (log 9), memory and caches are those of a write of the ring's bytes there, which its die then sees; RDPOS
advances by it, WALK_OFS or WALK_RUN with it; a failing piece stops the walk with RDPOS as it was. A full slot of a
paired sink of equal slot size moves when the peer's window has room: the peer's ring holds its bytes at HEAD, its
slot is FULL with the TAG and the poison of the one moved, the peer's HEAD and the sink's RDPOS advance by a slot.
(R105; R106; R116; R117; R118; R119; R123; R247; R261; section "Instructions") -/
def Obligations.StreamUnitsMove : Prop :=
  ∀ (s : State) (c n len : Nat) (st : Stream), s.unitsLive c = true → s.cur.link = none →
    s.bridge.reads.any (fun q => q.who == .filler c n) = false → tfind (s.core c).streams n = some st →
    let u := asSide c .ap s
    let ea := runAddr st.shape st.walkBase st.walkRun
    let l := shLen st.shape
    let rb := opRb st.openw
    let slot := opSlot st.openw
    let swz := opSwz st.openw
    let step := fun (i : Instr) (f : State → Prop) => ∃ t, exec i s = .next t ∧ f t
    let takes := fun (t : State) (inv : Bool) (a : Addr) (m : Nat) (x : Stream) => x.head = st.head + m ∧
      (m ≤ rb → inv = false → Safety.settled u c a m → Safety.readsAs u c a m (ringRead t c st swz st.head m)) ∧
      (st.head % slot + m ≤ rb → ∀ i, i < m → let b := x.slot (x.slotOf (st.head + i))
        b.tag = swz ∧ b.full = decide (((st.head + i) / slot + 1) * slot ≤ st.head + m))
    (∀ a m inv q, st.slds = (a, m, inv) :: q →
      (checkRange u c a m .load = none → step (.fillerCommit c n) (fun t => Safety.streamIs t c n (fun x =>
        takes t inv a m x ∧ x.slds = q ∧ x.walkRun = st.walkRun ∧ x.fill = st.fill))) ∧
      (∀ e x, checkRange u c a m .load = some (e, x) → step (.fillerCommit c n) (fun t =>
        Safety.streamIs t c n (fun y => y.head = st.head + m ∧ y.slds = q ∧ y.walkRun = st.walkRun ∧ y.fill = st.fill ∧
          ∀ i, i < m → (y.slot (y.slotOf (st.head + i))).poison = true) ∧
        ∃ d ∈ (t.core c).pending ++ (t.core c).held, d.w1.toNat % 256 = e.num ∧ d.w2 = x))) ∧
    (st.slds = [] → opKind st.openw = 0 → st.fill = .run → st.head + l ≤ st.low + rb →
      (checkRange u c ea l .load = none → step (.fillerCommit c n) (fun t =>
        Safety.streamIs t c n (fun x => takes t (shInv st.shape) ea l x ∧ x.walkRun = st.walkRun + 1 ∧
          x.fill = (if st.walkRun + 1 = shRuns st.shape then .done else .run)))) ∧
      (∀ e a, checkRange u c ea l .load = some (e, a) → step (.fillerCommit c n) (fun t => t.mem = s.mem ∧
        Safety.streamIs t c n (fun x =>
          x.head = st.head ∧ x.walkRun = st.walkRun ∧ x.fill = .stop ∧ x.err = BitVec.ofNat 8 e.num)))) ∧
    (∀ r, tfind st.readers 0 = some r → opKind st.openw = 8 → st.fill = .run → st.closed = false →
      let m := Nat.min len (Nat.min (st.head - r.rdpos) (l - st.walkOfs)) / 2 ^ shElem st.shape * 2 ^ shElem st.shape
      let at' := ea + BitVec.ofNat 64 st.walkOfs
      let bytes := ringRead s c st swz r.rdpos m
      let w := writeAt c at' bytes false .relaxed u
      0 < m →
        (checkRange u c at' m .store = none → step (.drainerWrite c n len) (fun t =>
          (st.early = [] → (∀ i, i < m → (st.slot (st.slotOf (r.rdpos + i))).poison = false) → ringBad s c st swz r.rdpos m = false →
            t.mem = w.mem ∧ t.dies = w.dies ∧ t.bad = w.bad ∧ ((s.place c at').isSome = true → Safety.seen t c at' m = bytes)) ∧
          Safety.streamIs t c n (fun x =>
            (tfind x.readers 0).map (fun y => y.rdpos) = some (r.rdpos + m) ∧ x.head = st.head ∧
            (st.walkOfs + m = l → x.walkRun = st.walkRun + 1 ∧ x.walkOfs = 0 ∧
              x.fill = (if st.walkRun + 1 = shRuns st.shape then .done else .run)) ∧
            (st.walkOfs + m ≠ l → x.walkRun = st.walkRun ∧ x.walkOfs = st.walkOfs + m ∧ x.fill = .run)))) ∧
        (∀ e a, checkRange u c at' m .store = some (e, a) → step (.drainerWrite c n len) (fun t => t.mem = s.mem ∧
          Safety.streamIs t c n (fun x => x.readers = st.readers ∧ x.walkOfs = st.walkOfs ∧ x.fill = .stop ∧
            x.err = BitVec.ofNat 8 e.num)))) ∧
    (let peer := opPeer st.openw
     ∀ r t, tfind st.readers 0 = some r → tfind (s.core peer).streams (opPeerPort st.openw) = some t →
      st.closed = false → opKind st.openw = 9 → opKind t.openw = 1 → opPeer t.openw = c →
      opPeerPort t.openw = n → peer ≠ c → st.err = 0 → t.fin = false → st.head ≠ r.rdpos →
      let b := st.slot (st.slotOf r.rdpos)
      b.full = true → opSlot t.openw = slot → slot ≤ opRb t.openw → t.head + slot ≤ t.low + opRb t.openw →
      step (.coreSlotTransfer c n) (fun v => ringRead v peer t 0 t.head slot = ringRead s c st 0 r.rdpos slot ∧
        Safety.streamIs v peer (opPeerPort st.openw) (fun x => x.head = t.head + slot ∧
          x.slot (x.slotOf t.head) = ⟨true, b.poison || ringBad s c st 0 r.rdpos slot, b.tag⟩) ∧
        Safety.streamIs v c n (fun x => (tfind x.readers 0).map (fun y => y.rdpos) = some (r.rdpos + slot))))

/-- For a heat whose units move, the head of a ring in WAIT that has been checked: with no await it begins; awaiting a
semaphore it begins when COUNT covers AWAIT_N, which is taken, and else changes nothing; awaiting a future it begins
once the word is RESOLVED or FAULTED; awaiting a stage barrier once its phase is AWAIT_N bit 0. A head that is to be
skipped retires. A head whose fault waited for room in the pending list (log 87), or that waited for lost writes of
its die to become poison, retires once no delivery of its ring is held and no such write is left. A QFENCE that runs
completes when every earlier record of the other named rings has retired and else waits; a SEMA with OP 0 completes,
with OP 1 after setting its semaphore to VAL with FAULT and OVER clear. (R139; R156; R157; R315; R317) -/
def Obligations.RingHeadsAwaitAndFence : Prop :=
  ∀ (s : State) (c r : Nat) (e : RecEntry), s.unitsLive c = true → ((s.core c).ring r).head = some e →
    let g := (s.core c).ring r
    let b := e.bytes
    let h := fun (t : State) => (t.core c).ring r
    let step := fun (f : State → Prop) => ∃ t, exec (.engineHeadStart c r) s = .next t ∧ f t
    let begins := step (fun t => (h t).st = .run ∧ (h t).rp = g.rp ∧ t.mem = s.mem)
    let waits := step (fun t => t.cores = s.cores ∧ t.mem = s.mem)
    (g.st = .wait → g.due = none → e.checked = true →
      (rkAwaitKind b = 0 → begins) ∧
      (rkAwaitKind b = 1 → let x := (s.core c).sema (rkAwait b)
        (rkAwaitN b ≤ x.count → step (fun t => (h t).st = .run ∧ (h t).rp = g.rp ∧
          ((t.core c).sema (rkAwait b)).count = x.count - rkAwaitN b ∧
          (h t).skip = (if x.fault = true ∧ rkRunf b = false then some 0x19 else none))) ∧
        (x.count < rkAwaitN b → waits)) ∧
      (rkAwaitKind b = 2 → ∀ p, s.place c (handleAddr (rkAwaitFut b)) = some p →
        let w := bytesNat (memRead s.mem p.key 8)
        (2 ≤ w % 4 → begins) ∧ (w % 4 < 2 → waits)) ∧
      (rkAwaitKind b = 3 → let ph := ((s.core c).bar (rkAwait b)).phase.toNat
        (ph = rkAwaitN b % 2 → begins) ∧ (ph ≠ rkAwaitN b % 2 → waits))) ∧
    (∀ x, g.st = .run → g.due = none → g.skip = some x → (s.core c).pending.length < 64 → s.owes (dieOf c) = false →
      s.cur.link = none → step (fun t => (h t).rp = g.rp + 1)) ∧
    (∀ d, g.due = some d → let held := (s.core c).held.any (fun y => y.source == 5 && y.ring == r)
      ((held = true ∨ s.owes (dieOf c) = true) → waits) ∧
      (held = false → s.owes (dieOf c) = false → s.cur.link = none → (d = .raised ∨ (s.core c).pending.length < 64) → step (fun t => (h t).rp = g.rp + 1))) ∧
    (Safety.chunkDue c r 10 0 b s →
      let named := fun (j : Nat) => j < 4 ∧ j ≠ r ∧ (recFld b 0x10 1).testBit j = true
      let done := ∀ j, named j → ∀ p ∈ ((s.core c).ring j).recs, e.order ≤ p.2.order
      (done → ∃ t, exec (.qfence c r) s = .next t ∧ Safety.chunkDone t s c r 0 1 0) ∧
      (¬ done → ∃ t, exec (.qfence c r) s = .next t ∧ t.cores = s.cores ∧ t.mem = s.mem)) ∧
    (Safety.chunkDue c r 11 0 b s →
      (recFld b 0x10 1 = 0 → ∃ t, exec (.semaSignal c r) s = .next t ∧ Safety.chunkDone t s c r 0 1 0) ∧
      (recFld b 0x10 1 = 1 → ∃ t, exec (.semaSet c r) s = .next t ∧ Safety.chunkDone t s c r 0 1 0 ∧
        (rkRaiseKind b = 0 → ((s.core c).sema (recFld b 0x11 1)).waiters = [] → headsOn
            ((s.modSema c (recFld b 0x11 1) (fun x => { x with count := recFld b 0x12 2 })).core c) (recFld b 0x11 1) = [] →
          (t.core c).sema (recFld b 0x11 1) = ⟨recFld b 0x12 2, false, false, []⟩)))

/-- For a head record that runs, with every link in service, and a chunk whose descriptor or indices can be read and
are not poisoned, whose spans pass the checks of R91 and whose source is not poisoned: the step answers a next state
in which the chunk is marked, or with it the record retired, and (when the record raises no future, which writes
memory too) the core's die sees at the destination the bytes it saw at the source: a run of the nest, PAT repeated for
FILL, a row with its pad for RAGGED, a row moved by its index for GATHER and SCATTER. (R141; R142; R146; R147; R148;
R149; section "Moving bytes") -/
def Obligations.RecordsMoveBytes : Prop :=
  ∀ (s : State) (c r k : Nat) (b : BitVec 512),
    let u := asSide c .ap s
    let moves := fun (i : Instr) (v : State) (src dst : Addr) (n : Nat) (pad : List Byte) (total : Nat) =>
      spanFault v c dst (n + pad.length) .store = none → spanFault v c src n .load = none →
        firstPoison src (readPieces (n / 16 + 2) c src n v).2 = none →
        let l := Safety.chunkRead v c src n
        Safety.readsAs v c src n l ∧
        ∃ t, exec i s = .next t ∧ Safety.chunkDone t s c r k total (n + pad.length) ∧
          (rkRaiseKind b ≠ 2 → Safety.devrelOk c b s → Safety.seen t c dst (n + pad.length) = l ++ pad)
    let src := BitVec.ofNat 64 (recFld b 0x10 8)
    let dst := BitVec.ofNat 64 (recFld b 0x18 8)
    let pat := fun (v n : Nat) => (List.range n).map (fun j => BitVec.ofNat 8 (v / 2 ^ (8 * (j % 8))))
    (Safety.chunkDue c r 1 k b s → rkDecode b = false → ∀ v l, headDesc c r b u = (v, .ok l) →
      let n := if l = [] then Nest.one else nestOf l
      k < n.runs → moves (.copy c r k) v (src + BitVec.ofInt 64 (runOfs k n.counts n.ss)) (dst + BitVec.ofInt 64 (runOfs k n.counts n.ds))
        (recFld b 0x28 4) [] n.runs) ∧
    (Safety.chunkDue c r 6 k b s → ∀ v l, headDesc c r b u = (v, .ok l) →
      let n := if l = [] then Nest.one else nestOf l
      k < n.runs →
      let a := src + BitVec.ofInt 64 (runOfs k n.counts n.ds)
      spanFault v c a (recFld b 0x20 4) .store = none →
        ∃ t, exec (.fill c r k) s = .next t ∧ Safety.chunkDone t s c r k n.runs (recFld b 0x20 4) ∧
          (rkRaiseKind b ≠ 2 → Safety.devrelOk c b s → Safety.seen t c a (recFld b 0x20 4) = pat (recFld b 0x28 8) (recFld b 0x20 4))) ∧
    (Safety.chunkDue c r 2 k b s → k < recFld b 0x28 4 → ∀ v o0 o1, raggedOfs c b k u = (v, .ok (o0, o1, [none, none])) →
      let width := recFld b 0x2C 4
      let n := Nat.min (o1 - o0) width
      moves (.ragged c r k) v (BitVec.ofNat 64 (recFld b 0x10 8 + o0)) (BitVec.ofNat 64 (recFld b 0x18 8 + k * recFld b 0x38 4)) n
        ((pat (recFld b 0x30 8) width).drop n) (recFld b 0x28 4)) ∧
    (∀ gather : Bool, Safety.chunkDue c r (if gather = true then 3 else 4) k b s → k < recFld b 0x28 4 →
      lowerRowsOk u c b ((s.core c).ring r) k = true →
      ∀ v o, readIdx c (BitVec.ofNat 64 (recFld b 0x20 8 + 4 * k)) u = (v, .ok (o, none)) → o % 2 ^ rkElem b = 0 →
      let row := recFld b 0x2C 4
      let pitch := if recFld b 0x30 4 = 0 then row else recFld b 0x30 4
      moves (if gather = true then .gather c r k else .scatter c r k) v
        (BitVec.ofNat 64 (recFld b 0x10 8 + (if gather = true then o else k * pitch)))
        (BitVec.ofNat 64 (recFld b 0x18 8 + (if gather = true then k * pitch else o))) row [] (recFld b 0x28 4))

/-- For a chunk of COPY, with DECODE too, FILL, RAGGED, GATHER, SCATTER, every ACCW operation or LANE.LOAD, a receiver
of NET that writes memory, and a step of a LANE.RUN: when the descriptor or an index cannot be read or is misaligned,
or the destination span, or, that passing, the source span or input, fails the checks of R91 or, for LANE.LOAD and
LANE.RUN, is poisoned, or a unit does not decode, the step answers a next state. When the code is repairable and
NOSTOP is 0, memory is as it was, the ring is stopped with FCODE the code, RP, CHUNK and MARKS kept, and a delivery
with the code and the failing address waits at the core. Otherwise, with room in the pending list and no lost write of
the die to come, the record has retired, and memory is as it was unless the record raises a future or releases its
die's cache. Of two failing spans the destination's is the one reported, as R142 names it first. (R91; R134; R140;
R142; R143; R146; R147; R148; R149; R150; R153; R154) -/
def Obligations.ChunksStopOnRepairableFaults : Prop :=
  ∀ (s : State) (c r k : Nat) (b : BitVec 512),
    let u := asSide c .ap s
    let g := (s.core c).ring r
    let fails := fun (i : Instr) (f : CFault) => ∃ t, exec i s = .next t ∧
      let h := (t.core c).ring r
      (f.code ∈ [Code.xlate, .perm, .owner] → rkNostop b = false →
        t.mem = s.mem ∧ h.st = .stop ∧ h.fcode = BitVec.ofNat 8 f.code.num ∧ h.rp = g.rp ∧ h.chunk = g.chunk ∧ h.marks = g.marks ∧
          ∃ d ∈ (t.core c).pending ++ (t.core c).held, d.w1.toNat % 256 = f.code.num ∧ d.w2 = f.addr) ∧
      ((f.code ∉ [Code.xlate, .perm, .owner] ∨ rkNostop b = true) → (s.core c).pending.length < 63 → s.owes (dieOf c) = false →
        h.rp = g.rp + 1 ∧ (rkRaiseKind b ≠ 2 → rkDevrel b = false → t.mem = s.mem))
    let spans := fun (i : Instr) (v : State) (dst : Addr) (m : Nat) (src : Addr) (n : Nat) => ∀ f,
      (spanFault v c dst m .store = some f ∨ (spanFault v c dst m .store = none ∧ spanFault v c src n .load = some f)) → fails i f
    let ops : List (Instr × Nat) := [(.accwAdd c r k, 0), (.accwAdds c r k, 1), (.accwFadd c r k, 2), (.accwXadd c r k, 3),
      (.accwOr c r k, 4), (.accwAnd c r k, 5), (.accwXor c r k, 6), (.accwMin c r k, 7), (.accwMax c r k, 8), (.accwFmin c r k, 9),
      (.accwFmax c r k, 10), (.accwSwap c r k, 11), (.accwCas c r k, 12)]
    (Safety.chunkDue c r 1 k b s → rkDecode b = false →
      (∀ v f, headDesc c r b u = (v, .error f) → fails (.copy c r k) f) ∧
      ∀ v l, headDesc c r b u = (v, .ok l) →
        let n := if l = [] then Nest.one else nestOf l
        k < n.runs → spans (.copy c r k) v (BitVec.ofNat 64 (recFld b 0x18 8) + BitVec.ofInt 64 (runOfs k n.counts n.ds)) (recFld b 0x28 4)
          (BitVec.ofNat 64 (recFld b 0x10 8) + BitVec.ofInt 64 (runOfs k n.counts n.ss)) (recFld b 0x28 4)) ∧
    (Safety.chunkDue c r 6 k b s →
      (∀ v f, headDesc c r b u = (v, .error f) → fails (.fill c r k) f) ∧
      ∀ v l, headDesc c r b u = (v, .ok l) →
        let n := if l = [] then Nest.one else nestOf l
        k < n.runs → ∀ f, spanFault v c (BitVec.ofNat 64 (recFld b 0x10 8) + BitVec.ofInt 64 (runOfs k n.counts n.ds)) (recFld b 0x20 4) .store =
          some f → fails (.fill c r k) f) ∧
    (Safety.chunkDue c r 2 k b s → k < recFld b 0x28 4 →
      (∀ v f, raggedOfs c b k u = (v, .error f) → fails (.ragged c r k) f) ∧
      ∀ v o0 o1 bad, raggedOfs c b k u = (v, .ok (o0, o1, bad)) →
        spans (.ragged c r k) v (BitVec.ofNat 64 (recFld b 0x18 8 + k * recFld b 0x38 4)) (recFld b 0x2C 4)
          (BitVec.ofNat 64 (recFld b 0x10 8 + o0)) (Nat.min (o1 - o0) (recFld b 0x2C 4))) ∧
    (∀ gather : Bool, Safety.chunkDue c r (if gather = true then 3 else 4) k b s → k < recFld b 0x28 4 → lowerRowsOk u c b g k = true →
      let i := if gather = true then Instr.gather c r k else .scatter c r k
      let ia := BitVec.ofNat 64 (recFld b 0x20 8 + 4 * k)
      let row := recFld b 0x2C 4
      let pitch := if recFld b 0x30 4 = 0 then row else recFld b 0x30 4
      (∀ v f, readIdx c ia u = (v, .error f) → fails i f) ∧
      ∀ v o bad, readIdx c ia u = (v, .ok (o, bad)) →
        (o % 2 ^ rkElem b ≠ 0 → k = g.chunk → fails i ⟨.alignAccess, ia, k, false⟩) ∧
        (o % 2 ^ rkElem b = 0 → spans i v (BitVec.ofNat 64 (recFld b 0x18 8 + (if gather = true then k * pitch else o))) row
          (BitVec.ofNat 64 (recFld b 0x10 8 + (if gather = true then o else k * pitch))) row)) ∧
    (∀ p ∈ ops, Safety.chunkDue c r 5 k b s → recFld b 0x2C 1 = p.2 → 16 * k < recFld b 0x28 4 →
      let ks := (List.range (Nat.min 16 (recFld b 0x28 4 - 16 * k))).map (fun i => 16 * k + i)
      (∀ v f, elemsOf c b u ks = (v, .error f) → fails p.1 f) ∧
      ∀ v l, elemsOf c b u ks = (v, .ok l) → ∀ f, firstSpan v c (accwSpans b (l.map (fun q => q.1))) = some f → fails p.1 f) ∧
    (Safety.chunkDue c r 7 k b s → 4096 * k < recFld b 0x20 4 → laneTurn u (recFld b 0x10 1) c r = true →
      let n := Nat.min 4096 (recFld b 0x20 4 - 4096 * k)
      let src := BitVec.ofNat 64 (recFld b 0x18 8 + 4096 * k)
      (∀ f, spanFault u c src n .load = some f → fails (.laneLoad c r k) f) ∧
      (spanFault u c src n .load = none → ∀ a, firstPoison src (readPieces (n / 16 + 2) c src n u).2 = some a →
        fails (.laneLoad c r k) ⟨.poison, a, noIndex, true⟩)) ∧
    (Safety.chunkDue c r 1 k b s → rkDecode b = true → 4096 * (k + 1) ≤ recFld b 0x28 4 → g.held = false → k = g.chunk →
      let src := BitVec.ofNat 64 (recFld b 0x10 8 + 4096 * k)
      let dst := BitVec.ofNat 64 (recFld b 0x18 8 + 4096 * k)
      (∀ x, unitLane u c src = some x → laneTurn u x c r = true) →
      let w := match unitLane u c src with
        | some x => laneTake1 x c r u
        | none => u
      (∀ f, (spanFault w c dst 4096 .store = some f ∨ (spanFault w c dst 4096 .store = none ∧ unitFault91 w c src = some f)) →
        fails (.copyDecode c r k) f) ∧
      (spanFault w c dst 4096 .store = none → unitFault91 w c src = none → ∀ v f, unitBytes c src w = (v, .error f) →
        fails (.copyDecode c r k) f)) ∧
    (∀ lane y, (s.lane lane).run = some y → y.core = c → y.ring = r → Safety.chunkDue c r 8 g.chunk b s → y.quiet < 1024 →
      ∀ n st, laneStream u y.dcore y.dport lane = some (n, st) → st.holder = some (c, r) →
      let z := laneStepOn (fun w => (tget (s.lane lane).table w 0).toNat) (laneInput u lane y) y
      let hi := Nat.min z.hi (8 * y.inlen)
      let m := Nat.min (Nat.min (if y.copy = .input then 16 else Nat.min 16 y.dist.toNat) (laneRoom st y)) y.len.toNat
      let last := if y.copy = .none then (if hi ≤ y.pos then 0 else (hi + 7) / 8) else y.pos / 8 + if y.copy = .input then m else 0
      ∀ f, inputFault u lane y (y.pos / 8) last = some f → fails (.laneStep lane) f) ∧
    (∀ die j, (s.die die).net = some j → j.core = c → j.ring = r → Safety.chunkDue c r 9 k b s → k < recFld b 0x1C 4 →
      let d := g.desc.getD []
      let w := ((netCrews d).filter (fun x => (s.crew x).holder == 4)).foldl (fun z x => netTurn die x z) u
      fieldAt d 0x30 8 ≠ 0 → ∀ f,
        spanFault w c (BitVec.ofNat 64 (fieldAt d 0x30 8 + fieldAt d 0x40 4 * (recFld b 0x18 4 + k))) (4 * netOut d) .store = some f →
        fails (.netReceiverDone die k) f)

/-- For each of the thirteen ACCW operations, with every link in service and a chunk whose indices can be read and
whose spans pass: the step applies the chunk's elements in increasing number, EXC takes in their flags, and the chunk
is marked or with it the record retired. One element without sideband, nothing poisoned: the home of its destination
holds the operation's result on the old value and the operand (sum wrapped or clamped, f32 sum, bitwise or, and, xor,
least, greatest, float least and greatest, the operand, the swap operand where the old value equals the compare
operand), and its fetch word the old value. (R141; R150; R151; R152; R281; section "Accumulating at memory ports") -/
def Obligations.RecordsAccumulate : Prop :=
  ∀ (s : State) (c r k : Nat) (b : BitVec 512),
    let ops : List (Instr × Nat) := [(.accwAdd c r k, 0), (.accwAdds c r k, 1), (.accwFadd c r k, 2), (.accwXadd c r k, 3),
      (.accwOr c r k, 4), (.accwAnd c r k, 5), (.accwXor c r k, 6), (.accwMin c r k, 7), (.accwMax c r k, 8), (.accwFmin c r k, 9),
      (.accwFmax c r k, 10), (.accwSwap c r k, 11), (.accwCas c r k, 12)]
    let n := recFld b 0x28 4
    (∀ p ∈ ops, Safety.chunkDue c r 5 k b s → recFld b 0x2C 1 = p.2 → 16 * k < n →
      ∀ v l, elemsOf c b (asSide c .ap s) ((List.range (Nat.min 16 (n - 16 * k))).map (fun i => 16 * k + i)) = (v, .ok l) →
      firstSpan v c (accwSpans b (l.map (fun q => q.1))) = none →
      let x := applyElems c r b v l
      ∃ t, exec p.1 s = .next t ∧ ((∀ o ∈ x.2.2, o = none) → Safety.chunkDone t s c r k ((n + 15) / 16) 0) ∧
        (((t.core c).ring r).rp = ((s.core c).ring r).rp → ((t.core c).ring r).exc = ((s.core c).ring r).exc ||| BitVec.ofNat 6 x.2.1) ∧
        (rkRaiseKind b ≠ 2 → rkDevrel b = false → t.mem = x.1.mem)) ∧
    (∀ (e : Elem) (p : Place), s.cur.link = none → e.side = none → s.place c e.dst = some p →
      let ty := recFld b 0x2D 1
      let w := etBits ty
      let de := accwDe b
      let x := readAt s c e.src (accwSs b) .relaxed
      let y := readHome x.1 c e.dst de
      let m := bytesNat y.2.bytes
      let v := bytesNat x.2.bytes
      let new := fun (op : Nat) => match op with
        | 0 => (m + v) % 2 ^ w
        | 1 => (clampInt ty (etInt ty m + etInt ty v)).v
        | 2 => (fpAdd fmtF 0 m v).v
        | 4 => m ||| v
        | 5 => m &&& v
        | 6 => m ^^^ v
        | 7 => if etInt ty v < etInt ty m then v else m
        | 8 => if etInt ty m < etInt ty v then v else m
        | 9 => (fpMinMax (etFmt ty) false false m v).v
        | 10 => (fpMinMax (etFmt ty) true false m v).v
        | 11 => v
        | _ => if m = v % 2 ^ w then v / 2 ^ w else m
      x.2.poison = false → y.2.poison = false →
        let t := (applyElem c r b e false s).1
        (e.fetch = none → memRead t.mem p.key de = natBytes de (new (recFld b 0x2C 1))) ∧
        (∀ a, e.fetch = some a → (s.place c a).isSome = true → Safety.seen t c a de = y.2.bytes))

/-- With every link in service: a LANE.LOAD chunk whose lane is free, with a readable unpoisoned source, puts the
source's words into the table store and is done. A LANE.RUN whose stream and lane are free becomes the lane's run,
from the first input byte in state START (mod 2^14: log 47); a stream with END set is none to take (log 100). A
LANE_STEP of a run that meets no fault and has room, and whose stream is the one it took, puts into the stream's ring
at HEAD, and commits, exactly the bytes of the transducer's step, or those of a copy burst (the next input bytes, or
those DIST back in the output), without those that a replay drops. After 1,024 quiet steps LANE_LOOP_LIMIT ends the
run, its record faulted DECODE with INDEX LOOP. A COPY chunk with DECODE whose lane is free and whose unit decodes
lands the 4 KiB and is done; a unit held while its destination does not translate stops the ring and is kept. (R153;
R154; R335; R342; R346; R352; R354; section "The lane machine") -/
def Obligations.LanesRunAndDecode : Prop :=
  ∀ (s : State) (c r k lane : Nat) (b : BitVec 512),
    let u := asSide c .ap s
    let g := (s.core c).ring r
    (Safety.chunkDue c r 7 k b s → recFld b 0x10 1 = lane → 4096 * k < recFld b 0x20 4 → laneTurn u lane c r = true →
      let n := Nat.min 4096 (recFld b 0x20 4 - 4096 * k)
      let src := BitVec.ofNat 64 (recFld b 0x18 8 + 4096 * k)
      spanFault u c src n .load = none → firstPoison src (readPieces (n / 16 + 2) c src n u).2 = none →
      let l := Safety.chunkRead u c src n
      Safety.readsAs u c src n l ∧ ∃ t, exec (.laneLoad c r k) s = .next t ∧ Safety.chunkDone t s c r k ((recFld b 0x20 4 + 4095) / 4096) 0 ∧
        ∀ j, j < n / 4 → tget (t.lane lane).table ((recFld b 0x24 4 + 4096 * k) / 4 + j) 0 =
          BitVec.ofNat 32 (bytesNat ((l.drop (4 * j)).take 4))) ∧
    (Safety.chunkDue c r 8 g.chunk b s → recFld b 0x10 1 = lane → (s.lane lane).run = none → laneTurn u lane c r = true →
      ∀ n st, laneStream u (recFld b 0x14 2) (recFld b 0x16 1) lane = some (n, st) → streamTurn u st c r = true →
      ∃ t y, exec (.laneRun c r) s = .next t ∧ (t.lane lane).run = some y ∧ y.core = c ∧ y.ring = r ∧
        y.src = BitVec.ofNat 64 (recFld b 0x18 8) ∧ y.inlen = recFld b 0x20 8 ∧ y.state = recFld b 0x12 2 % 2 ^ 14 ∧ y.pos = 0 ∧ y.out = 0 ∧
        y.drop = g.chunk ∧
        Safety.streamIs t (recFld b 0x14 2) n (fun x => x.holder = some (c, r) ∧ x.head = st.head)) ∧
    (∀ y, (s.lane lane).run = some y → runServed s y = true →
      let v := asSide y.core .ap s
      (y.quiet < 1024 → s.cur.link = none → ∀ n st, laneStream v y.dcore y.dport lane = some (n, st) → st.holder = some (y.core, y.ring) →
        let z := laneStepOn (fun w => (tget (s.lane lane).table w 0).toNat) (laneInput v lane y) y
        let hi := Nat.min z.hi (8 * y.inlen)
        let fresh := fun (l : List Byte) => l.drop (y.drop - y.out)
        let puts := fun (t : State) (l : List Byte) => Safety.streamIs t y.dcore n (fun x => x.head = st.head + (fresh l).length ∧
          ((fresh l).length ≤ opRb st.openw → ringRead t y.dcore st (opSwz st.openw) st.head (fresh l).length = fresh l))
        (y.copy = .none → inputFault v lane y (y.pos / 8) (if hi ≤ y.pos then 0 else (hi + 7) / 8) = none → z.emit.length ≤ laneRoom st y → z.stop = none →
          ∃ t y', exec (.laneStep lane) s = .next t ∧ (t.lane lane).run = some y' ∧ y'.out = y.out + z.emit.length ∧
            y'.pos = z.run.pos ∧ y'.state = z.run.state ∧ puts t z.emit) ∧
        (y.copy ≠ .none →
          let m := Nat.min (Nat.min (if y.copy = .input then 16 else Nat.min 16 y.dist.toNat) (laneRoom st y)) y.len.toNat
          let byte := fun (i : Nat) =>
            if y.copy = .input then (laneByte v lane y (y.pos / 8 + i)).bytes.headD 0 else y.win.getD (y.dist.toNat - 1 - i) 0
          (y.copy = .input ∨ y.dist.toNat ≤ 65536) → inputFault v lane y (y.pos / 8) (y.pos / 8 + if y.copy = .input then m else 0) = none →
          ∃ t y', exec (.laneStep lane) s = .next t ∧ (t.lane lane).run = some y' ∧ y'.out = y.out + m ∧
            y'.pos = (if y.copy = .input then y.pos + 8 * m else y.pos) ∧ puts t ((List.range m).map byte))) ∧
      (1024 ≤ y.quiet → ((s.core y.core).ring y.ring).head.isSome = true →
        let b := headBytes ((s.core y.core).ring y.ring)
        rkKind b = 8 → rkRaiseKind b ≠ 2 → (s.core y.core).pending.length < 64 → s.owes (dieOf y.core) = false → s.cur.link = none →
        ∃ t, exec (.laneLoopLimit lane) s = .next t ∧ (t.lane lane).run = none ∧
          let h := (t.core y.core).ring y.ring
          h.rp = ((s.core y.core).ring y.ring).rp + 1 ∧ recFld h.fault 0 1 = 0x11 ∧ recFld h.fault 12 4 = 11 ∧
          ∀ n st, laneStream s y.dcore y.dport lane = some (n, st) → st.holder = some (y.core, y.ring) →
            Safety.streamIs t y.dcore n (fun x => x.fin = true ∧ x.err = 0x11))) ∧
    (Safety.chunkDue c r 1 k b s → rkDecode b = true → 4096 * (k + 1) ≤ recFld b 0x28 4 → ((s.core c).ring r).held = false →
      s.cur.steps ≠ 0 →
      let src := BitVec.ofNat 64 (recFld b 0x10 8 + 4096 * k)
      let dst := BitVec.ofNat 64 (recFld b 0x18 8 + 4096 * k)
      (∀ x, unitLane u c src = some x → laneTurn u x c r = true) →
      let w := match unitLane u c src with
        | some x => laneTake1 x c r u
        | none => u
      spanFault w c dst 4096 .store = none → unitFault91 w c src = none →
      ∀ v ps, unitBytes c src w = (v, .ok (ps, none)) → (∀ p ∈ ps, p.2 = false) → (ps.flatMap (fun p => p.1)).length = 4096 →
      ∃ t, exec (.copyDecode c r k) s = .next t ∧ Safety.chunkDone t s c r k (recFld b 0x28 4 / 4096) 4096 ∧
        (rkRaiseKind b ≠ 2 → Safety.devrelOk c b s → (v.place c dst).isSome = true →
          Safety.seen t c dst 4096 = ps.flatMap (fun p => p.1))) ∧
    (Safety.chunkDue c r 1 g.chunk b s → rkDecode b = true → g.chunk < recFld b 0x28 4 / 4096 → g.held = true → rkNostop b = false →
      ∀ f, spanFault u c (BitVec.ofNat 64 (recFld b 0x18 8 + 4096 * g.chunk)) 4096 .store = some f →
      ∃ t, exec (.copyDecode c r g.chunk) s = .next t ∧ t.mem = s.mem ∧ (t.core c).hold = (s.core c).hold ∧
        let h := (t.core c).ring r
        h.st = .stop ∧ h.fcode = BitVec.ofNat 8 f.code.num ∧ h.held = true ∧ h.rp = g.rp)

/-- With every link in service: the head NET record of a ring whose die's engine is free and not asked for by an
earlier one, its descriptor readable, becomes the engine's record, and every crew that its rows can use next is held
or requested. A receiver whose reads pass, and every edge of which has come through the layers by the array words of
this step, writes its aggregate row to AGG + APITCH x v, or puts it, padded with zeros to APITCH, into the ring of its
port at HEAD in turn and commits it, and is done. How far the array words of a step go, and when the seat changes, is
the model's choice (log 37). The seat that the engine holds is given up when no row needs it, or when its sixteenth
word has completed and a core requests it. RLC_WRITEBACK writes a dirty line home and keeps it clean; RLC_INVALIDATE
with the bridge up drops a clean copy and keeps a dirty one. (R255; R272; R359; R365; R366; R367; section "The sum and
the rows it writes") -/
def Obligations.NettingAndRemoteLines : Prop :=
  ∀ (s : State) (c r k die ctx line crew : Nat) (b : BitVec 512), s.cur.link = none →
    let u := asSide c .ap s
    let g := (s.core c).ring r
    (Safety.chunkDue c r 9 g.chunk b s → g.chunk < recFld b 0x1C 4 → (s.die (dieOf c)).net = none → ((s.die (dieOf c)).netq.head?.all (fun y => y == (c, r))) = true →
      ∀ v d, headDesc c r b u = (v, .ok d) → (fieldAt d 0x30 8 ≠ 0 ∨ (netStream v d).isSome = true) →
      ∃ t, exec (.net c r) s = .next t ∧ (t.die (dieOf c)).net = some ⟨c, r, [], []⟩ ∧ (c, r) ∉ (t.die (dieOf c)).netq ∧
        ∀ x ∈ netCrews d, (crewGoals t ⟨c, r, [], []⟩ x).isEmpty = false → (t.crew x).holder = 4 ∨ 4 ∈ (t.crew x).reqs) ∧
    (∀ j, (s.die die).net = some j → j.core = c → j.ring = r → Safety.chunkDue c r 9 k b s → k < recFld b 0x1C 4 →
      let v := recFld b 0x18 4 + k
      let total := recFld b 0x1C 4
      let d := g.desc.getD []
      let w := ((netCrews d).filter (fun x => (s.crew x).holder == 4)).foldl (fun z x => netTurn die x z) u
      ∀ i s1 es s2 row, (w.die die).net = some i → edgesOf c d v w = (s1, .ok (es, [])) →
        es.all (fun e => rowDone d (i.row e)) = true → aggregate c d v es s1 = (s2, .ok (row, [])) →
        let bytes := row.flatMap (natBytes 4)
        let agg := fieldAt d 0x30 8
        let pitch := fieldAt d 0x40 4
        let a := BitVec.ofNat 64 (agg + pitch * v)
        (agg ≠ 0 → spanFault w c a (4 * netOut d) .store = none → row.length = netOut d →
          ∃ t, exec (.netReceiverDone die k) s = .next t ∧ Safety.chunkDone t s c r k total bytes.length ∧
            (rkRaiseKind b ≠ 2 → Safety.devrelOk c b s → (s2.place c a).isSome = true → Safety.seen t c a bytes.length = bytes)) ∧
        (agg = 0 → ∀ n st, netStream s2 d = some (n, st) → g.chunk = k → st.head + pitch ≤ st.low + opRb st.openw →
          bytes.length ≤ pitch →
          ∃ t, exec (.netReceiverDone die k) s = .next t ∧ Safety.chunkDone t s c r k total pitch ∧
            (pitch ≤ opRb st.openw → rkRaiseKind b ≠ 2 → Safety.devrelOk c b s →
              ringRead t (fieldAt d 0x4A 2) st (opSwz st.openw) st.head pitch = bytes ++ List.replicate (pitch - bytes.length) 0) ∧
            Safety.streamIs t (fieldAt d 0x4A 2) n (fun x => x.head = st.head + pitch))) ∧
    ((s.crew crew).holder = 4 → crewDie crew = die →
      let w := finishReceivers die (netWords 16 die crew s)
      let needs := (w.die die).net.any (fun j => netNeeds w j crew)
      (w.crew crew).holder = 4 → ∃ t, exec (.netSeatRelease die crew) s = .next t ∧ t.cores = w.cores ∧ t.mem = w.mem ∧
        (needs = false → (t.crew crew).holder = 7) ∧
        (needs = true → (w.crew crew).netStint = 0 → (w.crew crew).reqs ≠ [] → (t.crew crew).holder = 7 ∧ 4 ∈ (t.crew crew).reqs) ∧
        (needs = true → (w.crew crew).netStint = 0 → (w.crew crew).reqs = [] →
          (t.crew crew).holder = 4 ∧ (t.crew crew).netStint = 16) ∧
        (needs = true → (w.crew crew).netStint ≠ 0 → t.crew crew = w.crew crew)) ∧
    (∀ l, (s.die die).line ctx line = some l → l.ctx = ctx → l.line = line →
      (l.dirty = true → ∃ t, exec (.rlcWriteback die ctx line) s = .next t ∧
        (t.die die).line ctx line = some { l with dirty := false } ∧
        memRead t.mem (globKey ctx (line * 64)) 64 = bvBytes 64 l.data) ∧
      ((s.die die).invs.contains (ctx, line) = true → s.bridgeDown = false →
        ∃ t, exec (.rlcInvalidate die ctx line) s = .next t ∧ t.mem = s.mem ∧
          (t.die die).line ctx line = (if l.dirty = true then some l else none) ∧ (t.die die).invs.contains (ctx, line) = false))

/-- When the unit that moves takes a fault: FADDR of its side is the address the fault concerns, else that of the
faulting word, FCODE its code, the queue number and DEFERRED with every other bit 0, the side stops before the word
with its pc, loops and tasks as they were, and the delivery (delivery word, FADDR, word address, 0) is the last of the
core's pending list, or is held when the list has 64. The other side, every register, every other core and every other
piece of state are unchanged. When a queued word faults as it starts, the words steered before it stay in their
queues, the words in progress stay, and the faulting word with those steered after it that have not started are set
aside in steering order (that words of R308 leave the queues meanwhile is the model's choice, log 88). (R28; R306;
R307; R308; R317; R318; section "Where each kind of fault stops") -/
def Obligations.TakingAFault : Prop :=
  ∀ (s : State) (t : Trap), s.cur.core < 192 →
    let c := s.cur.core
    let sd := s.cur.side
    let q := match s.cur.eng with
      | some .vec => 1
      | some .pass => 2
      | some .load => 2
      | some .func => 3
      | none => 0
    let source := if s.cur.eng = none then (if sd = .ap then 0 else 1) else 1 + q
    let fa := t.faddr.getD s.cur.addr
    let d : Delivery := ⟨BitVec.ofNat 64 (t.code.num + t.deferred.toNat * 2 ^ 8 + source * 2 ^ 9 + 2 ^ 14 + c * 2 ^ 32), fa, s.cur.addr, 0⟩
    (∀ u, u = takeTrap t s →
      (u.core c).side sd = { (s.core c).side sd with
        run := .stopped, faddr := fa, fcode := BitVec.ofNat 64 (t.code.num + q * 2 ^ 12 + t.deferred.toNat * 2 ^ 15) } ∧
      (∀ x, x ≠ sd → (u.core c).side x = (s.core c).side x) ∧
      ((s.core c).pending.length < 64 → (u.core c).pending = (s.core c).pending ++ [d] ∧ (u.core c).held = (s.core c).held) ∧
      (64 ≤ (s.core c).pending.length → (u.core c).pending = (s.core c).pending ∧ (u.core c).held = (s.core c).held ++ [d]) ∧
      { u.core c with ap := (s.core c).ap, xp := (s.core c).xp, pending := (s.core c).pending, held := (s.core c).held } =
        s.core c ∧
      (∀ x, x ≠ c → u.core x = s.core x) ∧ { u with cores := s.cores } = s) ∧
    (∀ w : QWord,
      let k := s.core c
      let u := (takeQueueTrap t w s).core c
      let stays := fun (x : QWord) => decide (x.seq ≤ w.seq)
      u.vq = k.vq.filter stays ∧ u.mq = k.mq.filter stays ∧ u.fq = k.fq.filter stays ∧
        u.inVec = k.inVec ∧ u.inPass = k.inPass ∧ u.inLoad = k.inLoad ∧ u.inFun = k.inFun ∧
        (∀ x, x ∈ u.aside ↔ x = w ∨ x ∈ k.aside ∨ (x ∈ k.vq ++ k.mq ++ k.fq ∧ w.seq < x.seq)) ∧
        u.aside.Pairwise (fun x y => x.seq ≤ y.seq))

/-- On a running heat with a delivery pending: with FAULT_ENTRY nonzero and no fault task running, once the fault side
is at an instruction boundary with no load of registers 1-4 outstanding, nor on the XP a steered word that uses them
(log 89), its frame (pc, status, a landing check still due, registers 1-4, loop stack, on the AP its predicates) is
saved, its loops emptied, registers 1-4 hold the delivery, its pc is FAULT_ENTRY with the landing check due, and the
task goes on as the same task; with FAULT_ENTRY 0, or when the fault task itself has stopped by a fault, the heat
stops and every delivery is kept for the host; while a fault task runs nothing happens. rtt outside a fault task takes
ILLEGAL; in one it restores the frame, other registers keep their values, and the side that the delivery stopped runs
on at its recorded point, after a BREAK at the next word, a landing check that was due still due; on the AP it first
waits for loads of registers 1-4, on the XP for steered words that use them (log 89). (R228; R317; R318; R319; R320;
R321; section "The fault task") -/
def Obligations.FaultTasksStartAndReturn : Prop :=
  (∀ (s : State) (c : Nat) (h : Heat) (d : Delivery) (l : List Delivery), s.heatOf c = some h → h.st = .running →
    (s.core c).pending = d :: l →
    let k := s.core c
    let sd := if h.hr.faultXp = true then Side.xp else Side.ap
    let stops := fun (first : List Delivery) => ∃ t, exec (.faultDelivery c) s = .next t ∧
      (∃ g ∈ t.heats, g.hr = h.hr ∧ g.st = .stopped ∧ g.reports = h.reports ++ first ++ (k.pending ++ k.held)) ∧
      (t.core c).pending = [] ∧ (t.core c).held = []
    (h.hr.fEntry = 0 → stops []) ∧
    (h.hr.fEntry ≠ 0 → (k.side sd).frame = none → atBoundary s c sd = false → exec (.faultDelivery c) s = .next s) ∧
    (h.hr.fEntry ≠ 0 → (k.side sd).frame = none → atBoundary s c sd = true →
      ∃ t, exec (.faultDelivery c) s = .next t ∧
        (t.core c).side sd = { k.side sd with
          pc := h.hr.fEntry, land := true, run := .run, loops := [], wait := none, pix := 0, hand := none,
          frame := some { pc := (k.side sd).pc, run := (k.side sd).run, land := (k.side sd).land, regs := [1, 2, 3, 4].map (k.reg sd),
                          preds := if sd = .ap then k.preds else 0, loops := (k.side sd).loops,
                          aside := if sd = .xp then k.aside else [], del := d, pix := (k.side sd).pix } } ∧
        (sd = .xp → (t.core c).aside = []) ∧
        (t.core c).reg sd 1 = ⟨d.w1, false⟩ ∧ (t.core c).reg sd 2 = ⟨d.w2, false⟩ ∧ (t.core c).reg sd 3 = ⟨d.w3, false⟩ ∧
        (t.core c).reg sd 4 = ⟨d.w4, false⟩ ∧ (∀ n, 4 < n → (t.core c).reg sd n = k.reg sd n) ∧
        (∀ x, x ≠ sd → (t.core c).side x = k.side x) ∧ (t.core c).pending = l ++ k.held.take 1 ∧
        (∀ x, x ≠ c → t.core x = s.core x) ∧ { t with cores := s.cores } = s) ∧
    (h.hr.fEntry ≠ 0 → ∀ f, (k.side sd).frame = some f →
      ((k.side sd).run = .stopped → stops [f.del]) ∧
      ((k.side sd).run ≠ .stopped → exec (.faultDelivery c) s = .next s))) ∧
  (∀ s : State, Safety.syncFree false [] s →
    let c := s.cur.core
    let sd := s.cur.side
    (s.mySide.frame = none → exec .rtt s = Safety.traps (trapAt .illegal) s) ∧
    (s.mySide.frame.isSome = true → sd = .ap → s.me.ldsWaits [1, 2, 3, 4] = true → exec .rtt s = .next s) ∧
    (s.mySide.frame.isSome = true → sd = .xp → s.me.holdsBack [] ([1, 2, 3, 4].map .x) = true → exec .rtt s = .next s) ∧
    (∀ f, s.mySide.frame = some f → (sd = .ap → s.me.ldsWaits [1, 2, 3, 4] = false) →
      (sd = .xp → s.me.holdsBack [] ([1, 2, 3, 4].map .x) = false) → ∃ t, exec .rtt s = .next t ∧
      t.mySide.frame = none ∧ t.mySide.loops = f.loops ∧ t.mySide.task = s.mySide.task ∧
      (∀ r j, (r, j) ∈ f.regs.zipIdx 1 → (t.me.reg sd j).val = r.val ∧ (sd = .ap → t.me.reg sd j = r)) ∧
      (∀ n, f.regs.length < n → t.me.reg sd n = s.me.reg sd n) ∧
      (sd = .ap → t.me.preds = f.preds) ∧ (sd = .xp → t.me.aside = f.aside ++ s.me.aside) ∧
      { t with cores := s.cores, acted := s.acted } = s ∧ (∀ x, x ≠ c → t.core x = s.core x) ∧
      (f.del.stoppedSide ≠ some sd → t.mySide.run = f.run ∧ t.mySide.pc = f.pc ∧ t.mySide.land = f.land) ∧
      (∀ x, f.del.stoppedSide = some x → (t.me.side x).run = .run ∧
        (t.me.side x).land = (if f.del.code = 0x17 then false else if x = sd then f.land else (s.me.side x).land) ∧
        (t.me.side x).pc = if f.del.code = 0x17 then f.del.w3 + 4 else if x = sd then f.pc else (s.me.side x).pc)))

/-- A must on the AP, when no outstanding load holds its registers: a poisoned address takes POISON; a misaligned
record takes ALIGN_ISSUE, a record that cannot be read its fault, a field outside its limits ILLEGAL; then the first
that applies of ALIGN_ISSUE at a range's BASE, XLATE at the lowest unmapped address, OWNER at a scratchpad range
outside its core's scratchpad (at the word for a core outside the rectangle) and MUST_BUDGET; else, when a cox leads,
the set joins the manifest after all others under a nonzero handle below 2^32 that the heat has not had, which d
holds, and the word completes; with no leading cox it waits. An unmust whose handle names no set of the heat takes
ILLEGAL; else, when a cox leads, the sets of that handle leave the manifest and no others, except that while a save
awaits its release the manifest stays as it is. Which handle is free (log 26). (R232; R233; R234; R377; section "Must-
save sets") -/
def Obligations.MustSetsAdmittedAndReleased : Prop :=
  (∀ (s : State) (d a : Nat) (h : Heat), Safety.apFree [a, d] s → s.heatOf s.cur.core = some h →
    s.water.handles.length < 2 ^ 32 - 2 →
    let ea := (s.me.areg a).val
    let r := exec (.must d a) s
    ((s.me.areg a).bad = true → r = Safety.traps (⟨.poison, none, true⟩) s) ∧
    ((s.me.areg a).bad = false → ea.toNat % 64 ≠ 0 → r = Safety.traps (trapOn .alignIssue ea) s) ∧
    ((s.me.areg a).bad = false → ea.toNat % 64 = 0 →
      (∀ t, readRecord ea 256 s = .error t → r = Safety.traps t s) ∧
      (∀ u l, readRecord ea 256 s = .ok (u, l) →
        (declOk l = false → r = Safety.traps (trapAt .illegal) s) ∧
        (declOk l = true →
          let m := declSet h.hr l
          let good := fun (x : Nat × Nat × Nat) => x.2.2 = 0xFFFF ∨ (h.hr.has x.2.2 = true ∧ x.1 + x.2.1 ≤ s.me.spad)
          let aligned := ∀ x ∈ m.ranges, rangeMisaligned x = false
          let mapped := ∀ x ∈ m.ranges, rangeUnmapped u m.ctx x = none
          (∀ x, m.ranges.find? rangeMisaligned = some x → r = Safety.traps (trapOn .alignIssue (BitVec.ofNat 64 x.1)) s) ∧
          (aligned → ∀ va, m.ranges.findSome? (rangeUnmapped u m.ctx) = some va →
            r = Safety.traps (trapOn .xlate (BitVec.ofNat 64 va)) s) ∧
          (aligned → mapped → ∀ x, m.ranges.find? (fun y => !decide (good y)) = some x →
            r = Safety.traps (if h.hr.has x.2.2 = true then trapOn .owner (BitVec.ofNat 64 x.1) else trapAt .owner) s) ∧
          (aligned → mapped → (∀ x ∈ m.ranges, good x) →
            ((∃ c ∈ setCores m, h.hr.has c = false) → r = Safety.traps (trapAt .owner) s) ∧
            ((∀ c ∈ setCores m, h.hr.has c = true) →
              (budgetAllows u m.ctx m.charge = false → r = Safety.traps (trapAt .mustBudget) s) ∧
              (budgetAllows u m.ctx m.charge = true → hasLeader u (dieOf s.cur.core) = false → r = .next u) ∧
              (budgetAllows u m.ctx m.charge = true → hasLeader u (dieOf s.cur.core) = true →
                ∃ t n, r = .next t ∧ admitted t = admitted u ++ [{ m with handle := n }] ∧ 0 < n ∧ n < 2 ^ 32 ∧
                  (m.heat, n) ∉ u.water.handles ∧ (d ≠ 0 → t.me.areg d = ⟨BitVec.ofNat 64 n, false⟩) ∧
                  t.mySide = (finish s).mySide))))))) ∧
  (∀ (s : State) (a : Nat), Safety.apFree [a] s → (s.me.areg a).bad = false →
    let mine := fun (m : MustSet) => m.heat = s.me.heat ∧ m.handle = ((s.me.areg a).val).toNat
    ((∀ m ∈ admitted s, ¬ mine m) → exec (.unmust a) s = Safety.traps (trapAt .illegal) s) ∧
    ((∃ m ∈ admitted s, mine m) → hasLeader s (dieOf s.cur.core) = true → ∃ t, exec (.unmust a) s = .next t ∧
      (s.water.awaiting = false → ∀ m, m ∈ admitted t ↔ m ∈ admitted s ∧ ¬ mine m) ∧
      (s.water.awaiting = true → t.water = s.water) ∧ t.mySide = (finish s).mySide) ∧
    ((∃ m ∈ admitted s, mine m) → hasLeader s (dieOf s.cur.core) = false → exec (.unmust a) s = .next s))

/-- On a ready part with a leading cox. HEAT_LAUNCH: a head that names an absent die is reported and leaves its queue;
else of the heads that can launch, and whose dies are led, the one of highest priority, and first in the rotation
among equals, launches; when one of its hints fails admission it is reported with that code and its cores are free.
Else its hints are must-save sets, and a fresh one has on every core of its rectangle (at its origin) every register,
flag and CSR at its reset value, its partition, ring image in ring 0 and task 0 on each side at its entry with the
landing check due. A resume record, no cached line being dirty, gives every core what its image says (read from its
bytes; what they have no place for, log 21, from what the part kept), the seats asked for again, and stays stopped or
halted. PREEMPT: every lower-priority holder in the way of the senior head that can pre-empt (none that the bridge
stopped) stops to be saved, and the head claims their cores (log 28); no core changes, but for receivers of a netting
record completed first. PREEMPT_SAVE_DONE, once no failed link owes the heat anything and its queue has a leader: the
bytes of its image (R325-R327) stand in memory at a free place of the save area (log 27) and in what the part keeps
(log 21), the cores are free, the resume record queued. HEAT_COMPLETE: when every core of a running heat has nothing
left, a delivery or a loss still to be told counting (log 65), its sets are released unless a save awaits its release,
its cores free with their sink streams kept, a complete event posted. STALL: a heat quiet for STALL_US is reported
once and its snapshot kept. Otherwise nothing changes. (R12; R289; R291; R292; R293; R296; R301; R302; R323; R325;
R328; section "Choosing what runs") -/
def Obligations.HeatsLaunchRestAndComplete : Prop :=
  ∀ s : State, isReady s = true → (hasLeader s 0 = true ∨ hasLeader s 1 = true) →
    let picked := fun (h : Heat) (o : Nat × Nat) => (∀ x ∈ heads s, headAbsent s x = false) ∧ h ∈ heads s ∧ s.heatNo h.hr.number = some h ∧
      launchOrigin s h = some o ∧ led s h = true ∧
      (∀ x ∈ heads s, x ≠ h → (launchOrigin s x).isSome = true → led s x = true →
        x.hr.prio < h.hr.prio ∨ (x.hr.prio = h.hr.prio ∧ rotation s h < rotation s x))
    (∀ h, (heads s).find? (headAbsent s) = some h → s.heatNo h.hr.number = some h → (∀ x ∈ s.again, x.hr.number ≠ h.hr.number) →
      ∃ t, exec .heatLaunch s = .next t ∧ (∃ g ∈ t.heats, g.hr.number = h.hr.number ∧ g.st = .complete) ∧
        queueOf t h.hr.ctx = (queueOf s h.hr.ctx).erase h.hr.number) ∧
    (∀ h o code, picked h o → (∀ x ∈ s.again, x.hr.number ≠ h.hr.number) → admitHints h.hr s h.hr.hints.zipIdx = .error code →
      ∃ t, exec .heatLaunch s = .next t ∧ (∃ g ∈ t.heats, g.hr.number = h.hr.number ∧ g.st = .complete) ∧
        queueOf t h.hr.ctx = (queueOf s h.hr.ctx).erase h.hr.number ∧ (∀ c ∈ rectCores o.1 o.2 h.hr.w h.hr.h, (t.core c).heat = 0) ∧
        (s.water.awaiting = false → ∀ m ∈ admitted t, m.heat ≠ h.hr.number) ∧
        ((s.host.evHead - s.host.evTail).toNat < 256 → ∃ e, tfind t.host.evRing (s.host.evHead.toNat % 256) = some e ∧ e.kind = 2 ∧
          e.ctx = h.hr.ctx ∧ e.number = h.hr.number ∧ e.code = code.num)) ∧
    (∀ h o, picked h o → h.hr.resume = false → (admitHints h.hr s h.hr.hints.zipIdx).isOk = true →
      ∃ t, exec .heatLaunch s = .next t ∧
        (∃ g ∈ t.heats, g.hr = { h.hr with x0 := o.1, y0 := o.2 } ∧ g.st = .running) ∧
        queueOf t h.hr.ctx = (queueOf s h.hr.ctx).erase h.hr.number ∧ tget t.lastAt h.hr.prio 15 = h.hr.ctx ∧
        ((∀ m ∈ admitted s, m.heat ≠ h.hr.number) → ∀ j b, h.hr.hints[j]? = some b → b.2 ≠ 0 →
          ∃ m ∈ admitted t, m.heat = h.hr.number ∧ m.setid = 0xFFFFFF00 + j ∧ m.ranges = [(b.1, b.2, 0xFFFF)]) ∧
        (∀ c ∈ rectCores o.1 o.2 h.hr.w h.hr.h,
          let k := t.core c
          k.heat = h.hr.number ∧ k.ctx = some h.hr.ctx ∧
          (∀ n, k.areg n = ⟨0, false⟩ ∧ k.xreg n = 0 ∧ k.vreg n = 0 ∧ k.queue n = [] ∧ k.pred n = decide (n = 0) ∧
            tget k.nregs n 0 = 0 ∧ tget k.sstat n 0 = 0 ∧ k.mask n = (if n = 0 then BitVec.allOnes 1024 else 0) ∧ tfind k.streams n = none ∧ tfind k.shapes n = none) ∧
          k.vt = 0 ∧ k.vcnt = 0 ∧ k.g = 0 ∧ k.flags = 0 ∧ k.slip = 32 ∧ k.pixVec = 0 ∧ k.pixMtx = 0 ∧ k.pixFun = 0 ∧
          k.unfinished = [] ∧ k.pool = [] ∧ k.pending = [] ∧ k.held = [] ∧ k.hasSeat = false ∧
          k.vregsCode = nfld h.hr.part 0 2 ∧ k.acc = nfld h.hr.part 2 5 ∧ k.cont = nfld h.hr.part 7 4 ∧
          (k.ring 0).wp = BitVec.ofNat 32 h.ring.length ∧ (k.ring 0).rp = 0 ∧
          (∀ sd, (k.side sd).pc = (if sd = .ap then h.hr.apEntry else h.hr.xpEntry) ∧ (k.side sd).land = true ∧
            (k.side sd).run = .run ∧ (k.side sd).task = 0 ∧ (k.side sd).loops = [] ∧ (k.side sd).faddr = 0 ∧ (k.side sd).fcode = 0))) ∧
    (∀ h o m, picked h o → h.hr.resume = true → h.hr.any = false → h.regions = [] → (admitHints h.hr s h.hr.hints.zipIdx).isOk = true →
      s.downLink = none → (∀ die, die < 2 → ∀ l ∈ (s.die die).rlc, l.dirty = false) → h.hr.image + imageSize h.hr.cores.length ≤ 2 ^ 48 →
      imageFor s h.hr = some m → (∀ i ∈ m.cores, ∀ r ∈ i.core.pool, r.2.resume.toNat ≤ 2 ^ 48) →
      (∀ i ∈ m.cores, ∀ p ∈ i.pool, poolKey i.num 0 ≤ p.1 ∧ p.1 < poolKey (i.num + 1) 0) →
      (∀ i, i < 16 → (s.chan i).pend = 0) → s.water.restores = [] →
      ∃ t, exec .heatLaunch s = .next t ∧ (∃ g ∈ t.heats, g.hr = h.hr ∧ g.st = m.was) ∧
        queueOf t h.hr.ctx = (queueOf s h.hr.ctx).erase h.hr.number ∧ m.cores.map (fun i => i.num) = h.hr.cores ∧
        ∀ i ∈ m.cores, t.core i.num = { i.core with heat := h.hr.number, ctx := some h.hr.ctx, hasSeat := false } ∧
          (i.core.hasSeat = true → posOf i.num ∈ (t.crew (crewOf i.num)).reqs) ∧
          (let w := s.crew (crewOf i.num)
           w.ctx = some h.hr.ctx → (¬ (w.active.tagH = i.actH ∧ w.active.holder = i.actP) → (t.crew (crewOf i.num)).active.stale = true) ∧
             (¬ (w.shadow.tagH = i.shaH ∧ w.shadow.holder = i.shaP) → (t.crew (crewOf i.num)).shadow.stale = true)) ∧
          ∀ a, poolKey i.num 0 ≤ a → a < poolKey (i.num + 1) 0 →
            memGet t.mem a = memGet (i.pool.foldl (fun l p => memSet l p.1 p.2) []) a) ∧
    (∀ h, bestOf senior ((heads s).filter (preempts s)) = some h →
      ∃ t, exec .preempt s = .next t ∧ h.hr.number ∈ t.claims ∧
        ((∀ die, die < 2 → ∀ j, (s.die die).net = some j → ∀ x ∈ toPreempt s h, (s.core j.core).heat ≠ x.hr.number) → t.cores = s.cores) ∧
        ∀ x ∈ toPreempt s h, ∃ g ∈ t.heats, g.hr = x.hr ∧ g.st = .saving ∧ (imageRoom s x.hr.ctx (imageSize (x.hr.w * x.hr.h))).isSome) ∧
    (∀ n h, s.heatNo n = some h →
      (h.st = .saving → awaitsLost s h = false → h.hr.dies.any (hasLeader s) = true →
        let m := imageOf h (h.hr.cores.foldl (fun s c => settleCore c s) s)
        ∃ t, exec (.preemptSaveDone n) s = .next t ∧ m ∈ t.images ∧
          (s.downLink = none → ∀ i b, (imageBytes m)[i]? = some b → memGet t.mem (globKey h.hr.ctx (h.saveAt + i)) = b) ∧
          (∃ g ∈ t.heats, g.hr.number = n ∧ g.st = .queued ∧ g.hr.resume = true ∧ g.hr.image = h.saveAt) ∧
          n ∈ queueOf t h.hr.ctx ∧ ∀ c ∈ h.hr.cores, (s.core c).heat = n → (t.core c).heat = 0) ∧
      (h.st = .running → h.hr.dies.any (hasLeader s) = true →
        (h.hr.cores.all (fun c => coreDone (s.core c)) = true → awaitsLost s h = false → (∀ x ∈ s.again, x.hr.number ≠ n) →
          ∃ t, exec (.heatComplete n) s = .next t ∧ (∃ g ∈ t.heats, g.hr.number = n ∧ g.st = .complete) ∧
            (s.water.awaiting = false → ∀ m ∈ admitted t, m.heat ≠ n) ∧ (s.water.awaiting = true → t.water = s.water) ∧
            (∀ c ∈ h.hr.cores, (s.core c).heat = n → (t.core c).heat = 0) ∧
            (∀ c ∈ h.hr.cores, (t.core c).streams = (s.core c).streams.filter (fun p => opSink p.2.openw)) ∧
            ((s.host.evHead - s.host.evTail).toNat < 256 →
              ∃ e, tfind t.host.evRing (s.host.evHead.toNat % 256) = some e ∧ e.kind = 1 ∧ e.ctx = h.hr.ctx ∧ e.number = n ∧
                e.code = 0 ∧ e.time = (s.die 0).tb.toNat)) ∧
        ((h.hr.cores.all (fun c => coreDone (s.core c)) = false ∨ awaitsLost s h = true) → exec (.heatComplete n) s = .next s)) ∧
      (h.st = .running → h.hr.dies.all (coxUp s) = true →
        let limit := (if h.hr.stallUs = 0 then 10000 else h.hr.stallUs) * 1000
        (h.stalled = false → h.active + limit ≤ (s.die 0).tb.toNat →
          ∃ t, exec (.stall n) s = .next t ∧ t.cores = s.cores ∧ t.mem = s.mem ∧
            (∃ g ∈ t.heats, g.hr = h.hr ∧ g.st = .running ∧ g.stalled = true ∧ g.snapshot.length = 64 + 64 * h.hr.cores.length ∧
              fieldAt g.snapshot 0 1 = 0x0E ∧ fieldAt g.snapshot 4 4 = n % 2 ^ 32 ∧
              fieldAt g.snapshot 0x10 8 = ((s.die 0).tb.toNat - h.active) % 2 ^ 64)) ∧
        ((h.stalled = true ∨ (s.die 0).tb.toNat < h.active + limit) → exec (.stall n) s = .next s)))

/-- When a record arrives on an enabled channel of a ready part with its payload whole: a malformed header raises
FULL; while the channel is being shed SHED rises; a data record that does not fit above RP raises FULL; else ACCEPTED
rises by one and a data record reserves its bytes (skipping to the ring's start when it would pass the end), a launch
record waits; a disabled channel drops it, and the tests of shedding follow there too. INTAKE_COMMIT of the channel
that has the oldest accepted record of all (of another it changes nothing) writes it whole at its place, advances WP
past it, and raises SEM of SEMCORE by 1 when a heat of the channel's context is in place there, else PEND rises up to
65,535. LAUNCH_RECORD_TAKEN takes the oldest launch record and submits it under the checks of a launch, or reports why
not; a resume record whose heat is unfinished is queued at once and waits there (log 54). (R299; R300; section "Intake
channels") -/
def Obligations.IntakeAcceptsCommitsAndLaunches : Prop :=
  ∀ (s : State) (i : Nat), isReady s = true → i < 16 → s.bridgeDown = false →
    let ch := s.chan i
    let u := endShedding (acquireRps s)
    (∀ hdr pay : List Byte, hdr.length = 16 →
      let r := exec (.intakeRecord i hdr pay) s
      let counts := fun (f d a : Nat) => ∃ t, r = .next t ∧ (t.chan i).full.toNat = (ch.full.toNat + f) % 2 ^ 32 ∧
        (t.chan i).shed.toNat = (ch.shed.toNat + d) % 2 ^ 32 ∧ (t.chan i).accepted.toNat = (ch.accepted.toNat + a) % 2 ^ 32 ∧
        (a = 0 → (t.chan i).data = ch.data ∧ (t.chan i).launches = ch.launches ∧ (t.chan i).resv = ch.resv)
      (ch.conf.enable = false → pay.length + 16 = takenBytes ch hdr → counts 0 0 0 ∧ r = .next (testShedding u)) ∧
      (ch.conf.enable = true → pay.length + 16 = takenBytes ch hdr →
        (hdrBad ch hdr = true → counts 1 0 0) ∧
        (hdrBad ch hdr = false → u.shed = some i → counts 0 1 0) ∧
        (hdrBad ch hdr = false → u.shed ≠ some i →
          let len := fieldAt hdr 0 4
          let data := fieldAt hdr 4 1 = 0
          let start := if ch.resv % ch.conf.size + len > ch.conf.size then roundUp (ch.resv + 1) ch.conf.size else ch.resv
          (data → chanRp u ch + ch.conf.size < start + len → counts 1 0 0) ∧
          ((data → start + len ≤ chanRp u ch + ch.conf.size) → counts 0 0 1 ∧
            ∃ t, r = .next t ∧
              (data → (t.chan i).resv = start + len ∧ (t.chan i).launches = ch.launches ∧
                ∃ d, (t.chan i).data = ch.data ++ [d] ∧ d.pos = start ∧ d.len = len ∧ d.bytes.drop 16 = pay ∧ d.bytes.take 8 = hdr.take 8 ∧
                  ∀ j, j < 16 → ∀ e ∈ (s.chan j).data, e.order < d.order) ∧
              (¬ data → (t.chan i).resv = ch.resv ∧ (t.chan i).data = ch.data ∧ (t.chan i).launches.length = ch.launches.length + 1))))) ∧
    (∀ d l j e, ch.data = d :: l → j < 16 → (s.chan j).data.head? = some e → e.order < d.order → exec (.intakeCommit i) s = .next s) ∧
    (∀ d l, ch.data = d :: l → (∀ j, j < 16 → j ≠ i → ∀ e, (s.chan j).data.head? = some e → d.order < e.order) → d.bytes.length = d.len → d.pos % ch.conf.size + d.len ≤ ch.conf.size →
      (ch.conf.block + 0x40 ≤ ch.conf.base ∨ ch.conf.base + ch.conf.size ≤ ch.conf.block) →
      ∃ t, exec (.intakeCommit i) s = .next t ∧ (t.chan i).data = l ∧ (t.chan i).wp = d.pos + d.len ∧
        (s.shed = none → ∀ j, j < d.len → memGet t.mem (globKey ch.conf.ctx (ch.conf.base + d.pos % ch.conf.size + j)) = d.bytes.getD j 0) ∧
        (∀ c, ch.conf.semCore = some c → raiseReaches s ch.conf.ctx c = false →
          (t.chan i).pend = Nat.min (ch.pend + 1) 65535 ∧ ∀ n, ((t.core c).sema n) = (s.core c).sema n) ∧
        (∀ c, ch.conf.semCore = some c → raiseReaches s ch.conf.ctx c = true →
          ((s.core c).sema ch.conf.sem).waiters = [] → ((s.core c).sema ch.conf.sem).count < 65535 →
          headsOn ((s.modSema c ch.conf.sem (fun x => { x with count := x.count + 1 })).core c) ch.conf.sem = [] →
          ((t.core c).sema ch.conf.sem).count = ((s.core c).sema ch.conf.sem).count + 1 ∧ (t.chan i).pend = ch.pend)) ∧
    (∀ d l, ch.launches = d :: l → (hasLeader s 0 = true ∨ hasLeader s 1 = true) →
      let rec128 := (d.bytes.drop 16).take 128
      let hr := heatRecOf rec128
      let v := acquireRps (s.modChan i (fun y => { y with launches := l }))
      ∃ t, exec (.launchRecordTaken i) s = .next t ∧ (t.chan i).launches = l ∧
        (hr.ctx = ch.conf.ctx → recordFault v rec128 (s.ctx hr.ctx).regions false = none → hr.resume = false → unfinished s s.nextNum = false →
          t.accepts = s.accepts + 1 ∧ (∃ g ∈ t.heats, g.hr = { hr with number := s.nextNum } ∧ g.st = .queued) ∧
          s.nextNum ∈ queueOf t hr.ctx) ∧
        (hr.ctx = ch.conf.ctx → recordFault v rec128 (s.ctx hr.ctx).regions false = none → hr.resume = true →
          unfinished s hr.number = false →
          t.accepts = s.accepts + 1 ∧ (∃ g ∈ t.heats, g.hr = hr ∧ g.st = .queued) ∧ hr.number ∈ queueOf t hr.ctx) ∧
        (hr.ctx = ch.conf.ctx → recordFault v rec128 (s.ctx hr.ctx).regions false = none → hr.resume = true →
          unfinished s hr.number = true →
          t.accepts = s.accepts + 1 ∧ (∃ g ∈ t.again, g.hr = hr ∧ g.st = .queued) ∧ hr.number ∈ queueOf t hr.ctx) ∧
        ((hr.ctx ≠ ch.conf.ctx ∨ (recordFault v rec128 (s.ctx hr.ctx).regions false).isSome = true) →
          t.heats = s.heats ∧ t.queues = s.queues ∧ (t.host.evHead = s.host.evHead + 1 ∨ t.host.evOver = s.host.evOver + 1)))

/-- On a part with both dies whose firmware runs: a link that fails leaves service with an event; when no link of its
kind is left, island mode begins and every two-die heat stops for good. A lost read of an AP load completes as POISON,
of a speculative load as a poisoned register; the line of a lost write is poisoned, no copy of it left in a cache, and
LINK_LOST delivered, or merged, at each core it names. A repair happens only when authorised and is counted; without
authority an HBM channel is held degraded and reported once. A correctable error is counted for its channel or bank,
with an event at the first and every 64th; an uncorrectable one poisons its granule, at home or in a remote-line
cache, with an event; temperature and overvoltage post events. The leader renews its lease, acts only while less than
3 ms have passed since the last renewal, and stops leading; in island mode the other leads its own die from 4 ms after
it; the follower that did not lapse leads 4 ms after it at the next generation and resets the other, which it reloads.
How many spares a repair takes and the temperature's bin are open (log 22). (R313; R314; R315; R316; R398; R408; R409;
R410; R412; section "Losing a bridge link"; section "Two coxes") -/
def Obligations.LinksErrorsAndLeases : Prop :=
  let event := fun (s t : State) => t.host.evHead = s.host.evHead + 1 ∨ t.host.evOver = s.host.evOver + 1
  (∀ (s : State) (l : Nat), s.form.hasDie 1 = true → firmwareUp s = true →
    (s.bridge.failed.contains l = true → exec (.linkLost l) s = .next s) ∧
    (s.bridge.failed.contains l = false → ∃ t, exec (.linkLost l) s = .next t ∧ t.bridge.failed = s.bridge.failed ++ [l] ∧
      t.cores = s.cores ∧ t.mem = s.mem ∧
      (t.bridgeDown = false → event s t ∧ t.heats = s.heats ∧ t.bridge.island = s.bridge.island) ∧
      (t.bridgeDown = true → t.bridge.island = true ∧
        ∀ h ∈ s.heats, twoDie h = true → ∃ g ∈ t.heats, g.hr = h.hr ∧ (g.st = .stopped ∨ g.st = .halted) ∧ g.bridge = true)) ∧
    (s.bridge.failed.contains l = true → s.water.preauth.getLsbD 0 = true → tget s.bridge.spares l 0 < 4 →
      s.bridge.reads.any (fun r => r.link == l) = false → s.bridge.writes.any (fun w => w.link == l) = false →
      ∃ t, exec (.linkRepairDone l) s = .next t ∧ t.bridge.failed = s.bridge.failed.filter (fun x => x != l) ∧
        tget s.bridge.spares l 0 < tget t.bridge.spares l 0 ∧ tget t.bridge.spares l 0 ≤ 4 ∧
        tget t.water.life.retrains l 0 = tget s.water.life.retrains l 0 + 1 ∧
        tget t.water.life.linkReps l 0 = tget s.water.life.linkReps l 0 + 1) ∧
    (s.water.preauth.getLsbD 0 = false → exec (.linkRepairDone l) s = .next s) ∧
    (∀ ch, ch < 128 →
      (s.water.preauth.getLsbD 1 = true → ∃ t, exec (.hbmLaneRepair ch) s = .next t ∧ t.mem = s.mem ∧
        tget t.water.life.laneReps ch 0 = tget s.water.life.laneReps ch 0 + 1) ∧
      (s.water.preauth.getLsbD 1 = false → s.water.degraded.contains ch = true → exec (.hbmLaneRepair ch) s = .next s) ∧
      (s.water.preauth.getLsbD 1 = false → s.water.degraded.contains ch = false → ∃ t, exec (.hbmLaneRepair ch) s = .next t ∧
        t.water.degraded = s.water.degraded ++ [ch] ∧ event s t ∧ t.mem = s.mem) ∧
      (∃ t, exec (.errorCorrectable (.hbm ch)) s = .next t ∧ t.mem = s.mem ∧ t.bad = s.bad ∧
        tget t.water.life.corrHbm ch 0 = tget s.water.life.corrHbm ch 0 + 1 ∧
        ((tget s.water.life.corrHbm ch 0 = 0 ∨ (tget s.water.life.corrHbm ch 0 + 1) % 64 = 0) → event s t))) ∧
    (∀ site, siteHere s site = true → ∃ t, exec (.errorCorrectable site) s = .next t ∧ t.mem = s.mem ∧ t.bad = s.bad ∧
      (∀ b, (∃ c, site = .pool c b) ∨ (∃ d, site = .sram d b) ∨ (∃ d, site = .rlc d) →
        let n := tget s.water.life.corrBank (bankNo site) 0 + 1
        tget t.water.life.corrBank (bankNo site) 0 = n ∧ ((n = 1 ∨ n % 64 = 0) → event s t)) ∧
      (site = .boathouse → t.water.life.corrBoat = s.water.life.corrBoat + 1)) ∧
    (∀ key, keyHere s key = true → ∃ t, exec (.errorUncorrectable key) s = .next t ∧ t.mem = s.mem ∧ event s t ∧
      (key < 2 ^ 54 → t.badAt key = true) ∧
      (∀ die l, cachedAt s key = some (die, l) → (t.die die).line l.ctx l.line = some { l with poison := true })) ∧
    (∀ die, die < 2 → ∃ t b, exec (.temperatureHigh die) s = .next t ∧ b < 4 ∧ event s t ∧
      tget t.water.life.temps (32 * die + 28 + b) 0 = tget s.water.life.temps (32 * die + 28 + b) 0 + 1) ∧
    (∃ t, exec .bankOvervoltage s = .next t ∧ event s t ∧ t.cores = s.cores ∧ t.mem = s.mem)) ∧
  (∀ (s : State) (j : Nat),
    (∀ r, s.bridge.reads[j]? = some r → s.bridge.failed.contains r.link = true → afterQuiesce s = false →
      (∀ c ea, r.who = .ap c ea → (s.heatOf c).isSome = true →
        ∃ t, exec (.lostReadComplete j) s = .next t ∧ t.bridge.reads = s.bridge.reads.eraseIdx j ∧
          (t.core c).ap.run = .stopped ∧ (t.core c).ap.fcode = 0x800A ∧ (t.core c).ap.faddr = ea) ∧
      (∀ c d, r.who = .lds c d → (s.heatOf c).isSome = true → (s.core c).lds.any (fun w => w.d == d) = true → d ≠ 0 →
        ∃ t, exec (.lostReadComplete j) s = .next t ∧ t.bridge.reads = s.bridge.reads.eraseIdx j ∧
          (t.core c).areg d = ⟨0, true⟩ ∧ (t.core c).ap = (s.core c).ap)) ∧
    (∀ w, s.bridge.writes[j]? = some w → s.bridge.failed.contains w.link = true → afterQuiesce s = false →
      let held := fun (u : State) (die : Nat) => (u.die die).line (w.key / 2 ^ 48) (w.key % 2 ^ 48 / 64)
      ∃ t, exec (.lostWritePoison j) s = .next t ∧ t.badAt w.key = true ∧
        (w.key < 2 ^ 52 → ∀ die, die < 2 → held t die = none) ∧
        ((w.key < 2 ^ 52 → ∀ die l, die < 2 → held s die = some l → l.dirty = false) →
          t.bridge.writes = s.bridge.writes.eraseIdx j ∧ t.mem = s.mem) ∧
        (∀ c, w.cores = [c] → (s.core c).heat ≠ 0 → c < 192 →
          let line := BitVec.ofNat 64 (w.addr.toNat / granuleSize w.key * granuleSize w.key)
          ((∀ d ∈ (s.core c).pending ++ (s.core c).held, d.source ≠ 7) → (s.core c).pending.length < 64 →
            (t.core c).pending = (s.core c).pending ++ [⟨BitVec.ofNat 64 (0x12 + 7 * 2 ^ 9 + c * 2 ^ 32), line, 1, 0⟩]) ∧
          (∀ d r, (s.core c).pending = d :: r → d.source = 7 →
            (t.core c).pending = { d with w3 := d.w3 + 1 } :: r)))) ∧
  (∀ (s : State) (n : Nat), firmwareUp s = true →
    let tb := (s.die 0).tb.toNat
    let me := s.cox n
    let other := s.cox (1 - n)
    (leaderOf s = some n → other.up = true → me.acked + 10 ^ 6 ≤ tb → tb < me.acked + 3 * 10 ^ 6 →
      exec .leaseRenew s = .next { s with coxS := { s.coxS with acked := tb }, coxB := { s.coxB with acked := tb } }) ∧
    (leaderOf s = some n → me.acked + 3 * 10 ^ 6 ≤ tb → exec .leaseRenew s = .next s) ∧
    (leaderOf s = some n → other.up = true → me.acked + 3 * 10 ^ 6 ≤ tb →
      ∃ t, exec .leaseLapse s = .next t ∧ t.cox n = { me with lead := false, lapsed := true } ∧ t.cox (1 - n) = other) ∧
    (leaderOf s = some n → tb < me.acked + 3 * 10 ^ 6 → exec .leaseLapse s = .next s) ∧
    (taker s = some n → s.bridge.island = false → s.form.hasDie 1 = true →
      ∃ t, exec .leaseTakeover s = .next t ∧ t.cox n = ⟨true, true, false, Nat.max s.coxS.gen s.coxB.gen + 1, tb⟩ ∧
        (t.cox (1 - n)).up = false ∧ (t.cox (1 - n)).lead = false ∧ event s t ∧ t.cores = s.cores) ∧
    (leaderOf s = some n → other.up = false → s.form.hasDie 1 = true →
      ∃ t, exec .coxReload s = .next t ∧ t.cox (1 - n) = ⟨true, false, false, me.gen, tb⟩ ∧ t.cox n = { me with acked := tb }) ∧
    (me.up = true → other.up = true →
      (me.lead = true → s.bridge.island = false → (acts s n = true ↔ tb < me.acked + 3 * 10 ^ 6)) ∧
      (me.lead = false → s.bridge.island = true → (acts s n = true ↔ me.acked + 4 * 10 ^ 6 ≤ tb))))

/-- SUPPLY_LOSS closes the ports, stops every running or halted heat, leaves no dirty remote line and records time and
epoch; once gone, another changes nothing. QUIESCE_COMPLETE, once no read or write is under way and reserved sld runs
have committed, turns off when a save awaits release or no set is admitted, else the sets are taken by the priority of
their context, lower contexts first, in admission order, those that name die B left out when the bridge is down. A set
is written whole at the next offset, or cut by the drill limit or the reserve; after the last the part is off; a
reserve that ends before the first byte leaves the sets to be judged. POWER_UP leaves everything at reset but the
boathouse and what is kept in it. The health test gives the budget in force, the next epoch and READY, with an event
of kind 9 when the budget is below its cap and one of kind 10; a charge timeout gives budget 0. Lifetime records, with
every second since power-up in a bin, are written while firmware runs. The model's: what memory reads at POWER_UP (log
7), the judging of a cut (log 82), when POWER is taken and the caches are written back (log 56), the bin (log 83).
(R376; R380; R381; R382; R384; R387; R388; R391; R410; R412; section "Supply loss"; section "Power-up") -/
def Obligations.WaterIsHeldAndPowerReturns : Prop :=
  (∀ s : State,
    (supplyGone s = true → exec .supplyLoss s = .next s) ∧
    (supplyGone s = false → ∃ t, exec .supplyLoss s = .next t ∧ t.water.power = .quiesce ∧ portsOpen t = false ∧
      t.water.lossAt = (s.die 0).tb.toNat ∧ t.water.lossEpo = s.water.epoch ∧ admitted t = admitted s ∧
      (∀ h ∈ t.heats, h.st ≠ .running ∧ h.st ≠ .halted) ∧ (∀ die, die < 2 → ∀ l ∈ (t.die die).rlc, l.dirty = false))) ∧
  (∀ l : List MustSet,
    (saveOrder l).Pairwise (fun a b => savePrio l b.ctx < savePrio l a.ctx ∨ (savePrio l b.ctx = savePrio l a.ctx ∧ a.ctx ≤ b.ctx)) ∧
    (∀ x, x < 16 → savePrio l x ≤ 15 → (saveOrder l).filter (fun m => m.ctx == x) = l.filter (fun m => m.ctx == x))) ∧
  (∀ s : State, s.water.power = .quiesce →
    let u := ((s.heats.filter Heat.holds).flatMap (fun h => h.hr.cores)).foldl (fun s c => settleCore c s) (noLink s)
    let l := saveOrder (admitted s)
    let skip := fun (m : MustSet) => s.bridgeDown && onDieB s m
    ((s.bridge.reads ≠ [] ∨ s.bridge.writes ≠ []) → exec .quiesceComplete s = .next s) ∧
    (s.bridge.reads = [] → s.bridge.writes = [] → (s.water.awaiting = true ∨ l = []) →
      ∃ t, exec .quiesceComplete s = .next t ∧ t.water.power = .off ∧ t.mem = u.mem) ∧
    (s.bridge.reads = [] → s.bridge.writes = [] → s.water.awaiting = false → l ≠ [] →
      ∃ t, exec .quiesceComplete s = .next t ∧ t.water.left = l.filter (fun m => !skip m) ∧ t.water.skipped = l.filter skip ∧
        t.water.power = (if t.water.left = [] then .off else .saving) ∧ t.water.judged = l ∧ t.water.pos = 0x1000000 ∧
        t.water.written = 0 ∧ t.water.awaiting = true ∧ t.water.lossRan = true ∧ t.mem = u.mem)) ∧
  (∀ (s : State) (m : MustSet) (r : List MustSet), s.water.power = .saving → s.water.left = m :: r →
    let writes := fun (t : State) (n : Nat) =>
      (∀ j, j < (setImage s m).length → j < n → memGet t.mem (boatKey (s.water.pos + j)) = (setImage s m).getD j 0) ∧
      (∀ a, (a < boatKey s.water.pos ∨ boatKey s.water.pos + n ≤ a) → memGet t.mem a = memGet s.mem a) ∧
      t.water.written = s.water.written + n
    let room := fun (n : Nat) => match s.water.drill with
      | some limit => Nat.min n (limit - s.water.written)
      | none => n
    let fits := room m.charge = m.charge
    (fits →
      ∃ t, exec .saveSetWritten s = .next t ∧ writes t m.charge ∧ t.water.left = r ∧
        t.water.pos = s.water.pos + m.charge ∧ t.water.power = (if r = [] then .off else .saving)) ∧
    (¬ fits → exec .saveSetWritten s = .next s) ∧
    (fits → exec .drillLimitReached s = .next s) ∧
    (¬ fits → ∃ t, exec .drillLimitReached s = .next t ∧ writes t (room m.charge) ∧ t.water.power = .off ∧
      t.water.cut = some (s.water.pos + room m.charge)) ∧
    (∀ n, ∃ t, exec (.reserveExhausted n) s = .next t ∧ writes t (room (Nat.min n m.charge)) ∧ t.water.power = .off ∧
      t.water.cut = some (s.water.pos + room (Nat.min n m.charge)))) ∧
  (∀ (s : State) (n : Nat), s.water.power = .quiesce →
    ∃ t, exec (.reserveExhausted n) s = .next t ∧ t.water.power = .off ∧ t.mem = s.mem ∧
      (s.water.awaiting = false → saveOrder (admitted s) ≠ [] →
        t.water.judged = saveOrder (admitted s) ∧ t.water.lossRan = true ∧ t.water.awaiting = true)) ∧
  (∀ (s : State) (strap : Bool),
    (s.water.power ≠ .off → exec (.powerUp strap) s = .next s) ∧
    (s.water.power = .off → ∃ t, exec (.powerUp strap) s = .next t ∧ t.water.power = .rom ∧ t.water.strap = strap ∧
      t.form = s.form ∧ t.cores = [] ∧ t.crews = [] ∧ t.dies = [] ∧ t.lanes = [] ∧ t.pages = [] ∧ t.heats = [] ∧ t.chans = [] ∧ t.ctxs = [] ∧
      t.bad = [] ∧ t.water.ms = [] ∧ t.water.drill = none ∧ t.water.budget = 0 ∧ t.coxS.up = false ∧ t.coxB.up = false ∧
      t.host.slots = [] ∧ admitted t = admitted s ∧ t.water.epoch = s.water.epoch ∧ t.water.awaiting = s.water.awaiting ∧
      t.water.dir = s.water.dir ∧ t.water.owners = s.water.owners ∧ t.water.minSvn = s.water.minSvn ∧
      t.water.preauth = s.water.preauth ∧ t.water.life = s.water.saved ∧
      (∀ a, a < boatKey 0 → memGet t.mem a = 0) ∧ (∀ a, boatKey 0 ≤ a → a < stageKey 0 → memGet t.mem a = memGet s.mem a))) ∧
  (∀ (s : State) (pf : Nat), s.water.power = .firmware →
    let cap := if s.form = .la2h then 24 * 2 ^ 20 else 48 * 2 ^ 20
    let up := fun (r : Res) (f : State → Prop) => ∃ t, r = .next t ∧ f t ∧ t.water.power = .ready ∧
      t.water.epoch = s.water.epoch + 1 ∧ t.water.life.powerUps = s.water.life.powerUps + 1 ∧ t.nextNum = numbersFrom (admitted s) ∧
      admitted t = admitted s ∧ t.cores = s.cores ∧
      (s.water.lossRan = true → t.water.dir.map (fun d => d.set) = s.water.judged) ∧
      (s.water.lossRan = false → t.water.dir = s.water.dir) ∧
      (let posted := fun (i k : Nat) => ∃ e, tfind t.host.evRing ((s.host.evHead.toNat + i) % 256) = some e ∧ e.kind = k
       (s.host.evHead - s.host.evTail).toNat < 255 →
        (t.water.budget < cap → posted 0 9 ∧ posted 1 10) ∧ (cap ≤ t.water.budget → posted 0 10))
    up (exec (.healthTest pf) s) (fun t => t.water.cMeas = pf ∧
      t.water.budget = Nat.min ((pf * 27648 - 12 * 10 ^ 11) / (10 ^ 5 * 2 ^ 20) * 2 ^ 20) cap ∧
      t.water.healthy = decide (t.water.budget ≠ 0)) ∧
    up (exec .bankChargeTimeout s) (fun t => t.water.budget = 0 ∧ t.water.healthy = false)) ∧
  (∀ s : State,
    (firmwareUp s = false → exec .lifetimeWrite s = .next s) ∧
    (firmwareUp s = true → (∀ p ∈ s.water.life.log, p.1 < 16383) →
      ∃ t, exec .lifetimeWrite s = .next t ∧ t.water.saved = t.water.life ∧
        { t.water.life with temps := s.water.life.temps, secs := s.water.life.secs } = s.water.life ∧
        (∀ die, die = 0 ∨ (die = 1 ∧ s.form.hasDie 1 = true) →
          tget t.water.life.secs die 0 = Nat.max (tget s.water.life.secs die 0) ((s.die die).tb.toNat / 10 ^ 9)) ∧
        memRead t.mem (boatKey 0x10EC0) 16 = natBytes 8 s.water.life.powerUps ++ natBytes 8 s.water.life.powerFail ∧
        memRead t.mem (boatKey 0xFFFF8) 8 = natBytes 8 s.water.life.logIdx ∧ t.cores = s.cores))

/-- While the ports are open: a BAR0 write reaches SEQ, CMD, ALEN and DATA of a slot, EV_TAIL, WIN_CTX and WIN_BASE,
rings a slot by its doorbell unless it is PEND or RUN, and leaves the part's own fields; BAR2 reads zero. The BAR4
window writes and reads global memory at home through WIN_CTX and WIN_BASE; writes are dropped before READY, unmapped
bytes read as ones. Over xSPI: READ returns BAR0 and staging bytes, WRITE needs WRITE ENABLE and spends it, READ
STATUS returns WEL, WRITE CONFIG selects 1S or 8D, READ SFDP answers in 1S only, RESET after RESET ENABLE returns to
1S. With the ports closed no form changes anything, whatever its operands. That a WRITE spends WEL, that RESET clears
WEL and that any other command clears the armed RESET is the model's choice (log 33). (R380; R392; R400; R402; R403;
R405; R406; section "The mailbox"; section "PCIe") -/
def Obligations.HostPortsReadAndWrite : Prop :=
  (∀ (s : State) (off n : Nat) (l : List Byte) (v : BitVec 8), portsOpen s = false →
    ∀ i ∈ [Instr.registerWrite off l, .hostBar4Write off l, .hostBar4Read off n, .xspiRead off n, .xspiWrite off l,
      .xspiWriteEnable, .xspiReadStatus, .xspiWriteConfig v, .xspiReadSfdp off n, .xspiResetEnable, .xspiReset],
    exec i s = .next s) ∧
  (∀ s : State, portsOpen s = true →
    let wr := fun (off : Nat) (l : List Byte) (f : State → Prop) => ∃ t, exec (.registerWrite off l) s = .next t ∧ f t
    (∀ sl, sl < 2 →
      wr (0x1000 * sl + 8) [1, 0, 0, 0] (fun t =>
        if (s.slot sl).st = .pend ∨ (s.slot sl).st = .run then t.slot sl = s.slot sl ∧ t.host.rung = s.host.rung
        else t.slot sl = { s.slot sl with st := .pend } ∧ t.host.rung = s.host.rung ++ [sl]) ∧
      (∀ v, wr (0x1000 * sl) (leBytes 4 v) (fun t => t.slot sl = { s.slot sl with seq := BitVec.ofNat 32 v }) ∧
        wr (0x1000 * sl + 4) (leBytes 2 v) (fun t => t.slot sl = { s.slot sl with cmd := BitVec.ofNat 16 v }) ∧
        wr (0x1000 * sl + 6) (leBytes 2 v) (fun t => t.slot sl = { s.slot sl with alen := BitVec.ofNat 16 v })) ∧
      (∀ j b, j < 4032 → wr (0x1000 * sl + 0x40 + j) [b] (fun t =>
        t.slot sl = { s.slot sl with data := tset (s.slot sl).data j b } ∧ t.host.rung = s.host.rung)) ∧
      (∀ j b, 0xC ≤ j → j < 0x40 → wr (0x1000 * sl + j) [b] (fun t => t.slot sl = s.slot sl ∧ t.host.rung = s.host.rung)) ∧
      barByte s (0x1000 * sl + 0xC) = BitVec.ofNat 8 (match (s.slot sl).st with
        | .idle => 0
        | .pend => 1
        | .run => 2
        | .done => 3) ∧
      barByte s (0x1000 * sl + 0xD) = (s.slot sl).result) ∧
    (∀ off, barRead s 0 off = barByte s off ∧ barRead s 2 off = 0) ∧
    (∀ v, wr 0x4004 (leBytes 4 v) (fun t => t = s.modHost (fun h => { h with evTail := BitVec.ofNat 32 v }))) ∧
    (∀ b, wr 0x4040 [b] (fun t => t = s.modHost (fun h => { h with winCtx := b.toNat }))) ∧
    (∀ v, wr 0x4048 (leBytes 8 v) (fun t => t.host.winBase % 2 ^ 64 = v % 2 ^ 64 ∧ { t with host := s.host } = s)) ∧
    (∀ off l, (0x2000 ≤ off ∧ off + l.length ≤ 0x4004) ∨ 0x5000 ≤ off → wr off l (fun t => t = s)) ∧
    barByte s 0x40C0 = BitVec.ofNat 8 ((isReady s).toNat + 2 * s.bridge.island.toNat + 4 * (leaderOf s).getD 0 +
      8 * (decide (s.form = .la2h)).toNat) ∧
    (∀ addr n, exec (.xspiRead addr n) s = .next (s.modHost (fun h => { h with rstArm := false, out := (List.range n).map (fun i =>
      let a := addr + i
      if a < 0x5000 then barByte s a
      else if 0x01000000 ≤ a ∧ a < 0x01402000 then memGet s.mem (stageKey (a - 0x01000000)) else 0) }))) ∧
    (∀ addr l, let u := s.modHost (fun h => { h with wel := false, rstArm := false })
      (s.host.wel = false → exec (.xspiWrite addr l) s = .next u) ∧
      (s.host.wel = true → addr < 0x5000 →
        exec (.xspiWrite addr l) s = exec (.registerWrite addr (l.take (0x5000 - addr))) u) ∧
      (s.host.wel = true → 0x01000000 ≤ addr → addr + l.length ≤ 0x01402000 →
        exec (.xspiWrite addr l) s = .next { u with mem := memWrite s.mem (stageKey (addr - 0x01000000)) l })) ∧
    exec .xspiWriteEnable s = .next (s.modHost (fun h => { h with wel := true, rstArm := false })) ∧
    exec .xspiReadStatus s = .next (s.modHost (fun h => { h with out := [if s.host.wel = true then 2 else 0], rstArm := false })) ∧
    exec (.xspiWriteConfig 0) s = .next (s.modHost (fun h => { h with ddr := false, rstArm := false })) ∧
    exec (.xspiWriteConfig 0xE7) s = .next (s.modHost (fun h => { h with ddr := true, rstArm := false })) ∧
    (∀ addr n, exec (.xspiReadSfdp addr n) s = .next (s.modHost (fun h =>
      { h with rstArm := false, out := if h.ddr = true then h.out else (List.range n).map (fun i => Config.sfdp (addr + i)) }))) ∧
    exec .xspiResetEnable s = .next (s.modHost (fun h => { h with rstArm := true })) ∧
    exec .xspiReset s = .next (if s.host.rstArm = true then s.modHost (fun h => { h with ddr := false, wel := false, rstArm := false })
      else s)) ∧
  (∀ (s : State) (off : Nat), s.bridgeDown = false →
    let ctx := s.host.winCtx
    let va := s.host.winBase / 2 ^ 21 * 2 ^ 21 + off
    (∀ l : List Byte, off + l.length ≤ 2 ^ 28 →
      (isReady s = false → exec (.hostBar4Write off l) s = .next s) ∧
      (isReady s = true → ∃ t, exec (.hostBar4Write off l) s = .next t ∧ t.cores = s.cores ∧
        ((∀ i, i < l.length → (s.page ctx (va + i)).isSome = true) →
          (∀ i, i < l.length → memGet t.mem (globKey ctx (va + i)) = l.getD i 0) ∧
          ((s.die 0).rlc = [] → (s.die 1).rlc = [] →
            ∀ a, a < globKey ctx va ∨ globKey ctx va + l.length ≤ a → memGet t.mem a = memGet s.mem a)) ∧
        ((∀ i, i < l.length → s.page ctx (va + i) = none) → t.mem = s.mem))) ∧
    (∀ n, portsOpen s = true → off + n ≤ 2 ^ 28 → ∃ t, exec (.hostBar4Read off n) s = .next t ∧ t.cores = s.cores ∧
      ((∀ i, i < n → (s.page ctx (va + i)).isSome = true) → t.host.out.length = n ∧ ∀ i, i < n →
        t.host.out.getD i 0 =
          memGet (recallLine (1 - s.homeDie (.glob ctx (va + i))) ctx ((va + i) / 64) (noLink s)).mem (globKey ctx (va + i))) ∧
      ((∀ i, i < n → s.page ctx (va + i) = none) → t.host.out = List.replicate n 0xFF)))

/-- Every command of the doorbell table is served only in its turn, and only when its slot holds its code and argument
bytes; a repeated SEQ completes again and does nothing; before READY all but FW_LOAD complete with NOT_READY.
CTX_CONFIG of a context with a heat present completes BUSY, with a lane of another context RANGE, else configures
windows, quota, save area and lanes. MAP adds fresh pages whose bytes are zero, and completes RANGE on an overlap.
UNMAP removes every page of the context that the range meets and then, with the slot in RUN, completes once no cache
holds a translation or a line of them. META completes BUSY while a heat of the context runs, RANGE for a bad block or
region, else sets the block of a region, for heats launched later. INTAKE configures its channel, or completes RANGE
when LOW is not below HIGH. A context or channel above 15, and a slot whose bytes are no arguments of its command,
complete with a free code of the table (log 34). A refused command changes nothing but its slot. RANGE for a bad block
or region of META (log 34), what UNMAP does with a page it only partly meets (log 35), its two steps and the caches
between them (logs 25, 81) are the model's choices. (R263; R266; R270; R299; R345; R351; R400; R401; R402; section
"The mailbox") -/
def Obligations.MailboxServesAndSetsContexts : Prop :=
  (∀ (s : State) (i : Instr) (sl cmd : Nat) (args : Option (List Byte)), Safety.mailOf i = some (sl, cmd, args) →
    let turn := if isReady s = true then s.host.rung.head? = some sl else (sl = 0 ∧ 0 ∈ s.host.rung)
    let holds := (s.slot sl).cmd.toNat = cmd ∧ ∀ l, args = some l → Safety.argsAre sl l s
    ((portsOpen s = false ∨ mailServed s = false ∨ ¬ turn ∨ ¬ holds) → exec i s = .next s) ∧
    (portsOpen s = true → mailServed s = true → turn → holds →
      ((s.slot sl).seq = (s.slot sl).doneSeq →
        ∃ t, exec i s = .next t ∧ { t with host := s.host } = s ∧ t.slot sl = { s.slot sl with st := .done } ∧ sl ∉ t.host.rung) ∧
      ((s.slot sl).seq ≠ (s.slot sl).doneSeq → isReady s = false → cmd ≠ 0x01 → Safety.denies (exec i s) s sl 0xE2))) ∧
  (∀ sl : Nat,
    (∀ u : State, nextSlot u = some sl → mailServed u = true → portsOpen u = true → cmdCodes.contains (u.slot sl).cmd.toNat = false →
      (u.slot sl).seq ≠ (u.slot sl).doneSeq → Safety.slotDone u (answerUnknown u) sl 0xE1 []) ∧
    (∀ u : State, nextSlot u = some sl → mailServed u = true → isReady u = true → cmdCodes.contains (u.slot sl).cmd.toNat = true →
      argsFit (u.slot sl) = false → (u.slot sl).seq ≠ (u.slot sl).doneSeq →
      ∃ code, 0xE1 ≤ code ∧ code ≤ 0xE5 ∧ Safety.slotDone u (answerUnknown u) sl code [])) ∧
  (∀ (s : State) (sl n : Nat), 16 ≤ n →
    (Safety.asked sl 0x10 s → ∀ cfg, Safety.deniesOpen (exec (.ctxConfig sl n cfg) s) s sl) ∧
    (Safety.asked sl 0x11 s → ∀ g, Safety.deniesOpen (exec (.map sl n g) s) s sl) ∧
    (Safety.asked sl 0x12 s → ∀ va m, Safety.deniesOpen (exec (.unmap sl n va m) s) s sl) ∧
    (Safety.asked sl 0x13 s → ∀ rg blk, Safety.deniesOpen (exec (.metaBlock sl n rg blk) s) s sl) ∧
    (Safety.asked sl 0x14 s → ∀ cfg, Safety.deniesOpen (exec (.intake sl n cfg) s) s sl)) ∧
  (∀ (s : State) (sl ctx : Nat), ctx < 16 →
    (Safety.asked sl 0x10 s → ∀ cfg : CtxCfg,
      let r := exec (.ctxConfig sl ctx cfg) s
      (ctxPresent s ctx = true → Safety.denies r s sl 0xE4) ∧
      (ctxPresent s ctx = false → (∃ l o, l < 128 ∧ cfg.lanes.getLsbD l = true ∧ (s.lane l).owner = some o ∧ o ≠ ctx) →
        Safety.denies r s sl 0xE5) ∧
      (ctxPresent s ctx = false → windowsOk s ctx cfg = true → quotaOk cfg.quota = true → lanesOk s ctx cfg.lanes = true →
        Safety.answers r s sl 0 [] (fun t => (t.ctx ctx).conf = some cfg ∧ (∀ c, c ≠ ctx → t.ctx c = s.ctx c) ∧
          (∀ l, l < 128 → (t.lane l).owner = if cfg.lanes.getLsbD l = true then some ctx
            else if (s.lane l).owner = some ctx then none else (s.lane l).owner)))) ∧
    (Safety.asked sl 0x11 s → ∀ g : MapArgs,
      let r := exec (.map sl ctx g) s
      ((∃ p ∈ s.pages, p.ctx = ctx ∧ p.va < g.va + g.n ∧ g.va < p.va + p.size) → Safety.denies r s sl 0xE5) ∧
      ((g.va % g.page ≠ 0 ∨ g.n % g.page ≠ 0) → Safety.denies r s sl 0xE5) ∧
      (mapOk s ctx g = true → Safety.answers r s sl 0 [] (fun t =>
        (∀ p, p ∈ t.pages ↔ p ∈ s.pages ∨ ∃ j, j < g.n / g.page ∧ p = ⟨ctx, g.va + j * g.page, g.page, g.r, g.w⟩) ∧
        (∀ a, memGet t.mem a = if globKey ctx g.va ≤ a ∧ a < globKey ctx g.va + g.n then 0 else memGet s.mem a)))) ∧
    (Safety.asked sl 0x12 s → ∀ va n,
      let met := fun (p : Page) => p.ctx = ctx ∧ p.va < va + n ∧ va < p.va + p.size
      ((∃ p ∈ s.pages, met p) → ∃ t, exec (.unmap sl ctx va n) s = .next t ∧ t.slot sl = { s.slot sl with st := .run } ∧
        t.host.rung = s.host.rung ∧ (∀ p, p ∈ t.pages ↔ p ∈ s.pages ∧ ¬ met p) ∧ t.mem = s.mem ∧ t.cores = s.cores) ∧
      ((∀ p ∈ s.pages, ¬ met p) → Safety.answers (exec (.unmap sl ctx va n) s) s sl 0 [] (fun t =>
        t.pages = s.pages ∧ ∀ die, die < 2 → (∀ p ∈ (t.die die).tlb, ¬ met p) ∧
          ∀ l ∈ (t.die die).rlc, l.ctx = ctx → (s.page ctx (64 * l.line)).isSome = true))) ∧
    (Safety.asked sl 0x13 s → ∀ rg blk,
      let r := exec (.metaBlock sl ctx rg blk) s
      (ctxRuns s ctx = true → Safety.denies r s sl 0xE4) ∧
      (ctxRuns s ctx = false → (blk % 4096 ≠ 0 ∨ 2 ^ 27 ≤ rg ∨ 2 ^ 48 ≤ blk) → Safety.denies r s sl 0xE5) ∧
      (ctxRuns s ctx = false → blk % 4096 = 0 → rg < 2 ^ 27 → blk < 2 ^ 48 → Safety.answers r s sl 0 [] (fun t =>
        tget (t.ctx ctx).meta2m rg 0 = blk ∧ (∀ j, j ≠ rg → tget (t.ctx ctx).meta2m j 0 = tget (s.ctx ctx).meta2m j 0) ∧
        t.heats = s.heats ∧ t.mem = s.mem))) ∧
    (Safety.asked sl 0x14 s → ∀ (ch : Nat) (cfg : IntakeCfg), ch < 16 →
      let r := exec (.intake sl ch cfg) s
      (cfg.high ≤ cfg.low → Safety.denies r s sl 0xE5) ∧
      (intakeOk cfg = true → Safety.answers r s sl 0 [] (fun t => (t.chan ch).conf = cfg ∧ t.high = cfg.high ∧ t.low = cfg.low ∧
        (∀ c, c ≠ ch → t.chan c = s.chan c) ∧ t.cores = s.cores))))

/-- A LAUNCH whose argument bytes lie in the slot: more than 244 region entries complete RANGE; a record that fails a
check completes with its code and nothing else changes; a sound fresh record is queued behind its context's others
under the next NUMBER, which is the response and never 0 when it was not; a resume record is queued at once under its
own. A record of cox firmware is queued, or reported, without a slot. HEAT_STATUS answers the state and, of a stopped
heat (being saved or not), every delivery, or UNKNOWN. HEAT_CONTINUE of a heat stopped otherwise than by the bridge
discards its deliveries, lets every stopped side outside a fault task go on (after a BREAK at the next word), and the
heat runs; of any other heat it completes BUSY. HEAT_END removes a heat in any state: its sets are released unless a
save awaits its release, its cores freed, a complete event with code 0xE4 posted; that one that had completed is known
no more is the model's reading (log 101). The state codes of the response (log 16), UNKNOWN and BUSY for an unknown
number (log 34), and where a resume record waits for its heat (log 54) are the model's. (R286; R287; R288; R302; R320;
R407; section "Heats held by the host") -/
def Obligations.MailboxLaunchesAndHeldHeats : Prop :=
  (∀ (s : State) (sl : Nat) (arg : LaunchArgs), arg.fw = false → Safety.asked sl 0x20 s →
    Safety.argsAre sl (arg.hr ++ arg.regions.flatMap regionBytes) s →
    let r := exec (.launch sl arg) s
    let hr := heatRecOf arg.hr
    let fault := recordFault s arg.hr (if arg.regions = [] then (s.ctx hr.ctx).regions else arg.regions) false
    (244 < arg.regions.length → Safety.denies r s sl 0xE5) ∧
    (arg.regions.length ≤ 244 → ∀ c, fault = some c → Safety.denies r s sl c.num) ∧
    (arg.regions.length ≤ 244 → fault = none → hr.resume = false → unfinished s s.nextNum = false →
      (∀ x ∈ s.again, unfinished s x.hr.number = true) → Safety.answers r s sl 0 (natBytes 4 s.nextNum) (fun t =>
        (∃ g ∈ t.heats, g.hr = { hr with number := s.nextNum } ∧ g.st = .queued ∧ g.regions = arg.regions ∧ g.ring = arg.ring) ∧
        queueOf t hr.ctx = queueOf s hr.ctx ++ [s.nextNum] ∧ t.cores = s.cores ∧ t.mem = s.mem ∧
        (s.nextNum ≠ 0 → t.nextNum ≠ 0))) ∧
    (arg.regions.length ≤ 244 → fault = none → hr.resume = true → Safety.answers r s sl 0 (natBytes 4 hr.number) (fun t =>
      (∃ g ∈ t.heats ++ t.again, g.hr = hr ∧ g.st = .queued ∧ g.regions = arg.regions) ∧ hr.number ∈ queueOf t hr.ctx ∧
        t.cores = s.cores ∧ t.mem = s.mem))) ∧
  (∀ (s : State) (sl : Nat) (arg : LaunchArgs), arg.fw = true → isReady s = true → hasLeader s 0 = true →
    (heatRecOf arg.hr).resume = false → unfinished s s.nextNum = false → (∀ x ∈ s.again, unfinished s x.hr.number = true) →
    let hr := heatRecOf arg.hr
    let fault := recordFault s arg.hr (if arg.regions = [] then (s.ctx hr.ctx).regions else arg.regions) true
    ∃ t, exec (.launch sl arg) s = .next t ∧ t.cores = s.cores ∧
      (fault = none → queueOf t hr.ctx = queueOf s hr.ctx ++ [s.nextNum] ∧
        ∃ g ∈ t.heats, g.hr = { hr with number := s.nextNum } ∧ g.st = .queued) ∧
      (fault.isSome = true → t.heats = s.heats ∧ (t.host.evHead = s.host.evHead + 1 ∨ t.host.evOver = s.host.evOver + 1))) ∧
  (∀ (s : State) (sl n : Nat),
    (Safety.asked sl 0x21 s →
      (s.heatNo n = none → Safety.denies (exec (.heatStatus sl n) s) s sl 0xE1) ∧
      (∀ h, s.heatNo n = some h →
        let l := if h.st = .stopped ∨ (h.st = .saving ∧ h.was = .stopped) then h.reports ++ h.hr.cores.flatMap (fun c => (s.core c).pending ++ (s.core c).held) else []
        let word := fun (d : Delivery) => bvBytes 8 d.w1 ++ bvBytes 8 d.w2 ++ bvBytes 8 d.w3 ++ bvBytes 8 d.w4
        let code := fun (x : HeatState) => match x with
          | .queued => 0
          | .stopped => 2
          | .halted => 3
          | .complete => 4
          | _ => 1
        Safety.answers (exec (.heatStatus sl n) s) s sl 0
          (natBytes 4 (code (if h.st = .saving then h.was else h.st)) ++ natBytes 4 l.length ++ l.flatMap word ++ h.snapshot)
          (fun t => { t with host := s.host } = s))) ∧
    (Safety.asked sl 0x22 s → ∀ acts : HeatActs,
      let r := exec (.heatContinue sl n acts) s
      ((∀ h, s.heatNo n = some h → h.st ≠ .stopped ∨ h.bridge = true) → Safety.denies r s sl 0xE4) ∧
      (∀ h, s.heatNo n = some h → h.st = .stopped → h.bridge = false →
        Safety.answers r s sl 0 [] (fun t =>
          (∃ g ∈ t.heats, g.hr = h.hr ∧ g.st = .running ∧ g.reports = []) ∧
          (acts.rings = [] → acts.walks = [] → ∀ c ∈ h.hr.cores,
            (t.core c).pending = [] ∧ (t.core c).held = [] ∧
            (∀ sd, ((s.core c).ap.frame = none ∧ (s.core c).xp.frame = none) → ((s.core c).side sd).run = .stopped →
              let x := (s.core c).side sd
              let brk := (stoppedBy (h.reports ++ h.hr.cores.flatMap (fun c => (s.core c).pending ++ (s.core c).held)) c sd).filter
                (fun d => d.code == 0x17)
              (t.core c).side sd = match brk with
                | some d => { x with run := .run, land := false, wait := none, pc := d.w3 + 4 }
                | none => { x with run := .run, wait := none }))))) ∧
    (Safety.asked sl 0x23 s →
      (s.heatNo n = none → Safety.denies (exec (.heatEnd sl n) s) s sl 0xE1) ∧
      (∀ h, s.heatNo n = some h → h.st = .complete →
        Safety.answers (exec (.heatEnd sl n) s) s sl 0 [] (fun t => t.heatNo n = none ∧ t.cores = s.cores ∧ t.mem = s.mem ∧
          ((s.host.evHead - s.host.evTail).toNat < 256 →
            ∃ e, tfind t.host.evRing (s.host.evHead.toNat % 256) = some e ∧ e.kind = 1 ∧ e.number = n ∧ e.code = 0xE4))) ∧
      (∀ h, s.heatNo n = some h → h.st ≠ .complete → (∀ x ∈ s.again, x.hr.number ≠ n) →
        Safety.answers (exec (.heatEnd sl n) s) s sl 0 [] (fun t =>
          (∃ g ∈ t.heats, g.hr = h.hr ∧ g.st = .complete) ∧ (s.water.awaiting = false → ∀ m ∈ admitted t, m.heat ≠ n) ∧
          (∀ c ∈ h.hr.cores, (s.core c).heat = n → (t.core c).heat = 0) ∧
          ((s.host.evHead - s.host.evTail).toNat < 256 →
            ∃ e, tfind t.host.evRing (s.host.evHead.toNat % 256) = some e ∧ e.kind = 1 ∧ e.number = n ∧ e.code = 0xE4)))))

/-- FW_LOAD in boot ROM with a sound container measures each die's ROM, the header and the owners (MS0 to MS3), starts
firmware and cox S as leader at generation 1, and die B unless its own check fails; an unsound one completes with a
code and starts nothing; in service it completes BUSY. QUOTE answers the signed body, QUOTE with mask 0 the identity
and its certificate, and neither changes anything. EXTEND of slots 5 to 7 sets the slot to the digest of its old value
and the new digest; below 5 it completes RANGE, above 7 with a free code (log 34). OWNER_INSTALL of one to four hashes
on an unowned part records and measures them, of another number completes RANGE (log 34); on an owned one it completes
AUTH. A token completes BUSY while a heat is present or a save awaits release (before it is read: log 63), AUTH when
it does not verify, and else clears the owners and extends MS3 with the four empty slots, clears every byte of memory
but the boathouse's kept part, images, maps of poison and lanes' tables, and moves the nonce on. The keys and
signatures, and whether die B passes, are free (logs 14, 15, 85). (R391; R393; R394; R395; R396; R397; R401; section
"Measurements and quotes"; section "Owners") -/
def Obligations.MailboxMeasuresAndOwners : Prop :=
  (∀ s : State, portsOpen s = true → (s.slot 0).cmd = 0x01 → (s.slot 0).seq ≠ (s.slot 0).doneSeq →
    (s.water.power = .rom → 0 ∈ s.host.rung → containerOk s = true →
      Safety.answers (exec (.fwLoad 0) s) s 0 0 [] (fun t => t.water.power = .firmware ∧
        t.coxS = ⟨true, true, false, 1, (s.die 0).tb.toNat⟩ ∧
        t.coxB.up = (s.form.hasDie 1 && !s.bridgeDown && Config.dieBPasses s.count) ∧
        (s.form.hasDie 1 = true → t.coxB.up = false → t.bridge.island = true) ∧
        t.ms 1 = (if s.form.hasDie 1 = true then sha3v (bvBytes 32 (s.ms 1) ++ bvBytes 32 (Config.romDigest 1)) else s.ms 1) ∧
        t.ms 3 = sha3v (bvBytes 32 (s.ms 3) ++ bvBytes 32 (sha3v (ownerBytes s.water))) ∧
        t.ms 0 = sha3v (bvBytes 32 (s.ms 0) ++ bvBytes 32 (Config.romDigest 0)) ∧
        t.ms 2 = sha3v (bvBytes 32 (s.ms 2) ++ bvBytes 32 (sha3v (staged s 0 0x40))) ∧ t.ms 4 = s.ms 4 ∧ t.cores = s.cores)) ∧
    (s.water.power = .rom → 0 ∈ s.host.rung → containerOk s = false → Safety.deniesOpen (exec (.fwLoad 0) s) s 0) ∧
    (isReady s = true → hasLeader s 0 = true → s.host.rung.head? = some 0 → Safety.denies (exec (.fwLoad 0) s) s 0 0xE4)) ∧
  (∀ (s : State) (sl : Nat), Safety.asked sl 0x02 s →
    let same := fun (t : State) => { t with host := s.host } = s
    (∀ nonce mask, mask ≠ 0 → Safety.answers (exec (.quote sl nonce mask) s) s sl 0
      (quoteBody s nonce mask ++ Config.deviceSign (quoteBody s nonce mask)) same) ∧
    Safety.answers (exec (.quoteIdentity sl) s) s sl 0 (Config.pubKey 2 ++ Config.certificate) same) ∧
  (∀ (s : State) (sl j : Nat) (dig : BitVec 256), Safety.asked sl 0x03 s →
    (j < 5 → Safety.denies (exec (.extend sl j dig) s) s sl 0xE5) ∧
    (8 ≤ j → Safety.deniesOpen (exec (.extend sl j dig) s) s sl) ∧
    (5 ≤ j → j < 8 → Safety.answers (exec (.extend sl j dig) s) s sl 0 [] (fun t =>
      t.ms j = sha3v (bvBytes 32 (s.ms j) ++ bvBytes 32 dig) ∧ (∀ i, i ≠ j → t.ms i = s.ms i) ∧ t.cores = s.cores))) ∧
  (∀ (s : State) (sl : Nat) (hs : List (BitVec 256)), Safety.asked sl 0x04 s → Safety.argsAre sl (hs.flatMap (bvBytes 32)) s →
    (s.water.owners ≠ [] → Safety.denies (exec (.ownerInstall sl hs) s) s sl 0xE3) ∧
    (s.water.owners = [] → (hs = [] ∨ 4 < hs.length) → Safety.denies (exec (.ownerInstall sl hs) s) s sl 0xE5) ∧
    (s.water.owners = [] → 1 ≤ hs.length → hs.length ≤ 4 → Safety.answers (exec (.ownerInstall sl hs) s) s sl 0 [] (fun t =>
      t.water.owners = hs ∧ t.ms 3 = sha3v (bvBytes 32 (s.ms 3) ++ bvBytes 32 (sha3v (ownerBytes t.water)))))) ∧
  (∀ (s : State) (sl : Nat) (tok : List Byte) (i : Instr) (cmd magic : Nat) (signer : Bool), Safety.argsAre sl tok s →
    ((i = .ownerRelease sl tok ∧ cmd = 0x05 ∧ magic = 0x534C4552 ∧ signer = ownerKey s (tokenKey tok)) ∨
      (i = .ownerRecover sl tok ∧ cmd = 0x06 ∧ magic = 0x56434552 ∧
        signer = (sha3 (tokenKey tok) == sha3 (Config.pubKey 1) && s.water.strap))) → Safety.asked sl cmd s →
    ((s.heats.any (fun h => h.st != .complete) = true ∨ s.water.awaiting = true) → Safety.denies (exec i s) s sl 0xE4) ∧
    (s.heats.any (fun h => h.st != .complete) = false → s.water.awaiting = false →
      (¬ (tokenOk s magic tok = true ∧ signer = true) → Safety.denies (exec i s) s sl 0xE3) ∧
      (tokenOk s magic tok = true → signer = true → Safety.answers (exec i s) s sl 0 [] (fun t =>
        t.water.owners = [] ∧ t.ms 3 = sha3v (bvBytes 32 (s.ms 3) ++ bvBytes 32 (sha3v (ownerBytes t.water))) ∧
        t.host.nonces = s.host.nonces + 1 ∧ t.images = [] ∧ t.bad = [] ∧ t.water.preauth = 0 ∧
        (∀ a, a < boatKey 0 → memGet t.mem a = 0) ∧ (∀ a, boatKey 0x101000 ≤ a → a < stageKey 0 → memGet t.mem a = 0) ∧
        (∀ l k, tget (t.lane l).table k 0 = 0) ∧ (∀ c n, (t.core c).tile n = 0 ∧ (t.core c).vreg n = 0)))))

/-- SAVE_DIR answers COUNT and up to 15 records from its index, above COUNT it completes RANGE. RESTORE of no set of
the directory, or after the release, completes with a code and does nothing; before it, of a whole set without core
sections, it waits in RUN while a heat of the context runs and the set has a global range; else the bytes of a set of
one global range, every page of it writable, are those of the save area. SAVE_RELEASE empties the manifest and the
directory and opens admission. DRILL and PREAUTH complete AUTH when the signature does not verify; else the drill
limit is a multiple of 4 KiB and the mask below 8, or RANGE. LIFE_READ answers the bytes of the lifetime records,
RANGE outside them. REJOIN with every link in service ends island mode with cox S leading at the next generation, else
BUSY. The model's: RANGE for a mask or a drill limit and the code of a refused RESTORE (log 34), REJOIN outside island
mode (log 66), SAVE_RELEASE with no save (log 67), the bytes LIFE_READ admits (log 68). (R371; R389; R390; R399; R401;
R408; R410; section "After restart") -/
def Obligations.MailboxSavesRepairsAndRecords : Prop :=
  (∀ (s : State) (sl j : Nat), Safety.asked sl 0x30 s → Safety.argsAre sl (natBytes 4 j) s →
    (s.water.dir.length < j → Safety.denies (exec (.saveDir sl j) s) s sl 0xE5) ∧
    (j ≤ s.water.dir.length → Safety.answers (exec (.saveDir sl j) s) s sl 0
      (natBytes 4 s.water.dir.length ++ List.replicate 60 0 ++ ((s.water.dir.drop j).take 15).flatMap dirBytes)
      (fun t => { t with host := s.host } = s))) ∧
  (∀ (s : State) (sl setid ctx target : Nat), Safety.asked sl 0x31 s →
    (s.water.awaiting = false ∨ s.water.dir.find? (fun d => d.set.setid == setid && d.set.ctx == ctx) = none) →
    Safety.deniesOpen (exec (.restore sl setid ctx target) s) s sl) ∧
  (∀ (s : State) (sl setid ctx target b n : Nat) (d : DirRec), Safety.asked sl 0x31 s → s.water.awaiting = true →
    s.water.dir.find? (fun d => d.set.setid == setid && d.set.ctx == ctx) = some d → d.st = .whole → d.set.st = false →
    d.set.ranges = [(b, n, 0xFFFF)] → rangeWritable s ctx b n = true →
    (ctxRuns s ctx = true → ∃ t, exec (.restore sl setid ctx target) s = .next t ∧ { t with host := s.host } = s ∧
      t.slot sl = { s.slot sl with st := .run } ∧ t.host.rung = s.host.rung) ∧
    (ctxRuns s ctx = false → s.bridgeDown = false → Safety.answers (exec (.restore sl setid ctx target) s) s sl 0 [] (fun t =>
      (∀ i, i < n → memGet t.mem (globKey ctx (b + i)) = memGet s.mem (boatKey (d.p + 4096 + i))) ∧ t.cores = s.cores))) ∧
  (∀ (s : State) (sl : Nat), Safety.asked sl 0x32 s →
    (s.water.awaiting = true → Safety.answers (exec (.saveRelease sl) s) s sl 0 [] (fun t =>
      t.water.awaiting = false ∧ t.water.dir = [] ∧ admitted t = [])) ∧
    (s.water.awaiting = false → Safety.answers (exec (.saveRelease sl) s) s sl 0 [] (fun t => { t with host := s.host } = s))) ∧
  (∀ (s : State) (sl l : Nat) (a : OwnerSig), Safety.asked sl 0x33 s →
    let r := exec (.drill sl l a) s
    let ok := s.water.owners = [] ∨ (ownerKey s a.pk = true ∧
      Config.verifies a.pk (sha3 (natBytes 2 0x33 ++ natBytes 8 l ++ bvBytes 32 (Config.nonce s.host.nonces))) a.sig = true)
    (¬ ok → Safety.denies r s sl 0xE3) ∧
    (ok → (l % 4096 ≠ 0 ∨ l < 4096) → Safety.denies r s sl 0xE5) ∧
    (ok → l % 4096 = 0 → 4096 ≤ l → Safety.answers r s sl 0 [] (fun t => t.water.drill = some l ∧ t.cores = s.cores ∧
      t.ms 4 = sha3v (bvBytes 32 (s.ms 4) ++ bvBytes 32 (sha3v (natBytes 2 0x33 ++ natBytes 8 l)))))) ∧
  (∀ (s : State) (sl : Nat) (mask : BitVec 8) (a : OwnerSig), Safety.asked sl 0x40 s →
    let r := exec (.preauth sl mask a) s
    let ok := s.water.owners = [] ∨ (ownerKey s a.pk = true ∧
      Config.verifies a.pk (sha3 (natBytes 2 0x40 ++ [mask] ++ bvBytes 32 (Config.nonce s.host.nonces))) a.sig = true)
    (¬ ok → Safety.denies r s sl 0xE3) ∧
    (ok → 8 ≤ mask.toNat → Safety.denies r s sl 0xE5) ∧
    (ok → mask.toNat < 8 → Safety.answers r s sl 0 [] (fun t => t.water.preauth.toNat = mask.toNat ∧ t.cores = s.cores))) ∧
  (∀ (s : State) (sl off n : Nat), Safety.asked sl 0x41 s →
    let r := exec (.lifeRead sl off n) s
    ((off < 0x10000 ∨ 0x100000 < off + n) → Safety.denies r s sl 0xE5) ∧
    (0x10000 ≤ off → off + n ≤ 0x100000 → n ≤ 4032 →
      Safety.answers r s sl 0 (memRead s.mem (boatKey off) n) (fun t => { t with host := s.host } = s))) ∧
  (∀ (s : State) (sl : Nat), Safety.asked sl 0x42 s → s.form.hasDie 1 = true →
    (s.bridge.failed ≠ [] → Safety.denies (exec (.rejoin sl) s) s sl 0xE4) ∧
    (s.bridge.failed = [] → Safety.answers (exec (.rejoin sl) s) s sl 0 [] (fun t =>
      t.bridge.island = false ∧ t.coxS = ⟨true, true, false, Nat.max s.coxS.gen s.coxB.gen + 1, (s.die 0).tb.toNat⟩ ∧
        t.coxB.lead = false ∧ t.coxB.up = true ∧ t.cores = s.cores)))

/-- When one of the named words of the AP answers a next state: every a register but its destination (a31 for call),
every predicate but the one it writes, memory, every other core, every crew, die, map and host field are as before; of
the core only that register file, the AP's pc, loop stack, landing bit, status, and, when it took a fault, FADDR,
FCODE and the pending deliveries can differ, and what the side waits for and that it acted (R301); VT and G only under
an lsp entry. The same holds of the named scalar words of the XP and x registers, where float words may also raise
FLAGS. No word changes the mode or the running task. (R12; R13; R28; R76; R82; R84; R86; R87; R160; section "Register
files") -/
def Obligations.RegisterWordsKeepTheRest : Prop :=
  let others := fun (s t : State) => { t with cores := s.cores, acted := s.acted } = s ∧ ∀ c, c ≠ s.cur.core → t.core c = s.core c
  let sideKeeps := fun (x y : SideSt) => { y with pc := x.pc, run := x.run, land := x.land, loops := x.loops, faddr := x.faddr, fcode := x.fcode, wait := x.wait } = x
  let calm := fun (s t : State) =>
    (s.mySide.run = .run → t.mySide.run = .run →
      t.mySide.faddr = s.mySide.faddr ∧ t.mySide.fcode = s.mySide.fcode ∧ t.me.pending = s.me.pending ∧ t.me.held = s.me.held) ∧
    ((∀ e ∈ s.mySide.loops, e.sl = 0) → t.me.vt = s.me.vt ∧ t.me.g = s.me.g)
  ∀ (s t : State) (d a b p q r n w c : Nat) (i : BitVec 13) (j : BitVec 32) (o : BitVec 18), s.cur.eng = none →
    (s.cur.side = .ap →
      let rest := others s t ∧ calm s t ∧ sideKeeps s.me.ap t.me.ap ∧
        { t.me with ap := s.me.ap, aregs := s.me.aregs, preds := s.me.preds, vt := s.me.vt, g := s.me.g,
                    pending := s.me.pending, held := s.me.held } = s.me
      (∀ x ∈ [Instr.add d a b, .sub d a b, .and d a b, .or d a b, .xor d a b, .andn d a b, .shl d a b, .shr d a b, .sra d a b,
          .mul d a b, .mulh d a b, .mulhz d a b, .div d a b, .rem d a b, .divz d a b, .remz d a b, .min d a b, .max d a b,
          .minz d a b, .maxz d a b, .sel d a b p, .sext d a w, .zext d a w, .clz d a, .popc d a, .addi d a i, .andi d a i,
          .ori d a i, .xori d a i, .shli d a n, .shri d a n, .srai d a n, .li d i, .lil d j, .addil d a j, .csrr d c,
          .cvtaTo d a w, .cvtaOf d a w, .jr d a],
        exec x s = .next t → rest ∧ (∀ k, k ≠ d → t.me.areg k = s.me.areg k) ∧ t.me.preds = s.me.preds) ∧
      (∀ x ∈ [Instr.cmp p a b c, .cmpiEq p a i, .cmpiNe p a i, .cmpiLt p a i, .cmpiGe p a i, .cmpiLtz p a i, .cmpiGez p a i,
          .pand p q r, .por p q r, .pxor p q r, .pnot p q, .isap p a w],
        exec x s = .next t → rest ∧ t.me.aregs = s.me.aregs ∧ ∀ k, k ≠ p → k < 8 → p < 8 → t.me.pred k = s.me.pred k) ∧
      (∀ x ∈ [Instr.br o, .bp p o, .bnp p o, .loop a o, .chk a],
        exec x s = .next t → rest ∧ t.me.aregs = s.me.aregs ∧ t.me.preds = s.me.preds) ∧
      (exec (.call o) s = .next t → rest ∧ (∀ k, k ≠ 31 → t.me.areg k = s.me.areg k) ∧ t.me.preds = s.me.preds)) ∧
    (s.cur.side = .xp →
      let rest := others s t ∧ calm s t ∧ sideKeeps s.me.xp t.me.xp
      (∀ x ∈ [Instr.xpAdd d a b, .xpSub d a b, .xpAnd d a b, .xpOr d a b, .xpXor d a b, .xpShl d a b, .xpShr d a b, .xpSra d a b,
          .xpMul d a b, .xpMin d a b, .xpMax d a b, .xpSel d a b c, .xpCmp d a b c, .xpCsrr d c, .xpAddi d a i, .xpLi d i,
          .xpLil d j, .xpAddil d a j, .xpB o, .xpBp a o, .xpLoop a o, .xfence],
        exec x s = .next t → rest ∧ (∀ k, k ≠ d → t.me.xreg k = s.me.xreg k) ∧
          { t.me with xp := s.me.xp, xregs := s.me.xregs, vt := s.me.vt, g := s.me.g, pending := s.me.pending,
                      held := s.me.held } = s.me) ∧
      (∀ x ∈ [Instr.fadd d a b n, .fmul d a b n, .fma d a b n],
        exec x s = .next t → rest ∧ (∀ k, k ≠ d → t.me.xreg k = s.me.xreg k) ∧
          (∀ k, s.me.flags.getLsbD k = true → t.me.flags.getLsbD k = true) ∧
          { t.me with xp := s.me.xp, xregs := s.me.xregs, vt := s.me.vt, g := s.me.g, pending := s.me.pending,
                      held := s.me.held, flags := s.me.flags } = s.me))

/-- Whenever the step answers a next state. ld, ld.acq and lds write no a register but their destination, and no byte
that either die sees (an acquire at .dev or .sys: no byte outside its line); st and st.rel no register, and, at the
address computed as the word computes it, no byte outside the stored ones and their line, nor in that line where no
die holds it back (a release at .dev or .sys: when its die holds no dirty line and waits for no invalidation); a store
whose check fails, none. A queued word of an engine changes no x, v or m register, tile or plane but those it names,
only raises FLAGS, and no byte but the 512 at HEAD of its destination's sink port; of other cores only the seat it
frees. A SYNC word other than rtt, must and unmust, a stream, queue or engine word: no register of any core but its
destination, no side but its own control and the task queues it fills; those that release nothing, no byte; those that
do, none when no cache line is dirty, but a future's eight; ssave and srest not said. A step of a record, filler,
drainer, slot transfer, lane or netting engine: of each core only its streams, rings, hold buffer, synchronisation
records and deliveries; a filler (no moving sink having elements to write under its run: R261, log 9) and a slot
transfer store only at HEAD of the ring; the chunks that move or accumulate, without DEVREL and a future to resolve,
and a drainer, only in the spans computed, and their lines. The lines of each die's remote-line cache are homed on the
other die, at reset and after every step from a state where they are. (R9; R92; R93; R95; R98; R142; R172; R189; R207;
R265; R272; section "Loads and stores") -/
def Obligations.WordsAndRecordsKeepTheRest : Prop :=
  let others := fun (s t : State) => (∀ c, c ≠ s.cur.core → t.core c = s.core c) ∧
    { t with cores := s.cores, mem := s.mem, bad := s.bad, dies := s.dies, bridge := s.bridge, cur := s.cur, acted := s.acted,
             past := s.past, count := s.count } = s
  let core := fun (s t : State) => t.me.preds = s.me.preds ∧
    { t.me.ap with pc := s.me.ap.pc, run := s.me.ap.run, land := s.me.ap.land, loops := s.me.ap.loops, faddr := s.me.ap.faddr, fcode := s.me.ap.fcode, wait := s.me.ap.wait } = s.me.ap ∧
    { t.me with ap := s.me.ap, aregs := s.me.aregs, lds := s.me.lds, vt := s.me.vt, g := s.me.g, pending := s.me.pending, held := s.me.held } = s.me
  let noDirty := fun (s : State) (die : Nat) => ∀ l ∈ (s.die die).rlc, l.dirty = false
  (∀ (s t : State) (inv z : Bool) (w d a sc : Nat) (i : BitVec 13), s.cur.eng = none → s.cur.side = .ap → s.cur.lost = false → w ≤ 3 →
    s.ctxOf s.cur.core < 16 →
    (∀ x ∈ [Instr.ld inv z w d a i, .lds z w d a i, .ldAcq w d a z sc], exec x s = .next t →
      others s t ∧ core s t ∧ (∀ k, k ≠ d → t.me.areg k = s.me.areg k)) ∧
    (∀ q, Safety.placed q = true →
      (∀ x ∈ [Instr.ld inv z w d a i, .lds z w d a i], exec x s = .next t → Safety.alike s t q) ∧
      (exec (.ldAcq w d a z sc) s = .next t →
        (sc < 3 ∨ ∃ p, s.place s.cur.core (s.me.areg a).val = some p ∧ Safety.apart p q) → Safety.alike s t q)) ∧
    (∀ (x : Instr) (ea : Addr),
      ((x = .st w d a i ∧ ea = (s.me.areg a).val + i.signExtend 64) ∨ (x = .stRel w d a sc ∧ ea = (s.me.areg a).val)) →
      exec x s = .next t →
      others s t ∧ core s t ∧ t.me.aregs = s.me.aregs ∧ t.me.lds = s.me.lds ∧
      ∀ q, Safety.placed q = true →
        ((match checkAccess s s.cur.core ea (2 ^ w) .store with
          | .error _ => True
          | .ok _ => False) → Safety.alike s t q) ∧
        (∀ p, checkAccess s s.cur.core ea (2 ^ w) .store = .ok p →
          let mine := dieOf s.cur.core
          (x = .st w d a i ∨ sc < 3 ∨ (noDirty s mine ∧ (s.die (1 - mine)).invs = [])) →
          let free := fun (ctx line : Nat) =>
            (ctx, line) ∉ (s.die mine).invs ∧
            (∀ l, (s.die (1 - mine)).line ctx line = some l → l.dirty = false) ∧
            (s.cacheable p = true ∨ ∀ l, (s.die mine).line ctx line = some l → l.dirty = false)
          (q.key < p.key ∨ p.key + 2 ^ w ≤ q.key) →
          (Safety.apart p q ∨ ∀ ctx line, Safety.lineOf p = some (ctx, line) → free ctx line) → Safety.alike s t q))) ∧
  (∀ (s t : State) (i : Instr), isQueued i.unit = true → (∀ v, i = .rpop v → v < 96) → s.cur.eng.isSome = true → s.cur.side = .xp →
    exec i s = .next t → Safety.engineKeeps i s t) ∧
  (∀ (s t : State) (d a b r n m h w k : Nat) (p f : Bool), s.cur.eng = none →
    let calm := [Instr.nop, .endTask, .barm a b, .barmClr a b, .hand a b, .trap n, .slip a, .halt, .pixw a b]
    let fills := [Instr.wait d a n m, .bwait d a p b, .tsr d, .sysXpage d a, .sysXctx d a, .sysTbsync d a, .pixr d n]
    let rels := [Instr.spawnAp r a b, .spawnXp r a b, .raise a n m, .hbarHeat a, .hbarGroup a h w, .fence n]
    let streams := [Instr.shape k a, .sopen k a b, .sld k a b, .sfill k a, .sfillRes k, .sfork n m p f w, .smark k, .smarkClr k,
      .srew k, .sclose k, .scloseFin k, .qput n a]
    let reads := [Instr.sdrain d k, .sstat d k, .cmd d a r, .cengStat d r, .cengSeq d r, .cengWait d a r, .cengRes d r, .qget d n]
    let rest := fun (x y : Core) =>
      { y with ap := x.ap, xp := x.xp, aregs := x.aregs, xregs := x.xregs, vt := x.vt, g := x.g, semas := x.semas, bars := x.bars,
               pool := x.pool, rings := x.rings, pending := x.pending, held := x.held, slip := x.slip, pixVec := x.pixVec,
               pixMtx := x.pixMtx, pixFun := x.pixFun } = x
    (∀ x ∈ calm ++ rels ++ [.fres a b, .ffault a b], exec x s = .next t → Safety.sidesKeep none s t ∧ ∀ c, rest (s.core c) (t.core c)) ∧
    (∀ x ∈ fills ++ [.fwait d a b, .sysRlc d a], exec x s = .next t → Safety.sidesKeep (some d) s t ∧ ∀ c, rest (s.core c) (t.core c)) ∧
    (∀ x ∈ streams ++ [.ssave k a, .srest a], exec x s = .next t → Safety.sidesKeep none s t) ∧
    (∀ x ∈ reads ++ [.cengDrop d r], exec x s = .next t → Safety.sidesKeep (some d) s t) ∧
    (∀ x ∈ calm ++ fills ++ streams ++ reads, exec x s = .next t → t.mem = s.mem) ∧
    (noDirty s (dieOf s.cur.core) →
      (∀ x ∈ rels, exec x s = .next t → t.mem = s.mem) ∧
      (noDirty s (1 - dieOf s.cur.core) → exec (.sysRlc d a) s = .next t → t.mem = s.mem) ∧
      ∀ x ∈ [Instr.fwait d a b, .fres a b, .ffault a b], exec x s = .next t → ∀ e,
        (∀ y, futurePlace s (s.rd a) = .ok y → e < y.key ∨ y.key + 8 ≤ e) → memGet t.mem e = memGet s.mem e)) ∧
  (∀ (s t : State) (c r k n m : Nat),
    let u := asSide c .ap s
    let moves := [Instr.copy c r k, .copyDecode c r k, .fill c r k, .ragged c r k, .gather c r k, .scatter c r k, .accwAdd c r k,
      .accwAdds c r k, .accwFadd c r k, .accwXadd c r k, .accwOr c r k, .accwAnd c r k, .accwXor c r k, .accwMin c r k,
      .accwMax c r k, .accwFmin c r k, .accwFmax c r k, .accwSwap c r k, .accwCas c r k]
    let marks := [Instr.laneLoad c r k, .laneRun c r, .net c r, .qfence c r, .semaSignal c r, .semaSet c r]
    let b := headBytes ((s.core c).ring r)
    (∀ x ∈ moves ++ marks ++ [.engineHeadStart c r, .fillerCommit c n, .drainerWrite c n m, .coreSlotTransfer c n, .laneStep k,
        .laneLoopLimit k, .netReceiverDone m k, .netSeatRelease m k],
      exec x s = .next t → Safety.coresKeep s t) ∧
    (rkRaiseKind b ≠ 2 → rkDevrel b = false →
      (∀ x ∈ marks, exec x s = .next t → t.mem = s.mem) ∧
      (s.cur.link = none → s.ctxOf c < 16 → ∀ x ∈ moves, exec x s = .next t → ∀ q, Safety.placed q = true →
        Safety.clear u c (Safety.chunkSpans u c r k b) q → Safety.alike s t q)) ∧
    (∀ st, tfind (s.core c).streams n = some st →
      (exec (.fillerCommit c n) s = .next t →
        (∀ a m i q, st.slds = (a, m, i) :: q → Safety.settled u c a m) →
        (st.slds = [] → Safety.settled u c (runAddr st.shape st.walkBase st.walkRun) (shLen st.shape)) → ∀ a,
        (∀ x q, tfind (t.core c).streams n = some x → st.head ≤ q → q < x.head → a ≠ ringKey (s.core c) c st (opSwz st.openw) q) →
        memGet t.mem a = memGet s.mem a) ∧
      (s.cur.link = none → s.ctxOf c < 16 → exec (.drainerWrite c n m) s = .next t → ∀ q, Safety.placed q = true →
        Safety.beyond s c (runAddr st.shape st.walkBase st.walkRun + BitVec.ofNat 64 st.walkOfs)
          (Nat.min m (shLen st.shape - st.walkOfs)) q → Safety.alike s t q) ∧
      (exec (.coreSlotTransfer c n) s = .next t → ∀ a,
        (∀ x q, tfind (s.core (opPeer st.openw)).streams (opPeerPort st.openw) = some x → x.head ≤ q → q < x.head + opSlot st.openw →
          a ≠ ringKey (s.core (opPeer st.openw)) (opPeer st.openw) x 0 q) → memGet t.mem a = memGet s.mem a))) ∧
  (Safety.farLines 0 State.reset ∧ Safety.farLines 1 State.reset ∧
    ∀ s t : State, Safety.farLines 0 s → Safety.farLines 1 s → step s = .next t → Safety.farLines 0 t ∧ Safety.farLines 1 t)
end

