-- ==== Sys2Proof/Laws/State.lean ====
section
/-! SUPPORT. What each update of State leaves in each other field: one lemma per field per update. -/

namespace Sys2Proof.Machine

/-! ### State.setCore -/

section

variable (s : State) (c : Nat) (k : Core)

@[simp] theorem State.setCore_form : (s.setCore c k).form = s.form := rfl
@[simp] theorem State.setCore_crews : (s.setCore c k).crews = s.crews := rfl
@[simp] theorem State.setCore_dies : (s.setCore c k).dies = s.dies := rfl
@[simp] theorem State.setCore_lanes : (s.setCore c k).lanes = s.lanes := rfl
@[simp] theorem State.setCore_mem : (s.setCore c k).mem = s.mem := rfl
@[simp] theorem State.setCore_bad : (s.setCore c k).bad = s.bad := rfl
@[simp] theorem State.setCore_past : (s.setCore c k).past = s.past := rfl
@[simp] theorem State.setCore_turns : (s.setCore c k).turns = s.turns := rfl
@[simp] theorem State.setCore_pages : (s.setCore c k).pages = s.pages := rfl
@[simp] theorem State.setCore_ctxs : (s.setCore c k).ctxs = s.ctxs := rfl
@[simp] theorem State.setCore_heats : (s.setCore c k).heats = s.heats := rfl
@[simp] theorem State.setCore_queues : (s.setCore c k).queues = s.queues := rfl
@[simp] theorem State.setCore_again : (s.setCore c k).again = s.again := rfl
@[simp] theorem State.setCore_nextNum : (s.setCore c k).nextNum = s.nextNum := rfl
@[simp] theorem State.setCore_accepts : (s.setCore c k).accepts = s.accepts := rfl
@[simp] theorem State.setCore_launches : (s.setCore c k).launches = s.launches := rfl
@[simp] theorem State.setCore_lastAt : (s.setCore c k).lastAt = s.lastAt := rfl
@[simp] theorem State.setCore_resv : (s.setCore c k).resv = s.resv := rfl
@[simp] theorem State.setCore_claims : (s.setCore c k).claims = s.claims := rfl
@[simp] theorem State.setCore_images : (s.setCore c k).images = s.images := rfl
@[simp] theorem State.setCore_chans : (s.setCore c k).chans = s.chans := rfl
@[simp] theorem State.setCore_high : (s.setCore c k).high = s.high := rfl
@[simp] theorem State.setCore_low : (s.setCore c k).low = s.low := rfl
@[simp] theorem State.setCore_shed : (s.setCore c k).shed = s.shed := rfl
@[simp] theorem State.setCore_host : (s.setCore c k).host = s.host := rfl
@[simp] theorem State.setCore_coxS : (s.setCore c k).coxS = s.coxS := rfl
@[simp] theorem State.setCore_coxB : (s.setCore c k).coxB = s.coxB := rfl
@[simp] theorem State.setCore_water : (s.setCore c k).water = s.water := rfl
@[simp] theorem State.setCore_bridge : (s.setCore c k).bridge = s.bridge := rfl
@[simp] theorem State.setCore_plan : (s.setCore c k).plan = s.plan := rfl
@[simp] theorem State.setCore_count : (s.setCore c k).count = s.count := rfl
@[simp] theorem State.setCore_acted : (s.setCore c k).acted = s.acted := rfl
@[simp] theorem State.setCore_cur : (s.setCore c k).cur = s.cur := rfl

end

/-! ### State.modCore -/

section

variable (s : State) (c : Nat) (f : Core → Core)

@[simp] theorem State.modCore_form : (s.modCore c f).form = s.form := rfl
@[simp] theorem State.modCore_crews : (s.modCore c f).crews = s.crews := rfl
@[simp] theorem State.modCore_dies : (s.modCore c f).dies = s.dies := rfl
@[simp] theorem State.modCore_lanes : (s.modCore c f).lanes = s.lanes := rfl
@[simp] theorem State.modCore_mem : (s.modCore c f).mem = s.mem := rfl
@[simp] theorem State.modCore_bad : (s.modCore c f).bad = s.bad := rfl
@[simp] theorem State.modCore_past : (s.modCore c f).past = s.past := rfl
@[simp] theorem State.modCore_turns : (s.modCore c f).turns = s.turns := rfl
@[simp] theorem State.modCore_pages : (s.modCore c f).pages = s.pages := rfl
@[simp] theorem State.modCore_ctxs : (s.modCore c f).ctxs = s.ctxs := rfl
@[simp] theorem State.modCore_heats : (s.modCore c f).heats = s.heats := rfl
@[simp] theorem State.modCore_queues : (s.modCore c f).queues = s.queues := rfl
@[simp] theorem State.modCore_again : (s.modCore c f).again = s.again := rfl
@[simp] theorem State.modCore_nextNum : (s.modCore c f).nextNum = s.nextNum := rfl
@[simp] theorem State.modCore_accepts : (s.modCore c f).accepts = s.accepts := rfl
@[simp] theorem State.modCore_launches : (s.modCore c f).launches = s.launches := rfl
@[simp] theorem State.modCore_lastAt : (s.modCore c f).lastAt = s.lastAt := rfl
@[simp] theorem State.modCore_resv : (s.modCore c f).resv = s.resv := rfl
@[simp] theorem State.modCore_claims : (s.modCore c f).claims = s.claims := rfl
@[simp] theorem State.modCore_images : (s.modCore c f).images = s.images := rfl
@[simp] theorem State.modCore_chans : (s.modCore c f).chans = s.chans := rfl
@[simp] theorem State.modCore_high : (s.modCore c f).high = s.high := rfl
@[simp] theorem State.modCore_low : (s.modCore c f).low = s.low := rfl
@[simp] theorem State.modCore_shed : (s.modCore c f).shed = s.shed := rfl
@[simp] theorem State.modCore_host : (s.modCore c f).host = s.host := rfl
@[simp] theorem State.modCore_coxS : (s.modCore c f).coxS = s.coxS := rfl
@[simp] theorem State.modCore_coxB : (s.modCore c f).coxB = s.coxB := rfl
@[simp] theorem State.modCore_water : (s.modCore c f).water = s.water := rfl
@[simp] theorem State.modCore_bridge : (s.modCore c f).bridge = s.bridge := rfl
@[simp] theorem State.modCore_plan : (s.modCore c f).plan = s.plan := rfl
@[simp] theorem State.modCore_count : (s.modCore c f).count = s.count := rfl
@[simp] theorem State.modCore_acted : (s.modCore c f).acted = s.acted := rfl
@[simp] theorem State.modCore_cur : (s.modCore c f).cur = s.cur := rfl

end

/-! ### State.modMe -/

section

variable (s : State) (f : Core → Core)

@[simp] theorem State.modMe_form : (s.modMe f).form = s.form := rfl
@[simp] theorem State.modMe_crews : (s.modMe f).crews = s.crews := rfl
@[simp] theorem State.modMe_dies : (s.modMe f).dies = s.dies := rfl
@[simp] theorem State.modMe_lanes : (s.modMe f).lanes = s.lanes := rfl
@[simp] theorem State.modMe_mem : (s.modMe f).mem = s.mem := rfl
@[simp] theorem State.modMe_bad : (s.modMe f).bad = s.bad := rfl
@[simp] theorem State.modMe_past : (s.modMe f).past = s.past := rfl
@[simp] theorem State.modMe_turns : (s.modMe f).turns = s.turns := rfl
@[simp] theorem State.modMe_pages : (s.modMe f).pages = s.pages := rfl
@[simp] theorem State.modMe_ctxs : (s.modMe f).ctxs = s.ctxs := rfl
@[simp] theorem State.modMe_heats : (s.modMe f).heats = s.heats := rfl
@[simp] theorem State.modMe_queues : (s.modMe f).queues = s.queues := rfl
@[simp] theorem State.modMe_again : (s.modMe f).again = s.again := rfl
@[simp] theorem State.modMe_nextNum : (s.modMe f).nextNum = s.nextNum := rfl
@[simp] theorem State.modMe_accepts : (s.modMe f).accepts = s.accepts := rfl
@[simp] theorem State.modMe_launches : (s.modMe f).launches = s.launches := rfl
@[simp] theorem State.modMe_lastAt : (s.modMe f).lastAt = s.lastAt := rfl
@[simp] theorem State.modMe_resv : (s.modMe f).resv = s.resv := rfl
@[simp] theorem State.modMe_claims : (s.modMe f).claims = s.claims := rfl
@[simp] theorem State.modMe_images : (s.modMe f).images = s.images := rfl
@[simp] theorem State.modMe_chans : (s.modMe f).chans = s.chans := rfl
@[simp] theorem State.modMe_high : (s.modMe f).high = s.high := rfl
@[simp] theorem State.modMe_low : (s.modMe f).low = s.low := rfl
@[simp] theorem State.modMe_shed : (s.modMe f).shed = s.shed := rfl
@[simp] theorem State.modMe_host : (s.modMe f).host = s.host := rfl
@[simp] theorem State.modMe_coxS : (s.modMe f).coxS = s.coxS := rfl
@[simp] theorem State.modMe_coxB : (s.modMe f).coxB = s.coxB := rfl
@[simp] theorem State.modMe_water : (s.modMe f).water = s.water := rfl
@[simp] theorem State.modMe_bridge : (s.modMe f).bridge = s.bridge := rfl
@[simp] theorem State.modMe_plan : (s.modMe f).plan = s.plan := rfl
@[simp] theorem State.modMe_count : (s.modMe f).count = s.count := rfl
@[simp] theorem State.modMe_acted : (s.modMe f).acted = s.acted := rfl
@[simp] theorem State.modMe_cur : (s.modMe f).cur = s.cur := rfl

end

/-! ### State.modSide -/

section

variable (s : State) (c : Nat) (sd : Side) (f : SideSt → SideSt)

@[simp] theorem State.modSide_form : (s.modSide c sd f).form = s.form := rfl
@[simp] theorem State.modSide_crews : (s.modSide c sd f).crews = s.crews := rfl
@[simp] theorem State.modSide_dies : (s.modSide c sd f).dies = s.dies := rfl
@[simp] theorem State.modSide_lanes : (s.modSide c sd f).lanes = s.lanes := rfl
@[simp] theorem State.modSide_mem : (s.modSide c sd f).mem = s.mem := rfl
@[simp] theorem State.modSide_bad : (s.modSide c sd f).bad = s.bad := rfl
@[simp] theorem State.modSide_past : (s.modSide c sd f).past = s.past := rfl
@[simp] theorem State.modSide_turns : (s.modSide c sd f).turns = s.turns := rfl
@[simp] theorem State.modSide_pages : (s.modSide c sd f).pages = s.pages := rfl
@[simp] theorem State.modSide_ctxs : (s.modSide c sd f).ctxs = s.ctxs := rfl
@[simp] theorem State.modSide_heats : (s.modSide c sd f).heats = s.heats := rfl
@[simp] theorem State.modSide_queues : (s.modSide c sd f).queues = s.queues := rfl
@[simp] theorem State.modSide_again : (s.modSide c sd f).again = s.again := rfl
@[simp] theorem State.modSide_nextNum : (s.modSide c sd f).nextNum = s.nextNum := rfl
@[simp] theorem State.modSide_accepts : (s.modSide c sd f).accepts = s.accepts := rfl
@[simp] theorem State.modSide_launches : (s.modSide c sd f).launches = s.launches := rfl
@[simp] theorem State.modSide_lastAt : (s.modSide c sd f).lastAt = s.lastAt := rfl
@[simp] theorem State.modSide_resv : (s.modSide c sd f).resv = s.resv := rfl
@[simp] theorem State.modSide_claims : (s.modSide c sd f).claims = s.claims := rfl
@[simp] theorem State.modSide_images : (s.modSide c sd f).images = s.images := rfl
@[simp] theorem State.modSide_chans : (s.modSide c sd f).chans = s.chans := rfl
@[simp] theorem State.modSide_high : (s.modSide c sd f).high = s.high := rfl
@[simp] theorem State.modSide_low : (s.modSide c sd f).low = s.low := rfl
@[simp] theorem State.modSide_shed : (s.modSide c sd f).shed = s.shed := rfl
@[simp] theorem State.modSide_host : (s.modSide c sd f).host = s.host := rfl
@[simp] theorem State.modSide_coxS : (s.modSide c sd f).coxS = s.coxS := rfl
@[simp] theorem State.modSide_coxB : (s.modSide c sd f).coxB = s.coxB := rfl
@[simp] theorem State.modSide_water : (s.modSide c sd f).water = s.water := rfl
@[simp] theorem State.modSide_bridge : (s.modSide c sd f).bridge = s.bridge := rfl
@[simp] theorem State.modSide_plan : (s.modSide c sd f).plan = s.plan := rfl
@[simp] theorem State.modSide_count : (s.modSide c sd f).count = s.count := rfl
@[simp] theorem State.modSide_acted : (s.modSide c sd f).acted = s.acted := rfl
@[simp] theorem State.modSide_cur : (s.modSide c sd f).cur = s.cur := rfl

end

/-! ### State.modMySide -/

section

variable (s : State) (f : SideSt → SideSt)

@[simp] theorem State.modMySide_form : (s.modMySide f).form = s.form := rfl
@[simp] theorem State.modMySide_crews : (s.modMySide f).crews = s.crews := rfl
@[simp] theorem State.modMySide_dies : (s.modMySide f).dies = s.dies := rfl
@[simp] theorem State.modMySide_lanes : (s.modMySide f).lanes = s.lanes := rfl
@[simp] theorem State.modMySide_mem : (s.modMySide f).mem = s.mem := rfl
@[simp] theorem State.modMySide_bad : (s.modMySide f).bad = s.bad := rfl
@[simp] theorem State.modMySide_past : (s.modMySide f).past = s.past := rfl
@[simp] theorem State.modMySide_turns : (s.modMySide f).turns = s.turns := rfl
@[simp] theorem State.modMySide_pages : (s.modMySide f).pages = s.pages := rfl
@[simp] theorem State.modMySide_ctxs : (s.modMySide f).ctxs = s.ctxs := rfl
@[simp] theorem State.modMySide_heats : (s.modMySide f).heats = s.heats := rfl
@[simp] theorem State.modMySide_queues : (s.modMySide f).queues = s.queues := rfl
@[simp] theorem State.modMySide_again : (s.modMySide f).again = s.again := rfl
@[simp] theorem State.modMySide_nextNum : (s.modMySide f).nextNum = s.nextNum := rfl
@[simp] theorem State.modMySide_accepts : (s.modMySide f).accepts = s.accepts := rfl
@[simp] theorem State.modMySide_launches : (s.modMySide f).launches = s.launches := rfl
@[simp] theorem State.modMySide_lastAt : (s.modMySide f).lastAt = s.lastAt := rfl
@[simp] theorem State.modMySide_resv : (s.modMySide f).resv = s.resv := rfl
@[simp] theorem State.modMySide_claims : (s.modMySide f).claims = s.claims := rfl
@[simp] theorem State.modMySide_images : (s.modMySide f).images = s.images := rfl
@[simp] theorem State.modMySide_chans : (s.modMySide f).chans = s.chans := rfl
@[simp] theorem State.modMySide_high : (s.modMySide f).high = s.high := rfl
@[simp] theorem State.modMySide_low : (s.modMySide f).low = s.low := rfl
@[simp] theorem State.modMySide_shed : (s.modMySide f).shed = s.shed := rfl
@[simp] theorem State.modMySide_host : (s.modMySide f).host = s.host := rfl
@[simp] theorem State.modMySide_coxS : (s.modMySide f).coxS = s.coxS := rfl
@[simp] theorem State.modMySide_coxB : (s.modMySide f).coxB = s.coxB := rfl
@[simp] theorem State.modMySide_water : (s.modMySide f).water = s.water := rfl
@[simp] theorem State.modMySide_bridge : (s.modMySide f).bridge = s.bridge := rfl
@[simp] theorem State.modMySide_plan : (s.modMySide f).plan = s.plan := rfl
@[simp] theorem State.modMySide_count : (s.modMySide f).count = s.count := rfl
@[simp] theorem State.modMySide_acted : (s.modMySide f).acted = s.acted := rfl
@[simp] theorem State.modMySide_cur : (s.modMySide f).cur = s.cur := rfl

end

/-! ### State.modRing -/

section

variable (s : State) (c r : Nat) (f : Ring → Ring)

@[simp] theorem State.modRing_form : (s.modRing c r f).form = s.form := rfl
@[simp] theorem State.modRing_crews : (s.modRing c r f).crews = s.crews := rfl
@[simp] theorem State.modRing_dies : (s.modRing c r f).dies = s.dies := rfl
@[simp] theorem State.modRing_lanes : (s.modRing c r f).lanes = s.lanes := rfl
@[simp] theorem State.modRing_mem : (s.modRing c r f).mem = s.mem := rfl
@[simp] theorem State.modRing_bad : (s.modRing c r f).bad = s.bad := rfl
@[simp] theorem State.modRing_past : (s.modRing c r f).past = s.past := rfl
@[simp] theorem State.modRing_turns : (s.modRing c r f).turns = s.turns := rfl
@[simp] theorem State.modRing_pages : (s.modRing c r f).pages = s.pages := rfl
@[simp] theorem State.modRing_ctxs : (s.modRing c r f).ctxs = s.ctxs := rfl
@[simp] theorem State.modRing_heats : (s.modRing c r f).heats = s.heats := rfl
@[simp] theorem State.modRing_queues : (s.modRing c r f).queues = s.queues := rfl
@[simp] theorem State.modRing_again : (s.modRing c r f).again = s.again := rfl
@[simp] theorem State.modRing_nextNum : (s.modRing c r f).nextNum = s.nextNum := rfl
@[simp] theorem State.modRing_accepts : (s.modRing c r f).accepts = s.accepts := rfl
@[simp] theorem State.modRing_launches : (s.modRing c r f).launches = s.launches := rfl
@[simp] theorem State.modRing_lastAt : (s.modRing c r f).lastAt = s.lastAt := rfl
@[simp] theorem State.modRing_resv : (s.modRing c r f).resv = s.resv := rfl
@[simp] theorem State.modRing_claims : (s.modRing c r f).claims = s.claims := rfl
@[simp] theorem State.modRing_images : (s.modRing c r f).images = s.images := rfl
@[simp] theorem State.modRing_chans : (s.modRing c r f).chans = s.chans := rfl
@[simp] theorem State.modRing_high : (s.modRing c r f).high = s.high := rfl
@[simp] theorem State.modRing_low : (s.modRing c r f).low = s.low := rfl
@[simp] theorem State.modRing_shed : (s.modRing c r f).shed = s.shed := rfl
@[simp] theorem State.modRing_host : (s.modRing c r f).host = s.host := rfl
@[simp] theorem State.modRing_coxS : (s.modRing c r f).coxS = s.coxS := rfl
@[simp] theorem State.modRing_coxB : (s.modRing c r f).coxB = s.coxB := rfl
@[simp] theorem State.modRing_water : (s.modRing c r f).water = s.water := rfl
@[simp] theorem State.modRing_bridge : (s.modRing c r f).bridge = s.bridge := rfl
@[simp] theorem State.modRing_plan : (s.modRing c r f).plan = s.plan := rfl
@[simp] theorem State.modRing_count : (s.modRing c r f).count = s.count := rfl
@[simp] theorem State.modRing_acted : (s.modRing c r f).acted = s.acted := rfl
@[simp] theorem State.modRing_cur : (s.modRing c r f).cur = s.cur := rfl

end

/-! ### State.modSema -/

section

variable (s : State) (c n : Nat) (f : Sema → Sema)

@[simp] theorem State.modSema_form : (s.modSema c n f).form = s.form := rfl
@[simp] theorem State.modSema_crews : (s.modSema c n f).crews = s.crews := rfl
@[simp] theorem State.modSema_dies : (s.modSema c n f).dies = s.dies := rfl
@[simp] theorem State.modSema_lanes : (s.modSema c n f).lanes = s.lanes := rfl
@[simp] theorem State.modSema_mem : (s.modSema c n f).mem = s.mem := rfl
@[simp] theorem State.modSema_bad : (s.modSema c n f).bad = s.bad := rfl
@[simp] theorem State.modSema_past : (s.modSema c n f).past = s.past := rfl
@[simp] theorem State.modSema_turns : (s.modSema c n f).turns = s.turns := rfl
@[simp] theorem State.modSema_pages : (s.modSema c n f).pages = s.pages := rfl
@[simp] theorem State.modSema_ctxs : (s.modSema c n f).ctxs = s.ctxs := rfl
@[simp] theorem State.modSema_heats : (s.modSema c n f).heats = s.heats := rfl
@[simp] theorem State.modSema_queues : (s.modSema c n f).queues = s.queues := rfl
@[simp] theorem State.modSema_again : (s.modSema c n f).again = s.again := rfl
@[simp] theorem State.modSema_nextNum : (s.modSema c n f).nextNum = s.nextNum := rfl
@[simp] theorem State.modSema_accepts : (s.modSema c n f).accepts = s.accepts := rfl
@[simp] theorem State.modSema_launches : (s.modSema c n f).launches = s.launches := rfl
@[simp] theorem State.modSema_lastAt : (s.modSema c n f).lastAt = s.lastAt := rfl
@[simp] theorem State.modSema_resv : (s.modSema c n f).resv = s.resv := rfl
@[simp] theorem State.modSema_claims : (s.modSema c n f).claims = s.claims := rfl
@[simp] theorem State.modSema_images : (s.modSema c n f).images = s.images := rfl
@[simp] theorem State.modSema_chans : (s.modSema c n f).chans = s.chans := rfl
@[simp] theorem State.modSema_high : (s.modSema c n f).high = s.high := rfl
@[simp] theorem State.modSema_low : (s.modSema c n f).low = s.low := rfl
@[simp] theorem State.modSema_shed : (s.modSema c n f).shed = s.shed := rfl
@[simp] theorem State.modSema_host : (s.modSema c n f).host = s.host := rfl
@[simp] theorem State.modSema_coxS : (s.modSema c n f).coxS = s.coxS := rfl
@[simp] theorem State.modSema_coxB : (s.modSema c n f).coxB = s.coxB := rfl
@[simp] theorem State.modSema_water : (s.modSema c n f).water = s.water := rfl
@[simp] theorem State.modSema_bridge : (s.modSema c n f).bridge = s.bridge := rfl
@[simp] theorem State.modSema_plan : (s.modSema c n f).plan = s.plan := rfl
@[simp] theorem State.modSema_count : (s.modSema c n f).count = s.count := rfl
@[simp] theorem State.modSema_acted : (s.modSema c n f).acted = s.acted := rfl
@[simp] theorem State.modSema_cur : (s.modSema c n f).cur = s.cur := rfl

end

/-! ### State.modBar -/

section

variable (s : State) (c n : Nat) (f : StageBar → StageBar)

@[simp] theorem State.modBar_form : (s.modBar c n f).form = s.form := rfl
@[simp] theorem State.modBar_crews : (s.modBar c n f).crews = s.crews := rfl
@[simp] theorem State.modBar_dies : (s.modBar c n f).dies = s.dies := rfl
@[simp] theorem State.modBar_lanes : (s.modBar c n f).lanes = s.lanes := rfl
@[simp] theorem State.modBar_mem : (s.modBar c n f).mem = s.mem := rfl
@[simp] theorem State.modBar_bad : (s.modBar c n f).bad = s.bad := rfl
@[simp] theorem State.modBar_past : (s.modBar c n f).past = s.past := rfl
@[simp] theorem State.modBar_turns : (s.modBar c n f).turns = s.turns := rfl
@[simp] theorem State.modBar_pages : (s.modBar c n f).pages = s.pages := rfl
@[simp] theorem State.modBar_ctxs : (s.modBar c n f).ctxs = s.ctxs := rfl
@[simp] theorem State.modBar_heats : (s.modBar c n f).heats = s.heats := rfl
@[simp] theorem State.modBar_queues : (s.modBar c n f).queues = s.queues := rfl
@[simp] theorem State.modBar_again : (s.modBar c n f).again = s.again := rfl
@[simp] theorem State.modBar_nextNum : (s.modBar c n f).nextNum = s.nextNum := rfl
@[simp] theorem State.modBar_accepts : (s.modBar c n f).accepts = s.accepts := rfl
@[simp] theorem State.modBar_launches : (s.modBar c n f).launches = s.launches := rfl
@[simp] theorem State.modBar_lastAt : (s.modBar c n f).lastAt = s.lastAt := rfl
@[simp] theorem State.modBar_resv : (s.modBar c n f).resv = s.resv := rfl
@[simp] theorem State.modBar_claims : (s.modBar c n f).claims = s.claims := rfl
@[simp] theorem State.modBar_images : (s.modBar c n f).images = s.images := rfl
@[simp] theorem State.modBar_chans : (s.modBar c n f).chans = s.chans := rfl
@[simp] theorem State.modBar_high : (s.modBar c n f).high = s.high := rfl
@[simp] theorem State.modBar_low : (s.modBar c n f).low = s.low := rfl
@[simp] theorem State.modBar_shed : (s.modBar c n f).shed = s.shed := rfl
@[simp] theorem State.modBar_host : (s.modBar c n f).host = s.host := rfl
@[simp] theorem State.modBar_coxS : (s.modBar c n f).coxS = s.coxS := rfl
@[simp] theorem State.modBar_coxB : (s.modBar c n f).coxB = s.coxB := rfl
@[simp] theorem State.modBar_water : (s.modBar c n f).water = s.water := rfl
@[simp] theorem State.modBar_bridge : (s.modBar c n f).bridge = s.bridge := rfl
@[simp] theorem State.modBar_plan : (s.modBar c n f).plan = s.plan := rfl
@[simp] theorem State.modBar_count : (s.modBar c n f).count = s.count := rfl
@[simp] theorem State.modBar_acted : (s.modBar c n f).acted = s.acted := rfl
@[simp] theorem State.modBar_cur : (s.modBar c n f).cur = s.cur := rfl

end

/-! ### State.modCrew -/

section

variable (s : State) (n : Nat) (f : Crew → Crew)

@[simp] theorem State.modCrew_form : (s.modCrew n f).form = s.form := rfl
@[simp] theorem State.modCrew_cores : (s.modCrew n f).cores = s.cores := rfl
@[simp] theorem State.modCrew_dies : (s.modCrew n f).dies = s.dies := rfl
@[simp] theorem State.modCrew_lanes : (s.modCrew n f).lanes = s.lanes := rfl
@[simp] theorem State.modCrew_mem : (s.modCrew n f).mem = s.mem := rfl
@[simp] theorem State.modCrew_bad : (s.modCrew n f).bad = s.bad := rfl
@[simp] theorem State.modCrew_past : (s.modCrew n f).past = s.past := rfl
@[simp] theorem State.modCrew_turns : (s.modCrew n f).turns = s.turns := rfl
@[simp] theorem State.modCrew_pages : (s.modCrew n f).pages = s.pages := rfl
@[simp] theorem State.modCrew_ctxs : (s.modCrew n f).ctxs = s.ctxs := rfl
@[simp] theorem State.modCrew_heats : (s.modCrew n f).heats = s.heats := rfl
@[simp] theorem State.modCrew_queues : (s.modCrew n f).queues = s.queues := rfl
@[simp] theorem State.modCrew_again : (s.modCrew n f).again = s.again := rfl
@[simp] theorem State.modCrew_nextNum : (s.modCrew n f).nextNum = s.nextNum := rfl
@[simp] theorem State.modCrew_accepts : (s.modCrew n f).accepts = s.accepts := rfl
@[simp] theorem State.modCrew_launches : (s.modCrew n f).launches = s.launches := rfl
@[simp] theorem State.modCrew_lastAt : (s.modCrew n f).lastAt = s.lastAt := rfl
@[simp] theorem State.modCrew_resv : (s.modCrew n f).resv = s.resv := rfl
@[simp] theorem State.modCrew_claims : (s.modCrew n f).claims = s.claims := rfl
@[simp] theorem State.modCrew_images : (s.modCrew n f).images = s.images := rfl
@[simp] theorem State.modCrew_chans : (s.modCrew n f).chans = s.chans := rfl
@[simp] theorem State.modCrew_high : (s.modCrew n f).high = s.high := rfl
@[simp] theorem State.modCrew_low : (s.modCrew n f).low = s.low := rfl
@[simp] theorem State.modCrew_shed : (s.modCrew n f).shed = s.shed := rfl
@[simp] theorem State.modCrew_host : (s.modCrew n f).host = s.host := rfl
@[simp] theorem State.modCrew_coxS : (s.modCrew n f).coxS = s.coxS := rfl
@[simp] theorem State.modCrew_coxB : (s.modCrew n f).coxB = s.coxB := rfl
@[simp] theorem State.modCrew_water : (s.modCrew n f).water = s.water := rfl
@[simp] theorem State.modCrew_bridge : (s.modCrew n f).bridge = s.bridge := rfl
@[simp] theorem State.modCrew_plan : (s.modCrew n f).plan = s.plan := rfl
@[simp] theorem State.modCrew_count : (s.modCrew n f).count = s.count := rfl
@[simp] theorem State.modCrew_acted : (s.modCrew n f).acted = s.acted := rfl
@[simp] theorem State.modCrew_cur : (s.modCrew n f).cur = s.cur := rfl

end

/-! ### State.modDie -/

section

variable (s : State) (n : Nat) (f : Die → Die)

@[simp] theorem State.modDie_form : (s.modDie n f).form = s.form := rfl
@[simp] theorem State.modDie_cores : (s.modDie n f).cores = s.cores := rfl
@[simp] theorem State.modDie_crews : (s.modDie n f).crews = s.crews := rfl
@[simp] theorem State.modDie_lanes : (s.modDie n f).lanes = s.lanes := rfl
@[simp] theorem State.modDie_mem : (s.modDie n f).mem = s.mem := rfl
@[simp] theorem State.modDie_bad : (s.modDie n f).bad = s.bad := rfl
@[simp] theorem State.modDie_past : (s.modDie n f).past = s.past := rfl
@[simp] theorem State.modDie_turns : (s.modDie n f).turns = s.turns := rfl
@[simp] theorem State.modDie_pages : (s.modDie n f).pages = s.pages := rfl
@[simp] theorem State.modDie_ctxs : (s.modDie n f).ctxs = s.ctxs := rfl
@[simp] theorem State.modDie_heats : (s.modDie n f).heats = s.heats := rfl
@[simp] theorem State.modDie_queues : (s.modDie n f).queues = s.queues := rfl
@[simp] theorem State.modDie_again : (s.modDie n f).again = s.again := rfl
@[simp] theorem State.modDie_nextNum : (s.modDie n f).nextNum = s.nextNum := rfl
@[simp] theorem State.modDie_accepts : (s.modDie n f).accepts = s.accepts := rfl
@[simp] theorem State.modDie_launches : (s.modDie n f).launches = s.launches := rfl
@[simp] theorem State.modDie_lastAt : (s.modDie n f).lastAt = s.lastAt := rfl
@[simp] theorem State.modDie_resv : (s.modDie n f).resv = s.resv := rfl
@[simp] theorem State.modDie_claims : (s.modDie n f).claims = s.claims := rfl
@[simp] theorem State.modDie_images : (s.modDie n f).images = s.images := rfl
@[simp] theorem State.modDie_chans : (s.modDie n f).chans = s.chans := rfl
@[simp] theorem State.modDie_high : (s.modDie n f).high = s.high := rfl
@[simp] theorem State.modDie_low : (s.modDie n f).low = s.low := rfl
@[simp] theorem State.modDie_shed : (s.modDie n f).shed = s.shed := rfl
@[simp] theorem State.modDie_host : (s.modDie n f).host = s.host := rfl
@[simp] theorem State.modDie_coxS : (s.modDie n f).coxS = s.coxS := rfl
@[simp] theorem State.modDie_coxB : (s.modDie n f).coxB = s.coxB := rfl
@[simp] theorem State.modDie_water : (s.modDie n f).water = s.water := rfl
@[simp] theorem State.modDie_bridge : (s.modDie n f).bridge = s.bridge := rfl
@[simp] theorem State.modDie_plan : (s.modDie n f).plan = s.plan := rfl
@[simp] theorem State.modDie_count : (s.modDie n f).count = s.count := rfl
@[simp] theorem State.modDie_acted : (s.modDie n f).acted = s.acted := rfl
@[simp] theorem State.modDie_cur : (s.modDie n f).cur = s.cur := rfl

end

/-! ### State.modLane -/

section

variable (s : State) (n : Nat) (f : Lane → Lane)

@[simp] theorem State.modLane_form : (s.modLane n f).form = s.form := rfl
@[simp] theorem State.modLane_cores : (s.modLane n f).cores = s.cores := rfl
@[simp] theorem State.modLane_crews : (s.modLane n f).crews = s.crews := rfl
@[simp] theorem State.modLane_dies : (s.modLane n f).dies = s.dies := rfl
@[simp] theorem State.modLane_mem : (s.modLane n f).mem = s.mem := rfl
@[simp] theorem State.modLane_bad : (s.modLane n f).bad = s.bad := rfl
@[simp] theorem State.modLane_past : (s.modLane n f).past = s.past := rfl
@[simp] theorem State.modLane_turns : (s.modLane n f).turns = s.turns := rfl
@[simp] theorem State.modLane_pages : (s.modLane n f).pages = s.pages := rfl
@[simp] theorem State.modLane_ctxs : (s.modLane n f).ctxs = s.ctxs := rfl
@[simp] theorem State.modLane_heats : (s.modLane n f).heats = s.heats := rfl
@[simp] theorem State.modLane_queues : (s.modLane n f).queues = s.queues := rfl
@[simp] theorem State.modLane_again : (s.modLane n f).again = s.again := rfl
@[simp] theorem State.modLane_nextNum : (s.modLane n f).nextNum = s.nextNum := rfl
@[simp] theorem State.modLane_accepts : (s.modLane n f).accepts = s.accepts := rfl
@[simp] theorem State.modLane_launches : (s.modLane n f).launches = s.launches := rfl
@[simp] theorem State.modLane_lastAt : (s.modLane n f).lastAt = s.lastAt := rfl
@[simp] theorem State.modLane_resv : (s.modLane n f).resv = s.resv := rfl
@[simp] theorem State.modLane_claims : (s.modLane n f).claims = s.claims := rfl
@[simp] theorem State.modLane_images : (s.modLane n f).images = s.images := rfl
@[simp] theorem State.modLane_chans : (s.modLane n f).chans = s.chans := rfl
@[simp] theorem State.modLane_high : (s.modLane n f).high = s.high := rfl
@[simp] theorem State.modLane_low : (s.modLane n f).low = s.low := rfl
@[simp] theorem State.modLane_shed : (s.modLane n f).shed = s.shed := rfl
@[simp] theorem State.modLane_host : (s.modLane n f).host = s.host := rfl
@[simp] theorem State.modLane_coxS : (s.modLane n f).coxS = s.coxS := rfl
@[simp] theorem State.modLane_coxB : (s.modLane n f).coxB = s.coxB := rfl
@[simp] theorem State.modLane_water : (s.modLane n f).water = s.water := rfl
@[simp] theorem State.modLane_bridge : (s.modLane n f).bridge = s.bridge := rfl
@[simp] theorem State.modLane_plan : (s.modLane n f).plan = s.plan := rfl
@[simp] theorem State.modLane_count : (s.modLane n f).count = s.count := rfl
@[simp] theorem State.modLane_acted : (s.modLane n f).acted = s.acted := rfl
@[simp] theorem State.modLane_cur : (s.modLane n f).cur = s.cur := rfl

end

/-! ### State.modCtx -/

section

variable (s : State) (n : Nat) (f : Ctx → Ctx)

@[simp] theorem State.modCtx_form : (s.modCtx n f).form = s.form := rfl
@[simp] theorem State.modCtx_cores : (s.modCtx n f).cores = s.cores := rfl
@[simp] theorem State.modCtx_crews : (s.modCtx n f).crews = s.crews := rfl
@[simp] theorem State.modCtx_dies : (s.modCtx n f).dies = s.dies := rfl
@[simp] theorem State.modCtx_lanes : (s.modCtx n f).lanes = s.lanes := rfl
@[simp] theorem State.modCtx_mem : (s.modCtx n f).mem = s.mem := rfl
@[simp] theorem State.modCtx_bad : (s.modCtx n f).bad = s.bad := rfl
@[simp] theorem State.modCtx_past : (s.modCtx n f).past = s.past := rfl
@[simp] theorem State.modCtx_turns : (s.modCtx n f).turns = s.turns := rfl
@[simp] theorem State.modCtx_pages : (s.modCtx n f).pages = s.pages := rfl
@[simp] theorem State.modCtx_heats : (s.modCtx n f).heats = s.heats := rfl
@[simp] theorem State.modCtx_queues : (s.modCtx n f).queues = s.queues := rfl
@[simp] theorem State.modCtx_again : (s.modCtx n f).again = s.again := rfl
@[simp] theorem State.modCtx_nextNum : (s.modCtx n f).nextNum = s.nextNum := rfl
@[simp] theorem State.modCtx_accepts : (s.modCtx n f).accepts = s.accepts := rfl
@[simp] theorem State.modCtx_launches : (s.modCtx n f).launches = s.launches := rfl
@[simp] theorem State.modCtx_lastAt : (s.modCtx n f).lastAt = s.lastAt := rfl
@[simp] theorem State.modCtx_resv : (s.modCtx n f).resv = s.resv := rfl
@[simp] theorem State.modCtx_claims : (s.modCtx n f).claims = s.claims := rfl
@[simp] theorem State.modCtx_images : (s.modCtx n f).images = s.images := rfl
@[simp] theorem State.modCtx_chans : (s.modCtx n f).chans = s.chans := rfl
@[simp] theorem State.modCtx_high : (s.modCtx n f).high = s.high := rfl
@[simp] theorem State.modCtx_low : (s.modCtx n f).low = s.low := rfl
@[simp] theorem State.modCtx_shed : (s.modCtx n f).shed = s.shed := rfl
@[simp] theorem State.modCtx_host : (s.modCtx n f).host = s.host := rfl
@[simp] theorem State.modCtx_coxS : (s.modCtx n f).coxS = s.coxS := rfl
@[simp] theorem State.modCtx_coxB : (s.modCtx n f).coxB = s.coxB := rfl
@[simp] theorem State.modCtx_water : (s.modCtx n f).water = s.water := rfl
@[simp] theorem State.modCtx_bridge : (s.modCtx n f).bridge = s.bridge := rfl
@[simp] theorem State.modCtx_plan : (s.modCtx n f).plan = s.plan := rfl
@[simp] theorem State.modCtx_count : (s.modCtx n f).count = s.count := rfl
@[simp] theorem State.modCtx_acted : (s.modCtx n f).acted = s.acted := rfl
@[simp] theorem State.modCtx_cur : (s.modCtx n f).cur = s.cur := rfl

end

/-! ### State.modChan -/

section

variable (s : State) (n : Nat) (f : Channel → Channel)

@[simp] theorem State.modChan_form : (s.modChan n f).form = s.form := rfl
@[simp] theorem State.modChan_cores : (s.modChan n f).cores = s.cores := rfl
@[simp] theorem State.modChan_crews : (s.modChan n f).crews = s.crews := rfl
@[simp] theorem State.modChan_dies : (s.modChan n f).dies = s.dies := rfl
@[simp] theorem State.modChan_lanes : (s.modChan n f).lanes = s.lanes := rfl
@[simp] theorem State.modChan_mem : (s.modChan n f).mem = s.mem := rfl
@[simp] theorem State.modChan_bad : (s.modChan n f).bad = s.bad := rfl
@[simp] theorem State.modChan_past : (s.modChan n f).past = s.past := rfl
@[simp] theorem State.modChan_turns : (s.modChan n f).turns = s.turns := rfl
@[simp] theorem State.modChan_pages : (s.modChan n f).pages = s.pages := rfl
@[simp] theorem State.modChan_ctxs : (s.modChan n f).ctxs = s.ctxs := rfl
@[simp] theorem State.modChan_heats : (s.modChan n f).heats = s.heats := rfl
@[simp] theorem State.modChan_queues : (s.modChan n f).queues = s.queues := rfl
@[simp] theorem State.modChan_again : (s.modChan n f).again = s.again := rfl
@[simp] theorem State.modChan_nextNum : (s.modChan n f).nextNum = s.nextNum := rfl
@[simp] theorem State.modChan_accepts : (s.modChan n f).accepts = s.accepts := rfl
@[simp] theorem State.modChan_launches : (s.modChan n f).launches = s.launches := rfl
@[simp] theorem State.modChan_lastAt : (s.modChan n f).lastAt = s.lastAt := rfl
@[simp] theorem State.modChan_resv : (s.modChan n f).resv = s.resv := rfl
@[simp] theorem State.modChan_claims : (s.modChan n f).claims = s.claims := rfl
@[simp] theorem State.modChan_images : (s.modChan n f).images = s.images := rfl
@[simp] theorem State.modChan_high : (s.modChan n f).high = s.high := rfl
@[simp] theorem State.modChan_low : (s.modChan n f).low = s.low := rfl
@[simp] theorem State.modChan_shed : (s.modChan n f).shed = s.shed := rfl
@[simp] theorem State.modChan_host : (s.modChan n f).host = s.host := rfl
@[simp] theorem State.modChan_coxS : (s.modChan n f).coxS = s.coxS := rfl
@[simp] theorem State.modChan_coxB : (s.modChan n f).coxB = s.coxB := rfl
@[simp] theorem State.modChan_water : (s.modChan n f).water = s.water := rfl
@[simp] theorem State.modChan_bridge : (s.modChan n f).bridge = s.bridge := rfl
@[simp] theorem State.modChan_plan : (s.modChan n f).plan = s.plan := rfl
@[simp] theorem State.modChan_count : (s.modChan n f).count = s.count := rfl
@[simp] theorem State.modChan_acted : (s.modChan n f).acted = s.acted := rfl
@[simp] theorem State.modChan_cur : (s.modChan n f).cur = s.cur := rfl

end

/-! ### State.modHeat -/

section

variable (s : State) (n : Nat) (f : Heat → Heat)

@[simp] theorem State.modHeat_form : (s.modHeat n f).form = s.form := rfl
@[simp] theorem State.modHeat_cores : (s.modHeat n f).cores = s.cores := rfl
@[simp] theorem State.modHeat_crews : (s.modHeat n f).crews = s.crews := rfl
@[simp] theorem State.modHeat_dies : (s.modHeat n f).dies = s.dies := rfl
@[simp] theorem State.modHeat_lanes : (s.modHeat n f).lanes = s.lanes := rfl
@[simp] theorem State.modHeat_mem : (s.modHeat n f).mem = s.mem := rfl
@[simp] theorem State.modHeat_bad : (s.modHeat n f).bad = s.bad := rfl
@[simp] theorem State.modHeat_past : (s.modHeat n f).past = s.past := rfl
@[simp] theorem State.modHeat_turns : (s.modHeat n f).turns = s.turns := rfl
@[simp] theorem State.modHeat_pages : (s.modHeat n f).pages = s.pages := rfl
@[simp] theorem State.modHeat_ctxs : (s.modHeat n f).ctxs = s.ctxs := rfl
@[simp] theorem State.modHeat_queues : (s.modHeat n f).queues = s.queues := rfl
@[simp] theorem State.modHeat_again : (s.modHeat n f).again = s.again := rfl
@[simp] theorem State.modHeat_nextNum : (s.modHeat n f).nextNum = s.nextNum := rfl
@[simp] theorem State.modHeat_accepts : (s.modHeat n f).accepts = s.accepts := rfl
@[simp] theorem State.modHeat_launches : (s.modHeat n f).launches = s.launches := rfl
@[simp] theorem State.modHeat_lastAt : (s.modHeat n f).lastAt = s.lastAt := rfl
@[simp] theorem State.modHeat_resv : (s.modHeat n f).resv = s.resv := rfl
@[simp] theorem State.modHeat_claims : (s.modHeat n f).claims = s.claims := rfl
@[simp] theorem State.modHeat_images : (s.modHeat n f).images = s.images := rfl
@[simp] theorem State.modHeat_chans : (s.modHeat n f).chans = s.chans := rfl
@[simp] theorem State.modHeat_high : (s.modHeat n f).high = s.high := rfl
@[simp] theorem State.modHeat_low : (s.modHeat n f).low = s.low := rfl
@[simp] theorem State.modHeat_shed : (s.modHeat n f).shed = s.shed := rfl
@[simp] theorem State.modHeat_host : (s.modHeat n f).host = s.host := rfl
@[simp] theorem State.modHeat_coxS : (s.modHeat n f).coxS = s.coxS := rfl
@[simp] theorem State.modHeat_coxB : (s.modHeat n f).coxB = s.coxB := rfl
@[simp] theorem State.modHeat_water : (s.modHeat n f).water = s.water := rfl
@[simp] theorem State.modHeat_bridge : (s.modHeat n f).bridge = s.bridge := rfl
@[simp] theorem State.modHeat_plan : (s.modHeat n f).plan = s.plan := rfl
@[simp] theorem State.modHeat_count : (s.modHeat n f).count = s.count := rfl
@[simp] theorem State.modHeat_acted : (s.modHeat n f).acted = s.acted := rfl
@[simp] theorem State.modHeat_cur : (s.modHeat n f).cur = s.cur := rfl

end

/-! ### State.act -/

section

variable (s : State) (c : Nat)

@[simp] theorem State.act_form : (s.act c).form = s.form := rfl
@[simp] theorem State.act_cores : (s.act c).cores = s.cores := rfl
@[simp] theorem State.act_crews : (s.act c).crews = s.crews := rfl
@[simp] theorem State.act_dies : (s.act c).dies = s.dies := rfl
@[simp] theorem State.act_lanes : (s.act c).lanes = s.lanes := rfl
@[simp] theorem State.act_mem : (s.act c).mem = s.mem := rfl
@[simp] theorem State.act_bad : (s.act c).bad = s.bad := rfl
@[simp] theorem State.act_past : (s.act c).past = s.past := rfl
@[simp] theorem State.act_turns : (s.act c).turns = s.turns := rfl
@[simp] theorem State.act_pages : (s.act c).pages = s.pages := rfl
@[simp] theorem State.act_ctxs : (s.act c).ctxs = s.ctxs := rfl
@[simp] theorem State.act_heats : (s.act c).heats = s.heats := rfl
@[simp] theorem State.act_queues : (s.act c).queues = s.queues := rfl
@[simp] theorem State.act_again : (s.act c).again = s.again := rfl
@[simp] theorem State.act_nextNum : (s.act c).nextNum = s.nextNum := rfl
@[simp] theorem State.act_accepts : (s.act c).accepts = s.accepts := rfl
@[simp] theorem State.act_launches : (s.act c).launches = s.launches := rfl
@[simp] theorem State.act_lastAt : (s.act c).lastAt = s.lastAt := rfl
@[simp] theorem State.act_resv : (s.act c).resv = s.resv := rfl
@[simp] theorem State.act_claims : (s.act c).claims = s.claims := rfl
@[simp] theorem State.act_images : (s.act c).images = s.images := rfl
@[simp] theorem State.act_chans : (s.act c).chans = s.chans := rfl
@[simp] theorem State.act_high : (s.act c).high = s.high := rfl
@[simp] theorem State.act_low : (s.act c).low = s.low := rfl
@[simp] theorem State.act_shed : (s.act c).shed = s.shed := rfl
@[simp] theorem State.act_host : (s.act c).host = s.host := rfl
@[simp] theorem State.act_coxS : (s.act c).coxS = s.coxS := rfl
@[simp] theorem State.act_coxB : (s.act c).coxB = s.coxB := rfl
@[simp] theorem State.act_water : (s.act c).water = s.water := rfl
@[simp] theorem State.act_bridge : (s.act c).bridge = s.bridge := rfl
@[simp] theorem State.act_plan : (s.act c).plan = s.plan := rfl
@[simp] theorem State.act_count : (s.act c).count = s.count := rfl
@[simp] theorem State.act_cur : (s.act c).cur = s.cur := rfl

end

end Sys2Proof.Machine
end

