-- ==== Sys2Proof/Laws/Tables.lean ====
section
/-! SUPPORT. Tables read back what was written, and a unit of the part reads back its own update and no other's. -/

namespace Sys2Proof.Machine

/-! ### Tables -/

@[simp] theorem tget_tset_same {α : Type} (t : Tbl α) (k : Nat) (v d : α) : tget (tset t k v) k d = v := by
  induction t with
  | nil => simp [tset, tget]
  | cons p r ih =>
    obtain ⟨k', v'⟩ := p
    unfold tset
    split
    · simp [tget]
    · split
      · simp [tget]
      · simp [tget, *]

theorem tget_tset_other {α : Type} (t : Tbl α) (k j : Nat) (v d : α) (h : j ≠ k) : tget (tset t k v) j d = tget t j d := by
  induction t with
  | nil => simp [tset, tget, h.symm]
  | cons p r ih =>
    obtain ⟨k', v'⟩ := p
    unfold tset
    split
    · next e => subst e; simp [tget, h.symm]
    · split
      · simp [tget, h.symm]
      · simp [tget, ih]

theorem tget_tset {α : Type} (t : Tbl α) (k j : Nat) (v d : α) :
    tget (tset t k v) j d = if j = k then v else tget t j d := by
  split
  · next e => subst e; simp
  · next e => exact tget_tset_other t k j v d e

@[simp] theorem tset_tset {α : Type} (t : Tbl α) (k : Nat) (v w : α) : tset (tset t k v) k w = tset t k w := by
  induction t with
  | nil => simp [tset]
  | cons p r ih =>
    obtain ⟨k', v'⟩ := p
    by_cases h : k' = k
    · simp [tset, h]
    · by_cases h' : k < k'
      · simp [tset, h, h']
      · simp [tset, h, h', ih]

theorem tfind_tset {α : Type} (t : Tbl α) (k j : Nat) (v : α) :
    tfind (tset t k v) j = if j = k then some v else tfind t j := by
  induction t with
  | nil =>
    by_cases h : j = k
    · simp [tset, tfind, h]
    · simp [tset, tfind, h, Ne.symm h]
  | cons p r ih =>
    obtain ⟨k', v'⟩ := p
    unfold tset
    split
    · next e =>
      subst e
      by_cases h : j = k'
      · simp [tfind, h]
      · simp [tfind, h, Ne.symm h]
    · split
      · by_cases h : j = k
        · simp [tfind, h]
        · simp [tfind, h, Ne.symm h]
      · next h1 h2 =>
        by_cases h : k' = j
        · subst h; simp [tfind, h1]
        · simp [tfind, h, ih]

/-! ### Cores -/

@[simp] theorem State.core_setCore (s : State) (c : Nat) (k : Core) : (s.setCore c k).core c = k := by
  simp [State.core, State.setCore]

theorem State.core_setCore_ne (s : State) (c d : Nat) (k : Core) (h : d ≠ c) : (s.setCore c k).core d = s.core d := by
  simp [State.core, State.setCore, tget_tset_other _ _ _ _ _ h]

@[simp] theorem State.core_modCore (s : State) (c : Nat) (f : Core → Core) : (s.modCore c f).core c = f (s.core c) := by
  simp [State.modCore]

theorem State.core_modCore_ne (s : State) (c d : Nat) (f : Core → Core) (h : d ≠ c) : (s.modCore c f).core d = s.core d :=
  State.core_setCore_ne s c d _ h

@[simp] theorem State.me_modMe (s : State) (f : Core → Core) : (s.modMe f).me = f s.me := by
  simp [State.modMe, State.me]

@[simp] theorem State.modCore_modCore (s : State) (c : Nat) (f g : Core → Core) :
    (s.modCore c f).modCore c g = s.modCore c (fun k => g (f k)) := by
  simp [State.modCore, State.setCore, State.core]

@[simp] theorem State.modMe_modMe (s : State) (f g : Core → Core) : (s.modMe f).modMe g = s.modMe (fun k => g (f k)) := by
  simp [State.modMe]

/-! ### Sides -/

@[simp] theorem Core.side_modSide (k : Core) (sd : Side) (f : SideSt → SideSt) : (k.modSide sd f).side sd = f (k.side sd) := by
  cases sd <;> rfl

theorem Core.side_modSide_ne (k : Core) (sd d : Side) (f : SideSt → SideSt) (h : d ≠ sd) :
    (k.modSide sd f).side d = k.side d := by
  cases sd <;> cases d <;> first | rfl | exact absurd rfl h

@[simp] theorem State.mySide_modMySide (s : State) (f : SideSt → SideSt) : (s.modMySide f).mySide = f s.mySide := by
  simp [State.modMySide, State.modSide, State.mySide, State.me]

/-! ### Other units -/

@[simp] theorem State.crew_modCrew (s : State) (n : Nat) (f : Crew → Crew) : (s.modCrew n f).crew n = f (s.crew n) := by
  simp [State.crew, State.modCrew]

@[simp] theorem State.die_modDie (s : State) (n : Nat) (f : Die → Die) : (s.modDie n f).die n = f (s.die n) := by
  simp [State.die, State.modDie]

theorem State.die_modDie_ne (s : State) (n m : Nat) (f : Die → Die) (h : m ≠ n) : (s.modDie n f).die m = s.die m := by
  simp [State.die, State.modDie, tget_tset_other _ _ _ _ _ h]

@[simp] theorem State.lane_modLane (s : State) (n : Nat) (f : Lane → Lane) : (s.modLane n f).lane n = f (s.lane n) := by
  simp [State.lane, State.modLane]

@[simp] theorem State.ctx_modCtx (s : State) (n : Nat) (f : Ctx → Ctx) : (s.modCtx n f).ctx n = f (s.ctx n) := by
  simp [State.ctx, State.modCtx]

@[simp] theorem State.chan_modChan (s : State) (n : Nat) (f : Channel → Channel) : (s.modChan n f).chan n = f (s.chan n) := by
  simp [State.chan, State.modChan]

/-! ### Registers (R12, R13) -/

/-- a0 reads 0 and discards writes; another a register reads back what was written. -/
theorem Core.areg_setAreg (k : Core) (d e : Nat) (v : Poi) :
    (k.setAreg d v).areg e = if e = d ∧ d ≠ 0 then v else k.areg e := by
  unfold Core.setAreg Core.areg
  by_cases hd : d = 0
  · subst hd; simp
  · by_cases he : e = 0
    · subst he; simp [hd]
      intro h; exact absurd h.symm hd
    · simp [hd, he, tget_tset]

theorem Core.xreg_setXreg (k : Core) (d e : Nat) (v : Addr) :
    (k.setXreg d v).xreg e = if e = d ∧ d ≠ 0 then v else k.xreg e := by
  unfold Core.setXreg Core.xreg
  by_cases hd : d = 0
  · subst hd; simp
  · by_cases he : e = 0
    · subst he; simp [hd]
      intro h; exact absurd h.symm hd
    · simp [hd, he, tget_tset]

theorem Core.mask_setMask (k : Core) (d e : Nat) (v : BitVec 1024) :
    (k.setMask d v).mask e = if e = d ∧ d ≠ 0 then v else k.mask e := by
  unfold Core.setMask Core.mask
  by_cases hd : d = 0
  · subst hd; simp
  · by_cases he : e = 0
    · subst he; simp [hd]
      intro h; exact absurd h.symm hd
    · simp [hd, he, tget_tset]

theorem Core.vreg_setVreg (k : Core) (d e : Nat) (v : BitVec 4096) :
    (k.setVreg d v).vreg e = if e = d then v else k.vreg e := by
  simp [Core.setVreg, Core.vreg, tget_tset]

end Sys2Proof.Machine
end

