-- ==== Sys2Proof/Laws/Core.lean ====
section
/-! SUPPORT. What a write of each register file leaves in each other field of a core. -/

namespace Sys2Proof.Machine

/-! ### Core.setAreg -/

section

variable (k : Core) (n : Nat) (v : Poi)

@[simp] theorem Core.setAreg_ap : (k.setAreg n v).ap = k.ap := by unfold Core.setAreg; split <;> rfl
@[simp] theorem Core.setAreg_xp : (k.setAreg n v).xp = k.xp := by unfold Core.setAreg; split <;> rfl
@[simp] theorem Core.setAreg_preds : (k.setAreg n v).preds = k.preds := by unfold Core.setAreg; split <;> rfl
@[simp] theorem Core.setAreg_lds : (k.setAreg n v).lds = k.lds := by unfold Core.setAreg; split <;> rfl
@[simp] theorem Core.setAreg_sstat : (k.setAreg n v).sstat = k.sstat := by unfold Core.setAreg; split <;> rfl
@[simp] theorem Core.setAreg_xregs : (k.setAreg n v).xregs = k.xregs := by unfold Core.setAreg; split <;> rfl
@[simp] theorem Core.setAreg_vregs : (k.setAreg n v).vregs = k.vregs := by unfold Core.setAreg; split <;> rfl
@[simp] theorem Core.setAreg_masks : (k.setAreg n v).masks = k.masks := by unfold Core.setAreg; split <;> rfl
@[simp] theorem Core.setAreg_nregs : (k.setAreg n v).nregs = k.nregs := by unfold Core.setAreg; split <;> rfl
@[simp] theorem Core.setAreg_vt : (k.setAreg n v).vt = k.vt := by unfold Core.setAreg; split <;> rfl
@[simp] theorem Core.setAreg_vcnt : (k.setAreg n v).vcnt = k.vcnt := by unfold Core.setAreg; split <;> rfl
@[simp] theorem Core.setAreg_g : (k.setAreg n v).g = k.g := by unfold Core.setAreg; split <;> rfl
@[simp] theorem Core.setAreg_flags : (k.setAreg n v).flags = k.flags := by unfold Core.setAreg; split <;> rfl
@[simp] theorem Core.setAreg_slip : (k.setAreg n v).slip = k.slip := by unfold Core.setAreg; split <;> rfl
@[simp] theorem Core.setAreg_aside : (k.setAreg n v).aside = k.aside := by unfold Core.setAreg; split <;> rfl
@[simp] theorem Core.setAreg_faulted : (k.setAreg n v).faulted = k.faulted := by unfold Core.setAreg; split <;> rfl
@[simp] theorem Core.setAreg_seq : (k.setAreg n v).seq = k.seq := by unfold Core.setAreg; split <;> rfl
@[simp] theorem Core.setAreg_vq : (k.setAreg n v).vq = k.vq := by unfold Core.setAreg; split <;> rfl
@[simp] theorem Core.setAreg_mq : (k.setAreg n v).mq = k.mq := by unfold Core.setAreg; split <;> rfl
@[simp] theorem Core.setAreg_fq : (k.setAreg n v).fq = k.fq := by unfold Core.setAreg; split <;> rfl
@[simp] theorem Core.setAreg_inVec : (k.setAreg n v).inVec = k.inVec := by unfold Core.setAreg; split <;> rfl
@[simp] theorem Core.setAreg_inPass : (k.setAreg n v).inPass = k.inPass := by unfold Core.setAreg; split <;> rfl
@[simp] theorem Core.setAreg_inLoad : (k.setAreg n v).inLoad = k.inLoad := by unfold Core.setAreg; split <;> rfl
@[simp] theorem Core.setAreg_inFun : (k.setAreg n v).inFun = k.inFun := by unfold Core.setAreg; split <;> rfl
@[simp] theorem Core.setAreg_kept : (k.setAreg n v).kept = k.kept := by unfold Core.setAreg; split <;> rfl
@[simp] theorem Core.setAreg_done : (k.setAreg n v).done = k.done := by unfold Core.setAreg; split <;> rfl
@[simp] theorem Core.setAreg_pixVec : (k.setAreg n v).pixVec = k.pixVec := by unfold Core.setAreg; split <;> rfl
@[simp] theorem Core.setAreg_pixMtx : (k.setAreg n v).pixMtx = k.pixMtx := by unfold Core.setAreg; split <;> rfl
@[simp] theorem Core.setAreg_pixFun : (k.setAreg n v).pixFun = k.pixFun := by unfold Core.setAreg; split <;> rfl
@[simp] theorem Core.setAreg_queues : (k.setAreg n v).queues = k.queues := by unfold Core.setAreg; split <;> rfl
@[simp] theorem Core.setAreg_tiles : (k.setAreg n v).tiles = k.tiles := by unfold Core.setAreg; split <;> rfl
@[simp] theorem Core.setAreg_scaleq : (k.setAreg n v).scaleq = k.scaleq := by unfold Core.setAreg; split <;> rfl
@[simp] theorem Core.setAreg_resultq : (k.setAreg n v).resultq = k.resultq := by unfold Core.setAreg; split <;> rfl
@[simp] theorem Core.setAreg_rqRes : (k.setAreg n v).rqRes = k.rqRes := by unfold Core.setAreg; split <;> rfl
@[simp] theorem Core.setAreg_vregsCode : (k.setAreg n v).vregsCode = k.vregsCode := by unfold Core.setAreg; split <;> rfl
@[simp] theorem Core.setAreg_acc : (k.setAreg n v).acc = k.acc := by unfold Core.setAreg; split <;> rfl
@[simp] theorem Core.setAreg_cont : (k.setAreg n v).cont = k.cont := by unfold Core.setAreg; split <;> rfl
@[simp] theorem Core.setAreg_shapes : (k.setAreg n v).shapes = k.shapes := by unfold Core.setAreg; split <;> rfl
@[simp] theorem Core.setAreg_streams : (k.setAreg n v).streams = k.streams := by unfold Core.setAreg; split <;> rfl
@[simp] theorem Core.setAreg_sfault : (k.setAreg n v).sfault = k.sfault := by unfold Core.setAreg; split <;> rfl
@[simp] theorem Core.setAreg_rings : (k.setAreg n v).rings = k.rings := by unfold Core.setAreg; split <;> rfl
@[simp] theorem Core.setAreg_order : (k.setAreg n v).order = k.order := by unfold Core.setAreg; split <;> rfl
@[simp] theorem Core.setAreg_hold : (k.setAreg n v).hold = k.hold := by unfold Core.setAreg; split <;> rfl
@[simp] theorem Core.setAreg_holdBad : (k.setAreg n v).holdBad = k.holdBad := by unfold Core.setAreg; split <;> rfl
@[simp] theorem Core.setAreg_holdRing : (k.setAreg n v).holdRing = k.holdRing := by unfold Core.setAreg; split <;> rfl
@[simp] theorem Core.setAreg_semas : (k.setAreg n v).semas = k.semas := by unfold Core.setAreg; split <;> rfl
@[simp] theorem Core.setAreg_bars : (k.setAreg n v).bars = k.bars := by unfold Core.setAreg; split <;> rfl
@[simp] theorem Core.setAreg_pool : (k.setAreg n v).pool = k.pool := by unfold Core.setAreg; split <;> rfl
@[simp] theorem Core.setAreg_pending : (k.setAreg n v).pending = k.pending := by unfold Core.setAreg; split <;> rfl
@[simp] theorem Core.setAreg_held : (k.setAreg n v).held = k.held := by unfold Core.setAreg; split <;> rfl
@[simp] theorem Core.setAreg_heat : (k.setAreg n v).heat = k.heat := by unfold Core.setAreg; split <;> rfl
@[simp] theorem Core.setAreg_ctx : (k.setAreg n v).ctx = k.ctx := by unfold Core.setAreg; split <;> rfl
@[simp] theorem Core.setAreg_hasSeat : (k.setAreg n v).hasSeat = k.hasSeat := by unfold Core.setAreg; split <;> rfl
@[simp] theorem Core.setAreg_stint : (k.setAreg n v).stint = k.stint := by unfold Core.setAreg; split <;> rfl

end

/-! ### Core.setXreg -/

section

variable (k : Core) (n : Nat) (v : Addr)

@[simp] theorem Core.setXreg_ap : (k.setXreg n v).ap = k.ap := by unfold Core.setXreg; split <;> rfl
@[simp] theorem Core.setXreg_xp : (k.setXreg n v).xp = k.xp := by unfold Core.setXreg; split <;> rfl
@[simp] theorem Core.setXreg_aregs : (k.setXreg n v).aregs = k.aregs := by unfold Core.setXreg; split <;> rfl
@[simp] theorem Core.setXreg_preds : (k.setXreg n v).preds = k.preds := by unfold Core.setXreg; split <;> rfl
@[simp] theorem Core.setXreg_lds : (k.setXreg n v).lds = k.lds := by unfold Core.setXreg; split <;> rfl
@[simp] theorem Core.setXreg_sstat : (k.setXreg n v).sstat = k.sstat := by unfold Core.setXreg; split <;> rfl
@[simp] theorem Core.setXreg_vregs : (k.setXreg n v).vregs = k.vregs := by unfold Core.setXreg; split <;> rfl
@[simp] theorem Core.setXreg_masks : (k.setXreg n v).masks = k.masks := by unfold Core.setXreg; split <;> rfl
@[simp] theorem Core.setXreg_nregs : (k.setXreg n v).nregs = k.nregs := by unfold Core.setXreg; split <;> rfl
@[simp] theorem Core.setXreg_vt : (k.setXreg n v).vt = k.vt := by unfold Core.setXreg; split <;> rfl
@[simp] theorem Core.setXreg_vcnt : (k.setXreg n v).vcnt = k.vcnt := by unfold Core.setXreg; split <;> rfl
@[simp] theorem Core.setXreg_g : (k.setXreg n v).g = k.g := by unfold Core.setXreg; split <;> rfl
@[simp] theorem Core.setXreg_flags : (k.setXreg n v).flags = k.flags := by unfold Core.setXreg; split <;> rfl
@[simp] theorem Core.setXreg_slip : (k.setXreg n v).slip = k.slip := by unfold Core.setXreg; split <;> rfl
@[simp] theorem Core.setXreg_aside : (k.setXreg n v).aside = k.aside := by unfold Core.setXreg; split <;> rfl
@[simp] theorem Core.setXreg_faulted : (k.setXreg n v).faulted = k.faulted := by unfold Core.setXreg; split <;> rfl
@[simp] theorem Core.setXreg_seq : (k.setXreg n v).seq = k.seq := by unfold Core.setXreg; split <;> rfl
@[simp] theorem Core.setXreg_vq : (k.setXreg n v).vq = k.vq := by unfold Core.setXreg; split <;> rfl
@[simp] theorem Core.setXreg_mq : (k.setXreg n v).mq = k.mq := by unfold Core.setXreg; split <;> rfl
@[simp] theorem Core.setXreg_fq : (k.setXreg n v).fq = k.fq := by unfold Core.setXreg; split <;> rfl
@[simp] theorem Core.setXreg_inVec : (k.setXreg n v).inVec = k.inVec := by unfold Core.setXreg; split <;> rfl
@[simp] theorem Core.setXreg_inPass : (k.setXreg n v).inPass = k.inPass := by unfold Core.setXreg; split <;> rfl
@[simp] theorem Core.setXreg_inLoad : (k.setXreg n v).inLoad = k.inLoad := by unfold Core.setXreg; split <;> rfl
@[simp] theorem Core.setXreg_inFun : (k.setXreg n v).inFun = k.inFun := by unfold Core.setXreg; split <;> rfl
@[simp] theorem Core.setXreg_kept : (k.setXreg n v).kept = k.kept := by unfold Core.setXreg; split <;> rfl
@[simp] theorem Core.setXreg_done : (k.setXreg n v).done = k.done := by unfold Core.setXreg; split <;> rfl
@[simp] theorem Core.setXreg_pixVec : (k.setXreg n v).pixVec = k.pixVec := by unfold Core.setXreg; split <;> rfl
@[simp] theorem Core.setXreg_pixMtx : (k.setXreg n v).pixMtx = k.pixMtx := by unfold Core.setXreg; split <;> rfl
@[simp] theorem Core.setXreg_pixFun : (k.setXreg n v).pixFun = k.pixFun := by unfold Core.setXreg; split <;> rfl
@[simp] theorem Core.setXreg_queues : (k.setXreg n v).queues = k.queues := by unfold Core.setXreg; split <;> rfl
@[simp] theorem Core.setXreg_tiles : (k.setXreg n v).tiles = k.tiles := by unfold Core.setXreg; split <;> rfl
@[simp] theorem Core.setXreg_scaleq : (k.setXreg n v).scaleq = k.scaleq := by unfold Core.setXreg; split <;> rfl
@[simp] theorem Core.setXreg_resultq : (k.setXreg n v).resultq = k.resultq := by unfold Core.setXreg; split <;> rfl
@[simp] theorem Core.setXreg_rqRes : (k.setXreg n v).rqRes = k.rqRes := by unfold Core.setXreg; split <;> rfl
@[simp] theorem Core.setXreg_vregsCode : (k.setXreg n v).vregsCode = k.vregsCode := by unfold Core.setXreg; split <;> rfl
@[simp] theorem Core.setXreg_acc : (k.setXreg n v).acc = k.acc := by unfold Core.setXreg; split <;> rfl
@[simp] theorem Core.setXreg_cont : (k.setXreg n v).cont = k.cont := by unfold Core.setXreg; split <;> rfl
@[simp] theorem Core.setXreg_shapes : (k.setXreg n v).shapes = k.shapes := by unfold Core.setXreg; split <;> rfl
@[simp] theorem Core.setXreg_streams : (k.setXreg n v).streams = k.streams := by unfold Core.setXreg; split <;> rfl
@[simp] theorem Core.setXreg_sfault : (k.setXreg n v).sfault = k.sfault := by unfold Core.setXreg; split <;> rfl
@[simp] theorem Core.setXreg_rings : (k.setXreg n v).rings = k.rings := by unfold Core.setXreg; split <;> rfl
@[simp] theorem Core.setXreg_order : (k.setXreg n v).order = k.order := by unfold Core.setXreg; split <;> rfl
@[simp] theorem Core.setXreg_hold : (k.setXreg n v).hold = k.hold := by unfold Core.setXreg; split <;> rfl
@[simp] theorem Core.setXreg_holdBad : (k.setXreg n v).holdBad = k.holdBad := by unfold Core.setXreg; split <;> rfl
@[simp] theorem Core.setXreg_holdRing : (k.setXreg n v).holdRing = k.holdRing := by unfold Core.setXreg; split <;> rfl
@[simp] theorem Core.setXreg_semas : (k.setXreg n v).semas = k.semas := by unfold Core.setXreg; split <;> rfl
@[simp] theorem Core.setXreg_bars : (k.setXreg n v).bars = k.bars := by unfold Core.setXreg; split <;> rfl
@[simp] theorem Core.setXreg_pool : (k.setXreg n v).pool = k.pool := by unfold Core.setXreg; split <;> rfl
@[simp] theorem Core.setXreg_pending : (k.setXreg n v).pending = k.pending := by unfold Core.setXreg; split <;> rfl
@[simp] theorem Core.setXreg_held : (k.setXreg n v).held = k.held := by unfold Core.setXreg; split <;> rfl
@[simp] theorem Core.setXreg_heat : (k.setXreg n v).heat = k.heat := by unfold Core.setXreg; split <;> rfl
@[simp] theorem Core.setXreg_ctx : (k.setXreg n v).ctx = k.ctx := by unfold Core.setXreg; split <;> rfl
@[simp] theorem Core.setXreg_hasSeat : (k.setXreg n v).hasSeat = k.hasSeat := by unfold Core.setXreg; split <;> rfl
@[simp] theorem Core.setXreg_stint : (k.setXreg n v).stint = k.stint := by unfold Core.setXreg; split <;> rfl

end

/-! ### Core.setPred -/

section

variable (k : Core) (n : Nat) (v : Bool)

@[simp] theorem Core.setPred_ap : (k.setPred n v).ap = k.ap := by unfold Core.setPred; split <;> rfl
@[simp] theorem Core.setPred_xp : (k.setPred n v).xp = k.xp := by unfold Core.setPred; split <;> rfl
@[simp] theorem Core.setPred_aregs : (k.setPred n v).aregs = k.aregs := by unfold Core.setPred; split <;> rfl
@[simp] theorem Core.setPred_lds : (k.setPred n v).lds = k.lds := by unfold Core.setPred; split <;> rfl
@[simp] theorem Core.setPred_sstat : (k.setPred n v).sstat = k.sstat := by unfold Core.setPred; split <;> rfl
@[simp] theorem Core.setPred_xregs : (k.setPred n v).xregs = k.xregs := by unfold Core.setPred; split <;> rfl
@[simp] theorem Core.setPred_vregs : (k.setPred n v).vregs = k.vregs := by unfold Core.setPred; split <;> rfl
@[simp] theorem Core.setPred_masks : (k.setPred n v).masks = k.masks := by unfold Core.setPred; split <;> rfl
@[simp] theorem Core.setPred_nregs : (k.setPred n v).nregs = k.nregs := by unfold Core.setPred; split <;> rfl
@[simp] theorem Core.setPred_vt : (k.setPred n v).vt = k.vt := by unfold Core.setPred; split <;> rfl
@[simp] theorem Core.setPred_vcnt : (k.setPred n v).vcnt = k.vcnt := by unfold Core.setPred; split <;> rfl
@[simp] theorem Core.setPred_g : (k.setPred n v).g = k.g := by unfold Core.setPred; split <;> rfl
@[simp] theorem Core.setPred_flags : (k.setPred n v).flags = k.flags := by unfold Core.setPred; split <;> rfl
@[simp] theorem Core.setPred_slip : (k.setPred n v).slip = k.slip := by unfold Core.setPred; split <;> rfl
@[simp] theorem Core.setPred_aside : (k.setPred n v).aside = k.aside := by unfold Core.setPred; split <;> rfl
@[simp] theorem Core.setPred_faulted : (k.setPred n v).faulted = k.faulted := by unfold Core.setPred; split <;> rfl
@[simp] theorem Core.setPred_seq : (k.setPred n v).seq = k.seq := by unfold Core.setPred; split <;> rfl
@[simp] theorem Core.setPred_vq : (k.setPred n v).vq = k.vq := by unfold Core.setPred; split <;> rfl
@[simp] theorem Core.setPred_mq : (k.setPred n v).mq = k.mq := by unfold Core.setPred; split <;> rfl
@[simp] theorem Core.setPred_fq : (k.setPred n v).fq = k.fq := by unfold Core.setPred; split <;> rfl
@[simp] theorem Core.setPred_inVec : (k.setPred n v).inVec = k.inVec := by unfold Core.setPred; split <;> rfl
@[simp] theorem Core.setPred_inPass : (k.setPred n v).inPass = k.inPass := by unfold Core.setPred; split <;> rfl
@[simp] theorem Core.setPred_inLoad : (k.setPred n v).inLoad = k.inLoad := by unfold Core.setPred; split <;> rfl
@[simp] theorem Core.setPred_inFun : (k.setPred n v).inFun = k.inFun := by unfold Core.setPred; split <;> rfl
@[simp] theorem Core.setPred_kept : (k.setPred n v).kept = k.kept := by unfold Core.setPred; split <;> rfl
@[simp] theorem Core.setPred_done : (k.setPred n v).done = k.done := by unfold Core.setPred; split <;> rfl
@[simp] theorem Core.setPred_pixVec : (k.setPred n v).pixVec = k.pixVec := by unfold Core.setPred; split <;> rfl
@[simp] theorem Core.setPred_pixMtx : (k.setPred n v).pixMtx = k.pixMtx := by unfold Core.setPred; split <;> rfl
@[simp] theorem Core.setPred_pixFun : (k.setPred n v).pixFun = k.pixFun := by unfold Core.setPred; split <;> rfl
@[simp] theorem Core.setPred_queues : (k.setPred n v).queues = k.queues := by unfold Core.setPred; split <;> rfl
@[simp] theorem Core.setPred_tiles : (k.setPred n v).tiles = k.tiles := by unfold Core.setPred; split <;> rfl
@[simp] theorem Core.setPred_scaleq : (k.setPred n v).scaleq = k.scaleq := by unfold Core.setPred; split <;> rfl
@[simp] theorem Core.setPred_resultq : (k.setPred n v).resultq = k.resultq := by unfold Core.setPred; split <;> rfl
@[simp] theorem Core.setPred_rqRes : (k.setPred n v).rqRes = k.rqRes := by unfold Core.setPred; split <;> rfl
@[simp] theorem Core.setPred_vregsCode : (k.setPred n v).vregsCode = k.vregsCode := by unfold Core.setPred; split <;> rfl
@[simp] theorem Core.setPred_acc : (k.setPred n v).acc = k.acc := by unfold Core.setPred; split <;> rfl
@[simp] theorem Core.setPred_cont : (k.setPred n v).cont = k.cont := by unfold Core.setPred; split <;> rfl
@[simp] theorem Core.setPred_shapes : (k.setPred n v).shapes = k.shapes := by unfold Core.setPred; split <;> rfl
@[simp] theorem Core.setPred_streams : (k.setPred n v).streams = k.streams := by unfold Core.setPred; split <;> rfl
@[simp] theorem Core.setPred_sfault : (k.setPred n v).sfault = k.sfault := by unfold Core.setPred; split <;> rfl
@[simp] theorem Core.setPred_rings : (k.setPred n v).rings = k.rings := by unfold Core.setPred; split <;> rfl
@[simp] theorem Core.setPred_order : (k.setPred n v).order = k.order := by unfold Core.setPred; split <;> rfl
@[simp] theorem Core.setPred_hold : (k.setPred n v).hold = k.hold := by unfold Core.setPred; split <;> rfl
@[simp] theorem Core.setPred_holdBad : (k.setPred n v).holdBad = k.holdBad := by unfold Core.setPred; split <;> rfl
@[simp] theorem Core.setPred_holdRing : (k.setPred n v).holdRing = k.holdRing := by unfold Core.setPred; split <;> rfl
@[simp] theorem Core.setPred_semas : (k.setPred n v).semas = k.semas := by unfold Core.setPred; split <;> rfl
@[simp] theorem Core.setPred_bars : (k.setPred n v).bars = k.bars := by unfold Core.setPred; split <;> rfl
@[simp] theorem Core.setPred_pool : (k.setPred n v).pool = k.pool := by unfold Core.setPred; split <;> rfl
@[simp] theorem Core.setPred_pending : (k.setPred n v).pending = k.pending := by unfold Core.setPred; split <;> rfl
@[simp] theorem Core.setPred_held : (k.setPred n v).held = k.held := by unfold Core.setPred; split <;> rfl
@[simp] theorem Core.setPred_heat : (k.setPred n v).heat = k.heat := by unfold Core.setPred; split <;> rfl
@[simp] theorem Core.setPred_ctx : (k.setPred n v).ctx = k.ctx := by unfold Core.setPred; split <;> rfl
@[simp] theorem Core.setPred_hasSeat : (k.setPred n v).hasSeat = k.hasSeat := by unfold Core.setPred; split <;> rfl
@[simp] theorem Core.setPred_stint : (k.setPred n v).stint = k.stint := by unfold Core.setPred; split <;> rfl

end

/-! ### Core.setMask -/

section

variable (k : Core) (n : Nat) (v : BitVec 1024)

@[simp] theorem Core.setMask_ap : (k.setMask n v).ap = k.ap := by unfold Core.setMask; split <;> rfl
@[simp] theorem Core.setMask_xp : (k.setMask n v).xp = k.xp := by unfold Core.setMask; split <;> rfl
@[simp] theorem Core.setMask_aregs : (k.setMask n v).aregs = k.aregs := by unfold Core.setMask; split <;> rfl
@[simp] theorem Core.setMask_preds : (k.setMask n v).preds = k.preds := by unfold Core.setMask; split <;> rfl
@[simp] theorem Core.setMask_lds : (k.setMask n v).lds = k.lds := by unfold Core.setMask; split <;> rfl
@[simp] theorem Core.setMask_sstat : (k.setMask n v).sstat = k.sstat := by unfold Core.setMask; split <;> rfl
@[simp] theorem Core.setMask_xregs : (k.setMask n v).xregs = k.xregs := by unfold Core.setMask; split <;> rfl
@[simp] theorem Core.setMask_vregs : (k.setMask n v).vregs = k.vregs := by unfold Core.setMask; split <;> rfl
@[simp] theorem Core.setMask_nregs : (k.setMask n v).nregs = k.nregs := by unfold Core.setMask; split <;> rfl
@[simp] theorem Core.setMask_vt : (k.setMask n v).vt = k.vt := by unfold Core.setMask; split <;> rfl
@[simp] theorem Core.setMask_vcnt : (k.setMask n v).vcnt = k.vcnt := by unfold Core.setMask; split <;> rfl
@[simp] theorem Core.setMask_g : (k.setMask n v).g = k.g := by unfold Core.setMask; split <;> rfl
@[simp] theorem Core.setMask_flags : (k.setMask n v).flags = k.flags := by unfold Core.setMask; split <;> rfl
@[simp] theorem Core.setMask_slip : (k.setMask n v).slip = k.slip := by unfold Core.setMask; split <;> rfl
@[simp] theorem Core.setMask_aside : (k.setMask n v).aside = k.aside := by unfold Core.setMask; split <;> rfl
@[simp] theorem Core.setMask_faulted : (k.setMask n v).faulted = k.faulted := by unfold Core.setMask; split <;> rfl
@[simp] theorem Core.setMask_seq : (k.setMask n v).seq = k.seq := by unfold Core.setMask; split <;> rfl
@[simp] theorem Core.setMask_vq : (k.setMask n v).vq = k.vq := by unfold Core.setMask; split <;> rfl
@[simp] theorem Core.setMask_mq : (k.setMask n v).mq = k.mq := by unfold Core.setMask; split <;> rfl
@[simp] theorem Core.setMask_fq : (k.setMask n v).fq = k.fq := by unfold Core.setMask; split <;> rfl
@[simp] theorem Core.setMask_inVec : (k.setMask n v).inVec = k.inVec := by unfold Core.setMask; split <;> rfl
@[simp] theorem Core.setMask_inPass : (k.setMask n v).inPass = k.inPass := by unfold Core.setMask; split <;> rfl
@[simp] theorem Core.setMask_inLoad : (k.setMask n v).inLoad = k.inLoad := by unfold Core.setMask; split <;> rfl
@[simp] theorem Core.setMask_inFun : (k.setMask n v).inFun = k.inFun := by unfold Core.setMask; split <;> rfl
@[simp] theorem Core.setMask_kept : (k.setMask n v).kept = k.kept := by unfold Core.setMask; split <;> rfl
@[simp] theorem Core.setMask_done : (k.setMask n v).done = k.done := by unfold Core.setMask; split <;> rfl
@[simp] theorem Core.setMask_pixVec : (k.setMask n v).pixVec = k.pixVec := by unfold Core.setMask; split <;> rfl
@[simp] theorem Core.setMask_pixMtx : (k.setMask n v).pixMtx = k.pixMtx := by unfold Core.setMask; split <;> rfl
@[simp] theorem Core.setMask_pixFun : (k.setMask n v).pixFun = k.pixFun := by unfold Core.setMask; split <;> rfl
@[simp] theorem Core.setMask_queues : (k.setMask n v).queues = k.queues := by unfold Core.setMask; split <;> rfl
@[simp] theorem Core.setMask_tiles : (k.setMask n v).tiles = k.tiles := by unfold Core.setMask; split <;> rfl
@[simp] theorem Core.setMask_scaleq : (k.setMask n v).scaleq = k.scaleq := by unfold Core.setMask; split <;> rfl
@[simp] theorem Core.setMask_resultq : (k.setMask n v).resultq = k.resultq := by unfold Core.setMask; split <;> rfl
@[simp] theorem Core.setMask_rqRes : (k.setMask n v).rqRes = k.rqRes := by unfold Core.setMask; split <;> rfl
@[simp] theorem Core.setMask_vregsCode : (k.setMask n v).vregsCode = k.vregsCode := by unfold Core.setMask; split <;> rfl
@[simp] theorem Core.setMask_acc : (k.setMask n v).acc = k.acc := by unfold Core.setMask; split <;> rfl
@[simp] theorem Core.setMask_cont : (k.setMask n v).cont = k.cont := by unfold Core.setMask; split <;> rfl
@[simp] theorem Core.setMask_shapes : (k.setMask n v).shapes = k.shapes := by unfold Core.setMask; split <;> rfl
@[simp] theorem Core.setMask_streams : (k.setMask n v).streams = k.streams := by unfold Core.setMask; split <;> rfl
@[simp] theorem Core.setMask_sfault : (k.setMask n v).sfault = k.sfault := by unfold Core.setMask; split <;> rfl
@[simp] theorem Core.setMask_rings : (k.setMask n v).rings = k.rings := by unfold Core.setMask; split <;> rfl
@[simp] theorem Core.setMask_order : (k.setMask n v).order = k.order := by unfold Core.setMask; split <;> rfl
@[simp] theorem Core.setMask_hold : (k.setMask n v).hold = k.hold := by unfold Core.setMask; split <;> rfl
@[simp] theorem Core.setMask_holdBad : (k.setMask n v).holdBad = k.holdBad := by unfold Core.setMask; split <;> rfl
@[simp] theorem Core.setMask_holdRing : (k.setMask n v).holdRing = k.holdRing := by unfold Core.setMask; split <;> rfl
@[simp] theorem Core.setMask_semas : (k.setMask n v).semas = k.semas := by unfold Core.setMask; split <;> rfl
@[simp] theorem Core.setMask_bars : (k.setMask n v).bars = k.bars := by unfold Core.setMask; split <;> rfl
@[simp] theorem Core.setMask_pool : (k.setMask n v).pool = k.pool := by unfold Core.setMask; split <;> rfl
@[simp] theorem Core.setMask_pending : (k.setMask n v).pending = k.pending := by unfold Core.setMask; split <;> rfl
@[simp] theorem Core.setMask_held : (k.setMask n v).held = k.held := by unfold Core.setMask; split <;> rfl
@[simp] theorem Core.setMask_heat : (k.setMask n v).heat = k.heat := by unfold Core.setMask; split <;> rfl
@[simp] theorem Core.setMask_ctx : (k.setMask n v).ctx = k.ctx := by unfold Core.setMask; split <;> rfl
@[simp] theorem Core.setMask_hasSeat : (k.setMask n v).hasSeat = k.hasSeat := by unfold Core.setMask; split <;> rfl
@[simp] theorem Core.setMask_stint : (k.setMask n v).stint = k.stint := by unfold Core.setMask; split <;> rfl

end

/-! ### Core.setVreg -/

section

variable (k : Core) (n : Nat) (v : BitVec 4096)

@[simp] theorem Core.setVreg_ap : (k.setVreg n v).ap = k.ap := rfl
@[simp] theorem Core.setVreg_xp : (k.setVreg n v).xp = k.xp := rfl
@[simp] theorem Core.setVreg_aregs : (k.setVreg n v).aregs = k.aregs := rfl
@[simp] theorem Core.setVreg_preds : (k.setVreg n v).preds = k.preds := rfl
@[simp] theorem Core.setVreg_lds : (k.setVreg n v).lds = k.lds := rfl
@[simp] theorem Core.setVreg_sstat : (k.setVreg n v).sstat = k.sstat := rfl
@[simp] theorem Core.setVreg_xregs : (k.setVreg n v).xregs = k.xregs := rfl
@[simp] theorem Core.setVreg_masks : (k.setVreg n v).masks = k.masks := rfl
@[simp] theorem Core.setVreg_nregs : (k.setVreg n v).nregs = k.nregs := rfl
@[simp] theorem Core.setVreg_vt : (k.setVreg n v).vt = k.vt := rfl
@[simp] theorem Core.setVreg_vcnt : (k.setVreg n v).vcnt = k.vcnt := rfl
@[simp] theorem Core.setVreg_g : (k.setVreg n v).g = k.g := rfl
@[simp] theorem Core.setVreg_flags : (k.setVreg n v).flags = k.flags := rfl
@[simp] theorem Core.setVreg_slip : (k.setVreg n v).slip = k.slip := rfl
@[simp] theorem Core.setVreg_aside : (k.setVreg n v).aside = k.aside := rfl
@[simp] theorem Core.setVreg_faulted : (k.setVreg n v).faulted = k.faulted := rfl
@[simp] theorem Core.setVreg_seq : (k.setVreg n v).seq = k.seq := rfl
@[simp] theorem Core.setVreg_vq : (k.setVreg n v).vq = k.vq := rfl
@[simp] theorem Core.setVreg_mq : (k.setVreg n v).mq = k.mq := rfl
@[simp] theorem Core.setVreg_fq : (k.setVreg n v).fq = k.fq := rfl
@[simp] theorem Core.setVreg_inVec : (k.setVreg n v).inVec = k.inVec := rfl
@[simp] theorem Core.setVreg_inPass : (k.setVreg n v).inPass = k.inPass := rfl
@[simp] theorem Core.setVreg_inLoad : (k.setVreg n v).inLoad = k.inLoad := rfl
@[simp] theorem Core.setVreg_inFun : (k.setVreg n v).inFun = k.inFun := rfl
@[simp] theorem Core.setVreg_kept : (k.setVreg n v).kept = k.kept := rfl
@[simp] theorem Core.setVreg_done : (k.setVreg n v).done = k.done := rfl
@[simp] theorem Core.setVreg_pixVec : (k.setVreg n v).pixVec = k.pixVec := rfl
@[simp] theorem Core.setVreg_pixMtx : (k.setVreg n v).pixMtx = k.pixMtx := rfl
@[simp] theorem Core.setVreg_pixFun : (k.setVreg n v).pixFun = k.pixFun := rfl
@[simp] theorem Core.setVreg_queues : (k.setVreg n v).queues = k.queues := rfl
@[simp] theorem Core.setVreg_tiles : (k.setVreg n v).tiles = k.tiles := rfl
@[simp] theorem Core.setVreg_scaleq : (k.setVreg n v).scaleq = k.scaleq := rfl
@[simp] theorem Core.setVreg_resultq : (k.setVreg n v).resultq = k.resultq := rfl
@[simp] theorem Core.setVreg_rqRes : (k.setVreg n v).rqRes = k.rqRes := rfl
@[simp] theorem Core.setVreg_vregsCode : (k.setVreg n v).vregsCode = k.vregsCode := rfl
@[simp] theorem Core.setVreg_acc : (k.setVreg n v).acc = k.acc := rfl
@[simp] theorem Core.setVreg_cont : (k.setVreg n v).cont = k.cont := rfl
@[simp] theorem Core.setVreg_shapes : (k.setVreg n v).shapes = k.shapes := rfl
@[simp] theorem Core.setVreg_streams : (k.setVreg n v).streams = k.streams := rfl
@[simp] theorem Core.setVreg_sfault : (k.setVreg n v).sfault = k.sfault := rfl
@[simp] theorem Core.setVreg_rings : (k.setVreg n v).rings = k.rings := rfl
@[simp] theorem Core.setVreg_order : (k.setVreg n v).order = k.order := rfl
@[simp] theorem Core.setVreg_hold : (k.setVreg n v).hold = k.hold := rfl
@[simp] theorem Core.setVreg_holdBad : (k.setVreg n v).holdBad = k.holdBad := rfl
@[simp] theorem Core.setVreg_holdRing : (k.setVreg n v).holdRing = k.holdRing := rfl
@[simp] theorem Core.setVreg_semas : (k.setVreg n v).semas = k.semas := rfl
@[simp] theorem Core.setVreg_bars : (k.setVreg n v).bars = k.bars := rfl
@[simp] theorem Core.setVreg_pool : (k.setVreg n v).pool = k.pool := rfl
@[simp] theorem Core.setVreg_pending : (k.setVreg n v).pending = k.pending := rfl
@[simp] theorem Core.setVreg_held : (k.setVreg n v).held = k.held := rfl
@[simp] theorem Core.setVreg_heat : (k.setVreg n v).heat = k.heat := rfl
@[simp] theorem Core.setVreg_ctx : (k.setVreg n v).ctx = k.ctx := rfl
@[simp] theorem Core.setVreg_hasSeat : (k.setVreg n v).hasSeat = k.hasSeat := rfl
@[simp] theorem Core.setVreg_stint : (k.setVreg n v).stint = k.stint := rfl

end

/-! ### Core.modSide -/

section

variable (k : Core) (sd : Side) (f : SideSt → SideSt)

@[simp] theorem Core.modSide_aregs : (k.modSide sd f).aregs = k.aregs := by cases sd <;> rfl
@[simp] theorem Core.modSide_preds : (k.modSide sd f).preds = k.preds := by cases sd <;> rfl
@[simp] theorem Core.modSide_lds : (k.modSide sd f).lds = k.lds := by cases sd <;> rfl
@[simp] theorem Core.modSide_sstat : (k.modSide sd f).sstat = k.sstat := by cases sd <;> rfl
@[simp] theorem Core.modSide_xregs : (k.modSide sd f).xregs = k.xregs := by cases sd <;> rfl
@[simp] theorem Core.modSide_vregs : (k.modSide sd f).vregs = k.vregs := by cases sd <;> rfl
@[simp] theorem Core.modSide_masks : (k.modSide sd f).masks = k.masks := by cases sd <;> rfl
@[simp] theorem Core.modSide_nregs : (k.modSide sd f).nregs = k.nregs := by cases sd <;> rfl
@[simp] theorem Core.modSide_vt : (k.modSide sd f).vt = k.vt := by cases sd <;> rfl
@[simp] theorem Core.modSide_vcnt : (k.modSide sd f).vcnt = k.vcnt := by cases sd <;> rfl
@[simp] theorem Core.modSide_g : (k.modSide sd f).g = k.g := by cases sd <;> rfl
@[simp] theorem Core.modSide_flags : (k.modSide sd f).flags = k.flags := by cases sd <;> rfl
@[simp] theorem Core.modSide_slip : (k.modSide sd f).slip = k.slip := by cases sd <;> rfl
@[simp] theorem Core.modSide_aside : (k.modSide sd f).aside = k.aside := by cases sd <;> rfl
@[simp] theorem Core.modSide_faulted : (k.modSide sd f).faulted = k.faulted := by cases sd <;> rfl
@[simp] theorem Core.modSide_seq : (k.modSide sd f).seq = k.seq := by cases sd <;> rfl
@[simp] theorem Core.modSide_vq : (k.modSide sd f).vq = k.vq := by cases sd <;> rfl
@[simp] theorem Core.modSide_mq : (k.modSide sd f).mq = k.mq := by cases sd <;> rfl
@[simp] theorem Core.modSide_fq : (k.modSide sd f).fq = k.fq := by cases sd <;> rfl
@[simp] theorem Core.modSide_inVec : (k.modSide sd f).inVec = k.inVec := by cases sd <;> rfl
@[simp] theorem Core.modSide_inPass : (k.modSide sd f).inPass = k.inPass := by cases sd <;> rfl
@[simp] theorem Core.modSide_inLoad : (k.modSide sd f).inLoad = k.inLoad := by cases sd <;> rfl
@[simp] theorem Core.modSide_inFun : (k.modSide sd f).inFun = k.inFun := by cases sd <;> rfl
@[simp] theorem Core.modSide_kept : (k.modSide sd f).kept = k.kept := by cases sd <;> rfl
@[simp] theorem Core.modSide_done : (k.modSide sd f).done = k.done := by cases sd <;> rfl
@[simp] theorem Core.modSide_pixVec : (k.modSide sd f).pixVec = k.pixVec := by cases sd <;> rfl
@[simp] theorem Core.modSide_pixMtx : (k.modSide sd f).pixMtx = k.pixMtx := by cases sd <;> rfl
@[simp] theorem Core.modSide_pixFun : (k.modSide sd f).pixFun = k.pixFun := by cases sd <;> rfl
@[simp] theorem Core.modSide_queues : (k.modSide sd f).queues = k.queues := by cases sd <;> rfl
@[simp] theorem Core.modSide_tiles : (k.modSide sd f).tiles = k.tiles := by cases sd <;> rfl
@[simp] theorem Core.modSide_scaleq : (k.modSide sd f).scaleq = k.scaleq := by cases sd <;> rfl
@[simp] theorem Core.modSide_resultq : (k.modSide sd f).resultq = k.resultq := by cases sd <;> rfl
@[simp] theorem Core.modSide_rqRes : (k.modSide sd f).rqRes = k.rqRes := by cases sd <;> rfl
@[simp] theorem Core.modSide_vregsCode : (k.modSide sd f).vregsCode = k.vregsCode := by cases sd <;> rfl
@[simp] theorem Core.modSide_acc : (k.modSide sd f).acc = k.acc := by cases sd <;> rfl
@[simp] theorem Core.modSide_cont : (k.modSide sd f).cont = k.cont := by cases sd <;> rfl
@[simp] theorem Core.modSide_shapes : (k.modSide sd f).shapes = k.shapes := by cases sd <;> rfl
@[simp] theorem Core.modSide_streams : (k.modSide sd f).streams = k.streams := by cases sd <;> rfl
@[simp] theorem Core.modSide_sfault : (k.modSide sd f).sfault = k.sfault := by cases sd <;> rfl
@[simp] theorem Core.modSide_rings : (k.modSide sd f).rings = k.rings := by cases sd <;> rfl
@[simp] theorem Core.modSide_order : (k.modSide sd f).order = k.order := by cases sd <;> rfl
@[simp] theorem Core.modSide_hold : (k.modSide sd f).hold = k.hold := by cases sd <;> rfl
@[simp] theorem Core.modSide_holdBad : (k.modSide sd f).holdBad = k.holdBad := by cases sd <;> rfl
@[simp] theorem Core.modSide_holdRing : (k.modSide sd f).holdRing = k.holdRing := by cases sd <;> rfl
@[simp] theorem Core.modSide_semas : (k.modSide sd f).semas = k.semas := by cases sd <;> rfl
@[simp] theorem Core.modSide_bars : (k.modSide sd f).bars = k.bars := by cases sd <;> rfl
@[simp] theorem Core.modSide_pool : (k.modSide sd f).pool = k.pool := by cases sd <;> rfl
@[simp] theorem Core.modSide_pending : (k.modSide sd f).pending = k.pending := by cases sd <;> rfl
@[simp] theorem Core.modSide_held : (k.modSide sd f).held = k.held := by cases sd <;> rfl
@[simp] theorem Core.modSide_heat : (k.modSide sd f).heat = k.heat := by cases sd <;> rfl
@[simp] theorem Core.modSide_ctx : (k.modSide sd f).ctx = k.ctx := by cases sd <;> rfl
@[simp] theorem Core.modSide_hasSeat : (k.modSide sd f).hasSeat = k.hasSeat := by cases sd <;> rfl
@[simp] theorem Core.modSide_stint : (k.modSide sd f).stint = k.stint := by cases sd <;> rfl

end

end Sys2Proof.Machine
end

