-- ==== Sys2Proof/Laws/Mem.lean ====
section
/-! SUPPORT. Memory keeps its canonical form under every operation on it, and a byte written reads back. -/

namespace Sys2Proof.Machine

/-! ### The form -/

/-- The canonical form, said of the whole list. -/
theorem wf_iff (m : List Host.Cell) : Memory.wf m = true ↔ m.Pairwise (fun p q => p.1 < q.1) ∧ ∀ p ∈ m, p.2 ≠ 0 := by
  induction m with
  | nil => simp [Memory.wf]
  | cons p r ih =>
    cases r with
    | nil => simp [Memory.wf]
    | cons q r =>
      have h : Memory.wf (p :: q :: r) = (p.2 != 0 && decide (p.1 < q.1) && Memory.wf (q :: r)) := rfl
      rw [h, Bool.and_eq_true, Bool.and_eq_true, ih]
      simp only [bne_iff_ne, decide_eq_true_eq, List.pairwise_cons, List.mem_cons, forall_eq_or_imp]
      constructor
      · rintro ⟨⟨h0, h1⟩, ⟨h2, h3⟩, h4⟩
        exact ⟨⟨⟨h1, fun a ha => Nat.lt_trans h1 (h2 a ha)⟩, h2, h3⟩, h0, h4⟩
      · rintro ⟨⟨⟨h1, -⟩, h2, h3⟩, h0, h4⟩
        exact ⟨⟨h0, h1⟩, ⟨h2, h3⟩, h4⟩

theorem reset_wf : Memory.wf State.reset.mem = true := rfl

/-- Bytes taken out by their addresses leave the form. -/
theorem filter_wf (m : List Host.Cell) (f : Host.Cell → Bool) (h : Memory.wf m = true) : Memory.wf (m.filter f) = true := by
  rw [wf_iff] at h ⊢
  exact ⟨h.1.sublist List.filter_sublist, fun p hp => h.2 p (List.mem_of_mem_filter hp)⟩

theorem mem_memIns (m : List Host.Cell) (a : Nat) (v : Byte) (p : Host.Cell) : p ∈ memIns m a v ↔ p = (a, v) ∨ p ∈ m := by
  induction m with
  | nil => simp [memIns]
  | cons q r ih =>
    unfold memIns
    split
    · simp
    · simp only [List.mem_cons, ih]; tauto

theorem memIns_pairwise (m : List Host.Cell) (a : Nat) (v : Byte) (h : m.Pairwise (fun p q => p.1 < q.1))
    (hn : ∀ p ∈ m, p.1 ≠ a) : (memIns m a v).Pairwise (fun p q => p.1 < q.1) := by
  induction m with
  | nil => simp [memIns]
  | cons q r ih =>
    rw [List.pairwise_cons] at h
    unfold memIns
    split
    · next hlt =>
      refine List.pairwise_cons.2 ⟨fun p hp => ?_, List.pairwise_cons.2 h⟩
      rcases List.mem_cons.1 hp with rfl | hp
      · exact hlt
      · exact Nat.lt_trans hlt (h.1 p hp)
    · next hge =>
      refine List.pairwise_cons.2 ⟨fun p hp => ?_, ih h.2 fun p hp => hn p (List.mem_cons_of_mem _ hp)⟩
      rcases (mem_memIns r a v p).1 hp with rfl | hp
      · have := hn q (List.mem_cons_self ..); simp only; omega
      · exact h.1 p hp

/-- A write of one byte keeps the form. -/
theorem memSet_wf (m : List Host.Cell) (a : Nat) (v : Byte) (h : Memory.wf m = true) : Memory.wf (memSet m a v) = true := by
  have hf := filter_wf m (fun p => p.1 != a) h
  unfold memSet
  split
  · exact hf
  · next hv =>
    rw [wf_iff] at hf ⊢
    refine ⟨memIns_pairwise _ a v hf.1 fun p hp => by simpa using (List.mem_filter.1 hp).2, fun p hp => ?_⟩
    rcases (mem_memIns _ a v p).1 hp with rfl | hp
    · exact hv
    · exact hf.2 p hp

/-- A write of several bytes keeps the form. -/
theorem memWrite_wf (m : List Host.Cell) (a : Nat) (l : List Byte) (h : Memory.wf m = true) : Memory.wf (memWrite m a l) = true := by
  induction l generalizing m a with
  | nil => exact h
  | cons b r ih => exact ih _ _ (memSet_wf m a b h)

/-- A fold of single writes keeps the form. -/
theorem foldSet_wf {α : Type} (l : List α) (f : α → Nat) (g : α → Byte) (m : List Host.Cell) (h : Memory.wf m = true) :
    Memory.wf (l.foldl (fun m x => memSet m (f x) (g x)) m) = true := by
  induction l generalizing m with
  | nil => exact h
  | cons x r ih => exact ih _ (memSet_wf m _ _ h)

/-! ### Reading back -/

theorem memGet_memIns (m : List Host.Cell) (a j : Nat) (v : Byte) (h : ∀ p ∈ m, p.1 ≠ a) :
    memGet (memIns m a v) j = if j = a then v else memGet m j := by
  induction m with
  | nil =>
    by_cases e : j = a
    · simp [memIns, memGet, e]
    · simp [memIns, memGet, e, Ne.symm e]
  | cons q r ih =>
    have hq := h q (List.mem_cons_self ..)
    have ih := ih fun p hp => h p (List.mem_cons_of_mem _ hp)
    unfold memIns
    split
    · by_cases e : j = a
      · simp [memGet, e]
      · simp [memGet, e, Ne.symm e]
    · by_cases e : j = a
      · subst e; simp [memGet, hq, ih]
      · simp [memGet, ih, e]

theorem memGet_filter_ne (m : List Host.Cell) (a j : Nat) :
    memGet (m.filter (fun p => p.1 != a)) j = if j = a then 0 else memGet m j := by
  induction m with
  | nil => simp [memGet]
  | cons q r ih =>
    by_cases hq : q.1 = a
    · rw [List.filter_cons_of_neg (by simp [hq]), ih]
      by_cases e : j = a
      · simp [e]
      · have : q.1 ≠ j := fun h => e (h.symm.trans hq)
        simp [memGet, e, this]
    · rw [List.filter_cons_of_pos (by simp [hq])]
      by_cases e : j = a
      · subst e; simp [memGet, hq, ih]
      · simp [memGet, ih, e]

/-- A byte written reads back, and every other byte is as before. -/
theorem memGet_memSet (m : List Host.Cell) (a j : Nat) (v : Byte) : memGet (memSet m a v) j = if j = a then v else memGet m j := by
  unfold memSet
  split
  · next h => rw [memGet_filter_ne, h]
  · rw [memGet_memIns _ _ _ _ fun p hp => by simpa using (List.mem_filter.1 hp).2, memGet_filter_ne]
    split <;> rfl

/-! ### Operations of the part -/

/-- A fold of steps that keep the form keeps it. -/
theorem fold_wf {α : Type} (l : List α) (f : State → α → State) (s : State)
    (hf : ∀ s x, Memory.wf s.mem = true → Memory.wf (f s x).mem = true) (h : Memory.wf s.mem = true) :
    Memory.wf (l.foldl f s).mem = true := by
  induction l generalizing s with
  | nil => exact h
  | cons x r ih => exact ih _ (hf s x h)

@[simp] theorem modDie_mem (s : State) (n : Nat) (f : Die → Die) : (s.modDie n f).mem = s.mem := rfl

@[simp] theorem modCore_mem (s : State) (c : Nat) (f : Core → Core) : (s.modCore c f).mem = s.mem := rfl

@[simp] theorem poisonKey_mem (k : Nat) (s : State) : (poisonKey k s).mem = s.mem := by unfold poisonKey; split <;> rfl

@[simp] theorem cleanKey_mem (k : Nat) (s : State) : (cleanKey k s).mem = s.mem := rfl

@[simp] theorem loseWrite_mem (l die k n : Nat) (a : Addr) (c : List Nat) (s : State) : (loseWrite l die k n a c s).mem = s.mem := rfl

@[simp] theorem keepPast_mem (l : RlcLine) (s : State) : (keepPast l s).mem = s.mem := by unfold keepPast; dsimp only; split <;> rfl

@[simp] theorem applyInv_mem (d c l : Nat) (s : State) : (applyInv d c l s).mem = s.mem := rfl

@[simp] theorem sendInv_mem (d c l : Nat) (s : State) : (sendInv d c l s).mem = s.mem := by unfold sendInv; split <;> rfl

@[simp] theorem takeTrap_mem (t : Trap) (s : State) : (takeTrap t s).mem = s.mem := rfl

@[simp] theorem finishN_mem (n : Nat) (s : State) : (finishN n s).mem = s.mem := rfl

theorem markWrite_mem (k n : Nat) (b : Bool) (s : State) : (markWrite k n b s).mem = s.mem := by
  unfold markWrite
  generalize granules k n = l
  induction l generalizing s with
  | nil => rfl
  | cons g r ih => rw [List.foldl_cons, ih]; split <;> (try split) <;> simp

theorem writeHome_wf (l : RlcLine) (s : State) (h : Memory.wf s.mem = true) : Memory.wf (writeHome l s).mem = true := by
  unfold writeHome
  have h' : Memory.wf (memWrite (keepPast (homeLine s l.ctx l.line) s).mem (globKey l.ctx (l.line * 64)) (bvBytes 64 l.data)) = true :=
    memWrite_wf _ _ _ (by simpa using h)
  dsimp only
  split <;> simpa using h'

theorem writeBack_wf (die : Nat) (l : RlcLine) (s : State) (h : Memory.wf s.mem = true) :
    Memory.wf (writeBack die l s).mem = true := by
  unfold writeBack
  split
  · rw [modDie_mem]; split
    · rw [loseWrite_mem]; exact h
    · exact writeHome_wf l s h
  · exact h

theorem recallLine_wf (die ctx line : Nat) (s : State) (h : Memory.wf s.mem = true) : Memory.wf (recallLine die ctx line s).mem = true := by
  unfold recallLine
  split
  · exact writeBack_wf _ _ _ h
  · exact h

/-- A release's wait keeps the form (R275). -/
theorem flushDie_wf (die : Nat) (s : State) (h : Memory.wf s.mem = true) : Memory.wf (flushDie die s).mem = true := by
  unfold flushDie
  refine fold_wf _ _ _ (fun s p h => by simpa using h) ?_
  exact fold_wf _ _ _ (fun s l h => writeBack_wf _ _ _ h) h

theorem writeKey_wf (key : Nat) (l : List Byte) (b : Bool) (s : State) (h : Memory.wf s.mem = true) :
    Memory.wf (writeKey key l b s).mem = true := by
  unfold writeKey
  rw [markWrite_mem]
  exact memWrite_wf _ _ _ h

theorem readRelaxed_wf (s : State) (die ctx va n : Nat) (h : Memory.wf s.mem = true) :
    Memory.wf (readRelaxed s die ctx va n).1.mem = true := by
  unfold readRelaxed
  dsimp only
  split
  · split
    · exact h
    · split <;> exact h
  · split <;> exact h

theorem readHomeLine_wf (s : State) (die ctx va n : Nat) (h : Memory.wf s.mem = true) :
    Memory.wf (readHomeLine s die ctx va n).1.mem = true := by
  unfold readHomeLine
  dsimp only
  split
  · exact recallLine_wf _ _ _ _ h
  · split
    · exact recallLine_wf _ _ _ _ h
    · rw [applyInv_mem]; exact recallLine_wf _ _ _ _ h

theorem readInv_wf (s : State) (die ctx va n : Nat) (h : Memory.wf s.mem = true) : Memory.wf (readInv s die ctx va n).1.mem = true := by
  unfold readInv
  have := readRelaxed_wf s die ctx va n h
  dsimp only
  split <;> exact this

theorem readLine_wf (s : State) (die ctx va n : Nat) (sv : Serve) (h : Memory.wf s.mem = true) :
    Memory.wf (readLine s die ctx va n sv).1.mem = true := by
  cases sv
  · exact readRelaxed_wf s die ctx va n h
  · exact readHomeLine_wf s die ctx va n h
  · exact readInv_wf s die ctx va n h

theorem readLines_wf (fuel : Nat) (s : State) (die ctx va n : Nat) (sv : Serve) (h : Memory.wf s.mem = true) :
    Memory.wf (readLines fuel s die ctx va n sv).1.mem = true := by
  induction fuel generalizing s va n with
  | zero => exact h
  | succ f ih =>
    unfold readLines
    split
    · exact h
    · exact ih _ _ _ (readLine_wf s die ctx va _ sv h)

/-- A read at a place keeps the form. -/
theorem readPlace_wf (s : State) (die : Nat) (p : Place) (n : Nat) (sv : Serve) (h : Memory.wf s.mem = true) :
    Memory.wf (readPlace s die p n sv).1.mem = true := by
  cases p with
  | glob c v => exact readLines_wf _ _ _ _ _ _ _ h
  | sram d c o => unfold readPlace; dsimp only; split <;> exact h
  | pool c o => unfold readPlace; dsimp only; split <;> exact h

theorem writeAtHome_wf (die ctx va : Nat) (l : List Byte) (b : Bool) (s : State) (h : Memory.wf s.mem = true) :
    Memory.wf (writeAtHome die ctx va l b s).mem = true := by
  unfold writeAtHome
  have hk : ∀ t : State, Memory.wf t.mem = true →
      Memory.wf (if s.homeDie (.glob ctx va) = die then sendInv (1 - s.homeDie (.glob ctx va)) ctx (va / 64) (writeKey (globKey ctx va) l b t)
        else applyInv (1 - s.homeDie (.glob ctx va)) ctx (va / 64) (writeKey (globKey ctx va) l b t)).mem = true := by
    intro t ht
    split
    · rw [sendInv_mem]; exact writeKey_wf _ _ _ _ ht
    · rw [applyInv_mem]; exact writeKey_wf _ _ _ _ ht
  apply hk
  have hr := recallLine_wf (1 - s.homeDie (.glob ctx va)) ctx (va / 64) s h
  split
  · rw [keepPast_mem]; exact hr
  · exact hr

theorem writeCached_wf (die ctx va : Nat) (l : List Byte) (b : Bool) (s : State) (h : Memory.wf s.mem = true) :
    Memory.wf (writeCached die ctx va l b s).mem = true := by
  unfold writeCached
  dsimp only
  rw [modDie_mem, keepPast_mem]
  exact h

theorem writeLine_wf (c die ctx va : Nat) (l : List Byte) (b : Bool) (sv : Serve) (s : State) (h : Memory.wf s.mem = true) :
    Memory.wf (writeLine c die ctx va l b sv s).mem = true := by
  unfold writeLine
  dsimp only
  split
  · have hs : Memory.wf (if (s.die die).invs.contains (ctx, va / 64) = true then applyInv die ctx (va / 64) s else s).mem =
        true := by split <;> simpa using h
    split
    · rw [loseWrite_mem]; exact hs
    · exact writeCached_wf _ _ _ _ _ _ hs
  · split
    · split
      · rw [loseWrite_mem]; exact h
      · exact writeAtHome_wf _ _ _ _ _ _ h
    · exact writeAtHome_wf _ _ _ _ _ _ h

theorem writeLines_wf (fuel c die ctx va : Nat) (l : List Byte) (b : Bool) (sv : Serve) (s : State)
    (h : Memory.wf s.mem = true) : Memory.wf (writeLines fuel c die ctx va l b sv s).mem = true := by
  induction fuel generalizing s va l with
  | zero => exact h
  | succ f ih =>
    unfold writeLines
    split
    · exact h
    · exact ih _ _ _ (writeLine_wf _ _ _ _ _ _ _ _ h)

/-- A write at a place keeps the form. -/
theorem writePlace_wf (c die : Nat) (p : Place) (l : List Byte) (b : Bool) (sv : Serve) (s : State)
    (h : Memory.wf s.mem = true) : Memory.wf (writePlace c die p l b sv s).mem = true := by
  cases p with
  | glob x v => exact writeLines_wf _ _ _ _ _ _ _ _ _ h
  | sram d x o =>
    unfold writePlace; dsimp only
    split
    · split
      · rw [loseWrite_mem]; exact h
      · exact writeKey_wf _ _ _ _ h
    · exact writeKey_wf _ _ _ _ h
  | pool x o =>
    unfold writePlace; dsimp only
    split
    · split
      · rw [loseWrite_mem]; exact h
      · exact writeKey_wf _ _ _ _ h
    · exact writeKey_wf _ _ _ _ h

/-- A write by a core or its engines keeps the form. -/
theorem writeAt_wf (c : Nat) (ea : Addr) (l : List Byte) (b : Bool) (sv : Serve) (s : State) (h : Memory.wf s.mem = true) :
    Memory.wf (writeAt c ea l b sv s).mem = true := by
  unfold writeAt
  split
  · exact writePlace_wf _ _ _ _ _ _ _ h
  · exact h

/-- A read by a core or its engines keeps the form. -/
theorem readAt_wf (s : State) (c : Nat) (ea : Addr) (n : Nat) (sv : Serve) (h : Memory.wf s.mem = true) :
    Memory.wf (readAt s c ea n sv).1.mem = true := by
  unfold readAt
  split
  · exact readPlace_wf _ _ _ _ _ h
  · exact h

/-- Marking pieces of a write keeps the form. -/
theorem markPieces_wf (c : Nat) (ea : Addr) (l : List (List Byte × Bool)) (s : State) (h : Memory.wf s.mem = true) :
    Memory.wf (markPieces c ea s l).mem = true := by
  induction l generalizing ea s with
  | nil => exact h
  | cons p r ih =>
    unfold markPieces
    refine ih _ _ ?_
    split
    · exact writeAt_wf _ _ _ _ _ _ h
    · exact h

/-- The part's own write keeps the form. -/
theorem partWrite_wf (ctx va : Nat) (l : List Byte) (s : State) (h : Memory.wf s.mem = true) :
    Memory.wf (partWrite ctx va l s).mem = true :=
  fold_wf _ _ _ (fun s ln h => by simpa using h) (writeLines_wf _ _ _ _ _ _ _ _ (noLink s) h)

/-- The part's own read keeps the form. -/
theorem partRead_wf (ctx va n : Nat) (s : State) (h : Memory.wf s.mem = true) : Memory.wf (partRead ctx va n s).1.mem = true :=
  readLines_wf (n / 64 + 2) (noLink s) 0 ctx va n .home h

/-- A write of the boathouse keeps the form. -/
theorem boatWrite_wf (off : Nat) (l : List Byte) (s : State) (h : Memory.wf s.mem = true) :
    Memory.wf (boatWrite off l s).mem = true := memWrite_wf _ _ _ h

/-- A future word written keeps the form. -/
theorem setFuture_wf (p : Place) (v : Nat) (s : State) (h : Memory.wf s.mem = true) : Memory.wf (setFuture p v s).mem = true :=
  memWrite_wf _ _ _ h

/-- Bytes that a stream stores in its ring keep the form. -/
theorem ringWrite_wf (c : Nat) (st : Stream) (swz p : Nat) (l : List Byte) (s : State) (h : Memory.wf s.mem = true) :
    Memory.wf (ringWrite c st swz p l s).mem = true :=
  foldSet_wf _ _ _ _ (by unfold ringClean; exact fold_wf _ _ _ (fun s q h => by split <;> simpa using h) h)

/-! ### Sinks (R118, R261) -/

/-- Bytes of a sink's ring written keep the form. -/
theorem sinkBytes_wf (c : Nat) (st : Stream) (p m : Nat) (ea : Addr) (s : State) (h : Memory.wf s.mem = true) :
    Memory.wf (sinkBytes c st p m ea s).mem = true := markPieces_wf _ _ _ _ (writeAt_wf _ _ _ _ _ _ h)

/-- A piece of a sink's ring written keeps the form. -/
theorem drainPiece_wf (c : Nat) (st : Stream) (p m : Nat) (ea : Addr) (s : State) (h : Memory.wf s.mem = true) :
    Memory.wf (drainPiece c st p m ea s).mem = true := by
  unfold drainPiece
  split
  · exact sinkBytes_wf _ _ _ _ _ _ h
  · exact fold_wf _ _ _ (fun s i h => by split; exacts [h, sinkBytes_wf _ _ _ _ _ _ h]) h

/-- An element met early keeps the form. -/
theorem meetElement_wf (c n : Nat) (p : Nat × Addr) (s : State) (h : Memory.wf s.mem = true) :
    Memory.wf (meetElement c n p s).mem = true := by
  unfold meetElement
  split
  · dsimp only
    split
    · exact sinkBytes_wf _ _ _ _ _ _ h
    · exact h
  · exact h

/-- The elements of a sink met early keep the form. -/
theorem meetSink_wf (c n e key len : Nat) (l : List (Nat × Addr)) (later : List Addr) (s : State) (h : Memory.wf s.mem = true) :
    Memory.wf (meetSink c n e key len l later s).mem = true := by
  induction l generalizing later s with
  | nil => exact h
  | cons p r ih =>
    unfold meetSink
    split
    · exact ih _ _ (meetElement_wf _ _ _ _ h)
    · exact ih _ _ h

/-- What a fetch meets of the sinks keeps the form. -/
theorem meetSinks_wf (key len : Nat) (s : State) (h : Memory.wf s.mem = true) : Memory.wf (meetSinks key len s).mem = true := by
  unfold meetSinks
  split
  · exact h
  · refine fold_wf _ _ _ (fun s q h => ?_) h
    split
    · split
      · exact meetSink_wf _ _ _ _ _ _ _ _ h
      · exact h
    · exact h

/-- A sink none of whose elements lies under a run meets no fetch of it. -/
theorem meetSink_settled (c n e key len : Nat) (l : List (Nat × Addr)) (later : List Addr) (s : State)
    (h : ∀ p ∈ l, underRun s c p.2 e key len = false) : meetSink c n e key len l later s = s := by
  induction l generalizing later with
  | nil => rfl
  | cons p r ih =>
    unfold meetSink
    rw [if_neg (by simp [h p (List.mem_cons_self ..)])]
    exact ih _ fun q hq => h q (List.mem_cons_of_mem _ hq)

/-- A fetch under which no element of a moving sink lies leaves the part as it is. -/
theorem meetSinks_settled (key len : Nat) (s : State)
    (h : ∀ c n st, tfind (s.core c).streams n = some st → s.unitsLive c = true →
      ∀ p ∈ undrained st, underRun s c p.2 (2 ^ shElem st.shape) key len = false) : meetSinks key len s = s := by
  unfold meetSinks
  split
  · rfl
  · generalize (s.cores.flatMap (fun k => k.2.streams.map (fun p => (k.1, p.1)))) = l
    induction l with
    | nil => rfl
    | cons q r ih =>
      rw [List.foldl_cons]
      split
      · next st hst =>
        split
        · next hl => rw [meetSink_settled _ _ _ _ _ _ _ _ (h _ _ st hst hl)]; exact ih
        · exact ih
      · exact ih

end Sys2Proof.Machine
end

