-- ==== Sys2Proof/Laws/Words.lean ====
section
/-! SUPPORT. What the shared operations of words do, said once. -/

namespace Sys2Proof.Machine

/-- An AP word that waits for no load does what its body says. -/
theorem apWord_free (regs : List Nat) (body : State → Except Trap State) (s : State) (h : s.me.ldsWaits regs = false) :
    apWord regs body s = settle (body s) s := by
  simp [apWord, h]

/-- An AP word that waits changes nothing. -/
theorem apWord_waits (regs : List Nat) (body : State → Except Trap State) (s : State) (h : s.me.ldsWaits regs = true) :
    apWord regs body s = s := by
  simp [apWord, h]

@[simp] theorem settle_ok (t s : State) : settle (.ok t) s = t := rfl

@[simp] theorem settle_error (t : Trap) (s : State) : settle (.error t) s = takeTrap t s := rfl

end Sys2Proof.Machine
end

