-- ==== Sys2Proof/Tests/Slice0.lean ====
section
/-! SUPPORT. Tests: ill-formed terms refused, words of the spec's encodings, its worked examples, and for each obligation
states that meet its premises. -/

open Sys2Proof Sys2Proof.Machine

namespace Sys2Proof.Tests

set_option Elab.async false

/-! ### States for the tests -/

/-- The placed heat, its AP at a word on core 0. -/
def apState : State :=
  let s := placeProgram State.reset
  { s.modSide 0 .ap (fun x => { x with pc := placeAddr, run := .run }) with
    cur := ⟨0, .ap, placeAddr, 0, 0, none, 0, 64, none, false⟩ }

/-- A word decodes to an instruction. -/
abbrev is (w : Nat) (i : Instr) : Prop := (decodeWord w).toOption = some i

/-- A LONG pair decodes to an instruction. -/
abbrev isLong (w imm : Nat) (i : Instr) : Prop := (decodeLong w imm).toOption = some i

/-- What a step or an instruction leaves, where it answers a next state. -/
def left {α : Type} (r : Res) (f : State → α) : Option α :=
  match r with
  | .next t => some (f t)
  | _ => none

/-- Whether a step or an instruction answers a next state. -/
def isNext (r : Res) : Bool :=
  match r with
  | .next _ => true
  | _ => false

/-- The word that core 0 fetches. -/
def fetched (s : State) (pc : Addr) : Option Word := (fetchWord s 0 pc).toOption.map (fun p => p.2)

/-- An `add` placed for the next step. -/
def placedAdd : State := State.reset.withFetchWord 32 0x008C4700

/-- The AP about to fetch it. -/
def addMoves : State := Safety.sideMoves 0 .ap (nextTurn placedAdd).1 (tick (nextTurn placedAdd).1 (nextTurn placedAdd).2)

/-- A `vadd` placed for the next step. -/
def placedVadd : State := State.reset.withFetchWord 32 0x61020010

/-- The state in which the vector engine takes its turn. -/
def vaddTicked : State := tick (nextTurn placedVadd).1 (nextTurn placedVadd).2

/-- With a registers. -/
def withA (l : List (Nat × Addr)) : State := apState.modCore 0 (fun k => { k with aregs := l.map (fun p => (p.1, ⟨p.2, false⟩)) })

/-- With a1 poisoned. -/
def withPoison : State := apState.modCore 0 (fun k => { k with aregs := [(1, ⟨0, true⟩)] })

/-- With a speculative load into a3 that has not returned. -/
def withLds : State := apState.modCore 0 (fun k => { k with lds := [⟨3, 0x10000040, 8, true, none⟩] })

/-- With q0 full and an entry in q4. -/
def withQueues : State := apState.modCore 0 (fun k => { k with queues := [(0, List.replicate 16 0), (4, [7])] })

/-- A record of 64 bytes: fields by offset. -/
def rec64 (l : List (Nat × Nat)) : BitVec 512 := l.foldl (fun n p => n ||| (BitVec.ofNat 512 p.2 <<< (8 * p.1))) 0

/-- A sound shape: n runs of len bytes, one after another. -/
def shapeOf (len n : Nat) : BitVec 512 := rec64 [(0, len), (0x10, n), (0x14, 1), (0x18, 1), (0x1C, 1), (0x20, len)]

/-- An open word: KIND, 64 slots of 512 bytes, PEER, PEER_PORT. -/
def open512 (kind peer port : Nat) : BitVec 64 :=
  BitVec.ofNat 64 (kind + 3 * 2 ^ 4 + 64 * 2 ^ 16 + peer * 2 ^ 28 + port * 2 ^ 36)

/-- A stream of KIND with one reader entry on a port, at positions. -/
def streamOf (kind peer pp port head pos : Nat) (shape : BitVec 512) (base : Addr) (fill : Fill) : Stream :=
  { openw := open512 kind peer pp, ring := 0xFC00000000000000, shape := shape, walkBase := base, walkRun := 0, walkOfs := 0,
    head := head, fill := fill, fin := false, err := 0, readers := [(0, ⟨port, 0, false, pos, none⟩)], slots := [], slds := [],
    early := [], holder := none, wants := [], closed := false }

/-- With a source stream on port 0 and shape 0. -/
def withStream : State := apState.modCore 0 (fun k =>
  { k with streams := [(0, streamOf 0 0 0 0 0 0 0 0 .idle)], shapes := [(0, shapeOf 64 4)] })

/-- A user-mode heat. -/
def user : State := { apState with heats := [{ placeHeat with hr := { placeRec with system := false } }] }

/-- The placed heat, its XP at a word on core 0, with x registers. -/
def withX (l : List (Nat × Addr)) : State :=
  let s := placeProgram State.reset
  { (s.modSide 0 .xp (fun x => { x with pc := placeAddr, run := .run })).modCore 0 (fun k => { k with xregs := l }) with
    cur := ⟨0, .xp, placeAddr, 0, 0, none, 0, 64, none, false⟩ }

/-- With an entry on the XP's loop stack. -/
def withLoop (e : Loop) : State := (withX []).modSide 0 .xp (fun x => { x with loops := [e] })

/-- A user-mode heat, its XP at a word. -/
def userX : State := { withX [] with heats := user.heats }

/-- A `vadd` at the XP's pc. -/
def vaddAtPc : State :=
  let s := withX []
  { s with mem := memWrite s.mem (globKey 1 placeAddr.toNat) (leBytes 4 0x61020010) }

/-- The vector engine takes up a word under a VT. -/
def vecOf (vt : BitVec 64) : State :=
  let s := withX []
  { s with cur := { s.cur with eng := some .vec, vt := vt } }

/-- Under VT 0. -/
def vecState : State := vecOf 0

/-- With a unit in the stream of port 0. -/
def vecPort : State := vecState.modCore 0 (fun k =>
  { k with streams := [(0, { streamOf 0 0 0 0 512 0 0 0 .idle with slots := [(0, ⟨true, false, 0⟩)] })] })

/-- With a stream without a unit on port 0. -/
def vecEmptyPort : State := vecState.modCore 0 (fun k => { k with streams := [(0, streamOf 0 0 0 0 0 0 0 0 .idle)] })

/-- Element type i8, ROT_BASE 0. -/
def vecI8 : State := vecOf 1

/-- A place and a value to store there. -/
def storing : State := withA [(2, 0x10000040), (3, 7)]

/-- Element type bf16. -/
def vecBf16 : State := vecOf 11

/-- A matrix word at its engine, without the seat. -/
def mtxState : State :=
  let s := withX [(7, 0x100)]
  { s with cur := { s.cur with eng := some .pass } }

/-- The word in progress of steering number 0. -/
def begunWord : Started := ⟨⟨placeAddr, 0, 0, 0, 0⟩, 0, 0, [], []⟩

/-- With the seat, its word begun. -/
def mtxGranted : State := mtxState.modCore 0 (fun k => { k with hasSeat := true, stint := 16, inPass := some begunWord })

/-- With the seat, a plane of bf16, a stream on port 0 and a result. -/
def mtxSeated : State :=
  (mtxState.modCore 0 (fun k => { k with
    hasSeat := true, stint := 16, resultq := [5], streams := [(0, streamOf 0 0 0 0 0 0 0 0 .idle)] })).modCrew 0
    (fun w => { w with holder := 0, active := { w.active with ty := some 3, holder := 0 } })

/-- At the load section. -/
def mtxLoads : State := { mtxSeated with cur := { mtxSeated.cur with eng := some .load } }

/-- A free seat that the second core of the crew requests. -/
def seatAsked : State := mtxState.modCrew 0 (fun w => { w with reqs := [1] })

/-- A core whose sixteenth word has completed. -/
def seatSpent : State := (mtxState.modCore 0 (fun k => { k with hasSeat := true })).modCrew 0 (fun w => { w with holder := 0 })

/-- A frame of the AP. -/
def apFrame : Frame :=
  { pc := placeAddr, run := .stopped, land := false, regs := List.replicate 32 ⟨0, false⟩, preds := 0, loops := [], aside := [],
    del := ⟨deliveryWord 0x0A false 0 0 true none 0, placeAddr, 0, 0⟩, pix := 0 }

/-- The AP in a fault task. -/
def inFaultTask : State := apState.modSide 0 .ap (fun x => { x with frame := some apFrame })

/-- A record of a spawned task. -/
def poolRec : ContRec :=
  { resume := placeAddr, mask := 0, task := 1, link := none, kind := .spawn, side := .ap, dreg := 1, preds := 0, poison := 0,
    wvalue := 0, regs := [], arg := 0 }

/-- A queued task and an idle AP. -/
def taskQueued : State :=
  (apState.modSide 0 .ap (fun x => { x with run := .idle, tq := [0] })).modCore 0 (fun k => { k with pool := [(0, poolRec)] })

/-- With n in semaphore 5 and a mask of two registers in a2. -/
def withSema (n : Nat) : State :=
  (withA [(2, 6)]).modCore 0 (fun k => { k with semas := [(5, { Sema.reset with count := n })] })

/-- Without a continuation pool. -/
def noPool : State := (withSema 0).modCore 0 (fun k => { k with cont := 0 })

/-- With a future word, its address in a2. -/
def withFuture (w : Nat) : State :=
  let s := withA [(2, 0xFC00000000000000), (3, 6)]
  { s.modCore 0 (fun k => { k with pool := if w = 1 then [(0, poolRec)] else [] }) with
    mem := memWrite s.mem (Place.pool 0 s.me.padBase).key (natBytes 8 w) }

/-- Every other core of the heat has arrived at the heat's barrier. -/
def hbarLast : State :=
  [1, 24, 25].foldl (fun s c => s.modSide c .ap (fun x => { x with hbars := [(0, 1)] })) (withSema 3)

/-- With a private region of core 0, its address in a2 and a die in a3. -/
def withPrivate : State :=
  (withA [(2, 0x10000000), (3, 1)]).modCtx 1 (fun x => { x with regions := [{ placeRegion with st := .priv, owner := 0 }] })

/-- A walk of 512-byte runs. -/
def filling : State := apState.modCore 0 (fun k =>
  { k with streams := [(0, streamOf 0 0 0 0 0 0 (shapeOf 512 4) 0x10000000 .run)] })

/-- A sink with a unit to drain. -/
def draining : State := apState.modCore 0 (fun k =>
  { k with streams := [(0, { streamOf 8 0 0 0 512 0 (shapeOf 64 64) 0x10000000 .run with slots := [(0, ⟨true, false, 0⟩)] })] })

/-- A CORE pair: a full slot on core 0, a source on core 1. -/
def pairedSlot : State :=
  (apState.modCore 0 (fun k =>
    { k with streams := [(0, { streamOf 9 1 3 0 512 0 0 0 .idle with slots := [(0, ⟨true, false, 0⟩)] })] })).modCore 1 (fun k =>
    { k with heat := 1, ctx := some 1, streams := [(3, streamOf 1 0 0 3 0 0 0 0 .idle)] })

/-- A record at the head of ring 0 of core 0. -/
def inRing (b : BitVec 512) (st : RingState) : State :=
  apState.modRing 0 0 (fun g => { g with wp := 1, st := st, recs := [(0, ⟨b, 0, true, 0⟩)] })

/-- A head that waits, with AWAIT_KIND k. -/
def waiting (k : Nat) : State := inRing (rec64 [(0, 1), (2, 1), (6, k), (8, 0), (0x10, 0x10001000), (0x18, 0x10000000), (0x28, 64)]) .wait

/-- The fields of a record of each kind that moves bytes, serves a lane or fences. -/
def recFields (kind : Nat) : List (Nat × Nat) :=
  match kind with
  | 1 => [(0x10, 0x10001000), (0x18, 0x10000000), (0x28, 64)]
  | 2 => [(0x10, 0x10001000), (0x18, 0x10000000), (0x20, 0x10002000), (0x28, 1), (0x2C, 64), (0x38, 64)]
  | 3 | 4 => [(0x10, 0x10001000), (0x18, 0x10000000), (0x20, 0x10002000), (0x28, 1), (0x2C, 64)]
  | 6 => [(0x10, 0x10000000), (0x20, 64)]
  | 7 => [(0x18, 0x10001000), (0x20, 64)]
  | 8 => [(0x16, 2), (0x18, 0x10001000), (0x20, 64)]
  | 9 => [(0x10, 0x10001000), (0x1C, 1)]
  | 10 => [(0x10, 1)]
  | _ => []

/-- A record of a kind at the head of ring 0, running, and the state that holds it. -/
def withRec (kind : Nat) : BitVec 512 × State :=
  let b := rec64 ((0, kind) :: recFields kind)
  (b, inRing b .run)

/-- An ACCW record of an operation. -/
def withAccw (op : Nat) : BitVec 512 × State :=
  let ty := if op = 2 ∨ op = 3 ∨ op = 9 ∨ op = 10 then 13 else 3
  let b := rec64 [(0, 5), (0x10, 0x10000000), (0x18, 0x10001000), (0x28, 1), (0x2C, op), (0x2D, ty),
    (0x38, if op = 3 then 0x10002000 else 0)]
  (b, inRing b .run)

/-- A LANE.RUN at the head of ring 0 with its stream, its run begun or not. -/
def withLane (quiet : Option Nat) : BitVec 512 × State :=
  let x := withRec 8
  let s := x.2.modCore 0 (fun k => { k with
    streams := [(0, { streamOf 2 0 0 2 0 0 0 0 .idle with holder := quiet.map (fun _ => (0, 0)) })] })
  (x.1, s.modLane 0 (fun y => { y with run := quiet.map (fun q =>
    { core := 0, ring := 0, src := 0x10001000, inlen := 64, dcore := 0, dport := 2, state := 0, pos := 0, val := 0, len := 0,
      dist := 0, cnt := 0, hc0 := [], hc1 := [], win := [], out := 0, quiet := q, copy := .none, drop := 0 }) }))

/-- A COPY with DECODE of a unit that is not encoded. -/
def withUnit : BitVec 512 × State :=
  let b := rec64 [(0, 1), (4, 0x80), (0x10, 0x10001000), (0x18, 0x10000000), (0x1F, 0), (0x28, 4096)]
  (b, inRing b .run)

/-- A NET record at the head of ring 0, and the job of its die's engine. -/
def withNet (j : Option NetJob) : BitVec 512 × State :=
  let x := withRec 9
  (x.1, x.2.modDie 0 (fun d => { d with net := j }))

/-- A NET descriptor of one edge and two outputs of 16 bits, for a port of core 1. -/
def netBytes : List Byte :=
  layout 256 [(0, natBytes 4 1), (4, natBytes 4 1), (8, natBytes 8 0x10003000), (0x10, natBytes 8 0x10003100),
    (0x18, natBytes 8 0x10004000), (0x38, natBytes 4 64), (0x40, natBytes 4 64), (0x44, natBytes 2 1), (0x48, natBytes 1 11),
    (0x49, natBytes 1 1), (0x4C, natBytes 1 4), (0x50, natBytes 8 0x10008000), (0x60, natBytes 2 128), (0x62, natBytes 2 2)]

/-- The record of `withNet` with that descriptor in memory, and read already where the engine has it. -/
def withNetPort (j : Option NetJob) : BitVec 512 × State :=
  let x := withNet j
  let s := { x.2 with mem := memWrite x.2.mem (globKey 1 0x10001000) netBytes }
  (x.1, (s.modRing 0 0 (fun g => { g with desc := j.map (fun _ => netBytes) })).modCore 0 (fun k =>
    { k with streams := [(0, streamOf 3 0 0 4 0 0 0 0 .idle)] }))

/-- The netting engine holds the seat of crew 0 and has no record. -/
def netSeat : State := apState.modCrew 0 (fun w => { w with holder := 4 })

/-- A line in the remote-line cache of die B, its invalidation pending. -/
def withLines : State :=
  apState.modDie 1 (fun d => { d with rlc := [⟨1, 0x400000, 0, false, false⟩], invs := [(1, 0x400000)] })

/-- A delivery that waits. -/
def someDelivery : Delivery := ⟨deliveryWord 0x0A false 0 0 true none 0, placeAddr, 0, 0⟩

/-- A delivery pending on core 0, with a fault entry or without. -/
def withDelivery (entry : Bool) : State :=
  { apState.modCore 0 (fun k => { k with pending := [someDelivery] }) with
    heats := [{ placeHeat with hr := { placeRec with fEntry := if entry then placeAddr + 256 else 0 } }] }

/-- A fault task with a delivery pending behind it. -/
def inFaultTaskWith (r : Run) : State := (withDelivery true).modSide 0 .ap (fun x => { x with frame := some apFrame, run := r })

/-- A set of one global range. -/
def smallSet : MustSet :=
  { ctx := 1, prio := 4, st := false, setid := 7, heat := 1, handle := 1, charge := 12288, cores := 0,
    ranges := [(0x10000000, 4096, 0xFFFF)] }

/-- A declaration of that set, its address in a2. -/
def withDecl : State :=
  let s := withA [(2, 0x10000040)]
  { s with
    mem := memWrite s.mem (globKey 1 0x10000040)
      (layout 256 [(0, natBytes 4 7), (4, natBytes 1 1), (0x40, rangeBytes (0x10000000, 4096, 0xFFFF))])
    water := { s.water with budget := 2 ^ 20 } }

/-- That set admitted, its handle in a2. -/
def withSet : State :=
  let s := withA [(2, 1)]
  { s with water := { s.water with man0 := { Manifest.reset with gen := 1, sets := [smallSet] } } }

/-- A queued heat of context 2. -/
def headHeat (x0 prio die : Nat) : Heat :=
  { placeHeat with st := .queued, accepted := 1, hr := { placeRec with ctx := 2, prio := prio, x0 := x0, die := die, number := 2 } }

/-- A configuration with room for images. -/
def smallCfg : CtxCfg := { wshS := 65536, wshB := 0, saveBase := 0x20000000, saveSize := 2 ^ 26, quota := some (2 ^ 20), lanes := 1 }

/-- A head beside the placed heat, or one of higher priority over its cores. -/
def withHead (x0 : Nat) (pre : Bool) : State :=
  { apState.modCtx 1 (fun x => { x with conf := some smallCfg }) with
    heats := [placeHeat, headHeat x0 (if pre then 8 else 4) 1], queues := [(2, [2])] }

/-- A head that names die B on a part without it. -/
def absentHead : State := { withHead 12 false with form := .la2h, heats := [placeHeat, headHeat 12 4 2] }

/-- The placed heat in a state, its cores done. -/
def heatIn (st : HeatState) : State := { placeProgram State.reset with heats := [{ placeHeat with st := st }] }

/-- With nothing of it moving for its stall time. -/
def quietHeat : State := (heatIn .running).modDie 0 (fun d => { d with tb := 10000000 })

/-- The fields of an intake channel. -/
def smallChan : IntakeCfg :=
  { enable := true, ctx := 1, prio := 3, block := 0x10010000, base := 0x10020000, size := 65536, sem := 5, semCore := none,
    high := 2 ^ 20, low := 4096 }

/-- A header of a data record of 64 bytes. -/
def dataHdr : List Byte := natBytes 4 64 ++ List.replicate 12 0

/-- A header whose LEN is no multiple of 64. -/
def badHdr : List Byte := natBytes 4 63 ++ List.replicate 12 0

/-- Channel 3, with an accepted record and the core that its raise names. -/
def withChan (en : Bool) (core : Option Nat) : State :=
  { apState.modChan 3 (fun x => { x with
      conf := { smallChan with enable := en, semCore := core }
      data := if core.isSome then [⟨3, 0, 64, 64, 0, dataHdr ++ List.replicate 48 0⟩] else []
      resv := if core.isSome then 64 else 0 }) with high := 2 ^ 20, low := 4096 }

/-- Channel 3 being shed. -/
def shedChan : State := { withChan true (some 0) with shed := some 3, low := 0 }

/-- The bytes of a fresh record of a user-mode heat. -/
def recordOf (ctx : Nat) : List Byte :=
  layout 128 [(0, natBytes 2 1), (2, natBytes 1 ctx), (3, natBytes 1 4), (6, natBytes 1 1), (8, natBytes 1 2), (10, natBytes 1 2),
    (11, natBytes 1 2), (12, natBytes 4 562), (0x10, natBytes 8 0x10000000), (0x18, natBytes 8 0x10000000)]

/-- Channel 3 with a launch record. -/
def launchChan (ctx : Nat) : State :=
  apState.modChan 3 (fun x => { x with
    conf := smallChan, launches := [⟨3, 0, 192, 192, 0, natBytes 4 192 ++ natBytes 1 1 ++ List.replicate 11 0 ++ recordOf ctx⟩] })

/-- A memory link that failed, its repairs authorised. -/
def lostLink : State :=
  { apState with bridge := { apState.bridge with failed := [8] }, water := { apState.water with preauth := 3 } }

/-- Reads and writes that it carried. -/
def lostReads : State :=
  { withLds with bridge := { withLds.bridge with
      failed := [8], reads := [⟨8, .ap 0 0x10000000⟩, ⟨8, .lds 0 3⟩], writes := [⟨8, 0, 0x10000000, 0x10000000, [0]⟩] } }

/-- Cox S leads; die S stands at a time. -/
def withCoxes (bUp : Bool) (tb : Nat) : State :=
  { apState.modDie 0 (fun d => { d with tb := BitVec.ofNat 64 tb }) with
    coxS := ⟨true, true, false, 1, 0⟩, coxB := ⟨bUp, false, false, 1, 0⟩ }

/-- The part in a stage of its power cycle, with sets admitted. -/
def inPower (p : Power) (sets : List MustSet) : State :=
  { apState with water := { apState.water with
      power := p, man0 := { Manifest.reset with gen := 1, sets := sets }, left := if p = .saving then sets else [] } }

/-- A drill of so many bytes. -/
def drilled (limit : Nat) : State :=
  { inPower .saving [smallSet] with water := { (inPower .saving [smallSet]).water with drill := some limit } }

/-- Slot 1 pending. -/
def pendSlot : State := apState.modSlot 1 (fun x => { x with st := .pend })

/-- With the write-enable latch set. -/
def welSet : State := apState.modHost (fun h => { h with wel := true })

/-- With the window on the mapped page. -/
def winOn : State := apState.modHost (fun h => { h with winCtx := 1, winBase := 0x10000000 })

/-- Slot 0 asks for a command with argument bytes. -/
def mailArgs (cmd : Nat) (args : List Byte) : State :=
  (apState.modSlot 0 (fun x => { x with
    seq := 1, cmd := BitVec.ofNat 16 cmd, alen := BitVec.ofNat 16 args.length, st := .pend, data := putData args [] })).modHost
    (fun h => { h with rung := [0] })

/-- Slot 0 asks for a command. -/
def mail (cmd : Nat) : State := mailArgs cmd []

/-- With the SEQ that is done. -/
def mailAgain (cmd : Nat) : State := (mail cmd).modSlot 0 (fun x => { x with doneSeq := 1 })

/-- Before READY. -/
def mailEarly : State := { mail 0x32 with water := { (mail 0x32).water with power := .firmware } }

/-- In boot ROM. -/
def romMail : State := { mail 1 with water := { (mail 1).water with power := .rom } }

/-- Without heats. -/
def noHeat (s : State) : State := { s with heats := [], water := { s.water with awaiting := false } }

/-- A stopped heat. -/
def stoppedMail (cmd : Nat) : State :=
  { (mail cmd).modSide 0 .ap (fun x => { x with run := .stopped }) with heats := [{ placeHeat with st := .stopped }] }

/-- A save that awaits release, with a whole set. -/
def savedMail (cmd : Nat) : State :=
  { mail cmd with water := { (mail cmd).water with awaiting := true, dir := [⟨smallSet, .whole, 0x1000000⟩] } }

/-- A sound record of context 2. -/
def freshRecord : List Byte := recordOf 2

/-! ### Ill-formed terms, one for each check, which the check refuses (R8, R42-R48) -/

/-- Fields out of their range, each beside fields in theirs. -/
theorem test_wf_refuses_register_and_selector_fields :
    ∀ i ∈ [Instr.add 32 0 0, .add 0 32 0, .add 0 0 32, .sel 32 0 0 0, .sel 0 32 0 0, .sel 0 0 32 0, .sel 0 0 0 8, .cmp 8 0 0 0,
      .cmp 0 32 0 0, .cmp 0 0 32 0, .cmp 0 0 0 256, .cmp 0 0 0 6, .sext 32 0 1, .sext 0 32 1, .sext 0 0 256, .sext 0 0 0,
      .sext 0 0 65, .clz 32 0, .clz 0 32, .pand 8 0 0, .pand 0 8 0, .pand 0 0 8, .pnot 8 0, .pnot 0 8, .csrr 32 0,
      .csrr 0 4096, .csrw 32 0, .csrw 0 4096, .shli 32 0 0, .shli 0 32 0, .shli 0 0 64, .li 32 0, .cmpiEq 8 0 0,
      .cmpiEq 0 32 0, .bp 8 0, .loop 32 0, .csrwLong 1024 0, .ld false false 4 0 0 0, .ld false false 0 32 0 0,
      .ld false false 0 0 32 0, .ld false true 3 0 0 0, .ldsDataArrive 192 0, .ldsDataArrive 0 32, .st 4 0 0 0, .st 0 32 0 0,
      .st 0 0 32 0, .ldAcq 4 0 0 false 0, .ldAcq 0 32 0 false 0, .ldAcq 0 0 32 false 0],
      i.wf = false := by decide +kernel

/-- Fields out of their range, each beside fields in theirs. -/
theorem test_wf_refuses_stream_ring_and_xp_fields :
    ∀ i ∈ [Instr.ldAcq 0 0 0 false 8, .ldAcq 3 0 0 true 0, .ldAcq 0 0 0 false 5, .stRel 4 0 0 0, .stRel 0 32 0 0, .stRel 0 0 32 0,
      .stRel 0 0 0 8, .stRel 0 0 0 5, .chk 32, .cvtaTo 32 0 0, .cvtaTo 0 32 0, .cvtaTo 0 0 4, .isap 8 0 0, .isap 0 32 0,
      .isap 0 0 4, .qput 8 0, .qput 0 32, .qget 32 0, .qget 0 8, .shape 32 0, .shape 0 32, .sopen 32 0 0, .sopen 0 32 0,
      .sopen 0 0 32, .sfillRes 32, .sfork 32 0 false false 0, .sfork 0 32 false false 0, .sfork 0 0 false false 4,
      .sdrain 32 0, .sdrain 0 32, .cmd 32 0 0, .cmd 0 32 0, .cmd 0 0 4, .cengStat 32 0, .cengStat 0 4, .xpSel 32 0 0 0,
      .xpSel 0 32 0 0, .xpSel 0 0 32 0, .xpSel 0 0 0 32, .xpCmp 32 0 0 0, .xpCmp 0 32 0 0, .xpCmp 0 0 32 0, .xpCmp 0 0 0 256,
      .xpCmp 0 0 0 6, .fadd 32 0 0 0, .fadd 0 32 0 0, .fadd 0 0 32 0, .fadd 0 0 0 4, .vset 8 0],
      i.wf = false := by decide +kernel

/-- Fields out of their range, each beside fields in theirs. -/
theorem test_wf_refuses_vector_fields :
    ∀ i ∈ [Instr.vset 0 32, .vsetRot 32 0 0, .vsetRot 0 8 0, .vsetRot 0 0 32, .nset 128, .xpSteer 192, .vadd 128 0 0 false false,
      .vadd 0 128 0 false false, .vadd 0 0 128 false false, .vabs 128 0 false false, .vabs 0 128 false false, .vcmp 8 0 0 0,
      .vcmp 0 128 0 0, .vcmp 0 0 128 0, .vcmp 0 0 0 8, .vcmp 0 0 0 6, .vcvt 128 0 false 0 0 false,
      .vcvt 0 128 false 0 0 false, .vcvt 0 0 false 32 0 false, .vcvt 0 0 false 0 4 false, .vfadd 128 0 0 0 false,
      .vfadd 0 128 0 0 false, .vfadd 0 0 128 0 false, .vfadd 0 0 0 4 false, .vfcmp 8 0 0 0, .vfcmp 0 128 0 0,
      .vfcmp 0 0 128 0, .vfcmp 0 0 0 8, .vfsgn 128 0 0 0 false, .vfsgn 0 128 0 0 false, .vfsgn 0 0 128 0 false,
      .vfsgn 0 0 0 4 false, .vfsgn 0 0 0 3 false, .vred 128 0 0 0 false false, .vred 0 128 0 0 false false,
      .vred 0 0 4 0 false false, .vred 0 0 0 8 false false, .vred 0 0 0 6 false false, .vbcast 128 0 0, .vbcast 0 128 0,
      .vbcast 0 0 1024, .mpop 32 0, .mpop 0 8, .seat 32, .wload 32 false 0, .wload 0 false 8, .mmul 16 0 false false 0,
      .mmul 0 32 false false 0, .mmul 0 0 false false 8],
      i.wf = false := by decide +kernel

/-- Fields out of their range, each beside fields in theirs. -/
theorem test_wf_refuses_sync_and_event_fields :
    ∀ i ∈ [Instr.mmulg 16 0 0 false false 0, .mmulg 0 32 0 false false 0, .mmulg 0 0 32 false false 0, .mmulg 0 0 0 false false 8,
      .azero 16, .drain 16 0 false 0, .drain 0 32 false 0, .drain 0 0 false 8, .rpop 128, .stintEndCount 48, .wait 32 0 0 0,
      .wait 0 32 0 0, .wait 0 0 128 0, .wait 0 0 0 64, .raise 32 0 0, .raise 0 128 0, .raise 0 0 64, .fres 32 0, .fres 0 32,
      .hbarGroup 32 0 0, .hbarGroup 0 8 0, .hbarGroup 0 0 8, .hbarGroup 0 4 0, .hbarGroup 0 0 5, .fence 8, .fence 5,
      .trap 4096, .pixr 32 0, .pixr 0 4, .pixw 32 0, .pixw 0 4, .engineHeadStart 192 0, .engineHeadStart 0 4,
      .fillerCommit 192 0, .fillerCommit 0 32, .laneStep 128, .netReceiverDone 2 0, .netSeatRelease 2 0,
      .netSeatRelease 0 48, .rlcWriteback 2 0 0, .rlcWriteback 0 16 0, .intakeCommit 16, .linkLost 12, .hbmLaneRepair 128,
      .fwLoad 2, .extend 2 0 0, .ctxConfig 2 0 default, .intake 2 0 default],
      i.wf = false := by decide +kernel

/-- Records of a wrong length and sites the part lacks (R286, R299, R410). -/
theorem test_wf_refuses_arguments :
    ∀ i ∈ [Instr.intakeRecord 16 (List.replicate 16 0) [], .intakeRecord 0 [] [], .errorCorrectable (.hbm 128),
      .errorCorrectable (.pool 192 0), .errorCorrectable (.pool 0 64), .launch 2 { (default : LaunchArgs) with hr := List.replicate 128 0 },
      .launch 0 { (default : LaunchArgs) with hr := List.replicate 127 0 },
      .launch 0 { (default : LaunchArgs) with hr := List.replicate 128 0, ring := List.replicate 65 0 }],
      i.wf = false := by decide +kernel

/-! ### Words (R6, R8, R42-R48): match value and fields of each row of the opcode table -/

/-- Words of the AP (class 000) decode to their instruction. -/
theorem test_words_ap_1 :
    is 0x00961B00 (.add 5 16 27) ∧ is 0x01161B00 (.sub 5 16 27) ∧ is 0x01961B00 (.and 5 16 27) ∧
      is 0x02161B00 (.or 5 16 27) ∧ is 0x02961B00 (.xor 5 16 27) ∧ is 0x03161B00 (.andn 5 16 27) ∧
      is 0x03961B00 (.shl 5 16 27) ∧ is 0x04161B00 (.shr 5 16 27) ∧ is 0x04961B00 (.sra 5 16 27) ∧
      is 0x05161B00 (.mul 5 16 27) ∧ is 0x05961B00 (.mulh 5 16 27) ∧ is 0x06161B00 (.mulhz 5 16 27) ∧
      is 0x06961B00 (.div 5 16 27) ∧ is 0x07161B00 (.rem 5 16 27) ∧ is 0x07961B00 (.divz 5 16 27) ∧
      is 0x08161B00 (.remz 5 16 27) ∧ is 0x08961B00 (.min 5 16 27) ∧ is 0x09161B00 (.max 5 16 27) ∧
      is 0x09961B00 (.minz 5 16 27) ∧ is 0x0A161B00 (.maxz 5 16 27) ∧ is 0x0A961B03 (.sel 5 16 27 3) ∧
      is 0x0B0E1B04 (.cmp 3 16 27 4) ∧ is 0x0B960004 (.sext 5 16 4) ∧ is 0x0C160004 (.zext 5 16 4) ∧
      is 0x0C960000 (.clz 5 16) ∧ is 0x0D160000 (.popc 5 16) ∧ is 0x0D8C6300 (.pand 3 3 3) ∧ is 0x0E0C6300 (.por 3 3 3) ∧
      is 0x0E8C6300 (.pxor 3 3 3) ∧ is 0x0F0C6000 (.pnot 3 3) := by decide +kernel

/-- Words of the AP (class 000) decode to their instruction. -/
theorem test_words_ap_2 :
    is 0x0F940C31 (.csrr 5 0xc31) ∧ is 0x1000AC31 (.csrw 5 0xc31) ∧ is 0x10961E31 (.addi 5 16 0x1e31) ∧
      is 0x11161E31 (.andi 5 16 0x1e31) ∧ is 0x11961E31 (.ori 5 16 0x1e31) ∧ is 0x12161E31 (.xori 5 16 0x1e31) ∧
      is 0x1296001B (.shli 5 16 27) ∧ is 0x1316001B (.shri 5 16 27) ∧ is 0x1396001B (.srai 5 16 27) ∧
      is 0x14141E31 (.li 5 0x1e31) ∧ is 0x148E1E31 (.cmpiEq 3 16 0x1e31) ∧ is 0x150E1E31 (.cmpiNe 3 16 0x1e31) ∧
      is 0x158E1E31 (.cmpiLt 3 16 0x1e31) ∧ is 0x160E1E31 (.cmpiGe 3 16 0x1e31) ∧ is 0x168E1E31 (.cmpiLtz 3 16 0x1e31) ∧
      is 0x170E1E31 (.cmpiGez 3 16 0x1e31) ∧ is 0x1802FF31 (.br 0x2ff31) ∧ is 0x188EFF31 (.bp 3 0x2ff31) ∧
      is 0x190EFF31 (.bnp 3 0x2ff31) ∧ is 0x1982FF31 (.call 0x2ff31) ∧ is 0x1A16FF31 (.loop 5 0x2ff31) ∧
      is 0x1A960000 (.jr 5 16) := by decide +kernel

/-- Words of class 001 decode to their instruction. -/
theorem test_words_mem_1 :
    is 0x269A3E31 (.ld true true 1 6 17 0x1e31) ∧ is 0x2AECDE31 (.lds true 1 27 6 0x1e31) ∧
      is 0x2D437E31 (.st 2 16 27 0x1e31) ∧ is 0x2EC3600B (.ldAcq 1 16 27 true 3) ∧ is 0x31436003 (.stRel 2 16 27 3) ∧
      is 0x3200A000 (.chk 5) ∧ is 0x32960002 (.cvtaTo 5 16 2) ∧ is 0x32960082 (.cvtaOf 5 16 2) ∧ is 0x330E0002 (.isap 3 16 2) ∧
      is 0x338E0000 (.qput 3 16) ∧ is 0x34146000 (.qget 5 3) ∧ is 0x34960000 (.shape 5 16) ∧ is 0x35161B00 (.sopen 5 16 27) ∧
      is 0x35961B00 (.sld 5 16 27) ∧ is 0x36160000 (.sfill 5 16) ∧ is 0x36140001 (.sfillRes 5) ∧
      is 0x3694100E (.sfork 5 16 true true 2) ∧ is 0x37140000 (.smark 5) ∧ is 0x37140001 (.smarkClr 5) ∧
      is 0x37940000 (.srew 5) ∧ is 0x38140000 (.sclose 5) ∧ is 0x38140001 (.scloseFin 5) ∧ is 0x38941000 (.sdrain 5 16) ∧
      is 0x39141000 (.sstat 5 16) ∧ is 0x39960000 (.ssave 5 16) ∧ is 0x3A00A000 (.srest 5) ∧ is 0x3A960002 (.cmd 5 16 2) ∧
      is 0x3B140002 (.cengStat 5 2) ∧ is 0x3B140006 (.cengSeq 5 2) ∧ is 0x3B16000A (.cengWait 5 16 2) := by decide +kernel

/-- Words of class 001 decode to their instruction. -/
theorem test_words_mem_2 :
    is 0x3B14000E (.cengRes 5 2) ∧ is 0x3B140012 (.cengDrop 5 2) := by decide +kernel

/-- Words of the XP (class 010) decode to their instruction. -/
theorem test_words_xp :
    is 0x40961B00 (.xpAdd 5 16 27) ∧ is 0x41161B00 (.xpSub 5 16 27) ∧ is 0x41961B00 (.xpAnd 5 16 27) ∧
      is 0x42161B00 (.xpOr 5 16 27) ∧ is 0x42961B00 (.xpXor 5 16 27) ∧ is 0x43961B00 (.xpShl 5 16 27) ∧
      is 0x44161B00 (.xpShr 5 16 27) ∧ is 0x44961B00 (.xpSra 5 16 27) ∧ is 0x45161B00 (.xpMul 5 16 27) ∧
      is 0x48961B00 (.xpMin 5 16 27) ∧ is 0x49161B00 (.xpMax 5 16 27) ∧ is 0x4A961B06 (.xpSel 5 16 27 6) ∧
      is 0x4B161B04 (.xpCmp 5 16 27 4) ∧ is 0x4F940C31 (.xpCsrr 5 0xc31) ∧ is 0x5000AC31 (.xpCsrw 5 0xc31) ∧
      is 0x50961E31 (.xpAddi 5 16 0x1e31) ∧ is 0x54141E31 (.xpLi 5 0x1e31) ∧ is 0x5802FF31 (.xpB 0x2ff31) ∧
      is 0x5896FF31 (.xpBp 5 0x2ff31) ∧ is 0x5A16FF31 (.xpLoop 5 0x2ff31) ∧ is 0x5A800000 .xfence ∧
      is 0x5B146000 (.xpQget 5 3) ∧ is 0x5B8E0000 (.xpQput 3 16) ∧ is 0x5C161B02 (.fadd 5 16 27 2) ∧
      is 0x5C961B02 (.fmul 5 16 27 2) ∧ is 0x5D161B02 (.fma 5 16 27 2) ∧ is 0x5D96FF31 (.lsp 5 0x2ff31) ∧
      is 0x5E000070 (.vset 3 16) ∧ is 0x5E00A17B (.vsetRot 5 3 27) ∧ is 0x5E800005 (.nset 5) := by decide +kernel

/-- Words of class 011 decode to their instruction. -/
theorem test_words_vec_1 :
    is 0x610A40DB (.vadd 5 16 27 true true) ∧ is 0x620A40DB (.vsub 5 16 27 true true) ∧
      is 0x630A40DB (.vmul 5 16 27 true true) ∧ is 0x640A40D9 (.vmulh 5 16 27 true) ∧ is 0x650A40DB (.vmad 5 16 27 true true) ∧
      is 0x660A40D9 (.vmin 5 16 27 true) ∧ is 0x670A40D9 (.vmax 5 16 27 true) ∧ is 0x680A4003 (.vabs 5 16 true true) ∧
      is 0x690A40D9 (.vand 5 16 27 true) ∧ is 0x690A40DB (.vor 5 16 27 true) ∧ is 0x690A40DD (.vxor 5 16 27 true) ∧
      is 0x690A4007 (.vnot 5 16 true) ∧ is 0x6A0A40DB (.vshl 5 16 27 true true) ∧ is 0x6B0A40DB (.vshr 5 16 27 true true) ∧
      is 0x6C0A40DB (.vsra 5 16 27 true true) ∧ is 0x6D0640DB (.vcmp 3 16 27 3) ∧ is 0x6E0A40D8 (.vsel 5 16 27) ∧
      is 0x6F0A40DF (.vwadd 5 16 27 true true true) ∧ is 0x700A40DF (.vwmul 5 16 27 true true true) ∧
      is 0x710A40DF (.vwmad 5 16 27 true true true) ∧ is 0x720A4007 (.vnarrow 5 16 true true true) ∧
      is 0x730A4135 (.vcvt 5 16 true 6 2 true) ∧ is 0x740A40DD (.vfadd 5 16 27 2 true) ∧
      is 0x750A40DD (.vfsub 5 16 27 2 true) ∧ is 0x760A40DD (.vfmul 5 16 27 2 true) ∧ is 0x770A40DD (.vfma 5 16 27 2 true) ∧
      is 0x780A40DD (.vfmin 5 16 27 true true) ∧ is 0x780A40DF (.vfmax 5 16 27 true true) ∧ is 0x790640DB (.vfcmp 3 16 27 3) ∧
      is 0x7A0A40DD (.vfsgn 5 16 27 2 true) := by decide +kernel

/-- Words of class 011 decode to their instruction. -/
theorem test_words_vec_2 :
    is 0x7B0A409B (.vred 5 16 2 3 true true) ∧ is 0x7C0A4000 (.vcompress 5 16) ∧ is 0x7C0A4002 (.vexpand 5 16) ∧
      is 0x7C0A4005 (.vperm 5 16 true) ∧ is 0x7D0A42A5 (.vslide 5 16 0x2a5) ∧ is 0x7E0A42A5 (.vbcast 5 16 0x2a5) ∧
      is 0x7F060C18 (.mand 3 3 3) ∧ is 0x7F060C1A (.mor 3 3 3) ∧ is 0x7F060C04 (.mnot 3 3) ∧ is 0x7F0A0C06 (.mpop 5 3) := by decide +kernel

/-- Words of class 100 decode to their instruction. -/
theorem test_words_mtx :
    is 0x810000A0 (.seat 5) ∧ is 0x82000000 .unseat ∧ is 0x83028013 (.wload 5 true 3) ∧ is 0x84000000 .wswap ∧
      is 0x85028000 (.sclq 5) ∧ is 0x8658001B (.mmul 5 16 true true 3) ∧ is 0x8758037B (.mmulg 5 16 27 true true 3) ∧
      is 0x88500000 (.azero 5) ∧ is 0x8950020B (.drain 5 16 true 3) ∧ is 0x8A001400 (.rpop 5) ∧ is 0x8B028000 (.rsend 5) ∧
      is 0x900A4001 (.exp2 5 16 true) ∧ is 0x900A4081 (.log2 5 16 true) ∧ is 0x900A4101 (.rcp 5 16 true) ∧
      is 0x900A4181 (.rsqrt 5 16 true) ∧ is 0x900A4201 (.sinpi 5 16 true) ∧ is 0x900A4281 (.cospi 5 16 true) ∧
      is 0x900A4301 (.tanh 5 16 true) ∧ is 0x900A4381 (.sigm 5 16 true) := by decide +kernel

/-- Words of class 101 decode to their instruction. -/
theorem test_words_sync :
    is 0xA0800000 .nop ∧ is 0xA1161B00 (.spawnAp 5 16 27) ∧ is 0xA1161B01 (.spawnXp 5 16 27) ∧ is 0xA1800000 .endTask ∧
      is 0xA21606E6 (.wait 5 16 27 38) ∧ is 0xA280A41B (.raise 5 16 27) ∧ is 0xA3161B00 (.fwait 5 16 27) ∧
      is 0xA380B000 (.fres 5 16) ∧ is 0xA400B000 (.ffault 5 16) ∧ is 0xA480A080 (.hbarHeat 5) ∧
      is 0xA480A01B (.hbarGroup 5 3 3) ∧ is 0xA500A010 (.barm 5 16) ∧ is 0xA500A030 (.barmClr 5 16) ∧
      is 0xA5960026 (.bwait 5 16 true 6) ∧ is 0xA600B000 (.hand 5 16) ∧ is 0xA6800003 (.fence 3) ∧ is 0xA7140000 (.tsr 5) ∧
      is 0xA7800C31 (.trap 0xc31) ∧ is 0xA8000000 .rtt ∧ is 0xA8960000 (.sysXpage 5 16) ∧ is 0xA8960001 (.sysXctx 5 16) ∧
      is 0xA8960002 (.sysRlc 5 16) ∧ is 0xA8960003 (.sysTbsync 5 16) ∧ is 0xA900A000 (.slip 5) ∧ is 0xA9800000 .halt ∧
      is 0xAA140002 (.pixr 5 2) ∧ is 0xAA80A002 (.pixw 5 2) ∧ is 0xAB160000 (.must 5 16) ∧ is 0xAB80A000 (.unmust 5) := by decide +kernel

/-- LONG pairs (R48): tc3 and op6 of word 0, the immediate in word 1; the last is a word of the listing in "Access processor
instructions". -/
theorem test_words_long :
    isLong 0xE08C0000 0x80000001 (.lil 3 0x80000001) ∧ isLong 0xE10C4000 7 (.addil 3 2 7) ∧ isLong 0xE1800031 9 (.csrwLong 0x31 9) ∧
      isLong 0xE08C0800 5 (.xpLil 3 5) ∧ isLong 0xE10C4800 7 (.xpAddil 3 2 7) ∧ isLong 0xE1800810 3 (.xpCsrwLong 0x10 3) ∧
      isLong 0xE0880000 0x20000000 (.lil 2 0x20000000) := by decide +kernel

/-- Words that the spec's text assembles: `cmd.ring1 a9, a4` and `vset.i32 m2`. -/
theorem test_words_of_the_text : is 0x3AA48001 (.cmd 9 4 1) ∧ is 0x5E000043 (.vset 2 3) := by decide +kernel

/-- A nonzero reserved field, an unlisted op6, an unlisted class and an unlisted LONG pair are refused (R8, R42, R49). -/
theorem test_words_refused :
    (decodeWord 0x008C4701).toOption = none ∧ (decodeWord 0x1F800000).toOption = none ∧ (decodeWord 0xC0000000).toOption = none ∧
      (decodeLong 0xE08C0400 0).toOption = none := by decide +kernel

/-! ### Examples of the spec's text -/

/-- Core (13, 5): number 133, die B, crew 30, position 3 (R4, R22), and what its CORE, CREW and DIE read. -/
theorem test_core_133 :
    dieOf 133 = 1 ∧ crewOf 133 = 30 ∧ posOf 133 = 3 ∧
      (let s := { apState with cur := { apState.cur with core := 133 } }
       csrRead s .ap 0 = some 0xAD85 ∧ csrRead s .ap 1 = some 0x3261E ∧ csrRead s .ap 2 = some 7) := by decide +kernel

/-- The byte 0xB3 holds 3 and 11 in z4, 3 and -5 in i4 (R14, R23). -/
theorem test_z4_and_i4 :
    Safety.el 4 0 0xB3 = 3 ∧ Safety.el 4 1 0xB3 = 11 ∧ etInt 4 11 = 11 ∧ etInt 0 3 = 3 ∧ etInt 0 11 = -5 := by decide +kernel

/-- R63: `fma` of 0, infinity and a signalling NaN, and a quiet one. -/
theorem test_fma_nan :
    fpFma fmtF 0 0 0x7F800000 0xFF800123 = ⟨0xFFC00123, fNV⟩ ∧ fpFma fmtF 0 0 0x7F800000 0x7FC00005 = ⟨0x7FC00005, 0⟩ := by
  decide +kernel

/-- `fma` on the XP: d becomes 0x7FC0_0001 and NV is set. -/
theorem test_fma_step :
    left (exec (.fma 3 1 2 0) (withX [(2, 0x7F800000), (3, 0x7F800001)])) (fun t => (t.me.xreg 3, t.me.flags)) =
      some (0x7FC00001, 1) := by decide +kernel

/-- R64: 500.0 and 456.0 into f8e4, saturating by default, and with saturation deselected. -/
theorem test_f8e4 :
    convert 13 9 0 false 0x43FA0000 = ⟨0x7E, fOF + fNX + fSAT⟩ ∧ convert 13 9 0 true 0x43FA0000 = ⟨0x7F, fOF + fNX⟩ ∧
      convert 13 9 0 false 0x43E40000 = ⟨0x7E, fNX⟩ := by decide +kernel

/-- R78: -7 by 2, signed and unsigned. -/
theorem test_division :
    (let s := withA [(1, -7), (2, 2)]
     left (exec (.div 3 1 2) s) (fun t => (t.me.areg 3).val) = some (-3) ∧
     left (exec (.rem 3 1 2) s) (fun t => (t.me.areg 3).val) = some (-1) ∧
     left (exec (.divz 3 1 2) s) (fun t => (t.me.areg 3).val) = some 0x7FFFFFFFFFFFFFFC ∧
     left (exec (.remz 3 1 2) s) (fun t => (t.me.areg 3).val) = some 1) := by decide +kernel

/-- With SPAD 0xA_C000, a crew window address names a byte of the core at POS 3, and 0xB_0000 is invalid (R99). -/
theorem test_apertures :
    (let s := (apState.modCore 0 (fun k => { k with cont := 0 })).modCore 25 (fun k => { k with heat := 1, vregsCode := 2, acc := 8 })
     (s.core 0).spad = 0xAC000 ∧ s.place 0 0xF800000000320100 = some (.pool 25 ((s.core 25).padBase + 0x20100)) ∧
     s.place 0 0xFC000000000B0000 = none) := by decide +kernel

/-- `cvta.to.dsh` of 0x1_0000_4000 (R100). -/
theorem test_cvta_to_dsh :
    left (exec (.cvtaTo 3 2 1) ((withA [(2, 0x100004000)]).modCtx 1 (fun x => { x with conf := some { smallCfg with wshB := 65536 } })))
      (fun t => (t.me.areg 3).val) = some 0xF000000100004000 := by decide +kernel

/-- The delivery words of "A link fails under one core" (R318). -/
theorem test_delivery_words :
    deliveryWord 0x0A true 0 0 true none 12 = 0x0000000C0000410A ∧ deliveryWord 0x12 false 7 0 false none 12 = 0x0000000C00000E12 := by
  decide +kernel

/-- A use of poison takes POISON with FCODE.DEFERRED at the word's own address (R28, R97). -/
theorem test_chk_poisoned :
    left (exec (.chk 1) withPoison) (fun t => (t.mySide.faddr, t.mySide.fcode, t.mySide.run, t.me.pending.length)) =
      some (placeAddr, 0x800A, .stopped, 1) := by decide +kernel

/-- A store is little-endian (R5), and a load that extends a sign reads it back (R92, R93). -/
theorem test_store_and_load :
    left (exec (.st 3 3 2 0) (withA [(2, 0x10000040), (3, 0x1122334455667788)])) (fun t =>
        (memGet t.mem (globKey 1 0x10000040), memGet t.mem (globKey 1 0x10000047))) = some (0x88, 0x11) ∧
      (let s := withA [(2, 0x10000040)]
       left (exec (.ld false false 1 3 2 0) { s with mem := memWrite s.mem (globKey 1 0x10000040) [0x88, 0xF7] })
         (fun t => (t.me.areg 3).val) = some 0xFFFFFFFFFFFFF788) := by decide +kernel

/-- A step from reset runs the placed `add`: a3 is a2 plus a7, and the pc has moved a word. -/
theorem test_step_add :
    left (step (placedAdd.modCore 0 (fun k => { k with aregs := [(2, ⟨5, false⟩), (7, ⟨-7, false⟩)] })))
      (fun t => ((t.core 0).areg 3, (t.core 0).ap.pc)) = some (⟨-2, false⟩, placeAddr + 4) := by decide +kernel

/-- A step runs the placed `vadd` of i4 elements: 7 and 1 wrap to -8, and nothing saturates (R65). -/
theorem test_step_vadd :
    left (step (placedVadd.modCore 0 (fun k => { k with vregs := [(0, 7), (2, 1)] })))
      (fun t => ((t.core 0).vreg 1, (t.core 0).flags, (t.core 0).vq)) = some (8, 0, []) := by decide +kernel

/-- `end` of the last task leaves the side idle (R212). -/
theorem test_end : left (exec .endTask apState) (fun t => t.mySide.run) = some .idle := by decide +kernel

/-- The intake example of R300, in KiB: with totals of 3,156, channel 2 is shed; it is shed still at 2,220, and no more at
1,820. -/
theorem test_shedding :
    (let ch := fun (p n : Nat) => { Channel.reset with conf := { smallChan with prio := p, size := 2 ^ 21 }, resv := n * 1024 }
     let s := fun (a b c : Nat) (x : Option Nat) =>
       { apState with chans := [(0, ch 7 a), (1, ch 2 b), (2, ch 2 c)], high := 3072 * 1024, low := 2048 * 1024, shed := x }
     (testShedding (s 1000 900 1000 none)).shed = none ∧ (testShedding (s 1000 1156 1000 none)).shed = some 2 ∧
     (endShedding (s 0 1220 1000 (some 2))).shed = some 2 ∧ (endShedding (s 0 1220 600 (some 2))).shed = none) := by decide +kernel

/-- The last 8 MiB of a budget of 48 MiB: two charges of 4 MiB are admitted, and one more of 4 MiB + 8 KiB is not (R379). -/
theorem test_budget :
    (let s := fun (n : Nat) => { inPower .ready [{ smallSet with charge := n }] with
       water := { (inPower .ready [{ smallSet with charge := n }]).water with budget := 48 * 2 ^ 20 } }
     budgetAllows (s (44 * 2 ^ 20)) 1 (4 * 2 ^ 20) = true ∧
     budgetAllows (s (44 * 2 ^ 20 + 8192)) 1 (4 * 2 ^ 20 + 8192) = false) := by decide +kernel

/-! ### States that meet the premises of the obligations -/

/-- Instructions of several classes meet the premises of DecodeInvertsEncode. -/
theorem wit_decodeInvertsEncode :
    (Instr.wf (.add 3 2 7) = true ∧ encode (.add 3 2 7) ≠ []) ∧
      (Instr.wf (.lil 31 0xFFFFFFFF) = true ∧ encode (.lil 31 0xFFFFFFFF) ≠ []) ∧
      (Instr.wf (.ld false false 3 31 31 0x1FFF) = true ∧ encode (.ld false false 3 31 31 0x1FFF) ≠ []) := by decide +kernel

/-- Bytes meet the premise of EncodeInvertsDecode. -/
theorem wit_encodeInvertsDecode : decode (leBytes 4 0x008C4700) = .ok (.add 3 2 7, []) := by rfl

/-- States meet the premises of StepRunsTheDecodedInstruction: a word at the pc, a queued word, a planned event, a turn of no
core. -/
theorem wit_stepRunsTheDecodedInstruction :
    ((nextTurn placedAdd).1.act = .side 0 .ap ∧ (nextTurn placedAdd).2.hasCore 0 = true ∧ Safety.fetches 0 .ap addMoves ∧
        fetched (addMoves.modSide 0 .ap (fun x => { x with land := false })) addMoves.cur.addr = some 0x008C4700 ∧
        addMoves.cur.addr.toNat % 4 = 0) ∧
      ((nextTurn placedVadd).1.act = .eng 0 .vec ∧ (nextTurn placedVadd).2.hasCore 0 = true ∧ vaddTicked.live 0 = true ∧
          (vaddTicked.core 0).slot .vec = none ∧
          (nextQueued (vaddTicked.core 0) .vec).any (fun q => mayStart (vaddTicked.core 0) q) = true) ∧
      (Instr.unit (.fillerCommit 0 0) = .event ∧ Instr.wf (.fillerCommit 0 0) = true ∧
        unitPresent (.fillerCommit 0 0) State.reset = true ∧ Instr.wf (.fillerCommit 192 0) = false) ∧
      State.reset.hasCore 192 = false := by decide +kernel

/-- A state meets the premises of StepKeepsMemoryCanonical: its memory lists a byte, and its step answers a next state. -/
theorem wit_stepKeepsMemoryCanonical :
    Safety.memOk (State.reset.withFetchWord 32 0x008C4700) ∧
      isNext (step (State.reset.withFetchWord 32 0x008C4700)) = true := by decide +kernel

/-- A memory with a byte meets the premises of MemoryReadsWhatWasWritten. -/
theorem wit_memoryReadsWhatWasWritten : Memory.wf [(5, 1#8)] = true := by decide +kernel

/-- A state meets the premises of ApRegisterArithmetic, with a zero divisor and with -2^63 by -1. -/
theorem wit_apRegisterArithmetic :
    Safety.apFree [1, 2, 3] (withA [(2, 5), (3, 0)]) ∧
      Safety.apFree [1, 2, 3] (withA [(2, 0x8000000000000000), (3, 0xFFFFFFFFFFFFFFFF)]) := by decide +kernel

/-- A state meets the premises of ApImmediatesAndUnaryWords at the widths 1 and 64. -/
theorem wit_apImmediatesAndUnaryWords :
    Safety.apFree [1, 2, 3] (withA [(2, 5)]) ∧ (1 ≤ 1 ∧ 1 ≤ 64) ∧ (1 ≤ 64 ∧ 64 ≤ 64) := by decide +kernel

/-- A state meets the premise of ApComparesAndPredicates with clean sources, and one with a poisoned source. -/
theorem wit_apComparesAndPredicates :
    (Safety.apFree [1, 2] (withA [(1, 5)]) ∧ ((withA [(1, 5)]).me.areg 1).bad = false) ∧
      (Safety.apFree [1, 2] withPoison ∧ (withPoison.me.areg 1).bad = true) := by decide +kernel

/-- A state meets the premise of ApTransfers; a poisoned count, and a misaligned target, are met too. -/
theorem wit_apTransfers :
    Safety.apFree [31, 1, 2, 3] (withA [(3, 6)]) ∧ ((withA [(3, 6)]).me.areg 3).val.toNat % 4 ≠ 0 ∧
      Safety.apFree [31, 1, 2, 3] withPoison ∧ (withPoison.me.areg 1).bad = true := by decide +kernel

/-- The AP of a core with the head of ring 0 running, three fields of PIX set. -/
def pixWaits : State :=
  (apState.modRing 0 0 (fun g => { g with st := .run })).modSide 0 .ap (fun x => { x with pix := 3 })

/-- A state meets the premises of ApReadsAndWritesCsrs: a core with a heat, in user mode, and numbers outside the lists; in
system mode with every engine idle, and with the last one busy. -/
theorem wit_apReadsAndWritesCsrs :
    Safety.apFree [1, 2] user ∧ (0 < 4) ∧ (3 < 4) ∧ (user.heatOf user.cur.core).isSome = true ∧
      user.sysMode user.cur.core = false ∧ 0x044 ∉ [0x020, 0x030, 0x031] ∧
      0x044 ∉ [0x000, 0x001, 0x002, 0x003, 0x004, 0x005, 0x006, 0x020, 0x022, 0x030, 0x031, 0x040, 0x041, 0x042, 0x043] ∧
      (Safety.apFree [1, 2] apState ∧ apState.sysMode apState.cur.core = true ∧ apState.mySide.pix = 0 ∧
        ∀ e < 4, pixIdle apState.me e = true) ∧
      (Safety.apFree [1, 2] pixWaits ∧ pixWaits.sysMode 0 = true ∧ pixWaits.mySide.pix = 3 ∧
        pixIdle pixWaits.me 3 = false) := by
  decide +kernel

/-- States and addresses meet each premise of AccessChecksInOrder: misaligned, invalid, local, unmapped, mapped. -/
theorem wit_accessChecksInOrder :
    (0x10000001#64).toNat % 8 ≠ 0 ∧ apState.place 0 0xFC00000000100000 = none ∧
      (apState.place 0 0xFC00000000000008 = some (.pool 0 (apState.me.padBase + 8))) ∧
      (apState.place 0 0x20000000 = some (.glob 1 0x20000000) ∧ apState.page 1 0x20000000 = none ∧ (apState.die 0).tlb = []) ∧
      (apState.place 0 0x10000008 = some (.glob 1 0x10000008) ∧ (apState.page 1 0x10000008).isSome = true ∧
        (apState.region 1 0x10000008).isSome = true) := by decide +kernel

/-- States meet the premises of ApLoadsReadOrTrap: a valid base, and a poisoned one. -/
theorem wit_apLoadsReadOrTrap :
    (Safety.apFree [1, 2] (withA [(2, 0x10000040)]) ∧ (withA [(2, 0x10000040)]).cur.link = none ∧ 3 ≤ 3) ∧
      (Safety.apFree [2, 1] withPoison ∧ (withPoison.me.areg 1).bad = true) := by decide +kernel

/-- States meet the premises of ApSpeculativeLoads: a clean base, a poisoned one, and an outstanding load. -/
theorem wit_apSpeculativeLoads :
    (Safety.apFree [1, 2] (withA [(2, 0x10000040)]) ∧ (withA [(2, 0x10000040)]).cur.link = none) ∧
      Safety.apFree [2, 1] withPoison ∧
      (withLds.cur.side = .ap ∧ withLds.cur.eng = none ∧ 3 ∈ Safety.apReads (.add 1 2 3) ∧ withLds.me.lds.any (fun w => w.d == 3) = true) ∧
      (withLds.unitsLive 0 = true ∧ withLds.owes 0 = false ∧ ldsBehind (asSide 0 .ap withLds) 0 3 ⟨3, 0x10000040, 8, true, none⟩ = false ∧ (withLds.core 0).lds.find? (fun x => x.d == 3) = some ⟨3, 0x10000040, 8, true, none⟩) := by
  decide

/-- States meet the premises of ApStoresWriteOrTrap: clean operands, and a poisoned base. -/
theorem wit_apStoresWriteOrTrap :
    ((withA [(2, 0x10000040)]).cur.side = .ap ∧ (withA [(2, 0x10000040)]).cur.eng = none ∧
      (withA [(2, 0x10000040)]).me.lds = [] ∧ (withA [(2, 0x10000040)]).owes 0 = false ∧ 3 ≤ 3 ∧ (withA [(2, 0x10000040)]).cur.link = none ∧
      (checkAccess (withA [(2, 0x10000040)]) 0 0x10000040 8 .store).isOk = true ∧
      (checkAccess (withA [(2, 0x10000040)]) 0 0x10000040 8 .load).isOk = true) ∧
      (withPoison.cur.side = .ap ∧ withPoison.cur.eng = none ∧ withPoison.me.lds = [] ∧ withPoison.owes 0 = false ∧ (withPoison.me.areg 1).bad = true) := by
  decide +kernel

/-- States meet the premises of ApAddressAndQueueWords: clean, poisoned, a full queue and a queue with an entry. -/
theorem wit_apAddressAndQueueWords :
    (0 < 4 ∧ 3 < 4 ∧ Safety.apFree [1, 2] (withA [(2, 0x10000040)])) ∧
      (Safety.apFree [2, 1] withPoison ∧ (withPoison.me.areg 1).bad = true) ∧
      (Safety.apFree [1, 2] withQueues ∧ 16 ≤ (withQueues.me.queue 0).length ∧ withQueues.me.queue 4 = [7]) := by decide +kernel

/-- States meet the premises of StreamsOpenAndStart: no stream on a port, and a bound port with a shape. -/
theorem wit_streamsOpenAndStart :
    (Safety.apFree [1, 2] (withA [(1, 0xFC00000000000000)]) ∧ (withA []).me.bound 3 = none) ∧
      (Safety.apFree [1, 2] withStream ∧ (withStream.me.bound 0).isSome = true ∧ (tfind withStream.me.shapes 0).isSome = true) := by
  decide +kernel

/-- States meet the premises of StreamsMarkCloseAndReport: an unbound port, a bound one with its entry, an aligned address. -/
theorem wit_streamsMarkCloseAndReport :
    (Safety.apFree [1, 2] (withA [(2, 0x10000040)]) ∧ (withA [(2, 0x10000040)]).me.bound 3 = none ∧
      ((withA [(2, 0x10000040)]).me.areg 2).bad = false ∧ ((withA [(2, 0x10000040)]).me.areg 2).val.toNat % 64 = 0) ∧
      (Safety.apFree [1, 2] (withA [(2, 0x10000041)]) ∧ ((withA [(2, 0x10000041)]).me.areg 2).val.toNat % 64 ≠ 0) ∧
      (Safety.apFree [1, 2] withStream ∧ (withStream.me.bound 0).isSome = true) := by decide +kernel

/-- States meet the premises of EngineWords: an address in a1, and a poisoned a1. -/
theorem wit_engineWords :
    (Safety.apFree [1, 2] (withA [(1, 0x10000040)]) ∧ ((withA [(1, 0x10000040)]).me.areg 1).bad = false) ∧
      (Safety.apFree [1, 2] withPoison ∧ (withPoison.me.areg 1).bad = true) := by decide +kernel

/-- A state meets the premise of XpScalarWords. -/
theorem wit_xpScalarWords : Safety.xpFree [1, 2, 3, 4] (withX [(2, 5)]) := by decide +kernel

/-- A state meets the premise of XpTransfersAndLoops. -/
theorem wit_xpTransfersAndLoops : Safety.xpFree [2] (withX [(2, 0x100000005)]) := by decide +kernel

/-- States meet each premise of LoopChecksAfterAWord: no entry, one elsewhere, a plain one and an lsp one that end here. -/
theorem wit_loopChecksAfterAWord :
    (withX []).mySide.loops = [] ∧
      (withLoop ⟨4, 8, 2, 0, 0, 0⟩).mySide.loops = [⟨4, 8, 2, 0, 0, 0⟩] ∧
      ¬ ((8 : Addr) = (withLoop ⟨4, 8, 2, 0, 0, 0⟩).cur.addr) ∧
      (withLoop ⟨4, placeAddr, 2, 0, 0, 0⟩).cur.addr = placeAddr ∧ 1 < 2 ∧ 1 ≤ 1 := by decide +kernel

/-- A `vadd` steered and not started. -/
def xpBusy : State := (withX []).modCore 0 (fun k => { k with vq := [⟨placeAddr, 0x61020010, 0, 0, 0⟩] })

/-- States meet the premises of XpQueuesCsrsAndVt: in user mode and in system mode, with no word steered and with one, numbers
outside the lists, and PIX begun and not. -/
theorem wit_xpQueuesCsrsAndVt :
    (Safety.xpFree [1, 2] userX ∧ userX.sysMode userX.cur.core = false ∧ userX.me.unfinished = [] ∧ 0 < 96 ∧ 95 < 96 ∧ 96 ≤ 96) ∧
      (Safety.xpFree [1, 2] (withX []) ∧ (withX []).sysMode 0 = true ∧ (withX []).me.unfinished = [] ∧
        (withX []).mySide.pix = 0 ∧ ((withX []).heatOf 0).isSome = true ∧ ∀ e < 4, pixIdle (withX []).me e = true) ∧
      (Safety.xpFree [1, 2] xpBusy ∧ xpBusy.me.unfinished ≠ [] ∧ xpBusy.sysMode 0 = true) ∧
      (7 < 8 ∧ 31 < 32) ∧ 0x044 ∉ [0x010, 0x011, 0x012, 0x013, 0x020, 0x021, 0x030, 0x031] ∧
      0x044 ∉ [0x000, 0x001, 0x002, 0x003, 0x004, 0x005, 0x006, 0x010, 0x011, 0x012, 0x013, 0x014, 0x020, 0x021, 0x022, 0x030, 0x031] := by
  decide +kernel

/-- A state meets the premises of XpSteersQueuedWords: a `vadd` at the XP's pc. -/
theorem wit_xpSteersQueuedWords :
    let s := vaddAtPc
    s.live 0 = true ∧ (s.core 0).xp.run = .run ∧ (s.core 0).xp.land = false ∧ (s.core 0).aside = [] ∧
      stageSkips (s.core 0) (s.core 0).xp.pc = false ∧
      (fetchWord (asSide 0 .xp s) 0 (s.core 0).xp.pc).toOption.map (fun p => p.2) = some 0x61020010 ∧
      wordInstr 0x61020010 = some (.vadd 1 0 2 false false) ∧ isQueued (Instr.vadd 1 0 2 false false).unit = true := by
  decide +kernel

/-- States meet the premises of VectorIntegerWords with register operands, and with a port that holds a unit as a source. -/
theorem wit_vectorIntegerWords :
    (Safety.portsReady [2, 3] [1] vecState ∧ Safety.portsReady [2] [1] vecState) ∧
      (Safety.portsReady [96, 3] [1] vecPort ∧ Safety.portsReady [96] [1] vecPort) := by decide +kernel

/-- A state meets the premises of VectorFloatAndFunctionWords. -/
theorem wit_vectorFloatAndFunctionWords :
    Safety.portsReady [2, 3] [1] vecState ∧ Safety.portsReady [2] [1] vecState := by decide +kernel

/-- A state meets the premises of VectorMaskAndMoveWords at the least and greatest condition and index. -/
theorem wit_vectorMaskAndMoveWords :
    Safety.portsReady [2, 3] [1] vecState ∧ Safety.portsReady [2, 3] [] vecState ∧ Safety.portsReady [2] [1] vecState ∧
      0 < 6 ∧ 5 < 6 ∧ 127 < 4096 / etBits (vtType vecState.cur.vt) := by decide +kernel

/-- States meet the premises of VectorWidthWords: i8 under a pair, and conversions from a narrower, an equal and a wider type. -/
theorem wit_vectorWidthWords :
    (Safety.starts .vec vecI8 ∧ wideOk vecI8.me.nv vecI8.cur.vt 10 2 3 false false = true ∧
      2 ≤ vecI8.cur.steps ∧ Safety.portsReady [2, 3] [] vecI8 ∧ etWide (vtType vecI8.cur.vt) false = true ∧
      spanOk vecI8.me.nv vecI8.cur.vt 2 2 = true ∧ Safety.portsReady [] [1] vecI8) ∧
      (cvtWordOk vecI8.me.nv vecI8.cur.vt 1 2 false 8 = false ∧
        cvtWordOk vecBf16.me.nv vecBf16.cur.vt 10 2 false 9 = true ∧ cvtWordOk vecBf16.me.nv vecBf16.cur.vt 10 2 false 2 = true ∧
        cvtWordOk vecBf16.me.nv vecBf16.cur.vt 10 2 false 13 = true ∧ Safety.starts .vec vecBf16 ∧
        Safety.portsReady [2] [10] vecBf16 ∧ Safety.portsReady [2] [] vecBf16 ∧ Safety.portsReady [] [10] vecBf16 ∧
        2 ≤ vecBf16.cur.steps) := by decide +kernel

/-- States meet the premises of EngineWordsWaitOrTrapAtPorts: an unbound port, and a bound one without a unit. -/
theorem wit_engineWordsWaitOrTrapAtPorts :
    portsCheck vecState (portsOf [96, 3]) (portsOf [1]) = .trap (trapAt .stream) ∧
      portsCheck vecEmptyPort (portsOf [96, 3]) (portsOf [1]) = .wait := by decide +kernel

/-- States meet the premises of MatrixWords: one that may ask for the seat, one granted it, one seated with nothing begun and a
plane, one with an entry in the result queue. -/
theorem wit_matrixWords :
    (mtxState.cur.eng = some .pass ∧ mtxState.cur.side = .xp ∧ begun mtxState = false ∧ mtxState.me.inLoad = none ∧ reseating mtxState 0 = false ∧
        Safety.starts .pass mtxState ∧ mtxState.me.hasSeat = false ∧ mtxState.me.scaleq.length + 512 ≤ 4096 ∧ mtxState.me.resultq = [] ∧ mtxState.me.rqRes = 0) ∧
      (begun mtxGranted = true ∧ mtxGranted.me.hasSeat = true ∧ mtxGranted.cur.eng = some .pass ∧ mtxGranted.cur.side = .xp) ∧
      (Safety.starts .pass mtxSeated ∧ Safety.seated mtxSeated ∧ (mtxSeated.crew 0).active.stale = false ∧
        (passOf (mtxSeated.crew 0).active.ty 3 false false).isSome = true ∧ streamBad mtxSeated 0 = false ∧ claimed mtxSeated.me 0 = false ∧
        64 ≤ mtxSeated.cur.steps ∧ mtxSeated.me.resultq = [5] ∧ (mtxSeated.me.xreg 7).toNat = 0 + 1 * 256) ∧
      (Safety.starts .load mtxLoads ∧ Safety.seated mtxLoads ∧ wloadStream mtxLoads 0 = false ∧ wloadScales 3 false ≤ 0) := by
  decide +kernel

/-- States meet the premises of SeatTurns: a free seat with a request, one without, a core at the end of its
stint, and a crew without a heat. -/
theorem wit_seatTurns :
    (crewMoves seatAsked 0 = true ∧ (seatAsked.crew 0).holder = 7 ∧ (seatAsked.crew 0).reqs = [1] ∧ (mtxState.crew 0).reqs = []) ∧
      crewMoves seatSpent 0 = true ∧ crewMoves State.reset 0 = false ∧ (seatSpent.crew 0).holder < 4 ∧ (seatSpent.core 0).hasSeat = true ∧ (seatSpent.core 0).stint = 0 ∧
      seatBusy (seatSpent.core 0) = false := by decide

/-- States meet the premises of SyncScalarWords: a system-mode AP, and an XP with nothing queued. -/
theorem wit_syncScalarWords :
    (Safety.syncFree false [1, 2] apState ∧ 3 < 4 ∧ apState.sysMode apState.cur.core = true ∧ endWaits apState = false ∧
      (apState.heatOf apState.cur.core).isSome = true) ∧
      (Safety.syncFree false [1, 2] (withX []) ∧ (withX []).me.unfinished = []) := by decide +kernel

/-- States meet the premises of TasksSpawnedEndedAndStarted: spawns with each outcome, an end, and a queued task. -/
theorem wit_tasksSpawnedEndedAndStarted :
    (Safety.syncFree true [1, 2, 3] (withA [(2, 0x10000000), (3, 1)]) ∧
        ((withA [(2, 0x10000000), (3, 1)]).heatOf 0).isSome = true ∧
        freeRec ((withA [(2, 0x10000000), (3, 1)]).core 1) = none ∧ freeRec ((withA [(3, 0)]).core 0) = some 0 ∧ Safety.loadsDone (withA [(3, 0)])) ∧
      (Safety.syncFree true [] apState ∧ endWaits apState = false ∧ apState.mySide.frame = none) ∧
      (Safety.syncFree true [] inFaultTask ∧ endWaits inFaultTask = false ∧ inFaultTask.mySide.frame.isSome = true) ∧
      (taskQueued.live 0 = true ∧ deliveryDue taskQueued 0 .ap = false ∧ (taskQueued.core 0).ap.run = .idle ∧ (taskQueued.core 0).ap.tq = [0] ∧
        (tfind (taskQueued.core 0).pool 0).isSome = true) := by decide +kernel

/-- A record at the head of ring 0 awaits one count of semaphore 5. -/
def headWaits : State := (withSema 3).modRing 0 0 (fun g =>
  { g with wp := 1, st := .wait, recs := [(0, ⟨rec64 [(0, 10), (1, 5), (2, 1), (6, 1)], 0, true, 0⟩)] })

/-- States meet the premises of SemaphoreWaitsAndRaises: a covered wait, one that registers, a full pool, raises, and a ring's
head that a raise serves. -/
theorem wit_semaphoreWaitsAndRaises :
    (Safety.syncFree true [2, 1] (withSema 3) ∧ (withSema 3).me.anyPoison [2] = false ∧
        ((withSema 3).heatOf 0).isSome = true ∧ maskOk ((withSema 3).rd 2) = true ∧ ((withSema 3).me.sema 5).waiters = [] ∧
        2 ≤ ((withSema 3).me.sema 5).count ∧ freeRec (withSema 3).me = some 0 ∧ freeRec noPool.me = none ∧
        Safety.syncFree true [2, 1] noPool ∧ maskOk (noPool.rd 2) = true) ∧
      (headsOn ((withSema 3).core 0) 5 = [] ∧ Safety.loadsDone (withSema 3)) ∧
      (headsOn (headWaits.core 0) 5 = [0] ∧ (((headWaits.core 0).ring 0).head).isSome = true ∧ (headWaits.me.sema 5).waiters = []) := by decide +kernel

/-- A future whose list has two records, the second on the other die. -/
def twoWait : State :=
  ((withFuture 1).modCore 0 (fun k => { k with pool := [(0, { poolRec with kind := .fwait, link := some (12, 0) })] })).modCore 12
    (fun k => { k with pool := [(0, { poolRec with kind := .fwait })] })

/-- States meet the premises of FuturesResolveOnceAndWake: an empty, a waiting, a resolved and a faulted word, a list of one
record and one that crosses the bridge, an address that names no future. -/
theorem wit_futuresResolveOnceAndWake :
    (Safety.syncFree true [2, 3, 1] (withFuture 0) ∧ (withFuture 0).me.anyPoison [2, 3] = false ∧
        (futurePlace (withFuture 0) ((withFuture 0).rd 2)).toOption = some (.pool 0 (withFuture 0).me.padBase) ∧
        (withFuture 0).homeDie (.pool 0 (withFuture 0).me.padBase) = dieOf 0 ∧ maskOk ((withFuture 0).rd 3) = true ∧
        freeRec (withFuture 0).me = some 0 ∧ Safety.loadsDone (withFuture 0)) ∧
      (withFuture 1).me.pool.length = 1 ∧ listCrosses (192 * 256) (withFuture 1) (some (0, 0)) = false ∧
      bytesNat (memRead (withFuture 0x700000002).mem (Place.pool 0 (withFuture 0).me.padBase).key 8) % 4 = 2 ∧
      bytesNat (memRead (withFuture 3).mem (Place.pool 0 (withFuture 0).me.padBase).key 8) % 4 = 3 ∧
      (futurePlace apState (apState.rd 2)).isOk = false ∧ Safety.syncFree true [2, 3, 1] apState := by decide +kernel

/-- The list of two records is one that FuturesResolveOnceAndWake speaks of, on a state that meets its premises. -/
theorem wit_futuresResolveOnceAndWake_list :
    Safety.listIs twoWait (some (0, 0)) [(0, 0), (12, 0)] ∧ listCrosses (192 * 256) twoWait (some (0, 0)) = true ∧
      bytesNat (memRead (flushDie 0 twoWait).mem (Place.pool 0 twoWait.me.padBase).key 8) = 1 := by
  refine ⟨⟨rfl, _, rfl, rfl, _, rfl, rfl⟩, ?_⟩
  decide +kernel

/-- States meet the premises of BarriersArriveArmAndWait: an arrival before the others, the last one, an armed barrier. -/
theorem wit_barriersArriveArmAndWait :
    (Safety.syncFree true [2, 1] (withSema 3) ∧ (withSema 3).me.anyPoison [2] = false ∧
        ((withSema 3).heatOf 0).isSome = true ∧ maskOk ((withSema 3).rd 2) = true ∧
        (subGroup 2 2 (withSema 3)).isSome = true ∧ (subGroup 4 4 (withSema 3)).isSome = false ∧
        tget (withSema 3).mySide.hbars 0 0 = 0 ∧ freeRec (withSema 3).me = some 0 ∧ Safety.loadsDone (withSema 3)) ∧
      (tget ((hbarLast.core 1).side .ap).hbars 0 0 = 1 ∧ tget ((hbarLast.core 24).side .ap).hbars 0 0 = 1 ∧
        tget ((hbarLast.core 25).side .ap).hbars 0 0 = 1 ∧ Safety.syncFree true [2, 1] hbarLast) := by decide +kernel

/-- States meet the premises of HandoverAndSystemWords: a private region of the core, and system and user mode. -/
theorem wit_handoverAndSystemWords :
    (Safety.syncFree false [2, 3, 1] withPrivate ∧ withPrivate.me.anyPoison [2, 3] = false ∧
        (withPrivate.rd 2).toNat % 2 ^ 21 = 0 ∧ withPrivate.place 0 (withPrivate.rd 2) = some (.glob 1 0x10000000) ∧
        ((withPrivate.region 1 0x10000000).map (fun r => (r.st, r.owner))) = some (.priv, 0) ∧ quiet withPrivate.me = true ∧ withPrivate.owes 0 = false ∧
        (withPrivate.rd 3).toNat = 1 ∧ withPrivate.form.hasDie 1 = true) ∧
      (Safety.syncFree false [2, 3, 1] user ∧ user.sysMode 0 = false ∧ apState.sysMode 0 = true) := by decide +kernel

/-- A value that a table lists stands in it. -/
theorem tfind_mem {α : Type} (t : Tbl α) (k : Nat) (v : α) (h : tfind t k = some v) : ∃ p ∈ t, p.2 = v := by
  induction t with
  | nil => simp [tfind] at h
  | cons p r ih =>
    simp only [tfind] at h
    split at h
    · exact ⟨p, List.mem_cons_self .., Option.some.inj h⟩
    · obtain ⟨q, hq, e⟩ := ih h
      exact ⟨q, List.mem_cons_of_mem _ hq, e⟩

/-- What a table gives a key stands in it, or is the default. -/
theorem tget_mem {α : Type} (t : Tbl α) (k : Nat) (d : α) : tget t k d = d ∨ ∃ p ∈ t, p.2 = tget t k d := by
  induction t with
  | nil => exact .inl rfl
  | cons p r ih =>
    simp only [tget]
    split
    · exact .inr ⟨p, List.mem_cons_self .., rfl⟩
    · exact ih.imp id fun ⟨q, hq, e⟩ => ⟨q, List.mem_cons_of_mem _ hq, e⟩

/-- A walk of StreamUnitsMove over whose run no sink has elements to write: no stream of the part is a memory sink. -/
theorem wit_streamUnitsMove_settled : Safety.settled (asSide 0 .ap filling) 0 0x10000000 512 := by
  intro q _ c n st h _ p hp
  obtain ⟨x, hx, rfl⟩ := tfind_mem _ _ _ h
  have hk : ∀ k ∈ filling.cores, ∀ p ∈ k.2.streams, opKind p.2.openw ≠ 8 := by decide
  have hs : opKind x.2.openw ≠ 8 := by
    rcases tget_mem filling.cores c Core.reset with e | ⟨k, hk', e⟩
    · have hx' : x ∈ (tget filling.cores c Core.reset).streams := hx
      rw [e] at hx'
      cases hx'
    · have hx' : x ∈ (tget filling.cores c Core.reset).streams := hx
      rw [← e] at hx'
      exact hk k hk' x hx'
  unfold undrained at hp
  split at hp
  · rw [if_neg (fun y => hs y.1)] at hp
    cases hp
  · cases hp

/-- States meet the premises of StreamUnitsMove: a walk with a run to fetch, a reserved run, a drainer with a piece, a full slot. -/
theorem wit_streamUnitsMove :
    (filling.live 0 = true ∧ filling.cur.link = none ∧ filling.bridge.reads = [] ∧ (tfind (filling.core 0).streams 0).isSome = true ∧
        checkRange (asSide 0 .ap filling) 0 0x10000000 512 .load = none ∧ checkRange (asSide 0 .ap filling) 0 0x20000000 512 .load ≠ none ∧
        (tfind (filling.core 0).streams 0).any (fun st => st.slds == [] && opKind st.openw == 0 && st.fill == .run &&
          decide (st.head + shLen st.shape ≤ st.low + opRb st.openw)) = true) ∧
      (draining.live 0 = true ∧ checkRange (asSide 0 .ap draining) 0 0x10000000 64 .store = none ∧
        (tfind (draining.core 0).streams 0).any (fun st => opKind st.openw == 8 && st.early == [] && st.fill == .run && !st.closed &&
          (tfind st.readers 0).any (fun r => decide (64 ≤ st.head - r.rdpos)) && decide (64 ≤ shLen st.shape - st.walkOfs)) = true) ∧
      (pairedSlot.live 0 = true ∧
        (tfind (pairedSlot.core 0).streams 0).any (fun st => opKind st.openw == 9 && !st.closed && st.err == 0 && opPeer st.openw == 1 &&
          opPeerPort st.openw == 3 && (tfind st.readers 0).any (fun r => r.rdpos != st.head && (st.slot (st.slotOf r.rdpos)).full) &&
          (tfind (pairedSlot.core 1).streams 3).any (fun t => opKind t.openw == 1 && opPeer t.openw == 0 && opPeerPort t.openw == 0 &&
            !t.fin && opSlot t.openw == opSlot st.openw && decide (opSlot st.openw ≤ opRb t.openw) &&
            decide (t.head + opSlot st.openw ≤ t.low + opRb t.openw))) = true) := by decide +kernel

/-- States meet the premises of RingHeadsAwaitAndFence: heads in WAIT, a QFENCE and both SEMA records. -/
theorem wit_ringHeadsAwaitAndFence :
    (∀ k ∈ [0, 1, 2, 3], (waiting k).live 0 = true ∧ ((waiting k).core 0 |>.ring 0).st = .wait ∧
        (((waiting k).core 0 |>.ring 0).head.map (fun e => rkAwaitKind e.bytes)) = some k) ∧
      Safety.chunkDue 0 0 10 0 (withRec 10).1 (withRec 10).2 := by decide +kernel

/-- States meet the premises of RecordsMoveBytes: a record of each kind in a ring of a running heat, its spans mapped. -/
theorem wit_recordsMoveBytes :
    ∀ k ∈ [1, 2, 3, 4, 6], Safety.chunkDue 0 0 k 0 (withRec k).1 (withRec k).2 ∧
      spanFault (withRec k).2 0 0x10000000 64 .store = none ∧ spanFault (withRec k).2 0 0x10001000 64 .load = none ∧
      firstPoison 0x10001000 (readPieces 6 0 0x10001000 64 (withRec k).2).2 = none ∧
      Safety.farLines 0 (withRec k).2 ∧ (withRec k).2.ctxOf 0 < 16 := by decide +kernel

/-- A record of the kind whose fields are replaced by some that lie where nothing is mapped. -/
def unmapped (kind : Nat) (l : List (Nat × Nat)) : BitVec 512 × State :=
  let b := rec64 ((0, kind) :: l)
  (b, inRing b .run)

/-- States meet the premises of ChunksStopOnRepairableFaults: records whose destination, source or index lies where nothing is
mapped, a lane's input there, and a NET record whose rows go there. -/
theorem wit_chunksStopOnRepairableFaults :
    (Safety.chunkDue 0 0 1 0 (withRec 1).1 (withRec 1).2 ∧ rkDecode (withRec 1).1 = false ∧
      (spanFault (withRec 1).2 0 0x20000000 64 .store).isSome = true ∧ (withRec 1).2.me.pending.length < 63) ∧
      (let x := unmapped 7 [(0x18, 0x20000000), (0x20, 64)]
       Safety.chunkDue 0 0 7 0 x.1 x.2 ∧ (spanFault (asSide 0 .ap x.2) 0 0x20000000 64 .load).isSome = true ∧
        laneTurn (asSide 0 .ap x.2) 0 0 0 = true) ∧
      (let x := unmapped 4 [(0x10, 0x10001000), (0x18, 0x10000000), (0x20, 0x20000000), (0x28, 1), (0x2C, 64)]
       Safety.chunkDue 0 0 4 0 x.1 x.2 ∧ (readIdx 0 0x20000000 (asSide 0 .ap x.2)).2.isOk = false) ∧
      (let x := unmapped 5 [(0x10, 0x20000000), (0x18, 0x10001000), (0x28, 1), (0x2D, 3)]
       Safety.chunkDue 0 0 5 0 x.1 x.2 ∧ (spanFault x.2 0 0x20000000 4 .store).isSome = true) ∧
      (let s := (withLane (some 0)).2.modLane 0 (fun y => { y with run := y.run.map (fun z => { z with src := 0x20000000, copy := .input, len := 4 }) })
       Safety.chunkDue 0 0 8 0 (withLane none).1 s ∧ (laneStream s 0 2 0).map (fun p => p.2.holder) = some (some (0, 0)) ∧
        (s.lane 0).run.any (fun y => (inputFault (asSide 0 .ap s) 0 y 0 4).isSome) = true) ∧
      (let x := withNet (some ⟨0, 0, [], []⟩)
       let s := x.2.modRing 0 0 (fun g => { g with desc := some (layout 256 [(0x30, natBytes 8 0x20000000), (0x44, natBytes 2 1)]) })
       Safety.chunkDue 0 0 9 0 x.1 s ∧ 0 < recFld x.1 0x1C 4 ∧ (s.die 0).net = some ⟨0, 0, [], []⟩) := by decide +kernel

/-- States meet the premises of RecordsAccumulate: a record of each operation, its spans mapped, and an element. -/
theorem wit_recordsAccumulate :
    (∀ op ∈ [0, 1, 2, 3, 4, 5, 6, 7, 8, 9, 10, 11, 12], Safety.chunkDue 0 0 5 0 (withAccw op).1 (withAccw op).2 ∧
        recFld (withAccw op).1 0x2C 1 = op) ∧
      ((withAccw 0).2.place 0 0x10000000).isSome = true ∧ (withAccw 0).2.cur.link = none := by decide +kernel

/-- States meet the premises of LanesRunAndDecode: a load, a run to start, a run with a step to make, a quiet one, a unit. -/
theorem wit_lanesRunAndDecode :
    (Safety.chunkDue 0 0 7 0 (withRec 7).1 (withRec 7).2 ∧ laneTurn (withRec 7).2 0 0 0 = true) ∧
      (Safety.chunkDue 0 0 8 0 (withLane none).1 (withLane none).2 ∧ laneTurn (withLane none).2 0 0 0 = true ∧
        (laneStream (withLane none).2 0 2 0).isSome = true) ∧
      (((withLane (some 0)).2.lane 0).run.isSome = true ∧ (withLane (some 0)).2.live 0 = true ∧
        (laneStream (withLane (some 0)).2 0 2 0).map (fun p => p.2.holder) = some (some (0, 0))) ∧
      ((((withLane (some 1024)).2.lane 0).run.map (fun y => y.quiet)) = some 1024 ∧ (withLane (some 1024)).2.me.pending = []) ∧
      (Safety.chunkDue 0 0 1 0 withUnit.1 withUnit.2 ∧ rkDecode withUnit.1 = true ∧ unitLane withUnit.2 0 0x10001000 = none) ∧
      (let s := (withUnit.2.modRing 0 0 (fun g => { g with held := true }))
       Safety.chunkDue 0 0 1 0 withUnit.1 { s with pages := [] } ∧ (spanFault { s with pages := [] } 0 0x10000000 4096 .store).isSome = true) ∧
      (∀ x ∈ [LaneCopy.input, .window],
        let s := (withLane (some 0)).2.modLane 0 (fun y =>
          { y with run := y.run.map (fun z => { z with copy := x, len := 4, dist := 2, win := [1, 2] }) })
        (s.lane 0).run.any (fun y => runServed s y) = true ∧ s.cur.link = none ∧ isNext (exec (.laneStep 0) s) = true) := by
  decide +kernel

/-- States meet the premises of NettingAndRemoteLines: a NET record to take, a receiver with no edge, a seat held, lines. -/
theorem wit_nettingAndRemoteLines :
    (Safety.chunkDue 0 0 9 0 (withNet none).1 (withNet none).2 ∧ ((withNet none).2.die 0).net = none ∧
        ((withNet none).2.die 0).netq = []) ∧
      (((withNet (some ⟨0, 0, [], []⟩)).2.die 0).net = some ⟨0, 0, [], []⟩ ∧
        Safety.chunkDue 0 0 9 0 (withNet (some ⟨0, 0, [], []⟩)).1 (withNet (some ⟨0, 0, [], []⟩)).2) ∧
      ((netSeat.crew 0).holder = 4 ∧ ((finishReceivers 0 (netWords 16 0 0 netSeat)).crew 0).holder = 4) ∧
      (((withLines.die 1).line 1 0x400000).isSome = true ∧ (withLines.die 1).invs.contains (1, 0x400000) = true ∧
        withLines.bridgeDown = false) ∧
      (let x := withNetPort none
       Safety.chunkDue 0 0 9 0 x.1 x.2 ∧ (headDesc 0 0 x.1 (asSide 0 .ap x.2)).2.toOption = some netBytes ∧
        (netStream x.2 netBytes).isSome = true ∧ isNext (exec (.net 0 0) x.2) = true) ∧
      (let x := withNetPort (some ⟨0, 0, [⟨0, 1, []⟩], []⟩)
       Safety.chunkDue 0 0 9 0 x.1 x.2 ∧ fieldAt netBytes 0x30 8 = 0 ∧
        isNext (exec (.netReceiverDone 0 0) x.2) = true) := by decide +kernel

/-- A state meets the premise of TakingAFault. -/
theorem wit_takingAFault : apState.cur.core < 192 := by decide +kernel

/-- States meet the premises of FaultTasksStartAndReturn: a delivery with and without an entry, in a fault task that runs and
in one that has stopped, and a return with and without a frame. -/
theorem wit_faultTasksStartAndReturn :
    (∀ e : Bool, (withDelivery e).heatOf 0 ≠ none ∧ ((withDelivery e).core 0).pending.length = 1 ∧
      (withDelivery e).live 0 = true ∧ ((withDelivery e).core 0).ap.frame = none ∧ atBoundary (withDelivery e) 0 .ap = true) ∧
      (∀ r ∈ [Run.run, Run.stopped], ((inFaultTaskWith r).core 0).ap.frame.isSome = true ∧
        ((inFaultTaskWith r).core 0).ap.run = r ∧ ((inFaultTaskWith r).core 0).pending.length = 1) ∧
      (Safety.syncFree false [] inFaultTask ∧ inFaultTask.mySide.frame.isSome = true ∧
        (inFaultTask.mySide.frame.bind (fun f => f.del.stoppedSide)) = some .ap ∧ inFaultTask.me.ldsWaits [1, 2, 3, 4] = false) ∧
      (Safety.syncFree false [] apState ∧ apState.mySide.frame = none) := by decide +kernel

/-- States meet the premises of MustSetsAdmittedAndReleased: a sound declaration within the budget, and a set admitted. -/
theorem wit_mustSetsAdmittedAndReleased :
    (Safety.apFree [2, 1] withDecl ∧ (withDecl.heatOf withDecl.cur.core).isSome = true ∧ withDecl.water.handles = [] ∧
      (withDecl.me.areg 2).bad = false ∧ ((withDecl.me.areg 2).val).toNat % 64 = 0 ∧
      (match readRecord (withDecl.me.areg 2).val 256 withDecl with
        | .ok (u, l) => declOk l && (declSet placeRec l).ranges == [(0x10000000, 4096, 0xFFFF)] &&
            (setCheck u placeRec u.me.spad (declSet placeRec l)).isNone && hasLeader u 0
        | .error _ => false) = true) ∧
      (Safety.apFree [2] withSet ∧ (withSet.me.areg 2).bad = false ∧ hasLeader withSet 0 = true ∧
        (admitted withSet).any (fun m => m.heat == withSet.me.heat && m.handle == ((withSet.me.areg 2).val).toNat) = true) := by
  decide +kernel

/-- A head whose first hint is no page. -/
def badHint : State :=
  { withHead 2 false with heats := [placeHeat, { headHeat 2 4 1 with hr := { (headHeat 2 4 1).hr with hints := [(1, 4096)] } }] }

/-- The header of an image of the heat of `headHeat 2`. -/
def imageHead : List Byte :=
  natBytes 4 0x45564153 ++ natBytes 2 1 ++ natBytes 2 4 ++ natBytes 4 2 ++ natBytes 1 2 ++ List.replicate 59 0 ++ natBytes 1 2 ++ natBytes 1 0 ++
    natBytes 1 2 ++ natBytes 1 2

/-- A resume record at the head of its queue, the header of its image in memory, sections of zeros behind it, no record in its pool. -/
def resumeHead : State :=
  let h := headHeat 2 4 1
  { withHead 2 false with
    heats := [placeHeat, { h with hr := { h.hr with resume := true, image := 0x20000000, part := 0, hints := [] } }]
    mem := memWrite [] (globKey 2 0x20000000) imageHead }

/-- The cells of a section's scratchpad lie in the pool of its core. -/
theorem padCells_own (c : Core) (num : Nat) (l : List Byte) (h : c.padBase + c.spad ≤ 2 ^ 20) :
    ∀ p ∈ padCells c num l, poolKey num 0 ≤ p.1 ∧ p.1 < poolKey (num + 1) 0 := by
  intro p hp
  simp only [padCells, List.mem_map, List.mem_filter] at hp
  obtain ⟨⟨b, i⟩, ⟨hi, _⟩, rfl⟩ := hp
  have := (List.mem_zipIdx hi).2.1
  simp only [spanAt, List.length_take] at this
  simp only [poolKey]
  omega

/-- The image of `resumeHead` as it is read. -/
def resumeImage : Option Image := (heads resumeHead).head?.bind (fun h => imageFor resumeHead h.hr)

/-- A resume record whose image is read meets the premises of HeatsLaunchRestAndComplete. -/
theorem wit_heatsLaunchRestAndComplete_resume :
    ((heads resumeHead).all (fun x => !headAbsent resumeHead x) = true ∧ (heads resumeHead).length = 1 ∧
      (heads resumeHead).all (fun h => launchOrigin resumeHead h == some (2, 0) && led resumeHead h && h.hr.resume && !h.hr.any && h.regions.isEmpty &&
        (admitHints h.hr resumeHead h.hr.hints.zipIdx).isOk && decide (h.hr.image + imageSize h.hr.cores.length ≤ 2 ^ 48)) = true) ∧
      resumeHead.downLink = none ∧ (resumeHead.die 0).rlc = [] ∧ (resumeHead.die 1).rlc = [] ∧ resumeHead.chans = [] ∧
      resumeHead.water.restores = [] ∧ resumeImage.isSome = true := by decide +kernel

/-- What says where a core's pool lies. -/
def partOf (c : Core) : Nat × Nat × Nat := (c.vregsCode, c.acc, c.cont)

theorem setSlot_partOf (c : Core) (e : Eng) (w) : partOf (c.setSlot e w) = partOf c := by
  unfold Core.setSlot; split <;> rfl

theorem setReissued_partOf (c : Core) : partOf (setReissued c) = partOf c := by
  unfold setReissued
  split
  · split
    · exact setSlot_partOf c _ none
    · rfl
  · rfl

theorem foldSlots_partOf (l : List QWord) (c : Core) : partOf (l.foldl (fun c q => c.setSlot q.eng none) c) = partOf c := by
  induction l generalizing c with
  | nil => rfl
  | cons q l ih => rw [List.foldl_cons, ih, setSlot_partOf]

theorem queuesAt_partOf (k : Core) (l : List Byte) (c : Core) : partOf (queuesAt k l c) = partOf c := by
  simp only [queuesAt]
  split
  · exact foldSlots_partOf k.reissued c
  · split
    · exact setReissued_partOf _
    · rfl

theorem holdAt_partOf (k : Core) (l : List Byte) (c : Core) : (holdAt k l c).pool = c.pool ∧ partOf (holdAt k l c) = partOf c := by
  unfold holdAt; split <;> exact ⟨rfl, rfl⟩

/-- A section of a record of an empty PART, read with no part kept: it has no continuation record, and its cells lie in its
core's pool. -/
theorem sectionAt_bare (before : Addr → Nat) (hr : HeatRec) (num : Nat) (l : List Byte) (hp : hr.part = 0) :
    (sectionAt none before hr num l).core.pool = [] ∧ (sectionAt none before hr num l).num = num ∧
      ∀ p ∈ (sectionAt none before hr num l).pool, poolKey num 0 ≤ p.1 ∧ p.1 < poolKey (num + 1) 0 := by
  simp only [sectionAt]
  rw [if_neg (by simp)]
  generalize hk : (⟨num, { Core.reset with ap := { SideSt.reset with run := .run }, xp := { SideSt.reset with run := .run } }, 0, 7, 0, 7, [], []⟩ : ImageCore) = i
  simp only [Option.getD_none]
  generalize hq : queuesAt i.core l { registersAt i.core l with vregsCode := nfld hr.part 0 2, acc := nfld hr.part 2 5, cont := nfld hr.part 7 4 } = q
  have hs : partOf q = (0, 0, 0) := by
    rw [← hq, queuesAt_partOf]; simp [partOf, hp, nfld]
  have hc : q.cont = 0 := congrArg (fun x => x.2.2) hs
  have hh := holdAt_partOf i.core l (poolAt i.core before l q)
  refine ⟨?_, trivial, padCells_own _ _ _ ?_⟩
  · rw [hh.1]; simp [poolAt, hc]
  · have h2 : partOf (holdAt i.core l (poolAt i.core before l q)) = (0, 0, 0) := by rw [hh.2]; exact hs
    simp only [partOf, Prod.mk.injEq] at h2
    simp [Core.spad, Core.padBase, Core.nv, h2.1, h2.2.1, h2.2.2]

/-- Its cores have no record in their pools, and their pools lie in their own keys. -/
theorem wit_heatsLaunchRestAndComplete_pools (m : Image) (h : resumeImage = some m) :
    (∀ i ∈ m.cores, ∀ r ∈ i.core.pool, r.2.resume.toNat ≤ 2 ^ 48) ∧
      ∀ i ∈ m.cores, ∀ p ∈ i.pool, poolKey i.num 0 ≤ p.1 ∧ p.1 < poolKey (i.num + 1) 0 := by
  obtain ⟨x, hx, h⟩ := Option.bind_eq_some_iff.1 h
  have hp : x.hr.part = 0 := by
    have : (heads resumeHead).all (fun h => h.hr.part == 0) = true := by decide +kernel
    have := List.all_eq_true.1 this x (List.mem_of_mem_head? hx)
    simpa using this
  have hn : keptImage resumeHead x.hr = none := rfl
  simp only [imageFor, hn] at h
  split at h
  · cases h
  · cases h
    have key : ∀ i ∈ x.hr.cores.zipIdx.map (fun p =>
        sectionAt none (fun (a : Addr) => bytesNat (coxRead resumeHead x.hr.ctx (a.toNat - 4) 4)) x.hr p.1
          (coxRead resumeHead x.hr.ctx (x.hr.image + 4096 + p.2 * sectionSize) sectionSize)),
        i.core.pool = [] ∧ ∀ p ∈ i.pool, poolKey i.num 0 ≤ p.1 ∧ p.1 < poolKey (i.num + 1) 0 := by
      intro i hi
      obtain ⟨p, _, rfl⟩ := List.mem_map.1 hi
      obtain ⟨h1, h2, h3⟩ := sectionAt_bare (fun (a : Addr) => bytesNat (coxRead resumeHead x.hr.ctx (a.toNat - 4) 4)) x.hr p.1 (coxRead resumeHead x.hr.ctx (x.hr.image + 4096 + p.2 * sectionSize) sectionSize) hp
      rw [h2]
      exact ⟨h1, h3⟩
    exact ⟨fun i hi r hr => (by rw [(key i hi).1] at hr; cases hr), fun i hi => (key i hi).2⟩

/-- States meet the premises of HeatsLaunchRestAndComplete: a head on an absent die, one that launches, one that pre-empts, a
heat being saved, one with nothing left and one that is quiet. -/
theorem wit_heatsLaunchRestAndComplete :
    (isReady (withHead 2 false) = true ∧ hasLeader (withHead 2 false) 0 = true ∧
        ((heads (absentHead)).find? (headAbsent absentHead)).isSome = true) ∧
      ((heads (withHead 2 false)).all (fun x => !headAbsent (withHead 2 false) x) = true ∧
        (heads (withHead 2 false)).length = 1 ∧ (heads (withHead 2 false)).all (fun h =>
          launchOrigin (withHead 2 false) h == some (2, 0) && led (withHead 2 false) h && !h.hr.resume && h.hr.hints.all (fun b => b.2 == 0)) = true) ∧
      (heads badHint).all (fun h => launchOrigin badHint h == some (2, 0) && led badHint h && !(admitHints h.hr badHint h.hr.hints.zipIdx).isOk) = true ∧
      (bestOf senior ((heads (withHead 0 true)).filter (preempts (withHead 0 true)))).isSome = true ∧
      ((heatIn .saving).heatNo 1).any (fun h => h.st == .saving && !awaitsLost (heatIn .saving) h && h.hr.dies.any (hasLeader (heatIn .saving))) = true ∧
      (heatIn .saving).downLink = none ∧
      ((heatIn .running).heatNo 1).any (fun h => h.hr.dies.any (hasLeader (heatIn .running)) &&
        h.hr.cores.all (fun c => coreDone ((heatIn .running).core c)) && !awaitsLost (heatIn .running) h) = true ∧
      (quietHeat.heatNo 1).any (fun h => h.hr.dies.all (coxUp quietHeat) && !h.stalled &&
        decide (h.active + 10000 * 1000 ≤ (quietHeat.die 0).tb.toNat)) = true := by decide +kernel

/-- States meet the premises of IntakeAcceptsCommitsAndLaunches: a disabled channel, an enabled one with room, without room and
being shed, an accepted record whose raise reaches its core and one whose raise is held, and launch records. -/
theorem wit_intakeAcceptsCommitsAndLaunches :
    (isReady (withChan false none) = true ∧ (withChan false none).bridgeDown = false ∧ ((withChan false none).chan 3).conf.enable = false) ∧
      (((withChan true none).chan 3).conf.enable = true ∧ takenBytes ((withChan true none).chan 3) dataHdr = 64 ∧
        hdrBad ((withChan true none).chan 3) dataHdr = false ∧ hdrBad ((withChan true none).chan 3) badHdr = true ∧
        (endShedding (acquireRps (withChan true none))).shed = none ∧
        (endShedding (acquireRps shedChan)).shed = some 3) ∧
      (((withChan true (some 0)).chan 3).data.length = 1 ∧ raiseReaches (withChan true (some 0)) 1 0 = true ∧
        ((withChan true (some 50)).chan 3).data.length = 1 ∧ raiseReaches (withChan true (some 50)) 1 50 = false) ∧
      ((launchChan 1).chan 3).launches.length = 1 ∧ ((launchChan 2).chan 3).launches.length = 1 := by decide +kernel

/-- States meet the premises of LinksErrorsAndLeases: links in service and failed, with reads and writes lost, repairs
authorised, and coxes about to renew, to lapse, to take over and to reload. -/
theorem wit_linksErrorsAndLeases :
    (apState.form.hasDie 1 = true ∧ firmwareUp apState = true ∧ apState.bridge.failed = [] ∧
      apState.water.preauth.getLsbD 0 = false) ∧
      (firmwareUp lostLink = true ∧ lostLink.bridge.failed = [8] ∧ lostLink.water.preauth.getLsbD 0 = true ∧
        lostLink.water.preauth.getLsbD 1 = true ∧ tget lostLink.bridge.spares 8 0 = 0 ∧ lostLink.bridge.reads = []) ∧
      keyHere apState (globKey 1 0x10000000) = true ∧
      ((lostReads.bridge.reads[0]?).any (fun r => r.who == .ap 0 0x10000000) = true ∧
        (lostReads.bridge.reads[1]?).any (fun r => r.who == .lds 0 3) = true ∧ (lostReads.heatOf 0).isSome = true ∧
        afterQuiesce lostReads = false ∧ (lostReads.core 0).lds.any (fun w => w.d == 3) = true ∧
        (lostReads.bridge.writes[0]?).any (fun w => w.cores == [0]) = true ∧ (lostReads.core 0).heat ≠ 0) ∧
      (leaderOf (withCoxes true 1000000) = some 0 ∧ (withCoxes true 1000000).coxB.up = true) ∧
      (leaderOf (withCoxes true 3000000) = some 0 ∧ taker (withCoxes true 4000000) = some 1) ∧
      (leaderOf (withCoxes false 1000000) = some 0 ∧ (withCoxes false 1000000).coxB.up = false) := by decide +kernel

/-- States meet the premises of WaterIsHeldAndPowerReturns: a part in service, one that quiesces with a set and with none, one
that saves, with and without a drill limit, one that is off, and one whose firmware has started. -/
theorem wit_waterIsHeldAndPowerReturns :
    (supplyGone apState = false ∧ supplyGone (inPower .off []) = true) ∧
      ((inPower .quiesce []).water.power = .quiesce ∧ saveOrder (admitted (inPower .quiesce [])) = []) ∧
      (saveOrder (admitted (inPower .quiesce [smallSet])) ≠ [] ∧ (inPower .quiesce [smallSet]).water.awaiting = false ∧
        (inPower .quiesce [smallSet]).bridge.reads = [] ∧ (inPower .quiesce [smallSet]).bridge.writes = []) ∧
      ((inPower .saving [smallSet]).water.power = .saving ∧ (inPower .saving [smallSet]).water.left = [smallSet] ∧
        (inPower .saving [smallSet]).bridgeDown = false ∧ (inPower .saving [smallSet]).water.drill = none ∧
        (drilled 4096).water.drill = some 4096 ∧ drillRoom (drilled 4096).water smallSet.charge ≠ smallSet.charge ∧
        (drilled 4096).water.left = [smallSet]) ∧
      (inPower .off []).water.power = .off ∧ (inPower .firmware []).water.power = .firmware ∧
      (firmwareUp (inPower .firmware []) = true ∧ (inPower .firmware []).water.life.log = []) := by decide +kernel

/-- States meet the premises of HostPortsReadAndWrite: ports closed, ports open with a slot idle and one pending, WEL set, and
a window on a mapped page. -/
theorem wit_hostPortsReadAndWrite :
    (portsOpen (inPower .off []) = false ∧ portsOpen apState = true ∧ (apState.slot 0).st = .idle ∧
      (pendSlot.slot 1).st = .pend ∧ portsOpen pendSlot = true) ∧
      (welSet.host.wel = true ∧ portsOpen welSet = true) ∧
      (winOn.bridgeDown = false ∧ isReady winOn = true ∧
        (winOn.page winOn.host.winCtx (winOn.host.winBase / 2 ^ 21 * 2 ^ 21 + 8)).isSome = true ∧
        winOn.page winOn.host.winCtx (winOn.host.winBase / 2 ^ 21 * 2 ^ 21 + 2 ^ 22) = none) := by decide +kernel

/-- States meet the premises of MailboxServesAndSetsContexts: each command asked for, a repeated one, one before READY, an
unknown one, and contexts with and without heats. -/
theorem wit_mailboxServesAndSetsContexts :
    (∀ c ∈ [0x10, 0x11, 0x12, 0x13, 0x14, 0x32], Safety.asked 0 c (mail c)) ∧
      ((mailAgain 0x32).slot 0).seq = ((mailAgain 0x32).slot 0).doneSeq ∧ (mailAgain 0x32).host.rung.head? = some 0 ∧
      (isReady mailEarly = false ∧ portsOpen mailEarly = true ∧ mailServed mailEarly = true ∧ nextSlot mailEarly = some 0) ∧
      (cmdCodes.contains ((mail 0x77).slot 0).cmd.toNat = false ∧ nextSlot (mail 0x77) = some 0 ∧ mailServed (mail 0x77) = true) ∧
      (ctxPresent (mail 0x10) 1 = true ∧ ctxPresent (mail 0x10) 2 = false ∧ ctxRuns (mail 0x13) 1 = true ∧ ctxRuns (mail 0x13) 2 = false) ∧
      mapOk (mail 0x11) 2 ⟨2 ^ 21, 2 ^ 21, 2 ^ 21, true, true⟩ = true ∧
      (argsFit ((mail 0x30).slot 0) = false ∧ nextSlot (mail 0x30) = some 0) ∧
      windowsOk (mail 0x10) 2 smallCfg = true ∧ lanesOk (mail 0x10) 2 smallCfg.lanes = true ∧ quotaOk smallCfg.quota = true ∧
      intakeOk smallChan = true := by decide +kernel

/-- Slot 0 asks for the launch of a sound record. -/
def launchMail : State := { mailArgs 0x20 freshRecord with nextNum := 9 }

/-- States meet the premises of MailboxLaunchesAndHeldHeats: a launch asked for with a sound record and with a bad one, a
record of firmware, and heats running, stopped and unknown. -/
theorem wit_mailboxLaunchesAndHeldHeats :
    (Safety.asked 0 0x20 launchMail ∧ Safety.argsAre 0 freshRecord launchMail ∧
      unfinished launchMail launchMail.nextNum = false ∧ launchMail.again = [] ∧
      recordFault launchMail freshRecord (launchMail.ctx 2).regions false = none ∧
      (heatRecOf freshRecord).resume = false ∧ (heatRecOf freshRecord).ctx = 2 ∧
      recordFault launchMail (List.replicate 128 0) [] false = some .illegal) ∧
      (∀ c ∈ [0x21, 0x22, 0x23], Safety.asked 0 c (mail c)) ∧ ((mail 0x21).heatNo 1).isSome = true ∧ (mail 0x21).heatNo 9 = none ∧
      ((stoppedMail 0x22).heatNo 1).any (fun h => h.st == .stopped && !h.bridge) = true ∧ Safety.asked 0 0x22 (stoppedMail 0x22) ∧
      ((stoppedMail 0x22).core 0).ap.run = .stopped ∧ ((stoppedMail 0x22).core 0).ap.frame = none := by decide +kernel

/-- States meet the premises of MailboxMeasuresAndOwners: each command asked for, FW_LOAD in boot ROM and in service, an owned
and an unowned part, and a token asked for with and without a heat present. -/
theorem wit_mailboxMeasuresAndOwners :
    (portsOpen romMail = true ∧ (romMail.slot 0).cmd = 0x01 ∧ (romMail.slot 0).seq ≠ (romMail.slot 0).doneSeq ∧
      romMail.water.power = .rom ∧ 0 ∈ romMail.host.rung) ∧
      (isReady (mail 1) = true ∧ hasLeader (mail 1) 0 = true ∧ (mail 1).host.rung.head? = some 0) ∧
      Safety.asked 0 2 (mail 2) ∧ Safety.asked 0 3 (mail 3) ∧
      (Safety.asked 0 4 (mailArgs 4 (bvBytes 32 7#256)) ∧ Safety.argsAre 0 ([7#256].flatMap (bvBytes 32)) (mailArgs 4 (bvBytes 32 7#256)) ∧
        (mailArgs 4 (bvBytes 32 7#256)).water.owners = []) ∧
      (Safety.asked 0 5 (mail 5) ∧ Safety.argsAre 0 [] (mail 5) ∧ (mail 5).heats.any (fun h => h.st != .complete) = true) ∧
      (Safety.asked 0 6 (noHeat (mail 6)) ∧ (noHeat (mail 6)).heats = [] ∧ (noHeat (mail 6)).water.awaiting = false ∧
        tokenOk (noHeat (mail 6)) 0x56434552 [] = false) := by decide +kernel

/-- States meet the premises of MailboxSavesRepairsAndRecords: each command asked for, a directory with a whole set of one
global range, a save that awaits release and none. -/
theorem wit_mailboxSavesRepairsAndRecords :
    (Safety.asked 0 0x30 (mailArgs 0x30 (natBytes 4 0)) ∧ Safety.argsAre 0 (natBytes 4 0) (mailArgs 0x30 (natBytes 4 0))) ∧
      (Safety.asked 0 0x31 (savedMail 0x31) ∧ (savedMail 0x31).water.awaiting = true ∧
        ((savedMail 0x31).water.dir.find? (fun d => d.set.setid == 7 && d.set.ctx == 1)).any (fun d =>
          d.st == .whole && !d.set.st && d.set.ranges == [(0x10000000, 4096, 0xFFFF)]) = true ∧
        rangeWritable (savedMail 0x31) 1 0x10000000 4096 = true ∧ ctxRuns (savedMail 0x31) 1 = true ∧
        ctxRuns { savedMail 0x31 with heats := [] } 1 = false ∧ (savedMail 0x31).bridgeDown = false) ∧
      (∀ c ∈ [0x32, 0x33, 0x40, 0x41, 0x42], Safety.asked 0 c (mail c)) ∧ Safety.asked 0 0x32 (savedMail 0x32) ∧
      (mail 0x33).water.owners = [] ∧ (mail 0x42).bridge.failed = [] ∧ (mail 0x42).form.hasDie 1 = true := by decide +kernel

/-- States meet the premises of RegisterWordsKeepTheRest: words of the AP and of the XP that answer a next state. -/
theorem wit_registerWordsKeepTheRest :
    (apState.cur.eng = none ∧ apState.cur.side = .ap ∧ isNext (exec (.add 1 2 3) apState) = true) ∧
      ((withX []).cur.eng = none ∧ (withX []).cur.side = .xp ∧ isNext (exec (.xpAdd 1 2 3) (withX [])) = true) := by decide +kernel

/-- States meet the premises of WordsAndRecordsKeepTheRest: loads and stores at a line no die holds back, a queued, a SYNC and a stream
word, a chunk, a filler, a drainer and a slot transfer that answer a next state. -/
theorem wit_wordsAndRecordsKeepTheRest :
    (storing.cur.eng = none ∧ storing.cur.side = .ap ∧ storing.cur.lost = false ∧ (storing.die 0).rlc = [] ∧ (storing.die 0).invs = [] ∧ (storing.die 1).rlc = [] ∧
        (storing.die 1).invs = [] ∧ storing.ctxOf 0 < 16 ∧ Safety.placed (.glob 1 0x10000080) = true ∧
        Safety.apart (.glob 1 0x10000040) (.glob 1 0x10000080) ∧
        (∀ x ∈ [Instr.ld false false 3 1 2 0, .lds false 3 1 2 0, .ldAcq 3 1 2 false 4, .st 3 3 2 0, .stRel 3 3 2 4, .fence 3,
          .smark 0], isNext (exec x storing) = true) ∧
        (checkAccess storing 0 0x10000040 8 .store).toOption = some (.glob 1 0x10000040)) ∧
      (isQueued (Instr.vadd 10 2 3 false false).unit = true ∧ vecI8.cur.eng.isSome = true ∧ vecI8.cur.side = .xp ∧
        isNext (exec (.vadd 10 2 3 false false) vecI8) = true) ∧
      (rkRaiseKind (headBytes (((withRec 1).2.core 0).ring 0)) ≠ 2 ∧ rkDevrel (headBytes (((withRec 1).2.core 0).ring 0)) = false ∧
        (withRec 1).2.cur.link = none ∧ (withRec 1).2.ctxOf 0 < 16 ∧ isNext (exec (.copy 0 0 0) (withRec 1).2) = true) ∧
      ((tfind (filling.core 0).streams 0).isSome = true ∧ isNext (exec (.fillerCommit 0 0) filling) = true ∧
        (tfind (draining.core 0).streams 0).isSome = true ∧ isNext (exec (.drainerWrite 0 0 64) draining) = true ∧
        draining.cur.link = none ∧ draining.ctxOf 0 < 16 ∧
        (tfind (pairedSlot.core 0).streams 0).isSome = true ∧ isNext (exec (.coreSlotTransfer 0 0) pairedSlot) = true) ∧
      (let s := (State.reset.withFetchWord 32 0x008C4700).modDie 1 (fun d => { d with rlc := (withLines.die 1).rlc })
       (s.die 1).rlc.isEmpty = false ∧ Safety.farLines 0 s ∧ Safety.farLines 1 s ∧ isNext (step s) = true) := by decide +kernel

end Sys2Proof.Tests
end

namespace Sys2Proof.Machine

/-! ### Memory reads what was written (O8) -/

/-- Writing a list of bytes puts each byte at its key and leaves every other key. -/
theorem memGet_memWrite (m : List Host.Cell) (a : Nat) (l : List Byte) (j : Nat) :
    memGet (memWrite m a l) j = if h : a ≤ j ∧ j < a + l.length then l[j - a]'(by omega) else memGet m j := by
  induction l generalizing m a with
  | nil => rw [dif_neg (by simp)]; rfl
  | cons b r ih =>
    rw [memWrite, ih, memGet_memSet]
    rcases Nat.lt_trichotomy j a with hj | rfl | hj
    · rw [dif_neg (by omega), if_neg (by omega), dif_neg (by omega)]
    · simp
    · have hr : (a + 1 ≤ j ∧ j < a + 1 + r.length) ↔ (a ≤ j ∧ j < a + (b :: r).length) := by
        rw [List.length_cons]; omega
      obtain ⟨k, rfl⟩ : ∃ k, j = a + 1 + k := ⟨j - (a + 1), by omega⟩
      simp only [hr]
      split
      · simp [show a + 1 + k - a = k + 1 by omega]
      · rw [if_neg (by omega)]

/-- A canonical memory lists exactly the nonzero bytes it reads. -/
theorem mem_iff_memGet (m : List Host.Cell) (h : Memory.wf m = true) (a : Nat) (v : Byte) :
    (a, v) ∈ m ↔ v ≠ 0 ∧ memGet m a = v := by
  rw [wf_iff] at h
  induction m with
  | nil => simpa [memGet] using fun hv => Ne.symm hv
  | cons q r ih =>
    obtain ⟨⟨hlt, hr⟩, hq, hnz⟩ := And.imp List.pairwise_cons.1 List.forall_mem_cons.1 h
    rw [List.mem_cons, ih ⟨hr, hnz⟩, memGet]
    by_cases e : q.1 = a
    · have hz : (a, v) ∉ r := fun hm => absurd (hlt _ hm) (by simp [e])
      rw [if_pos e, or_iff_left (mt (ih ⟨hr, hnz⟩).2 hz)]
      constructor
      · intro hv; rw [← hv] at hq ⊢; exact ⟨hq, rfl⟩
      · rintro ⟨-, rfl⟩; rw [← e]
    · rw [if_neg e, or_iff_right fun hc => e (by rw [← hc])]

/-- Canonical memories that read alike are equal lists. -/
theorem wf_ext (m m' : List Host.Cell) (h : Memory.wf m = true) (h' : Memory.wf m' = true)
    (hr : ∀ j, memGet m j = memGet m' j) : m = m' := by
  have hirr : Std.Irrefl fun p q : Host.Cell => p.1 < q.1 := ⟨fun _ => Nat.lt_irrefl _⟩
  refine ((wf_iff m).1 h).1.eq_of_mem_iff ((wf_iff m').1 h').1 fun ⟨a, v⟩ => ?_
  rw [mem_iff_memGet m h, mem_iff_memGet m' h', hr]

end Sys2Proof.Machine

namespace Sys2Proof

open Sys2Proof.Machine

/-- Settles O8: what a write puts and leaves, that it keeps the canonical form, and that reads determine this form. -/
theorem memoryReadsWhatWasWritten : Obligations.MemoryReadsWhatWasWritten := fun m a l =>
  ⟨memGet_memWrite m a l, memWrite_wf m a l, wf_ext m⟩

end Sys2Proof

namespace Sys2Proof.Machine

/-! ### Every step keeps memory canonical (O7)

One fact for each function of the model, in the order of its files: `f_mem`, for `simp`, where f leaves memory as it is, and `f_wf`
where f writes memory and keeps it canonical. What an instruction, a turn and the step do is put together from these. -/

/-- A fold of updates that leave memory leaves it. -/
theorem fold_mem {α : Type} (l : List α) (f : State → α → State) (s : State) (hf : ∀ s x, (f s x).mem = s.mem) :
    (l.foldl f s).mem = s.mem := by
  induction l generalizing s with
  | nil => rfl
  | cons x r ih => rw [List.foldl_cons, ih, hf]

@[simp] theorem ite_mem (c : Prop) [Decidable c] (s t : State) : (if c then s else t).mem = if c then s.mem else t.mem :=
  apply_ite ..

/-- A state drawn from a pair whose state is canonical. -/
theorem fst_wf {α : Type} {x : State × α} {t : State} {a : α} (e : x = (t, a)) (h : Memory.wf x.1.mem = true) :
    Memory.wf t.mem = true := by
  subst e; exact h

/-- A state drawn from a check whose outcome, settled, is canonical. -/
theorem ok_wf {r : Except Trap State} {s t : State} (e : r = .ok t) (h : Memory.wf (settle r s).mem = true) :
    Memory.wf t.mem = true := by
  subst e; exact h

/-- Which state a trap is taken in does not matter, as long as it is canonical. -/
theorem settle_wf {r : Except Trap State} {s t : State} (h : Memory.wf s.mem = true)
    (ht : Memory.wf (settle r t).mem = true) :
    Memory.wf (settle r s).mem = true := by
  cases r with
  | error e => exact h
  | ok u => exact ht

/-! ### Access to the state: what leaves memory, and what keeps it canonical -/

@[simp] theorem State.put_mem (s : State) (n : Nat) (v : Addr) : (State.put s n v).mem = s.mem := rfl

/-! ### Faults: what leaves memory, and what keeps it canonical -/

@[simp] theorem postDelivery_mem (c : Nat) (d : Delivery) (s : State) : (postDelivery c d s).mem = s.mem := rfl

@[simp] theorem freeNat_mem (s : State) : (freeNat s).1.mem = s.mem := rfl

@[simp] theorem pushEvent_mem (e : Event) (s : State) : (pushEvent e s).mem = s.mem := by
  unfold pushEvent
  dsimp only
  (repeat' split) <;> simp

@[simp] theorem eventNow_mem (kind ctx number code : Nat) (data : Option Nat) (s : State) :
    (eventNow kind ctx number code data s).1.mem = s.mem := by
  unfold eventNow
  dsimp only
  (repeat' split) <;> simp

@[simp] theorem postEvent_mem (kind ctx number code : Nat) (data : Option Nat) (s : State) :
    (postEvent kind ctx number code data s).mem = s.mem := by
  simp [postEvent]

@[simp] theorem plainEvent_mem (kind : Nat) (data : Option Nat) (s : State) : (plainEvent kind data s).1.mem = s.mem := by
  simp [plainEvent]

@[simp] theorem postPlain_mem (kind : Nat) (data : Option Nat) (s : State) : (postPlain kind data s).mem = s.mem := by
  simp [postPlain]

@[simp] theorem stopHeat_mem (n c : Nat) (s : State) : (stopHeat n c s).mem = s.mem := by
  simp [stopHeat]

@[simp] theorem startFaultTask_mem (c : Nat) (sd : Side) (entry : Addr) (d : Delivery) (s : State) :
    (startFaultTask c sd entry d s).mem = s.mem := rfl

@[simp] theorem continueSide_mem (c : Nat) (sd : Side) (d : Delivery) (s : State) :
    (continueSide c sd d s).mem = s.mem := rfl

@[simp] theorem restoreFrame_mem (c : Nat) (sd : Side) (f : Frame) (s : State) : (restoreFrame c sd f s).mem = s.mem := by
  unfold restoreFrame
  (repeat' split) <;> simp

/-! ### Memory and the caches: what leaves memory, and what keeps it canonical -/

theorem evictLines_wf (fuel die : Nat) (s : State) (h : Memory.wf s.mem = true) :
    Memory.wf (evictLines fuel die s).mem = true := by
  induction fuel generalizing s with
  | zero => exact h
  | succ f ih =>
    unfold evictLines
    dsimp only
    split
    · exact h
    · split
      · exact ih _ (writeBack_wf _ _ _ h)
      · exact h

theorem emptyLines_wf (die : Nat) (gone : Nat → Bool) (s : State) (h : Memory.wf s.mem = true) :
    Memory.wf (emptyLines die gone s).mem = true :=
  fold_wf _ _ _ (fun _ _ => writeBack_wf _ _ _) h

theorem settleLines_wf (die ctx : Nat) (s : State) (h : Memory.wf s.mem = true) :
    Memory.wf (settleLines die ctx s).mem = true := by
  unfold settleLines
  exact fold_wf _ _ _ (fun _ _ h => h) (fold_wf _ _ _ (fun _ _ => writeBack_wf _ _ _) h)

@[simp] theorem dropReads_mem (gone : LostReader → Bool) (s : State) : (dropReads gone s).mem = s.mem := rfl

theorem overLink_wf (who : LostReader) (f : State → State) (s : State) (h : Memory.wf s.mem = true)
    (hf : Memory.wf (f s).mem = true) : Memory.wf (overLink who f s).mem = true := by
  unfold overLink
  split
  · exact h
  · dsimp only
    split
    · exact h
    · exact hf

/-! ### What words share: what leaves memory, and what keeps it canonical -/

@[simp] theorem moveOn_mem (len : Nat) (s : State) : (moveOn len s).mem = s.mem := rfl

@[simp] theorem finish_mem (s : State) : (finish s).mem = s.mem := rfl

@[simp] theorem branch_mem (t : Addr) (s : State) : (branch t s).mem = s.mem := rfl

theorem openLoop_wf (n : Nat) (o : BitVec 18) (s : State) (h : Memory.wf s.mem = true) :
    Memory.wf (settle (openLoop n o s) s).mem = true := by
  unfold openLoop
  dsimp only
  repeat' split
  all_goals exact h

theorem apWord_wf (regs : List Nat) (body : State → Except Trap State) (s : State) (h : Memory.wf s.mem = true)
    (hb : Memory.wf (settle (body s) s).mem = true) : Memory.wf (apWord regs body s).mem = true := by
  unfold apWord
  split
  · exact h
  · exact hb

theorem xpWord_wf (srcs dsts : List Nat) (body : State → Except Trap State) (s : State) (h : Memory.wf s.mem = true)
    (hb : Memory.wf (settle (body s) s).mem = true) : Memory.wf (xpWord srcs dsts body s).mem = true := by
  unfold xpWord
  split
  · exact h
  · exact hb

theorem xpChecked_wf (bad : Option Trap) (srcs dsts : List Nat) (body : State → Except Trap State) (s : State)
    (h : Memory.wf s.mem = true) (hb : Memory.wf (settle (body s) s).mem = true) :
    Memory.wf (xpChecked bad srcs dsts body s).mem = true := by
  cases bad with
  | some t => exact h
  | none => exact xpWord_wf _ _ _ _ h hb

theorem xpFirst_wf (bad : Option Trap) (w : State → State) (s : State) (h : Memory.wf s.mem = true)
    (hw : Memory.wf (w s).mem = true) : Memory.wf (xpFirst bad w s).mem = true := by
  unfold xpFirst
  split
  · exact h
  · exact hw

theorem syncWord_wf (fenced : Bool) (srcs dsts : List Nat) (body : State → Except Trap State) (s : State)
    (h : Memory.wf s.mem = true) (hb : Memory.wf (settle (body s) s).mem = true) :
    Memory.wf (syncWord fenced srcs dsts body s).mem = true := by
  unfold syncWord
  split
  · refine apWord_wf _ _ _ h ?_
    split
    · exact h
    · exact hb
  · split
    · exact h
    · exact xpWord_wf _ _ _ _ h hb

theorem release_wf (flush : State → State) (go : State → Except Trap State) (s : State) (h : Memory.wf s.mem = true)
    (hf : Memory.wf (flush s).mem = true) (hg : Memory.wf (settle (go (flush s)) s).mem = true) :
    Memory.wf (settle (release flush go s) s).mem = true := by
  unfold release
  split
  · exact h
  · split
    · exact hf
    · exact hg

theorem releaseAt_wf (scope : Nat) (s : State) (h : Memory.wf s.mem = true) : Memory.wf (releaseAt scope s).mem = true := by
  unfold releaseAt
  split <;> simp [h, flushDie_wf]

theorem releaseTo_wf (c : Nat) (s : State) (h : Memory.wf s.mem = true) : Memory.wf (releaseTo c s).mem = true := by
  unfold releaseTo
  split <;> simp [h, flushDie_wf]

theorem loadWord_wf (n : Nat) (z : Bool) (d : Nat) (ea : Addr) (sv : Serve) (s : State) (h : Memory.wf s.mem = true) :
    Memory.wf (settle (loadWord n z d ea sv s) s).mem = true := by
  unfold loadWord
  split
  · exact h
  · split
    · exact h
    · split
      · exact h
      · dsimp only
        split <;> exact readPlace_wf _ _ _ _ _ h

theorem storeWord_wf (n : Nat) (v ea : Addr) (scope : Option Nat) (s : State) (h : Memory.wf s.mem = true) :
    Memory.wf (settle (storeWord n v ea scope s) s).mem = true := by
  unfold storeWord
  have hw := fun t p ht => writePlace_wf t.cur.core (dieOf t.cur.core) p (bvBytes n v) false .relaxed t ht
  split
  · exact h
  · next p _ =>
    dsimp only
    split
    · exact h
    · split
      · split
        · exact hw s p h
        · exact release_wf _ _ _ h (releaseAt_wf _ _ h) (hw _ p (releaseAt_wf _ _ h))
      · exact hw s p h

@[simp] theorem deliverFault_mem (c : Nat) (s : State) : (deliverFault c s).mem = s.mem := by
  unfold deliverFault
  dsimp only
  (repeat' split) <;> simp

/-! ### Fetching and the clock: what leaves memory, and what keeps it canonical -/

@[simp] theorem raiseB_mem (lo : Int) (s : State) : (raiseB lo s).mem = s.mem := by
  unfold raiseB
  split <;> simp

@[simp] theorem tick_mem (t : Turn) (s : State) : (tick t s).mem = s.mem := rfl

theorem fetchWord_wf (s : State) (c : Nat) (pc : Addr) (t : State) (w : Word) (e : fetchWord s c pc = .ok (t, w))
    (h : Memory.wf s.mem = true) :
    Memory.wf t.mem = true := by
  unfold fetchWord at e
  split at e
  · split at e
    · cases e
    · dsimp only at e
      split at e
      · cases e
      · cases e; exact readPlace_wf _ _ _ _ _ h
  · cases e

theorem decodeAt_wf (s : State) (c : Nat) (sd : Side) (pc : Addr) (w : Word) (t : State) (i : Instr)
    (e : decodeAt s c sd pc w = .ok (t, i))
    (h : Memory.wf s.mem = true) : Memory.wf t.mem = true := by
  unfold decodeAt at e
  split at e
  · split at e
    · split at e
      · cases e
      · next hf =>
        have := fetchWord_wf _ _ _ _ _ hf h
        split at e
        · split at e
          · cases e; exact this
          · cases e
        · cases e
    · cases e
  · split at e
    · split at e
      · cases e; exact h
      · cases e
    · cases e

@[simp] theorem nextTurn_mem (s : State) : (nextTurn s).2.mem = s.mem := by
  unfold nextTurn
  split <;> simp

@[simp] theorem asSide_mem (c : Nat) (sd : Side) (s : State) : (asSide c sd s).mem = s.mem := rfl

/-! ### The engines of the XP: what leaves memory, and what keeps it canonical -/

@[simp] theorem dropWord_mem (s : State) : (dropWord s).mem = s.mem := rfl

@[simp] theorem endWord_mem (s : State) : (endWord s).mem = s.mem := rfl

@[simp] theorem queueTrap_mem (t : Trap) (s : State) : (queueTrap t s).mem = s.mem := rfl

@[simp] theorem holdWord_mem (w : Started) (s : State) : (holdWord w s).mem = s.mem := rfl

@[simp] theorem midTrap_mem (t : Trap) (w : Started) (s : State) : (midTrap t w s).mem = s.mem := rfl

/-! ### Control and status registers: what leaves memory, and what keeps it canonical -/

theorem csrWrite_wf (len : Nat) (sd : Side) (n : Nat) (v : Addr) (s : State) (h : Memory.wf s.mem = true) :
    Memory.wf (settle ((csrWrite sd n v s).map (csrDone len)) s).mem = true := by
  unfold csrWrite
  dsimp only
  repeat' split
  all_goals exact h

/-! ### Scalar words of the AP: what leaves memory, and what keeps it canonical -/

theorem alu3_wf (f : Addr → Addr → Addr) (d a b : Nat) (s : State) (h : Memory.wf s.mem = true) :
    Memory.wf (alu3 f d a b s).mem = true :=
  apWord_wf _ _ _ h h

theorem alu2_wf (f : Addr → Addr) (d a : Nat) (s : State) (h : Memory.wf s.mem = true) :
    Memory.wf (alu2 f d a s).mem = true :=
  apWord_wf _ _ _ h h

theorem cmpWord_wf (c p : Nat) (srcs : List Nat) (x y : Core → Addr) (s : State) (h : Memory.wf s.mem = true) :
    Memory.wf (cmpWord c p srcs x y s).mem = true := by
  refine apWord_wf _ _ _ h ?_
  split <;> exact h

@[simp] theorem predWord_mem (f : Core → Bool) (d : Nat) (s : State) : (predWord f d s).mem = s.mem := rfl

/-! ### Loads and stores: what leaves memory, and what keeps it canonical -/

@[simp] theorem ldsReturn_mem (c d : Nat) (v : Poi) (s : State) : (ldsReturn c d v s).mem = s.mem := rfl

@[simp] theorem queuePut_mem (q : Nat) (v : Addr) (s : State) : (queuePut q v s).mem = s.mem := by
  unfold queuePut
  split <;> simp

@[simp] theorem queueGet_mem (d q : Nat) (s : State) : (queueGet d q s).mem = s.mem := by
  unfold queueGet
  split <;> simp

/-! ### Streams: what leaves memory, and what keeps it canonical -/

@[simp] theorem putStream_mem (c n : Nat) (st : Stream) (s : State) : (putStream c n st s).mem = s.mem := rfl

@[simp] theorem dropStream_mem (c n : Nat) (s : State) : (dropStream c n s).mem = s.mem := rfl

theorem commitBytes_wf (c n : Nat) (st : Stream) (l : List Byte) (tag : Nat) (bad : Nat → Bool) (s : State)
    (h : Memory.wf s.mem = true) :
    Memory.wf (commitBytes c n st l tag bad s).mem = true := by
  unfold commitBytes
  simp [h, ringWrite_wf]

theorem fetchPieces_wf (inv : Bool) (fuel c : Nat) (ea : Addr) (pos n slot : Nat) (s : State) (h : Memory.wf s.mem = true) :
    Memory.wf (fetchPieces inv fuel c ea pos n slot s).1.mem = true := by
  induction fuel generalizing ea pos n s with
  | zero => exact h
  | succ f ih =>
    unfold fetchPieces
    split
    · exact h
    · exact ih _ _ _ _ (readAt_wf _ _ _ _ _ h)

theorem commitRun_wf (inv : Bool) (c n : Nat) (st : Stream) (ea : Addr) (len : Nat) (forced : Bool) (s : State)
    (h : Memory.wf s.mem = true) :
    Memory.wf (commitRun inv c n st ea len forced s).mem = true := by
  have hm : Memory.wf ((s.place c ea).elim s fun p => meetSinks p.key len s).mem = true := by
    cases s.place c ea with
    | none => exact h
    | some p => exact meetSinks_wf _ _ _ h
  have hp := fetchPieces_wf inv (len / opSlot st.openw + 2) c ea st.head len (opSlot st.openw) _ hm
  unfold commitRun
  exact commitBytes_wf _ _ _ _ _ _ _ hp

@[simp] theorem streamFault_mem (c : Nat) (port : Option Nat) (code : Code) (addr : Addr) (stopped : Bool) (walkRun : Nat)
    (s : State) :
    (streamFault c port code addr stopped walkRun s).mem = s.mem := rfl

@[simp] theorem stopWalk_mem (c n : Nat) (st : Stream) (code : Code) (addr : Addr) (s : State) :
    (stopWalk c n st code addr s).mem = s.mem := rfl

theorem fillerCommit_wf (c n : Nat) (s : State) (h : Memory.wf s.mem = true) :
    Memory.wf (fillerCommit c n s).mem = true := by
  unfold fillerCommit
  dsimp only
  (repeat' split) <;> simp [h, commitBytes_wf, commitRun_wf]

@[simp] theorem endPeer_mem (c n : Nat) (st : Stream) (s : State) : (endPeer c n st s).mem = s.mem := by
  unfold endPeer
  split <;> simp

@[simp] theorem endClosedSink_mem (c n : Nat) (s : State) : (endClosedSink c n s).mem = s.mem := by
  unfold endClosedSink
  (repeat' split) <;> simp

theorem drainerWrite_wf (c n len : Nat) (s : State) (h : Memory.wf s.mem = true) :
    Memory.wf (drainerWrite c n len s).mem = true := by
  unfold drainerWrite
  dsimp only
  (repeat' split) <;> simp [h, drainPiece_wf]

theorem coreSlotTransfer_wf (c n : Nat) (s : State) (h : Memory.wf s.mem = true) :
    Memory.wf (coreSlotTransfer c n s).mem = true := by
  unfold coreSlotTransfer
  dsimp only
  (repeat' split) <;> simp [h, ringWrite_wf]

@[simp] theorem portAdvance_mem (c port n : Nat) (s : State) : (portAdvance c port n s).mem = s.mem := by
  unfold portAdvance
  (repeat' split) <;> simp

theorem portWrite_wf (c port : Nat) (l : List Byte) (s : State) (h : Memory.wf s.mem = true) :
    Memory.wf (portWrite c port l s).mem = true := by
  unfold portWrite
  split <;> simp [h, commitBytes_wf]

/-! ### Stream words: what leaves memory, and what keeps it canonical -/

theorem streamWord_wf (srcs dsts : List Nat) (body : State → Except Trap State) (s : State) (h : Memory.wf s.mem = true)
    (hb : Memory.wf (settle (body s) s).mem = true) : Memory.wf (streamWord srcs dsts body s).mem = true := by
  refine apWord_wf _ _ _ h ?_
  split
  · exact h
  · exact hb

theorem readRecord_wf (ea : Addr) (n : Nat) (s t : State) (l : List Byte) (e : readRecord ea n s = .ok (t, l))
    (h : Memory.wf s.mem = true) :
    Memory.wf t.mem = true := by
  unfold readRecord at e
  split at e
  · cases e
  · dsimp only at e
    split at e
    · cases e
    · cases e; exact readAt_wf _ _ _ _ _ h

theorem markWord_wf (k : Nat) (f : Reader → Option Reader) (s : State) (h : Memory.wf s.mem = true) :
    Memory.wf (markWord k f s).mem = true := by
  refine streamWord_wf _ _ _ _ h ?_
  repeat' split
  all_goals exact h

@[simp] theorem closePort_mem (c i j : Nat) (st : Stream) (s : State) : (closePort c i j st s).mem = s.mem := by
  unfold closePort
  dsimp only
  (repeat' split) <;> simp

theorem writeRing_wf (c : Nat) (ea : Addr) (st : Stream) (s : State) (h : Memory.wf s.mem = true) :
    Memory.wf (writeRing c ea st s).mem = true :=
  fold_wf _ _ _ (fun _ _ => writeAt_wf _ _ _ _ _ _) h

/-! ### Signals and tasks: what leaves memory, and what keeps it canonical -/

@[simp] theorem wake_mem (c i : Nat) (v : Addr) (s : State) : (wake c i v s).mem = s.mem := rfl

theorem registerWait_wf (kind : WKind) (mask : Addr) (d arg : Nat) (link : Option (Nat × Nat))
    (enlist : Nat → State → State)
    (s : State) (h : Memory.wf s.mem = true) (he : ∀ i t, Memory.wf t.mem = true → Memory.wf (enlist i t).mem = true) :
    Memory.wf (settle (registerWait kind mask d arg link enlist s) s).mem = true := by
  unfold registerWait
  split
  · exact h
  · split
    · exact h
    · exact he _ _ h

@[simp] theorem startTask_mem (c : Nat) (sd : Side) (s : State) : (startTask c sd s).mem = s.mem := by
  unfold startTask
  dsimp only
  (repeat' split) <;> simp

@[simp] theorem satisfyHead_mem (c r : Nat) (fault : Option Nat) (s : State) : (satisfyHead c r fault s).mem = s.mem := rfl

@[simp] theorem serveHead_mem (c n r : Nat) (s : State) : (serveHead c n r s).mem = s.mem := by
  unfold serveHead
  split <;> simp

@[simp] theorem serveTask_mem (c n i : Nat) (s : State) : (serveTask c n i s).mem = s.mem := rfl

@[simp] theorem serveSema_mem (fuel c n : Nat) (s : State) : (serveSema fuel c n s).mem = s.mem := by
  induction fuel generalizing s with
  | zero => rfl
  | succ f ih =>
    unfold serveSema
    dsimp only
    split
    · rfl
    · rw [ih, serveTask_mem]
    · rw [ih, serveHead_mem]
    · rw [ih]; split <;> simp

@[simp] theorem serveAll_mem (c n : Nat) (s : State) : (serveAll c n s).mem = s.mem := by
  simp [serveAll]

@[simp] theorem raiseSema_mem (c n cnt : Nat) (faulted : Bool) (s : State) : (raiseSema c n cnt faulted s).mem = s.mem := by
  simp [raiseSema]

@[simp] theorem setSema_mem (c n v : Nat) (s : State) : (setSema c n v s).mem = s.mem := by
  simp [setSema]

theorem wakeList_mem (fuel : Nat) (v : Addr) (c i : Nat) (s : State) : (wakeList fuel v c i s).mem = s.mem := by
  induction fuel generalizing c i s with
  | zero => rfl
  | succ f ih =>
    unfold wakeList
    split
    · dsimp only
      split
      · rw [ih, wake_mem]
      · rfl
    · rfl

theorem resolveFuture_wf (p : Place) (w : Nat) (s : State) (h : Memory.wf s.mem = true) :
    Memory.wf (resolveFuture p w s).mem = true := by
  unfold resolveFuture
  dsimp only
  split
  · rw [wakeList_mem]; exact setFuture_wf _ _ _ h
  · exact setFuture_wf _ _ _ h

@[simp] theorem releasePhase_mem (c b : Nat) (ph : Bool) (s : State) : (releasePhase c b ph s).mem = s.mem := by
  unfold releasePhase
  dsimp only
  rw [fold_mem, fold_mem]
  · rfl
  · exact fun _ _ => wake_mem ..
  · intro t j
    split
    · split <;> rfl
    · rfl

@[simp] theorem testBar_mem (c b : Nat) (s : State) : (testBar c b s).mem = s.mem := by
  unfold testBar
  dsimp only
  (repeat' split) <;> simp

@[simp] theorem raiseBar_mem (c b bytes : Nat) (faulted : Bool) (s : State) :
    (raiseBar c b bytes faulted s).mem = s.mem := by
  unfold raiseBar
  split <;> simp

/-! ### Command rings: what leaves memory, and what keeps it canonical -/

theorem descCheck_wf (c : Nat) (r : BitVec 512) (s : State) (h : Memory.wf s.mem = true) :
    Memory.wf (settle (descCheck c r s) s).mem = true := by
  unfold descCheck
  split
  · exact h
  · dsimp only
    split
    · exact h
    · split
      · exact h
      · next hr =>
        have ht := readRecord_wf _ _ _ _ _ hr h
        repeat' split
        exacts [ht, h, ht, h]

theorem recordCheck_wf (c : Nat) (a : Addr) (r : BitVec 512) (s : State) (h : Memory.wf s.mem = true) :
    Memory.wf (settle (recordCheck c a r s) s).mem = true := by
  unfold recordCheck
  split
  · exact h
  · split
    · exact h
    · split
      · exact h
      · next hd =>
        split
        · exact h
        · exact ok_wf hd (descCheck_wf _ _ _ h)

@[simp] theorem freshAddr_mem (s : State) : (freshAddr s).1.mem = s.mem := rfl

@[simp] theorem ringFault_mem (c r code cause : Nat) (deferred stopped : Bool) (index : Nat) (addr : Addr) (chunk : Nat)
    (s : State) :
    (ringFault c r code cause deferred stopped index addr chunk s).mem = s.mem := by
  unfold ringFault
  split <;> simp

theorem raiseRecord_wf (c : Nat) (b : BitVec 512) (value bytes : Nat) (fault : Option Nat) (s : State)
    (h : Memory.wf s.mem = true) :
    Memory.wf (raiseRecord c b value bytes fault s).mem = true := by
  unfold raiseRecord
  (repeat' split) <;> simp [h, resolveFuture_wf]

@[simp] theorem dropNet_mem (c r : Nat) (s : State) : (dropNet c r s).mem = s.mem := by
  unfold dropNet
  dsimp only
  (repeat' split) <;> simp

@[simp] theorem endRequests_mem (c r : Nat) (b : BitVec 512) (s : State) : (endRequests c r b s).mem = s.mem := by
  unfold endRequests
  (repeat' split) <;> simp

@[simp] theorem endRetire_mem (c r : Nat) (b : BitVec 512) (s : State) : (endRetire c r b s).mem = s.mem := by
  simp [endRetire]

theorem retire_wf (c r : Nat) (fault : Option Nat) (s : State) (h : Memory.wf s.mem = true) :
    Memory.wf (retire c r fault s).mem = true := by
  unfold retire
  dsimp only
  (repeat' split) <;> simp [h, flushDie_wf, raiseRecord_wf]

theorem takeDue_wf (c r : Nat) (d : Due) (s : State) (h : Memory.wf s.mem = true) :
    Memory.wf (takeDue c r d s).mem = true := by
  unfold takeDue
  split <;> simp [h, retire_wf]

theorem faultHead_wf (c r k : Nat) (f : CFault) (rep : Bool) (s : State) (h : Memory.wf s.mem = true) :
    Memory.wf (faultHead c r k f rep s).mem = true := by
  unfold faultHead
  dsimp only
  (repeat' split) <;> simp [h, retire_wf]

theorem chunkFault_wf (c r k : Nat) (f : CFault) (s : State) (h : Memory.wf s.mem = true) :
    Memory.wf (chunkFault c r k f s).mem = true := by
  unfold chunkFault
  simp [h, faultHead_wf]

theorem completeRecord_wf (c r : Nat) (s : State) (h : Memory.wf s.mem = true) :
    Memory.wf (completeRecord c r s).mem = true := by
  unfold completeRecord
  dsimp only
  (repeat' split) <;> simp [h, chunkFault_wf, retire_wf]

theorem finishChunk_wf (c r k total n : Nat) (s : State) (h : Memory.wf s.mem = true) :
    Memory.wf (finishChunk c r k total n s).mem = true := by
  unfold finishChunk
  dsimp only
  (repeat' split) <;> simp [h, completeRecord_wf]

theorem skipHead_wf (c r code : Nat) (s : State) (h : Memory.wf s.mem = true) :
    Memory.wf (skipHead c r code s).mem = true := by
  unfold skipHead
  simp [h, retire_wf]

@[simp] theorem testAwait_mem (c r : Nat) (b : BitVec 512) (s : State) : (testAwait c r b s).mem = s.mem := by
  unfold testAwait
  dsimp only
  (repeat' split) <;> simp

theorem waitHead_wf (c r : Nat) (e : RecEntry) (s : State) (h : Memory.wf s.mem = true) :
    Memory.wf (waitHead c r e s).mem = true := by
  unfold waitHead
  split
  · rw [testAwait_mem]; exact h
  · dsimp only
    split
    · exact faultHead_wf _ _ _ _ _ _ h
    · next hr =>
      rw [testAwait_mem]
      have ht := ok_wf hr (recordCheck_wf _ _ _ _ h)
      exact ht

theorem headStart_wf (c r : Nat) (s : State) (h : Memory.wf s.mem = true) : Memory.wf (headStart c r s).mem = true := by
  unfold headStart
  dsimp only
  (repeat' split) <;> simp [h, skipHead_wf, takeDue_wf, waitHead_wf]

@[simp] theorem enqueue_mem (r : Nat) (v : BitVec 512) (s : State) : (enqueue r v s).mem = s.mem := rfl

theorem cengWord_wf (d r : Nat) (f : State → State) (v : Ring → Addr) (s : State) (h : Memory.wf s.mem = true)
    (hf : Memory.wf (f s).mem = true) : Memory.wf (cengWord d r f v s).mem = true :=
  streamWord_wf _ _ _ _ h hf

theorem dropHead_wf (c r : Nat) (s : State) (h : Memory.wf s.mem = true) : Memory.wf (dropHead c r s).mem = true := by
  unfold dropHead
  dsimp only
  (repeat' split) <;> simp [h, takeDue_wf]

/-! ### Chunks of records: what leaves memory, and what keeps it canonical -/

theorem chunkStep_wf (f : State → State) (c r k : Nat) (s : State) (h : Memory.wf s.mem = true)
    (hf : ∀ t, Memory.wf t.mem = true → Memory.wf (f t).mem = true) : Memory.wf (chunkStep f c r k s).mem = true := by
  unfold chunkStep
  split
  · exact overLink_wf _ _ _ h (hf _ h)
  · exact h

theorem readPieces_wf (fuel c : Nat) (ea : Addr) (n : Nat) (s : State) (h : Memory.wf s.mem = true) :
    Memory.wf (readPieces fuel c ea n s).1.mem = true := by
  induction fuel generalizing ea n s with
  | zero => exact h
  | succ f ih =>
    unfold readPieces
    split
    · exact h
    · exact ih _ _ _ (readAt_wf _ _ _ _ _ h)

theorem moveBytes_wf (c : Nat) (src dst : Addr) (n : Nat) (pad : List Byte) (forced : Bool) (s : State)
    (h : Memory.wf s.mem = true) :
    Memory.wf (moveBytes c src dst n pad forced s).1.mem = true := by
  unfold moveBytes
  dsimp only
  (repeat' split) <;> grind [markPieces_wf, readPieces_wf, writeAt_wf]

theorem endChunk_wf (c r k total v n : Nat) (x : State × Except CFault (List (Option Addr))) (h : Memory.wf x.1.mem = true) :
    Memory.wf (endChunk c r k total v n x).mem = true := by
  unfold endChunk
  split
  · exact chunkFault_wf _ _ _ _ _ h
  · exact finishChunk_wf _ _ _ _ _ _ h

theorem headDesc_wf (c r : Nat) (b : BitVec 512) (s : State) (h : Memory.wf s.mem = true) :
    Memory.wf (headDesc c r b s).1.mem = true := by
  unfold headDesc
  split
  · exact h
  · exact h
  · split
    · exact h
    · next hr =>
      have ht := readRecord_wf _ _ _ _ _ hr h
      exact ht

theorem nestChunk_wf (c r k : Nat) (b : BitVec 512) (s : State) (run : Nest → State → State × Except CFault (Option Addr))
    (len : Nat)
    (h : Memory.wf s.mem = true) (hr : ∀ n t, Memory.wf t.mem = true → Memory.wf (run n t).1.mem = true) :
    Memory.wf (nestChunk c r k b s run len).mem = true := by
  have hd := headDesc_wf c r b s h
  unfold nestChunk
  split
  · next hx => exact chunkFault_wf _ _ _ _ _ (fst_wf hx hd)
  · next l hx =>
    have ht := fst_wf hx hd
    dsimp only
    generalize (if l = [] then Nest.one else nestOf l) = n
    split
    · exact completeRecord_wf _ _ _ ht
    · split
      · exact ht
      · exact endChunk_wf _ _ _ _ _ _ (oneBad _) (hr n _ ht)

theorem copyChunk_wf (c r k : Nat) (s : State) (h : Memory.wf s.mem = true) : Memory.wf (copyChunk c r k s).mem = true := by
  unfold copyChunk
  split
  · split
    · exact h
    · exact nestChunk_wf _ _ _ _ _ _ _ h fun _ _ => moveBytes_wf _ _ _ _ _ _ _
  · exact h

theorem fillChunk_wf (c r k : Nat) (s : State) (h : Memory.wf s.mem = true) : Memory.wf (fillChunk c r k s).mem = true := by
  unfold fillChunk
  split
  · exact nestChunk_wf _ _ _ _ _ _ _ h fun _ _ => moveBytes_wf _ _ _ _ _ _ _
  · exact h

theorem readIdx_wf (c : Nat) (ea : Addr) (s : State) (h : Memory.wf s.mem = true) :
    Memory.wf (readIdx c ea s).1.mem = true := by
  unfold readIdx
  split <;> simp [h, readAt_wf]

theorem raggedOfs_wf (c : Nat) (b : BitVec 512) (k : Nat) (s : State) (h : Memory.wf s.mem = true) :
    Memory.wf (raggedOfs c b k s).1.mem = true := by
  unfold raggedOfs
  dsimp only
  (repeat' split) <;> grind [readIdx_wf]

theorem raggedChunk_wf (c r k : Nat) (s : State) (h : Memory.wf s.mem = true) :
    Memory.wf (raggedChunk c r k s).mem = true := by
  unfold raggedChunk
  split
  · next b _ =>
    dsimp only
    split
    · exact completeRecord_wf _ _ _ h
    · split
      · exact h
      · have ho := raggedOfs_wf c b k s h
        split
        · next hx => exact chunkFault_wf _ _ _ _ _ (fst_wf hx ho)
        · next hx => exact endChunk_wf _ _ _ _ _ _ _ (moveBytes_wf _ _ _ _ _ _ _ (fst_wf hx ho))
  · exact h

theorem rowChunk_wf (gather : Bool) (c r k : Nat) (s : State) (h : Memory.wf s.mem = true) :
    Memory.wf (rowChunk gather c r k s).mem = true := by
  unfold rowChunk
  split
  · dsimp only
    split
    · exact completeRecord_wf _ _ _ h
    · split
      · exact h
      · split
        · next hx => exact chunkFault_wf _ _ _ _ _ (fst_wf hx (readIdx_wf _ _ _ h))
        · next hx =>
          have ht := fst_wf hx (readIdx_wf _ _ _ h)
          split
          · split
            · exact chunkFault_wf _ _ _ _ _ ht
            · exact ht
          · exact endChunk_wf _ _ _ _ _ _ _ (moveBytes_wf _ _ _ _ _ _ _ ht)
  · exact h

theorem elemsOf_wf (c : Nat) (b : BitVec 512) (s : State) (l : List Nat) (h : Memory.wf s.mem = true) :
    Memory.wf (elemsOf c b s l).1.mem = true := by
  induction l generalizing s with
  | nil => exact h
  | cons k r ih =>
    unfold elemsOf
    dsimp only
    have hx : Memory.wf (if recFld b 0x30 8 = 0 then (s, Except.ok (k * accwDe b, none))
        else readIdx c (BitVec.ofNat 64 (recFld b 0x30 8 + 4 * k)) s).1.mem = true := by
      split
      · exact h
      · exact readIdx_wf _ _ _ h
    split
    · next e => exact fst_wf e hx
    · next e =>
      have ht := fst_wf e hx
      split
      · exact ht
      · split
        · next e' => exact fst_wf e' (ih _ ht)
        · next e' => exact fst_wf e' (ih _ ht)

@[simp] theorem loseElem_mem (c r : Nat) (l : List (Place × Nat)) (s : State) : (loseElem c r l s).mem = s.mem :=
  fold_mem _ _ _ fun _ _ => rfl

theorem readHome_wf (s : State) (c : Nat) (ea : Addr) (n : Nat) (h : Memory.wf s.mem = true) :
    Memory.wf (readHome s c ea n).1.mem = true := by
  unfold readHome
  simp [h, readAt_wf]

theorem applyElem_wf (c r : Nat) (b : BitVec 512) (e : Elem) (ibad : Bool) (s : State) (h : Memory.wf s.mem = true) :
    Memory.wf (applyElem c r b e ibad s).1.mem = true := by
  have hs := readAt_wf s c e.src (accwSs b) .relaxed h
  have hm := readHome_wf _ c e.dst (accwDe b) hs
  have hfetch : ∀ (l : List Byte) (bad : Bool) (t : State), Memory.wf t.mem = true →
      Memory.wf (match e.fetch with | some a => writeAt c a l bad .relaxed t | none => t).mem = true := by
    intro l bad t ht
    split
    · exact writeAt_wf _ _ _ _ _ _ ht
    · exact ht
  unfold applyElem
  dsimp only
  split
  · exact hfetch _ _ _ ((loseElem_mem ..).symm ▸ hs)
  · cases e.side with
    | none =>
      dsimp only
      split <;> exact hfetch _ _ _ (writeAt_wf _ _ _ _ _ _ hm)
    | some a =>
      have hd := readHome_wf _ c a 8 hm
      dsimp only
      split
      · exact hfetch _ _ _ (writeAt_wf _ _ _ _ _ _ hd)
      · exact hfetch _ _ _ (writeAt_wf _ _ _ _ _ _ (writeAt_wf _ _ _ _ _ _ hd))

theorem applyElems_wf (c r : Nat) (b : BitVec 512) (s : State) (l : List (Elem × Option Addr)) (h : Memory.wf s.mem = true) :
    Memory.wf (applyElems c r b s l).1.mem = true := by
  induction l generalizing s with
  | nil => exact h
  | cons p r' ih => exact ih _ (applyElem_wf _ _ _ _ _ _ h)

theorem accwChunk_wf (op c r k : Nat) (s : State) (h : Memory.wf s.mem = true) :
    Memory.wf (accwChunk op c r k s).mem = true := by
  unfold accwChunk
  split
  · dsimp only
    split
    · exact h
    · split
      · exact completeRecord_wf _ _ _ h
      · split
        · exact h
        · split
          · next hx => exact chunkFault_wf _ _ _ _ _ (fst_wf hx (elemsOf_wf _ _ _ _ h))
          · next hx =>
            have ht := fst_wf hx (elemsOf_wf _ _ _ _ h)
            split
            · exact chunkFault_wf _ _ _ _ _ ht
            · exact endChunk_wf _ _ _ _ _ _ _ (applyElems_wf _ _ _ _ _ ht)
  · exact h

theorem accwStep_wf (op c r k : Nat) (s : State) (h : Memory.wf s.mem = true) : Memory.wf (accwStep op c r k s).mem = true :=
  chunkStep_wf _ _ _ _ _ h (accwChunk_wf op c r k)

theorem qfenceChunk_wf (c r : Nat) (s : State) (h : Memory.wf s.mem = true) : Memory.wf (qfenceChunk c r s).mem = true := by
  unfold qfenceChunk
  (repeat' split) <;> simp [h, completeRecord_wf, finishChunk_wf]

theorem semaChunk_wf (op c r : Nat) (s : State) (h : Memory.wf s.mem = true) :
    Memory.wf (semaChunk op c r s).mem = true := by
  unfold semaChunk
  (repeat' split) <;> simp [h, completeRecord_wf, finishChunk_wf]

/-! ### Bobbin lanes: what leaves memory, and what keeps it canonical -/

@[simp] theorem laneWait_mem (lane c r : Nat) (s : State) : (laneWait lane c r s).mem = s.mem := rfl

@[simp] theorem laneTake1_mem (lane c r : Nat) (s : State) : (laneTake1 lane c r s).mem = s.mem := rfl

@[simp] theorem passLane_mem (lane ctx : Nat) (s : State) : (passLane lane ctx s).mem = s.mem := rfl

theorem laneLoadChunk_wf (c r k : Nat) (s : State) (h : Memory.wf s.mem = true) :
    Memory.wf (laneLoadChunk c r k s).mem = true := by
  unfold laneLoadChunk
  dsimp only
  (repeat' split) <;> simp [h, chunkFault_wf, completeRecord_wf, finishChunk_wf, readPieces_wf]

theorem laneRunStart_wf (c r : Nat) (s : State) (h : Memory.wf s.mem = true) :
    Memory.wf (laneRunStart c r s).mem = true := by
  unfold laneRunStart
  dsimp only
  (repeat' split) <;> simp [h, chunkFault_wf]

@[simp] theorem endLaneStream_mem (y : LaneRun) (code : Code) (lane : Nat) (s : State) :
    (endLaneStream y code lane s).mem = s.mem := by
  unfold endLaneStream
  split <;> simp

theorem failRun_wf (lane : Nat) (y : LaneRun) (f : CFault) (s : State) (h : Memory.wf s.mem = true) :
    Memory.wf (failRun lane y f s).mem = true := by
  unfold failRun
  dsimp only
  (repeat' split) <;> simp [h, chunkFault_wf]

theorem errRun_wf (lane : Nat) (y : LaneRun) (sub : Nat) (s : State) (h : Memory.wf s.mem = true) :
    Memory.wf (errRun lane y sub s).mem = true := by
  unfold errRun
  simp [h, failRun_wf]

theorem laneCommit_wf (lane n : Nat) (st : Stream) (y : LaneRun) (l : List Byte) (s : State) (h : Memory.wf s.mem = true) :
    Memory.wf (laneCommit lane n st y l s).mem = true := by
  unfold laneCommit
  simp [h, commitBytes_wf]

theorem laneBurst_wf (lane n : Nat) (st : Stream) (y : LaneRun) (s : State) (h : Memory.wf s.mem = true) :
    Memory.wf (laneBurst lane n st y s).mem = true := by
  unfold laneBurst
  dsimp only
  (repeat' split) <;> simp [h, failRun_wf, laneCommit_wf]

theorem laneMove_wf (lane n : Nat) (st : Stream) (y : LaneRun) (s : State) (h : Memory.wf s.mem = true) :
    Memory.wf (laneMove lane n st y s).mem = true := by
  unfold laneMove
  dsimp only
  (repeat' split) <;> simp [h, completeRecord_wf, errRun_wf, failRun_wf, laneCommit_wf]

theorem laneCycle_wf (lane : Nat) (s : State) (h : Memory.wf s.mem = true) : Memory.wf (laneCycle lane s).mem = true := by
  unfold laneCycle
  dsimp only
  (repeat' split) <;> simp [h, failRun_wf, laneBurst_wf, laneMove_wf]

theorem unitBytes_wf (c : Nat) (src : Addr) (s : State) (h : Memory.wf s.mem = true) :
    Memory.wf (unitBytes c src s).1.mem = true := by
  unfold unitBytes
  dsimp only
  (repeat' split) <;> simp [h, readPieces_wf]

theorem writeUnit_wf (c r k total : Nat) (dst : Addr) (ps : List (List Byte × Bool)) (bad : Option Addr) (s : State)
    (h : Memory.wf s.mem = true) :
    Memory.wf (writeUnit c r k total dst ps bad s).mem = true :=
  endChunk_wf _ _ _ _ _ _ _ (markPieces_wf _ _ _ _ (writeAt_wf _ _ _ _ _ _ h))

theorem writeHeld_wf (c r k total : Nat) (dst : Addr) (s : State) (h : Memory.wf s.mem = true) :
    Memory.wf (writeHeld c r k total dst s).mem = true := by
  unfold writeHeld
  split <;> simp [h, faultHead_wf, writeUnit_wf]

theorem decodeUnit_wf (c r k total : Nat) (g : Ring) (src dst : Addr) (s : State) (h : Memory.wf s.mem = true) :
    Memory.wf (decodeUnit c r k total g src dst s).mem = true := by
  have hf : ∀ (n : Nat) (f : CFault) (t : State), Memory.wf t.mem = true →
      Memory.wf (if k = g.chunk then chunkFault c r n f t else t).mem = true := by
    intro n f t ht
    split
    · exact chunkFault_wf _ _ _ _ _ ht
    · exact ht
  unfold decodeUnit
  split
  · exact hf _ _ _ h
  · exact hf _ _ _ h
  · dsimp only
    split
    · next hx => exact hf _ _ _ (fst_wf hx (unitBytes_wf _ _ _ h))
    · next hx =>
      have ht := fst_wf hx (unitBytes_wf _ _ _ h)
      split
      · split <;> exact ht
      · exact writeUnit_wf _ _ _ _ _ _ _ _ ht

theorem decodeChunk_wf (c r k : Nat) (s : State) (h : Memory.wf s.mem = true) :
    Memory.wf (decodeChunk c r k s).mem = true := by
  unfold decodeChunk
  dsimp only
  (repeat' split) <;> simp [h, completeRecord_wf, decodeUnit_wf, writeHeld_wf]

/-! ### The must-save manifest: what leaves memory, and what keeps it canonical -/

theorem commit_wf (sets : List MustSet) (s : State) (h : Memory.wf s.mem = true) : Memory.wf (commit sets s).mem = true := by
  unfold commit
  split <;> simp [h, boatWrite_wf]

theorem admitSet_wf (m : MustSet) (s : State) (h : Memory.wf s.mem = true) : Memory.wf (admitSet m s).1.mem = true := by
  unfold admitSet
  simp [h, commit_wf]

theorem releaseSets_wf (gone : MustSet → Bool) (s : State) (h : Memory.wf s.mem = true) :
    Memory.wf (releaseSets gone s).mem = true := by
  unfold releaseSets
  split <;> simp [h, commit_wf]

/-! ### Vector words: what leaves memory, and what keeps it canonical -/

theorem withPorts_wf (srcs dsts : List Nat) (go : State → State) (s : State) (h : Memory.wf s.mem = true)
    (hg : Memory.wf (go s).mem = true) : Memory.wf (withPorts srcs dsts go s).mem = true := by
  unfold withPorts
  split
  · exact h
  · exact h
  · exact hg

@[simp] theorem takeUnits_mem (srcs : List Nat) (s : State) : (takeUnits srcs s).mem = s.mem :=
  fold_mem _ _ _ fun _ _ => portAdvance_mem ..

theorem putDest_wf (c : Nat) (v : BitVec 4096) (s : State) (h : Memory.wf s.mem = true) :
    Memory.wf (putDest c v s).mem = true := by
  unfold putDest
  split <;> simp [h, portWrite_wf]

theorem vecWord_wf (d : Nat) (srcs : List Nat) (f : State → BitVec 4096 × Nat) (s : State) (h : Memory.wf s.mem = true) :
    Memory.wf (vecWord d srcs f s).mem = true :=
  withPorts_wf _ _ _ _ h (putDest_wf _ _ _ ((takeUnits_mem srcs s).symm ▸ h))

theorem elemWord_wf (d a b : Nat) (m : Bool) (f : Nat → Nat → Nat → Nat → FRes) (s : State)
    (h : Memory.wf s.mem = true) :
    Memory.wf (elemWord d a b m f s).mem = true := vecWord_wf _ _ _ _ h

theorem maskWord_wf (d a b : Nat) (f : Nat → Nat → Nat → FRes) (s : State) (h : Memory.wf s.mem = true) :
    Memory.wf (maskWord d a b f s).mem = true :=
  withPorts_wf _ _ _ _ h ((takeUnits_mem [a, b] s).symm ▸ h)

@[simp] theorem spanRun_mem (fuel d f wr n : Nat) (m : Bool) (g : State → Nat → Nat → FRes) (w : Started) (s : State) :
    (spanRun fuel d f wr n m g w s).mem = s.mem := by
  induction fuel generalizing w s with
  | zero => unfold spanRun; split <;> rfl
  | succ k ih => unfold spanRun; split; exacts [rfl, ih _ _]

theorem spanWord_wf (d f wr n : Nat) (srcs : List Nat) (m : Bool) (g : (Nat → BitVec 4096) → Nat → Nat → FRes)
    (s : State)
    (h : Memory.wf s.mem = true) : Memory.wf (spanWord d f wr n srcs m g s).mem = true := by
  unfold spanWord
  dsimp only
  split
  · rw [spanRun_mem]; exact h
  · exact withPorts_wf _ _ _ _ h (by rw [spanRun_mem, takeUnits_mem]; exact h)

theorem wideWord_wf (d a b f : Nat) (m : Bool) (g : Nat → Nat → Nat → Nat → FRes) (s : State)
    (h : Memory.wf s.mem = true) :
    Memory.wf (wideWord d a b f m g s).mem = true := spanWord_wf _ _ _ _ _ _ _ _ h

theorem foldWord_wf (d a f ws : Nat) (m : Bool) (g : Nat → FRes) (s : State) (h : Memory.wf s.mem = true) :
    Memory.wf (foldWord d a f ws m g s).mem = true := vecWord_wf _ _ _ _ h

@[simp] theorem maskOp_mem (d : Nat) (f : Core → Nat → Bool) (s : State) : (maskOp d f s).mem = s.mem := rfl

/-! ### Matrix words: what leaves memory, and what keeps it canonical -/

@[simp] theorem endStint_mem (crew : Nat) (s : State) : (endStint crew s).mem = s.mem := by
  unfold endStint
  dsimp only
  (repeat' split) <;> simp

@[simp] theorem requestSeat_mem (crew who : Nat) (s : State) : (requestSeat crew who s).mem = s.mem := rfl

@[simp] theorem grantSeat_mem (crew : Nat) (s : State) : (grantSeat crew s).mem = s.mem := by
  unfold grantSeat
  dsimp only
  (repeat' split) <;> simp

@[simp] theorem seatTrap_mem (t : Trap) (w : Started) (s : State) : (seatTrap t w s).mem = s.mem := by
  unfold seatTrap
  split <;> simp

theorem seatWord_wf (go : State → State) (s : State) (h : Memory.wf s.mem = true) (hg : Memory.wf (go s).mem = true) :
    Memory.wf (seatWord go s).mem = true := by
  unfold seatWord
  split
  · exact h
  · split
    · rw [seatTrap_mem]; exact h
    · split
      · exact h
      · exact hg

@[simp] theorem countWord_mem (s : State) : (countWord s).mem = s.mem := by
  unfold countWord
  split <;> simp

@[simp] theorem waitWord_mem (s : State) : (waitWord s).mem = s.mem := rfl

@[simp] theorem rowUnit_mem (port : Nat) (p : Pass) (w : Started) (s : State) : (rowUnit port p w s).2.2.mem = s.mem := by
  unfold rowUnit
  (repeat' split) <;> simp

@[simp] theorem mmRows_mem (fuel t port : Nat) (p : Pass) (w : Started) (s : State) :
    (mmRows fuel t port p w s).mem = s.mem := by
  induction fuel generalizing w s with
  | zero => unfold mmRows; split <;> rfl
  | succ k ih =>
    have hu := rowUnit_mem port p w s
    unfold mmRows
    split
    · rfl
    · dsimp only
      split
      · next e => rw [e] at hu; exact hu
      · next e => rw [e] at hu; exact hu
      · next e =>
        rw [e] at hu
        split
        · rw [ih]; exact hu
        · rw [ih]; exact hu

@[simp] theorem takeScales_mem (n : Nat) (w : Started) (s : State) : (takeScales n w s).2.mem = s.mem := rfl

theorem mmWord_wf (port e : Nat)
    (hf mx : Bool) (needs : Pass → Started → Bool) (go : Pass → Started → State → State) (s : State)
    (h : Memory.wf s.mem = true) (hg : ∀ p w t, Memory.wf t.mem = true → Memory.wf (go p w t).mem = true) :
    Memory.wf (mmWord port e hf mx needs go s).mem = true := by
  refine seatWord_wf _ _ h ?_
  dsimp only
  split
  · rw [seatTrap_mem]; exact h
  · split
    · rw [seatTrap_mem]; exact h
    · split
      · exact hg _ _ _ h
      · repeat' split
        · exact h
        · exact h
        · exact h
        · exact h
        · refine hg _ _ _ ?_
          simp [takeScales, h]

@[simp] theorem gatherTrap_mem (t : Trap) (w : Started) (s : State) : (gatherTrap t w s).mem = s.mem := rfl

@[simp] theorem gather_mem (t port x : Nat) (p : Pass) (w : Started) (s : State) : (gather t port x p w s).mem = s.mem := by
  unfold gather
  dsimp only
  (repeat' split) <;> simp

@[simp] theorem modShadow_mem (f : Plane → Plane) (s : State) : (modShadow f s).mem = s.mem := rfl

@[simp] theorem loadUnits_mem (fuel port ty : Nat) (mx : Bool) (w : Started) (s : State) :
    (loadUnits fuel port ty mx w s).mem = s.mem := by
  induction fuel generalizing w s with
  | zero => unfold loadUnits; dsimp only; split <;> simp
  | succ k ih =>
    unfold loadUnits
    dsimp only
    split
    · simp
    · split
      · simp
      · simp
      · rw [ih]; rfl

theorem passWord_wf (go : State → State) (s : State) (h : Memory.wf s.mem = true) (hg : Memory.wf (go s).mem = true) :
    Memory.wf (passWord go s).mem = true := by
  unfold passWord
  split
  · exact h
  · exact hg

@[simp] theorem drainRun_mem (fuel t f : Nat) (satf : Bool) (e0 cnt : Nat) (w : Started) (s : State) :
    (drainRun fuel t f satf e0 cnt w s).mem = s.mem := by
  induction fuel generalizing w s with
  | zero => unfold drainRun; split <;> rfl
  | succ k ih => unfold drainRun; split; exacts [rfl, ih _ _]

/-! ### The save image: what leaves memory, and what keeps it canonical -/

theorem settleCore_wf (c : Nat) (s : State) (h : Memory.wf s.mem = true) : Memory.wf (settleCore c s).mem = true :=
  fold_wf _ _ _ (fun _ _ => fold_wf _ _ _ fun _ _ => fillerCommit_wf _ _ _) h

theorem storeImage_wf (m : Image) (s : State) (h : Memory.wf s.mem = true) : Memory.wf (storeImage m s).mem = true := by
  unfold storeImage
  simp [h, partWrite_wf]

theorem restoreCore_wf (n ctx : Nat) (i : ImageCore) (s : State) (h : Memory.wf s.mem = true) :
    Memory.wf (restoreCore n ctx i s).mem = true := by
  have hm := foldSet_wf i.pool (fun p => p.1) (fun p => p.2) _
    (filter_wf s.mem (fun p => !(decide (poolKey i.num 0 ≤ p.1) && decide (p.1 < poolKey (i.num + 1) 0))) h)
  unfold restoreCore
  dsimp only
  split <;> exact hm

/-! ### The special-function unit: what leaves memory, and what keeps it canonical -/

theorem sfWord_wf (fn : Sf) (d a : Nat) (m : Bool) (s : State) (h : Memory.wf s.mem = true) :
    Memory.wf (sfWord fn d a m s).mem = true :=
  elemWord_wf _ _ _ _ _ _ h

/-! ### The netting engine: what leaves memory, and what keeps it canonical -/

theorem gbind_wf {α β : Type} (x : Gat α) (f : α → State → Gat β) (h : Memory.wf x.1.mem = true)
    (hf : ∀ a t, Memory.wf t.mem = true → Memory.wf (f a t).1.mem = true) : Memory.wf (gbind x f).1.mem = true := by
  unfold gbind
  split
  · exact h
  · next a _ =>
    have ht := hf a _ h
    split
    · next e => exact fst_wf e ht
    · next e => exact fst_wf e ht

theorem gatBytes_wf (c : Nat) (ea : Addr) (n : Nat) (s : State) (h : Memory.wf s.mem = true) :
    Memory.wf (gatBytes c ea n s).1.mem = true := by
  unfold gatBytes
  split
  · exact h
  · exact readPieces_wf _ _ _ _ _ h

theorem gatList_wf {α β : Type} (f : α → State → Gat β) (l : List α) (s : State) (h : Memory.wf s.mem = true)
    (hf : ∀ a t, Memory.wf t.mem = true → Memory.wf (f a t).1.mem = true) : Memory.wf (gatList f l s).1.mem = true := by
  induction l generalizing s with
  | nil => exact h
  | cons a r ih => exact gbind_wf _ _ (hf a s h) fun _ t ht => gbind_wf _ _ (ih t ht) fun _ _ h => h

theorem gatIndex_wf (c base i : Nat) (s : State) (h : Memory.wf s.mem = true) :
    Memory.wf (gatIndex c base i s).1.mem = true := by
  have hb := gatBytes_wf c (BitVec.ofNat 64 (base + 4 * i)) 4 s h
  unfold gatIndex
  split
  · next e => exact fst_wf e hb
  · next e => exact fst_wf e hb

theorem gatRow_wf (c : Nat) (d : Desc) (base pitch w i : Nat) (s : State) (h : Memory.wf s.mem = true) :
    Memory.wf (gatRow c d base pitch w i s).1.mem = true :=
  gbind_wf _ _ (gatBytes_wf _ _ _ _ h) fun _ _ h => h

theorem gatCoord_wf (c : Nat) (d : Desc) (i : Nat) (s : State) (h : Memory.wf s.mem = true) :
    Memory.wf (gatCoord c d i s).1.mem = true :=
  gbind_wf _ _ (gatBytes_wf _ _ _ _ h) fun _ _ h => h

theorem edgeRow_wf (c : Nat) (d : Desc) (v e snd : Nat) (s : State) (h : Memory.wf s.mem = true) :
    Memory.wf (edgeRow c d v e snd s).1.mem = true := by
  refine gbind_wf _ _ ?_ fun _ t ht => gbind_wf _ _ (gatRow_wf _ _ _ _ _ _ _ ht) fun _ t ht =>
    gbind_wf _ _ (gatRow_wf _ _ _ _ _ _ _ ht) fun _ t ht => gbind_wf _ _ ?_ fun _ _ h => h
  · dsimp only
    split
    · exact h
    · exact gbind_wf _ _ (gatCoord_wf _ _ _ _ h) fun _ t ht => gbind_wf _ _ (gatCoord_wf _ _ _ _ ht) fun _ _ h => h
  · split
    · exact ht
    · exact gatRow_wf _ _ _ _ _ _ _ ht

theorem edgeMessage_wf (c : Nat) (d : Desc) (v : Nat) (ls : List LayerData) (e : Nat) (s : State)
    (h : Memory.wf s.mem = true) :
    Memory.wf (edgeMessage c d v ls e s).1.mem = true := by
  refine gbind_wf _ _ (gatIndex_wf _ _ _ _ h) fun _ t ht => ?_
  split
  · exact ht
  · split
    · exact ht
    · exact gbind_wf _ _ (edgeRow_wf _ _ _ _ _ _ ht) fun _ _ h => h

theorem gatLayer_wf (c : Nat) (d : Desc) (y : NetLayer) (s : State) (h : Memory.wf s.mem = true) :
    Memory.wf (gatLayer c d y s).1.mem = true := by
  refine gbind_wf _ _ (gatBytes_wf _ _ _ _ h) fun _ t ht => gbind_wf _ _ ?_ fun _ _ h => h
  split
  · exact ht
  · exact gatBytes_wf _ _ _ _ ht

theorem edgesOf_wf (c : Nat) (d : Desc) (v : Nat) (s : State) (h : Memory.wf s.mem = true) :
    Memory.wf (edgesOf c d v s).1.mem = true := by
  refine gbind_wf _ _ (gatIndex_wf _ _ _ _ h) fun _ t ht => gbind_wf _ _ (gatIndex_wf _ _ _ _ ht) fun _ t ht => ?_
  split
  · exact ht
  · split <;> exact ht

theorem aggregate_wf (c : Nat) (d : Desc) (v : Nat) (es : List Nat) (s : State) (h : Memory.wf s.mem = true) :
    Memory.wf (aggregate c d v es s).1.mem = true := by
  unfold aggregate
  split
  · exact h
  · exact gbind_wf _ _ (gatList_wf _ _ _ h fun _ _ => gatLayer_wf _ _ _ _) fun _ t ht =>
      gbind_wf _ _ (gatList_wf _ _ _ ht fun _ _ => edgeMessage_wf _ _ _ _ _ _) fun _ _ h => h

theorem netFault_wf (c r k : Nat) (f : CFault) (s : State) (h : Memory.wf s.mem = true) :
    Memory.wf (netFault c r k f s).mem = true := by
  unfold netFault
  dsimp only
  (repeat' split) <;> simp [h, chunkFault_wf]

theorem writeRow_wf (c r k total : Nat) (a : Addr) (row : List Nat) (bad : List Addr) (s : State)
    (h : Memory.wf s.mem = true) :
    Memory.wf (writeRow c r k total a row bad s).mem = true :=
  endChunk_wf _ _ _ _ _ _ _ (writeAt_wf _ _ _ _ _ _ h)

theorem commitRow_wf (c r k total : Nat) (d : Desc) (row : List Nat) (bad : List Addr) (s : State)
    (h : Memory.wf s.mem = true) :
    Memory.wf (commitRow c r k total d row bad s).mem = true := by
  unfold commitRow
  split
  · exact netFault_wf _ _ _ _ _ h
  · dsimp only
    split
    · exact h
    · exact endChunk_wf _ _ _ _ _ _ _ (commitBytes_wf _ _ _ _ _ _ _ h)

@[simp] theorem askSeats_mem (die : Nat) (s : State) : (askSeats die s).mem = s.mem := by
  unfold askSeats
  split
  · exact fold_mem _ _ _ fun _ _ => by split <;> rfl
  · rfl

theorem netPlane_wf (c : Nat) (d : Desc) (hn : Nat) (g : Nat × Nat × Nat) (s : State) (h : Memory.wf s.mem = true) :
    Memory.wf (netPlane c d hn g s).1.mem = true := by
  unfold netPlane
  dsimp only
  split
  · exact h
  · split
    · next e => exact fst_wf e (gatBytes_wf _ _ _ _ h)
    · next e => exact fst_wf e (gatBytes_wf _ _ _ _ h)

theorem netWord_wf (die crew : Nat) (s : State) (h : Memory.wf s.mem = true) :
    Memory.wf (netWord die crew s).mem = true := by
  unfold netWord
  dsimp only
  split
  · exact h
  · split
    · exact h
    · split
      · exact h
      · split
        · exact h
        · split
          · next e =>
            have ht := fst_wf e (netPlane_wf _ _ _ _ _ h)
            exact ht
          · next e =>
            have ht := fst_wf e (netPlane_wf _ _ _ _ _ h)
            exact ht

theorem netWords_wf (n die crew : Nat) (s : State) (h : Memory.wf s.mem = true) :
    Memory.wf (netWords n die crew s).mem = true := by
  induction n generalizing s with
  | zero => exact h
  | succ n ih => exact ih _ (netWord_wf _ _ _ h)

theorem netTurn_wf (die crew : Nat) (s : State) (h : Memory.wf s.mem = true) : Memory.wf (netTurn die crew s).mem = true :=
  netWords_wf _ _ _ _ h

theorem receiver_wf (die k : Nat) (s : State) (h : Memory.wf s.mem = true) : Memory.wf (receiver die k s).mem = true := by
  unfold receiver
  split
  · exact h
  · dsimp only
    split
    · exact h
    · split
      · exact h
      · split
        · exact netFault_wf _ _ _ _ _ h
        · split
          · next e => exact netFault_wf _ _ _ _ _ (fst_wf e (edgesOf_wf _ _ _ _ h))
          · next e =>
            have ht := fst_wf e (edgesOf_wf _ _ _ _ h)
            split
            · next e' => exact netFault_wf _ _ _ _ _ (fst_wf e' (aggregate_wf _ _ _ _ _ ht))
            · next e' =>
              have hu := fst_wf e' (aggregate_wf _ _ _ _ _ ht)
              split
              · exact h
              · split
                · exact commitRow_wf _ _ _ _ _ _ _ _ hu
                · exact writeRow_wf _ _ _ _ _ _ _ _ hu

theorem finishReceivers_wf (die : Nat) (s : State) (h : Memory.wf s.mem = true) :
    Memory.wf (finishReceivers die s).mem = true := by
  unfold finishReceivers
  split
  · exact h
  · exact fold_wf _ _ _ (fun _ _ => receiver_wf _ _ _) h

@[simp] theorem startNet_mem (c r : Nat) (s : State) : (startNet c r s).mem = s.mem := by
  simp [startNet]

theorem takeNet_wf (c r : Nat) (s : State) (h : Memory.wf s.mem = true) : Memory.wf (takeNet c r s).mem = true := by
  unfold takeNet
  dsimp only
  split
  · exact h
  · split
    · exact completeRecord_wf _ _ _ h
    · split
      · exact h
      · split
        · exact h
        · split
          · next e => exact netFault_wf _ _ _ _ _ (fst_wf e (headDesc_wf _ _ _ _ h))
          · next e =>
            have ht := fst_wf e (headDesc_wf _ _ _ _ h)
            split
            · exact netFault_wf _ _ _ _ _ ht
            · rw [startNet_mem]; exact ht

@[simp] theorem leaveSeat_mem (die crew : Nat) (s : State) : (leaveSeat die crew s).mem = s.mem := by
  unfold leaveSeat
  dsimp only
  (repeat' split) <;> simp

/-! ### Task, synchronisation and system words: what leaves memory, and what keeps it canonical -/

theorem spawnWord_wf (sd : Side) (d a b : Nat) (s : State) (h : Memory.wf s.mem = true) :
    Memory.wf (spawnWord sd d a b s).mem = true := by
  refine syncWord_wf _ _ _ _ _ h ?_
  dsimp only
  split
  · exact h
  · split
    · exact h
    · split
      · exact h
      · exact release_wf _ _ _ h (releaseTo_wf _ _ h) (releaseTo_wf _ _ h)

@[simp] theorem endFaultTask_mem (f : Frame) (s : State) : (endFaultTask f s).mem = s.mem := by
  simp [endFaultTask]

theorem waitOn_wf (kind : WKind) (mask : Addr) (d arg : Nat) (link : Option (Nat × Nat)) (enlist : Nat → State → State)
    (s : State)
    (h : Memory.wf s.mem = true) (he : ∀ i t, Memory.wf t.mem = true → Memory.wf (enlist i t).mem = true) :
    Memory.wf (settle (waitOn kind mask d arg link enlist s) s).mem = true := by
  unfold waitOn
  split
  · exact h
  · exact registerWait_wf _ _ _ _ _ _ _ h he

theorem resolveWord_wf (a : Nat) (word : State → Except Trap Nat) (srcs : List Nat) (s : State)
    (h : Memory.wf s.mem = true) :
    Memory.wf (resolveWord a word srcs s).mem = true := by
  have hf : ∀ far : Bool, Memory.wf (if far = true then flushDie (dieOf s.cur.core) s else s).mem = true := by
    intro far
    split
    · exact flushDie_wf _ _ h
    · exact h
  refine syncWord_wf _ _ _ _ _ h ?_
  dsimp only
  split
  · exact h
  · exact h
  · split
    · exact h
    · refine release_wf _ _ _ h (hf _) ?_
      rw [settle_ok, finish_mem]
      exact resolveFuture_wf _ _ _ (hf _)

theorem arrive_wf (group : State → Option (List Nat)) (shape a : Nat) (s : State) (h : Memory.wf s.mem = true) :
    Memory.wf (arrive group shape a s).mem = true := by
  refine syncWord_wf _ _ _ _ _ h ?_
  dsimp only
  split
  · exact h
  · next cores _ =>
    have hr : Memory.wf (if (cores.any fun c => dieOf c != dieOf s.cur.core) = true
        then flushDie (dieOf s.cur.core) s else s).mem = true := by
      split
      · exact flushDie_wf _ _ h
      · exact h
    split
    · exact h
    · split
      · refine release_wf _ _ _ h hr ?_
        exact fold_wf _ _ _ (fun _ _ => fold_wf _ _ _ fun _ _ h => h) hr
      · exact release_wf _ _ _ h hr (settle_wf h (waitOn_wf _ _ _ _ _ _ _ hr fun _ _ h => h))

theorem armBar_wf (clr : Bool) (a b : Nat) (s : State) (h : Memory.wf s.mem = true) :
    Memory.wf (armBar clr a b s).mem = true := by
  refine syncWord_wf _ _ _ _ _ h ?_
  dsimp only
  split
  · exact h
  · simp only [settle_ok, finish_mem, testBar_mem]
    split
    · rw [releasePhase_mem]; exact h
    · exact h

theorem privSync_wf (fenced : Bool) (srcs dsts : List Nat) (body : State → Except Trap State) (s : State)
    (h : Memory.wf s.mem = true)
    (hb : Memory.wf (settle (body s) s).mem = true) : Memory.wf (privSync fenced srcs dsts body s).mem = true := by
  refine xpFirst_wf _ _ _ h (syncWord_wf _ _ _ _ _ h ?_)
  split
  · exact hb
  · exact h

theorem sysWord_wf (d a : Nat) (body : State → Except Trap (Bool × State)) (s : State) (h : Memory.wf s.mem = true)
    (hb : ∀ b t, body s = .ok (b, t) → Memory.wf t.mem = true) : Memory.wf (sysWord d a body s).mem = true := by
  refine privSync_wf _ _ _ _ _ h ?_
  split
  · exact h
  all_goals
    next e =>
      have ht := hb _ _ e
      exact ht

@[simp] theorem dropPages_mem (gone : Page → Bool) (s : State) : (dropPages gone s).mem = s.mem := rfl

theorem emptyRlc_wf (die : Nat) (s : State) (h : Memory.wf s.mem = true) : Memory.wf (emptyRlc die s).mem = true := by
  unfold emptyRlc
  simp [h, emptyLines_wf]

/-! ### Heats: what leaves memory, and what keeps it canonical -/

@[simp] theorem joinQueue_mem (h : Heat) (s : State) : (joinQueue h s).mem = s.mem := rfl

@[simp] theorem putHeat_mem (h : Heat) (s : State) : (putHeat h s).mem = s.mem := rfl

@[simp] theorem enqueueHeat_mem (h : Heat) (s : State) : (enqueueHeat h s).mem = s.mem := rfl

@[simp] theorem dequeueHeat_mem (h : Heat) (s : State) : (dequeueHeat h s).mem = s.mem := rfl

@[simp] theorem rejoin_mem (s : State) : (rejoin s).mem = s.mem :=
  fold_mem _ _ _ fun _ _ => by split <;> rfl

@[simp] theorem reserve_mem (s0 : State) : (reserve s0).mem = s0.mem := by
  simp [reserve]

@[simp] theorem freeCore_mem (c : Nat) (s : State) : (freeCore c s).mem = s.mem := by
  unfold freeCore
  dsimp only
  (repeat' split) <;> simp

@[simp] theorem dropNetSeat_mem (crew : Nat) (s : State) : (dropNetSeat crew s).mem = s.mem := by
  unfold dropNetSeat
  split <;> simp

@[simp] theorem freeCores_mem (hh : Heat) (s : State) : (freeCores hh s).mem = s.mem :=
  fold_mem _ _ _ fun _ _ => by simp

theorem zeroPool_wf (c : Nat) (s : State) (h : Memory.wf s.mem = true) :
    Memory.wf (zeroPool c s).mem = true := filter_wf _ _ h

@[simp] theorem passCrew_mem (crew ctx : Nat) (s : State) : (passCrew crew ctx s).mem = s.mem := rfl

theorem passCore_wf (ctx c : Nat) (s : State) (h : Memory.wf s.mem = true) : Memory.wf (passCore ctx c s).mem = true := by
  unfold passCore
  split <;> simp [h, zeroPool_wf]

theorem passRlc_wf (die ctx : Nat) (s : State) (h : Memory.wf s.mem = true) : Memory.wf (passRlc die ctx s).mem = true := by
  unfold passRlc
  simp [h, emptyLines_wf]

@[simp] theorem clearPast_mem (ctx : Nat) (s : State) : (clearPast ctx s).mem = s.mem := by
  unfold clearPast
  split <;> simp

theorem readyCaches_wf (h : Heat) (s : State) (hs : Memory.wf s.mem = true) : Memory.wf (readyCaches h s).mem = true := by
  unfold readyCaches
  dsimp only
  (repeat' split) <;> simp [hs, emptyLines_wf, settleLines_wf]

theorem admitHints_wf (hr : HeatRec) (s t : State) (l : List ((Nat × Nat) × Nat)) (e : admitHints hr s l = .ok t)
    (h : Memory.wf s.mem = true) : Memory.wf t.mem = true := by
  induction l generalizing s with
  | nil => cases e; exact h
  | cons p r ih =>
    unfold admitHints at e
    split at e
    · exact ih _ e h
    · split at e
      · cases e
      · exact ih _ e (admitSet_wf _ _ h)

theorem restorePart_wf (p : Nat × Nat × List Byte) (s : State) (h : Memory.wf s.mem = true) :
    Memory.wf (restorePart p s).mem = true := by
  unfold restorePart
  simp [h, writeKey_wf]

theorem applyRestores_wf (hr : HeatRec) (s : State) (h : Memory.wf s.mem = true) :
    Memory.wf (applyRestores hr s).mem = true :=
  fold_wf _ _ _ (fun _ _ => restorePart_wf _ _) h

theorem applyHeld_wf (hr : HeatRec) (s : State) (h : Memory.wf s.mem = true) : Memory.wf (applyHeld hr s).mem = true := by
  refine fold_wf _ _ _ (fun t i ht => ?_) h
  dsimp only
  split
  · split
    · rw [raiseSema_mem]; exact partWrite_wf _ _ _ _ ht
    · exact ht
  · exact ht

theorem startFresh_wf (hh : Heat) (s : State) (h : Memory.wf s.mem = true) : Memory.wf (startFresh hh s).mem = true := by
  unfold startFresh
  rw [State.modHeat_mem]
  exact applyHeld_wf _ _ (applyRestores_wf _ _ (fold_wf _ _ _ (fun _ _ h => h) h))

theorem startResume_wf (hh : Heat) (m : Image) (s : State) (h : Memory.wf s.mem = true) :
    Memory.wf (startResume hh m s).mem = true := by
  unfold startResume
  rw [State.modHeat_mem]
  exact applyHeld_wf _ _ (applyRestores_wf _ _ (fold_wf _ _ s (fun _ _ => restoreCore_wf _ _ _ _) h))

theorem failLaunch_wf (h : Heat) (code : Code) (s : State) (hs : Memory.wf s.mem = true) :
    Memory.wf (failLaunch h code s).mem = true := by
  unfold failLaunch
  simp [hs, releaseSets_wf]

/-- What a starting heat's cores and dies hold of their last heat's lines is passed on. -/
theorem passAll_wf (ctx : Nat) (cores dies : List Nat) (s : State) (h : Memory.wf s.mem = true) :
    Memory.wf (dies.foldl (fun s d => passRlc d ctx s) (cores.foldl (fun s c => passCore ctx c s) s)).mem = true :=
  fold_wf _ _ _ (fun _ _ => passRlc_wf _ _ _) (fold_wf _ _ _ (fun _ _ => passCore_wf _ _ _) h)

theorem launchHeat_wf (h0 : Heat) (o : Nat × Nat) (s : State) (h : Memory.wf s.mem = true) :
    Memory.wf (launchHeat h0 o s).mem = true := by
  have hr : Memory.wf (dequeueHeat h0 (readyCaches h0 s)).mem = true := by
    rw [dequeueHeat_mem]; exact readyCaches_wf h0 s h
  unfold launchHeat
  dsimp only
  split
  · refine failLaunch_wf _ _ _ ?_
    simp only [ite_mem, State.modCtx_mem, ite_self]
    exact fold_wf _ _ _ (fun _ _ h => h) hr
  · next e =>
    have ht := admitHints_wf _ _ _ _ e (by
      simp only [ite_mem, State.modCtx_mem, ite_self]
      exact fold_wf _ _ _ (fun _ _ h => h) hr)
    split
    · exact startResume_wf _ _ _ (passAll_wf _ _ _ _ ht)
    · exact failLaunch_wf _ _ _ (passAll_wf _ _ _ _ ht)
    · exact startFresh_wf _ _ (passAll_wf _ _ _ _ ht)

@[simp] theorem freeLanes_mem (number : Nat) (s : State) : (freeLanes number s).mem = s.mem := rfl

@[simp] theorem markSaving_mem (x : Heat) (s : State) : (markSaving x s).mem = s.mem := by
  unfold markSaving
  split <;> simp

theorem finishNets_wf (x : Heat) (s : State) (h : Memory.wf s.mem = true) : Memory.wf (finishNets x s).mem = true := by
  refine fold_wf _ _ _ (fun t c ht => by rw [dropNetSeat_mem]; exact ht) (fold_wf _ _ _ (fun t d ht => ?_) h)
  split
  · split
    · exact finishReceivers_wf _ _ ht
    · exact ht
  · exact ht

theorem stopForSave_wf (x : Heat) (s : State) (h : Memory.wf s.mem = true) : Memory.wf (stopForSave x s).mem = true := by
  unfold stopForSave
  simp [h, finishNets_wf]

@[simp] theorem closeStreams_mem (hh : Heat) (s : State) : (closeStreams hh s).mem = s.mem := fold_mem _ _ _ fun _ _ => rfl

theorem endHeat_wf (hh : Heat) (code : Nat) (s : State) (h : Memory.wf s.mem = true) :
    Memory.wf (endHeat hh code s).mem = true := by
  have hf := flushDie_wf 1 _ (flushDie_wf 0 _ (releaseSets_wf (fun m => m.heat == hh.hr.number) s h))
  unfold endHeat
  simp [hf]

@[simp] theorem noteActivity_mem (s : State) : (noteActivity s).mem = s.mem := fold_mem _ _ _ fun _ _ => rfl

theorem submit_mem (l : List Byte) (regions : List RegionEntry) (ring : List (BitVec 512)) (fw : Bool) (s t : State)
    (n : Nat)
    (e : submit l regions ring fw s = .ok (t, n)) : t.mem = s.mem := by
  unfold submit at e
  dsimp only at e
  split at e
  · cases e
  · cases e
    simp

/-! ### Intake channels: what leaves memory, and what keeps it canonical -/

theorem putField_wf (i off : Nat) (l : List Byte) (s : State) (h : Memory.wf s.mem = true) :
    Memory.wf (putField i off l s).mem = true := by
  unfold putField
  simp [h, partWrite_wf]

theorem putState_wf (i : Nat) (s : State) (h : Memory.wf s.mem = true) : Memory.wf (putState i s).mem = true := by
  unfold putState
  simp [h, putField_wf]

theorem endShedding_wf (s : State) (h : Memory.wf s.mem = true) : Memory.wf (endShedding s).mem = true := by
  unfold endShedding
  (repeat' split) <;> simp [h, putState_wf]

theorem testShedding_wf (s : State) (h : Memory.wf s.mem = true) : Memory.wf (testShedding s).mem = true := by
  unfold testShedding
  (repeat' split) <;> simp [h, endShedding_wf, putState_wf]

theorem acquireRps_wf (s : State) (h : Memory.wf s.mem = true) : Memory.wf (acquireRps s).mem = true := by
  refine fold_wf _ _ _ (fun t i ht => ?_) h
  dsimp only
  split
  · exact partRead_wf _ _ _ _ ht
  · exact ht

theorem bumpFull_wf (i : Nat) (s : State) (h : Memory.wf s.mem = true) : Memory.wf (bumpFull i s).mem = true := by
  unfold bumpFull
  simp [h, putField_wf]

theorem bumpShed_wf (i : Nat) (s : State) (h : Memory.wf s.mem = true) : Memory.wf (bumpShed i s).mem = true := by
  unfold bumpShed
  simp [h, putField_wf]

theorem bumpAccepted_wf (i : Nat) (s : State) (h : Memory.wf s.mem = true) : Memory.wf (bumpAccepted i s).mem = true := by
  unfold bumpAccepted
  simp [h, putField_wf]

theorem acceptRecord_wf (i : Nat) (h pay : List Byte) (s : State) (hs : Memory.wf s.mem = true) :
    Memory.wf (acceptRecord i h pay s).mem = true := by
  unfold acceptRecord
  simp [hs, bumpAccepted_wf]

theorem decideRecord_wf (i : Nat) (hd pay : List Byte) (s : State) (h : Memory.wf s.mem = true) :
    Memory.wf (decideRecord i hd pay s).mem = true := by
  unfold decideRecord
  dsimp only
  repeat' split
  · exact bumpFull_wf _ _ h
  · exact bumpShed_wf _ _ h
  · exact bumpFull_wf _ _ h
  · exact acceptRecord_wf _ _ _ _ h

theorem intakeRaise_wf (i : Nat) (s : State) (h : Memory.wf s.mem = true) : Memory.wf (intakeRaise i s).mem = true := by
  unfold intakeRaise
  dsimp only
  (repeat' split) <;> simp [h, putField_wf]

theorem commitOldest_wf (ch : Nat) (s : State) (h : Memory.wf s.mem = true) : Memory.wf (commitOldest ch s).mem = true := by
  unfold commitOldest
  dsimp only
  split
  · exact h
  · exact endShedding_wf _ (intakeRaise_wf _ _ (putField_wf _ _ _ _ (partWrite_wf _ _ _ _ h)))

theorem configChannel_wf (i : Nat) (c : IntakeCfg) (s : State) (h : Memory.wf s.mem = true) :
    Memory.wf (configChannel i c s).mem = true := by
  have hp : ∀ (l : List (Nat × List Byte)) (t : State), Memory.wf t.mem = true →
      Memory.wf (l.foldl (fun s f => putField i f.1 f.2 s) t).mem = true :=
    fun l t => fold_wf l _ t fun _ _ => putField_wf _ _ _ _
  unfold configChannel
  dsimp only
  split
  · exact hp _ _ h
  · exact fold_wf _ _ _ (fun _ _ => putField_wf _ _ _ _) (hp _ _ h)

/-! ### Holding water: what leaves memory, and what keeps it canonical -/

@[simp] theorem logEvent_mem (e : Event) (s : State) : (logEvent e s).mem = s.mem := rfl

@[simp] theorem report_mem (kind : Nat) (data : Option Nat) (s : State) : (report kind data s).mem = s.mem := by
  simp [report]

theorem powerStop_wf (s : State) (h : Memory.wf s.mem = true) : Memory.wf (powerStop s).mem = true :=
  fold_wf _ _ s (fun _ _ => finishNets_wf _ _) h

theorem commitAccepted_wf (s : State) (h : Memory.wf s.mem = true) : Memory.wf (commitAccepted s).mem = true := by
  refine fold_wf _ _ _ (fun t _ ht => ?_) h
  cases oldestChan t with
  | none => exact ht
  | some i => exact commitOldest_wf _ _ ht

@[simp] theorem endSave_mem (s : State) : (endSave s).mem = s.mem := by
  unfold endSave
  split <;> simp

@[simp] theorem startSave_mem (s : State) : (startSave s).mem = s.mem := by
  unfold startSave
  dsimp only
  (repeat' split) <;> simp

theorem writeSet_wf (m : MustSet) (r : List MustSet) (n : Nat) (s : State) (h : Memory.wf s.mem = true) :
    Memory.wf (writeSet m r n s).mem = true := by
  unfold writeSet
  simp [h, boatWrite_wf]

theorem cutSave_wf (n : Nat) (s : State) (h : Memory.wf s.mem = true) : Memory.wf (cutSave n s).mem = true := by
  unfold cutSave
  split <;> simp [h, writeSet_wf]

@[simp] theorem countSeconds_mem (die : Nat) (s : State) : (countSeconds die s).mem = s.mem := fold_mem _ _ _ fun _ _ => rfl

theorem writeLife_wf (s : State) (h : Memory.wf s.mem = true) : Memory.wf (writeLife s).mem = true := by
  unfold writeLife
  refine fold_wf _ _ _ (fun _ _ => boatWrite_wf _ _ _) ?_
  dsimp only
  split
  · rw [countSeconds_mem, countSeconds_mem]; exact h
  · rw [countSeconds_mem]; exact h

@[simp] theorem judgeDir_mem (s : State) : (judgeDir s).mem = s.mem := by
  unfold judgeDir
  split <;> simp

theorem bringUp_wf (pf uj budget : Nat) (s : State) (h : Memory.wf s.mem = true) :
    Memory.wf (bringUp pf uj budget s).mem = true := by
  unfold bringUp
  dsimp only
  (repeat' split) <;> simp [h, boatWrite_wf, writeLife_wf]

/-! ### The bridge and errors: what leaves memory, and what keeps it canonical -/

@[simp] theorem bridgeStop_mem (h : Heat) (s : State) : (bridgeStop h s).mem = s.mem := by
  simp [bridgeStop]

@[simp] theorem enterIsland_mem (s : State) : (enterIsland s).mem = s.mem := by
  unfold enterIsland
  split <;> simp

@[simp] theorem goDown_mem (s : State) : (goDown s).mem = s.mem := by
  unfold goDown
  split
  · rw [enterIsland_mem]; exact fold_mem _ _ _ fun _ _ => bridgeStop_mem ..
  · rfl

theorem whileLive_wf (c : Nat) (f : State → State) (s : State) (h : Memory.wf s.mem = true)
    (hf : ∀ t, Memory.wf t.mem = true → Memory.wf (f t).mem = true) : Memory.wf (whileLive c f s).mem = true := by
  unfold whileLive
  split
  · exact hf _ h
  · exact h

theorem serveChunk_wf (c r k : Nat) (s : State) (h : Memory.wf s.mem = true) :
    Memory.wf (serveChunk c r k s).mem = true := by
  unfold serveChunk
  dsimp only
  (repeat' split) <;>
    simp [h, accwChunk_wf, copyChunk_wf, decodeChunk_wf, fillChunk_wf, laneLoadChunk_wf, raggedChunk_wf, rowChunk_wf]

theorem completeLost_wf (w : LostReader) (s : State) (h : Memory.wf s.mem = true) :
    Memory.wf (completeLost w s).mem = true := by
  unfold completeLost
  (repeat' split) <;> simp [h, fillerCommit_wf, serveChunk_wf]

@[simp] theorem postLost_mem (a : Addr) (c : Nat) (s : State) : (postLost a c s).mem = s.mem := by
  unfold postLost
  dsimp only
  (repeat' split) <;> simp

theorem dropCopies_wf (key : Nat) (s : State) (h : Memory.wf s.mem = true) : Memory.wf (dropCopies key s).mem = true := by
  unfold dropCopies
  split <;> simp [h, recallLine_wf]

@[simp] theorem modLife_mem (f : Life → Life) (s : State) : (modLife f s).mem = s.mem := rfl

@[simp] theorem setDegraded_mem (l : List Nat) (s : State) : (setDegraded l s).mem = s.mem := rfl

@[simp] theorem bumpBank_mem (site : ErrSite) (s : State) : (bumpBank site s).mem = s.mem := rfl

@[simp] theorem countError_mem (site : ErrSite) (s : State) : (countError site s).1.mem = s.mem := by
  unfold countError
  split <;> simp

@[simp] theorem poisonGranule_mem (key : Nat) (s : State) : (poisonGranule key s).mem = s.mem := by
  unfold poisonGranule
  split <;> simp

@[simp] theorem noteRow_mem (key : Nat) (s : State) : (noteRow key s).mem = s.mem := by
  unfold noteRow
  split <;> simp

@[simp] theorem State.modCox_mem (s : State) (n : Nat) (f : Cox → Cox) : (State.modCox s n f).mem = s.mem := by
  unfold State.modCox
  split <;> simp

/-! ### The mailbox and the ports of the host: what leaves memory, and what keeps it canonical -/

@[simp] theorem State.modHost_mem (s : State) (f : HostIf → HostIf) : (State.modHost s f).mem = s.mem := rfl

@[simp] theorem State.modSlot_mem (s : State) (sl : Nat) (f : Slot → Slot) : (State.modSlot s sl f).mem = s.mem := rfl

@[simp] theorem putBarByte_mem (off : Nat) (b : Byte) (s : State) : (putBarByte off b s).mem = s.mem := by
  unfold putBarByte
  repeat' split
  · exact State.modSlot_mem ..
  · exact State.modHost_mem ..
  · exact State.modHost_mem ..
  · exact State.modHost_mem ..
  · rfl

@[simp] theorem putBarBytes_mem (off : Nat) (l : List Byte) (s : State) : (putBarBytes off l s).mem = s.mem := by
  induction l generalizing off s with
  | nil => rfl
  | cons b r ih => unfold putBarBytes; rw [ih, putBarByte_mem]

@[simp] theorem ring_mem (sl : Nat) (s : State) : (ring sl s).mem = s.mem := by
  unfold ring
  dsimp only
  (repeat' split) <;> simp

@[simp] theorem barWrite_mem (off : Nat) (l : List Byte) (s : State) : (barWrite off l s).mem = s.mem := by
  unfold barWrite
  (repeat' split) <;> simp

@[simp] theorem finishCmd_mem (sl res : Nat) (resp : List Byte) (s : State) : (finishCmd sl res resp s).mem = s.mem := rfl

@[simp] theorem repeatCmd_mem (sl : Nat) (s : State) : (repeatCmd sl s).mem = s.mem := rfl

@[simp] theorem runSlot_mem (sl : Nat) (s : State) : (runSlot sl s).mem = s.mem := rfl

/-- Every state a mailbox command answers has memory in the canonical form. -/
def Served (r : Option (State × Nat × List Byte)) : Prop := ∀ x ∈ r, Memory.wf x.1.mem = true

theorem serve_wf (sl cmd : Nat) (args : Option (List Byte)) (f : Cmd) (s : State) (h : Memory.wf s.mem = true)
    (hf : Served (f s)) : Memory.wf (serve sl cmd args f s).mem = true := by
  unfold serve
  dsimp only
  split
  · exact h
  · split
    · exact h
    · split
      · exact h
      · split
        · next e => exact hf _ e
        · exact h

@[simp] theorem freeCode_mem (s : State) : (freeCode s).1.mem = s.mem := rfl

@[simp] theorem answerUnknown_mem (s : State) : (answerUnknown s).mem = s.mem := by
  unfold answerUnknown
  dsimp only
  (repeat' split) <;> simp

@[simp] theorem badAccess_mem (va : Nat) (s : State) : (badAccess va s).mem = s.mem := by
  simp [badAccess]

@[simp] theorem xspiOut_mem (l : List Byte) (s : State) : (xspiOut l s).mem = s.mem := rfl

theorem stageWrite_wf (a : Nat) (l : List Byte) (s : State) (h : Memory.wf s.mem = true) :
    Memory.wf (stageWrite a l s).mem = true := by
  induction l generalizing a s with
  | nil => exact h
  | cons b r ih =>
    unfold stageWrite
    refine ih _ _ ?_
    split
    · exact memSet_wf _ _ _ h
    · exact h

@[simp] theorem takeUp_mem (s : State) : (takeUp s).mem = s.mem := by
  unfold takeUp
  dsimp only
  (repeat' split) <;> simp

theorem afterStep_wf (s : State) (h : Memory.wf s.mem = true) : Memory.wf (afterStep s).mem = true := by
  have he := evictLines_wf ((s.die 0).rlc.length + (s.die 1).rlc.length) 1 _
    (evictLines_wf ((s.die 0).rlc.length + (s.die 1).rlc.length) 0 s h)
  unfold afterStep
  dsimp only
  rw [takeUp_mem, answerUnknown_mem, answerUnknown_mem, reserve_mem]
  exact endShedding_wf _ ((noteActivity_mem _).symm ▸ he)

/-! ### Commands of the mailbox: what leaves memory, and what keeps it canonical -/

theorem copyMs_wf (s : State) (h : Memory.wf s.mem = true) : Memory.wf (copyMs s).mem = true := by
  unfold copyMs
  simp [h, boatWrite_wf]

theorem extendMs_wf (i : Nat) (d : BitVec 256) (s : State) (h : Memory.wf s.mem = true) :
    Memory.wf (extendMs i d s).mem = true := by
  unfold extendMs
  simp [h, copyMs_wf]

theorem setOwners_wf (l : List (BitVec 256)) (s : State) (h : Memory.wf s.mem = true) :
    Memory.wf (setOwners l s).mem = true := by
  unfold setOwners
  simp [h, boatWrite_wf, extendMs_wf]

theorem measure_wf (cmd : Nat) (args : List Byte) (s : State) (h : Memory.wf s.mem = true) :
    Memory.wf (measure cmd args s).mem = true := by
  unfold measure
  simp [h, extendMs_wf]

theorem measureBoot_wf (s : State) (h : Memory.wf s.mem = true) : Memory.wf (measureBoot s).mem = true := by
  unfold measureBoot
  dsimp only
  (repeat' split) <;> grind [extendMs_wf]

@[simp] theorem startFirmware_mem (s : State) : (startFirmware s).mem = s.mem := by
  unfold startFirmware
  dsimp only
  (repeat' split) <;> simp

theorem wipe_wf (s : State) (h : Memory.wf s.mem = true) :
    Memory.wf (wipe s).mem = true := setOwners_wf _ _ (filter_wf _ _ h)

theorem zeroKeys_wf (key n : Nat) (s : State) (h : Memory.wf s.mem = true) :
    Memory.wf (zeroKeys key n s).mem = true := filter_wf _ _ h

theorem resizeWindow_wf (die ctx old new : Nat) (s : State) (h : Memory.wf s.mem = true) :
    Memory.wf (resizeWindow die ctx old new s).mem = true := by
  unfold resizeWindow
  simp [h, zeroKeys_wf]

@[simp] theorem reserveLanes_mem (ctx : Nat) (m : BitVec 128) (s : State) : (reserveLanes ctx m s).mem = s.mem :=
  fold_mem _ _ _ fun _ _ => by simp

theorem dropLines_wf (die ctx va n : Nat) (s : State) (h : Memory.wf s.mem = true) :
    Memory.wf (dropLines die ctx va n s).mem = true :=
  fold_wf _ _ _ (fun _ _ => writeBack_wf _ _ _) h

theorem endUnmap_wf (ctx va n : Nat) (s : State) (h : Memory.wf s.mem = true) :
    Memory.wf (endUnmap ctx va n s).mem = true := by
  unfold endUnmap
  dsimp only
  rw [dropPages_mem]
  exact fold_wf _ _ _ (fun _ _ => fold_wf _ _ _ fun _ _ => dropLines_wf _ _ _ _ _) h

theorem launchFw_mem (arg : LaunchArgs) (s : State) : (launchFw arg s).mem = s.mem := by
  unfold launchFw
  split
  · rfl
  · split
    · simp
    · next e => exact submit_mem _ _ _ _ _ _ _ e

theorem ringAct_wf (h : Heat) (a : Nat × Nat × RingAct) (s : State) (hs : Memory.wf s.mem = true) :
    Memory.wf (ringAct h a s).mem = true := by
  unfold ringAct
  dsimp only
  (repeat' split) <;> simp [hs, dropHead_wf]

@[simp] theorem walkAct_mem (h : Heat) (a : Nat × Nat) (s : State) : (walkAct h a s).mem = s.mem := by
  unfold walkAct
  (repeat' split) <;> simp

@[simp] theorem continueStopped_mem (l : List Delivery) (c : Nat) (sd : Side) (s : State) :
    (continueStopped l c sd s).mem = s.mem := by
  unfold continueStopped
  split <;> simp

theorem continueHeat_wf (hh : Heat) (acts : HeatActs) (s : State) (h : Memory.wf s.mem = true) :
    Memory.wf (continueHeat hh acts s).mem = true := by
  refine fold_wf _ _ _ (fun t c ht => by rw [continueStopped_mem, continueStopped_mem]; exact ht) ?_
  refine fold_wf _ _ _ (fun t c ht => by rw [walkAct_mem]; exact ht) ?_
  exact fold_wf _ _ _ (fun t c ht => ringAct_wf _ _ _ ht) (fold_wf _ _ _ (fun _ _ h => h) h)

theorem removeHeat_wf (hh : Heat) (s : State) (h : Memory.wf s.mem = true) : Memory.wf (removeHeat hh s).mem = true := by
  unfold removeHeat
  split
  · simpa using h
  · rw [reserve_mem]; exact endHeat_wf _ _ _ h
  · rw [reserve_mem]
    exact endHeat_wf _ _ _ (fold_wf _ _ _ (fun _ _ => settleCore_wf _ _) (finishNets_wf _ _ h))

/-! ### Steering: what leaves memory, and what keeps it canonical -/

@[simp] theorem resteer_mem (s : State) : (resteer s).mem = s.mem := by
  unfold resteer
  (repeat' split) <;> simp

@[simp] theorem steerWord_mem (w : Word) (i : Instr) (s : State) : (steerWord w i s).mem = s.mem := by
  unfold steerWord
  (repeat' split) <;> simp

theorem xpSteer_wf (c : Nat) (s : State) (h : Memory.wf s.mem = true) : Memory.wf (xpSteer c s).mem = true := by
  unfold xpSteer
  dsimp only
  split
  · exact h
  · split
    · rw [resteer_mem]; exact h
    · split
      · exact h
      · split
        · exact h
        · next e =>
          have ht := fetchWord_wf _ _ _ _ _ e h
          split
          · split
            · rw [steerWord_mem]; exact ht
            · exact ht
          · exact ht

/-! ### Sequencer words: what leaves memory, and what keeps it canonical -/

theorem xpAlu_wf (srcs : List Nat) (d : Nat) (f : Core → Addr) (s : State) (h : Memory.wf s.mem = true) :
    Memory.wf (xpAlu srcs d f s).mem = true :=
  xpWord_wf _ _ _ _ h h

theorem xpAlu3_wf (f : Addr → Addr → Addr) (d a b : Nat) (s : State) (h : Memory.wf s.mem = true) :
    Memory.wf (xpAlu3 f d a b s).mem = true :=
  xpAlu_wf _ _ _ _ h

theorem xpFloat_wf (srcs : List Nat) (d : Nat) (f : Core → FRes) (s : State) (h : Memory.wf s.mem = true) :
    Memory.wf (xpFloat srcs d f s).mem = true := xpWord_wf _ _ _ _ h h

theorem openLsp_wf (v : Addr) (o : BitVec 18) (s : State) (h : Memory.wf s.mem = true) :
    Memory.wf (settle (openLsp v o s) s).mem = true := by
  unfold openLsp
  dsimp only
  repeat' split
  all_goals exact h

theorem xpCsrWrite_wf (len c : Nat) (srcs : List Nat) (v : Core → Addr) (s : State) (h : Memory.wf s.mem = true) :
    Memory.wf (xpCsrWrite len c srcs v s).mem = true := by
  refine xpChecked_wf _ _ _ _ _ h ?_
  split
  · exact h
  · exact csrWrite_wf _ _ _ _ _ h

theorem vsetWord_wf (srcs : List Nat) (e : Nat) (f : Core → BitVec 64) (s : State) (h : Memory.wf s.mem = true) :
    Memory.wf (vsetWord srcs e f s).mem = true := by
  refine xpChecked_wf _ _ _ _ _ h ?_
  dsimp only
  split <;> exact h

theorem nsetPort_wf (port : Nat) (s : State) (h : Memory.wf s.mem = true) :
    Memory.wf (settle (nsetPort port s) s).mem = true := by
  unfold nsetPort
  dsimp only
  split
  · exact h
  · exact h
  · rw [settle_ok, finish_mem, State.modMe_mem, portAdvance_mem, portAdvance_mem]
    exact h

theorem nsetWord_wf (c : Nat) (s : State) (h : Memory.wf s.mem = true) : Memory.wf (settle (nsetWord c s) s).mem = true := by
  unfold nsetWord
  split
  · exact h
  · split
    · exact h
    · split
      · exact nsetPort_wf _ _ h
      · dsimp only
        split <;> exact h

/-! ### Outcomes whose next state keeps memory canonical -/

/-- Every next state of an outcome has memory in the canonical form. -/
def Canonical (r : Res) : Prop := ∀ t, r = .next t → Memory.wf t.mem = true

theorem canonical_next {t : State} (h : Memory.wf t.mem = true) : Canonical (.next t) := by
  rintro _ ⟨⟩; exact h

theorem served_none : Served none := by
  rintro _ ⟨⟩

theorem okay_served (l : List Byte) (s : State) (h : Memory.wf s.mem = true) : Served (okay l s) := by
  rintro _ ⟨⟩; exact h

theorem deny_served (code : Nat) (s : State) (h : Memory.wf s.mem = true) : Served (deny code s) := by
  rintro _ ⟨⟩; exact h

theorem denyOpen_served (s : State) (h : Memory.wf s.mem = true) : Served (denyOpen s) := by
  rintro _ ⟨⟩; simpa using h

theorem numbered_served (n limit : Nat) (f : Cmd) (s : State) (h : Memory.wf s.mem = true) (hf : Served (f s)) :
    Served (numbered n limit f s) := by
  unfold numbered
  split
  · exact hf
  · exact denyOpen_served _ h

theorem tokenCmd_served (ok : Bool) (s : State) (h : Memory.wf s.mem = true) : Served (tokenCmd ok s) := by
  unfold tokenCmd
  split
  · exact deny_served _ _ h
  · split
    · exact okay_served _ _ (wipe_wf _ h)
    · exact deny_served _ _ h

theorem launchCmd_served (arg : LaunchArgs) (s : State) (h : Memory.wf s.mem = true) : Served (launchCmd arg s) := by
  unfold launchCmd
  split
  · exact deny_served _ _ h
  · split
    · exact deny_served _ _ h
    · next e =>
      refine okay_served _ _ ?_
      rw [submit_mem _ _ _ _ _ _ _ e]
      exact h

theorem restoreSections_wf (d : DirRec) (off target : Nat) (s t : State) (e : restoreSections d off target s = some t)
    (h : Memory.wf s.mem = true) : Memory.wf t.mem = true := by
  unfold restoreSections at e
  split at e
  · cases e; exact h
  · dsimp only at e
    split at e
    · split at e
      · obtain ⟨b, -, rfl⟩ := Option.map_eq_some_iff.1 e
        exact storeImage_wf _ _ h
      · split at e
        · cases e; exact partWrite_wf _ _ _ _ h
        · cases e
    · cases e

theorem restoreSet_served (d : DirRec) (target : Nat) (s : State)
    (h : Memory.wf s.mem = true) : Served (restoreSet d target s) := by
  unfold restoreSet
  dsimp only
  split
  · exact denyOpen_served _ h
  · split
    · exact served_none
    · split
      · exact denyOpen_served _ h
      · next e =>
        have ht := fun l : List ((Nat × Nat × Nat) × List Byte) =>
          fold_wf l _ _ (fun t r => partWrite_wf d.set.ctx r.1.1 r.2 t) (restoreSections_wf _ _ _ _ _ e h)
        refine okay_served _ _ ?_
        split <;> exact ht _

/-! ### The instructions with a body of their own -/

theorem execShape_wf (k a : Nat) (s : State) (h : Memory.wf s.mem = true) : Canonical (execShape k a s) := by
  refine canonical_next (streamWord_wf _ _ _ _ h ?_)
  dsimp only
  split
  · exact h
  · split
    · exact h
    · next e =>
      have ht := readRecord_wf _ _ _ _ _ e h
      split
      · exact ht
      · exact h

theorem execSclose_wf (k : Nat) (s : State) (h : Memory.wf s.mem = true) : Canonical (execSclose k s) := by
  refine canonical_next (streamWord_wf _ _ _ _ h ?_)
  split
  · rw [settle_ok, finish_mem, closePort_mem]; exact h
  · exact h

theorem execSsave_wf (k a : Nat) (s : State) (h : Memory.wf s.mem = true) : Canonical (execSsave k a s) := by
  refine canonical_next (streamWord_wf _ _ _ _ h ?_)
  dsimp only
  split
  · split
    · exact h
    · split
      · exact h
      · split
        · exact h
        · rw [settle_ok, finish_mem, dropStream_mem]
          exact writeRing_wf _ _ _ _ (writeAt_wf _ _ _ _ _ _ h)
  · exact h

theorem execSrest_wf (a : Nat) (s : State) (h : Memory.wf s.mem = true) : Canonical (execSrest a s) := by
  refine canonical_next (streamWord_wf _ _ _ _ h ?_)
  dsimp only
  split
  · exact h
  · split
    · exact h
    · next e =>
      have ht := readRecord_wf _ _ _ _ _ e h
      split
      · exact h
      · split
        · exact h
        · next e' =>
          have hu := readRecord_wf _ _ _ _ _ e' ht
          rw [settle_ok, finish_mem, putStream_mem]
          exact ringWrite_wf _ _ _ _ _ _ hu

theorem execCmd_wf (d a r : Nat) (s : State) (h : Memory.wf s.mem = true) : Canonical (execCmd d a r s) := by
  refine canonical_next (streamWord_wf _ _ _ _ h ?_)
  dsimp only
  split
  · exact h
  · split
    · exact h
    · next e =>
      have ht := readRecord_wf _ _ _ _ _ e h
      split
      · exact h
      · next e' =>
        have hu := ok_wf e' (recordCheck_wf _ _ _ _ ht)
        split
        · exact h
        · refine settle_wf h (release_wf _ _ _ hu hu ?_)
          simpa using hu

theorem execMust_wf (d a : Nat) (s : State) (h : Memory.wf s.mem = true) : Canonical (execMust d a s) := by
  refine canonical_next (syncWord_wf _ _ _ _ _ h ?_)
  dsimp only
  split
  · exact h
  · split
    · exact h
    · exact h
    · next e _ =>
      have ht := readRecord_wf _ _ _ _ _ e h
      split
      · exact h
      · split
        · exact h
        · split
          · exact ht
          · rw [settle_ok, finish_mem, State.put_mem]
            exact admitSet_wf _ _ ht

theorem execSclq_wf (k : Nat) (s : State) (h : Memory.wf s.mem = true) : Canonical (execSclq k s) := by
  refine canonical_next (passWord_wf _ _ h ?_)
  repeat' split
  all_goals simpa using h

theorem execRpop_wf (v : Nat) (s : State) (h : Memory.wf s.mem = true) : Canonical (execRpop v s) := by
  refine canonical_next (passWord_wf _ _ h ?_)
  repeat' split
  all_goals simpa using h

theorem execRsend_wf (k : Nat) (s : State) (h : Memory.wf s.mem = true) : Canonical (execRsend k s) := by
  refine canonical_next (passWord_wf _ _ h ?_)
  (repeat' split) <;> simp [h, portWrite_wf]

theorem execNetReceiverDone_wf (die i : Nat) (s : State)
    (h : Memory.wf s.mem = true) : Canonical (execNetReceiverDone die i s) := by
  refine canonical_next ?_
  split
  · dsimp only
    split
    · rw [askSeats_mem]
      refine receiver_wf _ _ _ (fold_wf _ _ _ (fun _ _ => netTurn_wf _ _ _) ?_)
      exact h
    · exact h
  · exact h

theorem execWait_wf (d a cnt n : Nat) (s : State) (h : Memory.wf s.mem = true) : Canonical (execWait d a cnt n s) := by
  refine canonical_next (xpFirst_wf _ _ _ h (syncWord_wf _ _ _ _ _ h ?_))
  dsimp only
  split
  · exact h
  · split
    · exact h
    · exact waitOn_wf _ _ _ _ _ _ _ h fun _ _ ht => ht

theorem execRaise_wf (a cnt n : Nat) (s : State) (h : Memory.wf s.mem = true) : Canonical (execRaise a cnt n s) := by
  refine canonical_next (xpFirst_wf _ _ _ h (syncWord_wf _ _ _ _ _ h ?_))
  split
  · exact h
  · split
    · exact release_wf _ _ _ h h (by simpa using h)
    · split
      · exact h
      · have hr := releaseTo_wf (s.rd a).toNat s h
        exact release_wf _ _ _ h hr (by simpa using hr)

theorem execFwait_wf (d a b : Nat) (s : State) (h : Memory.wf s.mem = true) : Canonical (execFwait d a b s) := by
  refine canonical_next (syncWord_wf _ _ _ _ _ h ?_)
  dsimp only
  split
  · exact h
  · split
    · exact h
    · split
      · exact h
      · exact waitOn_wf _ _ _ _ _ _ _ h fun _ _ => setFuture_wf _ _ _

theorem execBwait_wf (d a : Nat) (ph : Bool) (b : Nat) (s : State)
    (h : Memory.wf s.mem = true) : Canonical (execBwait d a ph b s) := by
  refine canonical_next (syncWord_wf _ _ _ _ _ h ?_)
  dsimp only
  split
  · exact h
  · split
    · exact h
    · exact waitOn_wf _ _ _ _ _ _ _ h fun _ _ ht => ht

theorem execRtt_wf (s : State) (h : Memory.wf s.mem = true) : Canonical (execRtt s) := by
  refine canonical_next (syncWord_wf _ _ _ _ _ h ?_)
  split
  · split
    · exact h
    · simpa using h
  · exact h

theorem execSysXctx_wf (d a : Nat) (s : State) (h : Memory.wf s.mem = true) : Canonical (execSysXctx d a s) := by
  refine canonical_next (sysWord_wf _ _ _ _ h fun b t e => ?_)
  split at e
  · cases e
  · cases e; simpa using h

theorem execSysRlc_wf (d a : Nat) (s : State) (h : Memory.wf s.mem = true) : Canonical (execSysRlc d a s) := by
  refine canonical_next (sysWord_wf _ _ _ _ h fun b t e => ?_)
  cases e
  exact emptyRlc_wf _ _ (emptyRlc_wf _ _ h)

theorem execSysTbsync_wf (d a : Nat) (s : State) (h : Memory.wf s.mem = true) : Canonical (execSysTbsync d a s) := by
  refine canonical_next (sysWord_wf _ _ _ _ h fun b t e => ?_)
  repeat' split at e
  all_goals cases e; simpa using h

theorem execPreempt_wf (s : State) (h : Memory.wf s.mem = true) : Canonical (execPreempt s) := by
  refine canonical_next ?_
  split
  · exact h
  · split
    · rw [reserve_mem]
      refine fold_wf _ _ _ (fun _ _ => stopForSave_wf _ _) ?_
      exact h
    · exact h

theorem execPreemptSaveDone_wf (num : Nat) (s : State)
    (h : Memory.wf s.mem = true) : Canonical (execPreemptSaveDone num s) := by
  refine canonical_next ?_
  split
  · split
    · exact h
    · dsimp only
      rw [reserve_mem, enqueueHeat_mem, freeCores_mem]
      exact storeImage_wf _ _ (fold_wf _ _ _ (fun _ _ => settleCore_wf _ _) h)
  · exact h

theorem execIntakeRecord_wf (ch : Nat) (hdr pay : List Byte) (s : State) (h : Memory.wf s.mem = true) :
    Canonical (execIntakeRecord ch hdr pay s) := by
  have ht := endShedding_wf _ (acquireRps_wf s h)
  refine canonical_next ?_
  dsimp only
  split
  · exact h
  · refine testShedding_wf _ ?_
    split
    · exact decideRecord_wf _ _ _ _ ht
    · exact ht

theorem execLaunchRecordTaken_wf (ch : Nat) (s : State)
    (h : Memory.wf s.mem = true) : Canonical (execLaunchRecordTaken ch s) := by
  have ha : ∀ t : State, Memory.wf t.mem = true → Memory.wf (acquireRps t).mem = true := acquireRps_wf
  refine canonical_next ?_
  dsimp only
  split
  · exact h
  · split
    · exact h
    · refine endShedding_wf _ ?_
      split
      · rw [postEvent_mem]; exact ha _ h
      · split
        · rw [postEvent_mem]; exact ha _ h
        · next e => rw [submit_mem _ _ _ _ _ _ _ e]; exact ha _ h

theorem execSupplyLoss_wf (s : State) (h : Memory.wf s.mem = true) : Canonical (execSupplyLoss s) := by
  have hd : ∀ f, Memory.wf (dropReads f (commitAccepted (noLink s))).mem = true := fun f => by
    rw [dropReads_mem]; exact commitAccepted_wf _ h
  refine canonical_next ?_
  split
  · exact h
  · have hp := powerStop_wf _ (hd fun w => !finishesRead s w)
    have hf := flushDie_wf 1 _ (flushDie_wf 0 _ hp)
    dsimp only
    exact hf

theorem execQuiesceComplete_wf (s : State) (h : Memory.wf s.mem = true) : Canonical (execQuiesceComplete s) := by
  refine canonical_next ?_
  split
  · exact h
  · rw [startSave_mem]
    exact fold_wf _ _ _ (fun _ _ => settleCore_wf _ _) h

theorem execLostReadComplete_wf (j : Nat) (s : State)
    (h : Memory.wf s.mem = true) : Canonical (execLostReadComplete j s) := by
  refine canonical_next ?_
  split
  · split
    · exact whileLive_wf _ _ _ h fun _ => completeLost_wf _ _
    · exact h
  · exact h

theorem execLostWritePoison_wf (j : Nat) (s : State) (h : Memory.wf s.mem = true) : Canonical (execLostWritePoison j s) := by
  refine canonical_next ?_
  split
  · split
    · dsimp only
      rw [fold_mem _ _ _ fun _ _ => postLost_mem .., poisonKey_mem]
      exact dropCopies_wf _ _ h
    · exact h
  · exact h

theorem execHostBar4Write_wf (off : Nat) (bytes : List Byte) (s : State) (h : Memory.wf s.mem = true) :
    Canonical (execHostBar4Write off bytes s) := by
  refine canonical_next ?_
  split
  · exact h
  · refine fold_wf _ _ _ (fun t p ht => ?_) h
    split
    · exact partWrite_wf _ _ _ _ ht
    · rw [badAccess_mem]; exact ht

theorem execHostBar4Read_wf (off n : Nat) (s : State)
    (h : Memory.wf s.mem = true) : Canonical (execHostBar4Read off n s) := by
  refine canonical_next ?_
  split
  · exact h
  · refine fold_wf _ _ _ (fun t p ht => ?_) h
    split
    · exact partRead_wf _ _ _ _ ht
    · rw [badAccess_mem]; exact ht

theorem execFwLoad_wf (sl : Nat) (s : State) (h : Memory.wf s.mem = true) : Canonical (execFwLoad sl s) := by
  refine canonical_next (serve_wf _ _ _ _ _ h ?_)
  split
  · exact deny_served _ _ h
  · split
    · refine okay_served _ _ ?_
      rw [startFirmware_mem]
      exact measureBoot_wf _ h
    · exact denyOpen_served _ h

theorem execQuote_wf (sl : Nat) (nonce : BitVec 256) (mask : BitVec 8) (s : State) (h : Memory.wf s.mem = true) :
    Canonical (execQuote sl nonce mask s) := by
  refine canonical_next (serve_wf _ _ _ _ _ h ?_)
  split <;> exact okay_served _ _ h

theorem execExtend_wf (sl j : Nat) (dig : BitVec 256) (s : State)
    (h : Memory.wf s.mem = true) : Canonical (execExtend sl j dig s) := by
  refine canonical_next (serve_wf _ _ _ _ _ h ?_)
  split
  · exact deny_served _ _ h
  · exact numbered_served _ _ _ _ h (okay_served _ _ (extendMs_wf _ _ _ h))

theorem execOwnerInstall_wf (sl : Nat) (hs : List (BitVec 256)) (s : State) (h : Memory.wf s.mem = true) :
    Canonical (execOwnerInstall sl hs s) := by
  refine canonical_next (serve_wf _ _ _ _ _ h ?_)
  split
  · exact deny_served _ _ h
  · split
    · exact deny_served _ _ h
    · exact okay_served _ _ (setOwners_wf _ _ h)

theorem execCtxConfig_wf (sl ctx : Nat) (cfg : CtxCfg) (s : State)
    (h : Memory.wf s.mem = true) : Canonical (execCtxConfig sl ctx cfg s) := by
  refine canonical_next (serve_wf _ _ _ _ _ h (numbered_served _ _ _ _ h ?_))
  split
  · exact deny_served _ _ h
  · split
    · exact deny_served _ _ h
    · refine okay_served _ _ (measure_wf _ _ _ ?_)
      rw [reserveLanes_mem, State.modCtx_mem]
      exact resizeWindow_wf _ _ _ _ _ (resizeWindow_wf _ _ _ _ _ h)

theorem execMap_wf (sl ctx : Nat) (rg : MapArgs) (s : State)
    (h : Memory.wf s.mem = true) : Canonical (execMap sl ctx rg s) := by
  refine canonical_next (serve_wf _ _ _ _ _ h (numbered_served _ _ _ _ h ?_))
  split
  · exact okay_served _ _ (zeroKeys_wf _ _ _ h)
  · exact deny_served _ _ h

theorem execUnmap_wf (sl ctx va n : Nat) (s : State) (h : Memory.wf s.mem = true) : Canonical (execUnmap sl ctx va n s) := by
  refine canonical_next ?_
  split
  · exact h
  · exact serve_wf _ _ _ _ _ h (numbered_served _ _ _ _ h (okay_served _ _ (endUnmap_wf _ _ _ _ h)))

theorem execMetaBlock_wf (sl ctx rg blk : Nat) (s : State)
    (h : Memory.wf s.mem = true) : Canonical (execMetaBlock sl ctx rg blk s) := by
  refine canonical_next (serve_wf _ _ _ _ _ h (numbered_served _ _ _ _ h ?_))
  split
  · exact deny_served _ _ h
  · split
    · exact deny_served _ _ h
    · exact okay_served _ _ h

theorem execIntake_wf (sl ch : Nat) (cfg : IntakeCfg) (s : State)
    (h : Memory.wf s.mem = true) : Canonical (execIntake sl ch cfg s) := by
  refine canonical_next (serve_wf _ _ _ _ _ h (numbered_served _ _ _ _ h ?_))
  split
  · exact okay_served _ _ (configChannel_wf _ _ _ h)
  · exact deny_served _ _ h

theorem execLaunch_wf (sl : Nat) (arg : LaunchArgs) (s : State)
    (h : Memory.wf s.mem = true) : Canonical (execLaunch sl arg s) := by
  refine canonical_next ?_
  split
  · rw [launchFw_mem]; exact h
  · exact serve_wf _ _ _ _ _ h (launchCmd_served _ _ h)

theorem execHeatStatus_wf (sl num : Nat) (s : State) (h : Memory.wf s.mem = true) : Canonical (execHeatStatus sl num s) := by
  refine canonical_next (serve_wf _ _ _ _ _ h ?_)
  split
  · exact okay_served _ _ h
  · exact deny_served _ _ h

theorem execHeatContinue_wf (sl num : Nat) (acts : HeatActs) (s : State) (h : Memory.wf s.mem = true) :
    Canonical (execHeatContinue sl num acts s) := by
  refine canonical_next (serve_wf _ _ _ _ _ h ?_)
  split
  · split
    · exact okay_served _ _ (continueHeat_wf _ _ _ h)
    · exact deny_served _ _ h
  · exact deny_served _ _ h

theorem execHeatEnd_wf (sl num : Nat) (s : State) (h : Memory.wf s.mem = true) : Canonical (execHeatEnd sl num s) := by
  refine canonical_next (serve_wf _ _ _ _ _ h ?_)
  split
  · exact okay_served _ _ (removeHeat_wf _ _ h)
  · exact deny_served _ _ h

theorem execSaveDir_wf (sl j : Nat) (s : State) (h : Memory.wf s.mem = true) : Canonical (execSaveDir sl j s) := by
  refine canonical_next (serve_wf _ _ _ _ _ h ?_)
  dsimp only
  split
  · exact deny_served _ _ h
  · exact okay_served _ _ h

theorem execRestore_wf (sl setid ctx target : Nat) (s : State)
    (h : Memory.wf s.mem = true) : Canonical (execRestore sl setid ctx target s) := by
  refine canonical_next (serve_wf _ _ _ _ _ h ?_)
  split
  · exact restoreSet_served _ _ _ h
  · exact denyOpen_served _ h

theorem execSaveRelease_wf (sl : Nat) (s : State) (h : Memory.wf s.mem = true) : Canonical (execSaveRelease sl s) := by
  refine canonical_next (serve_wf _ _ _ _ _ h ?_)
  split
  · exact okay_served _ _ (commit_wf _ _ h)
  · exact okay_served _ _ h

theorem execDrill_wf (sl l : Nat) (auth : OwnerSig) (s : State)
    (h : Memory.wf s.mem = true) : Canonical (execDrill sl l auth s) := by
  refine canonical_next (serve_wf _ _ _ _ _ h ?_)
  split
  · exact deny_served _ _ h
  · split
    · exact deny_served _ _ h
    · exact okay_served _ _ (measure_wf _ _ _ h)

theorem execPreauth_wf (sl : Nat) (mask : BitVec 8) (auth : OwnerSig) (s : State) (h : Memory.wf s.mem = true) :
    Canonical (execPreauth sl mask auth s) := by
  refine canonical_next (serve_wf _ _ _ _ _ h ?_)
  split
  · exact deny_served _ _ h
  · split
    · exact deny_served _ _ h
    · exact okay_served _ _ (measure_wf _ _ _ h)

theorem execLifeRead_wf (sl off n : Nat) (s : State) (h : Memory.wf s.mem = true) : Canonical (execLifeRead sl off n s) := by
  refine canonical_next (serve_wf _ _ _ _ _ h ?_)
  split
  · exact deny_served _ _ h
  · exact okay_served _ _ h

theorem execRejoin_wf (sl : Nat) (s : State) (h : Memory.wf s.mem = true) : Canonical (execRejoin sl s) := by
  refine canonical_next (serve_wf _ _ _ _ _ h ?_)
  split
  · exact deny_served _ _ h
  · refine okay_served _ _ ?_
    dsimp only
    rw [postPlain_mem]
    exact h

theorem execXpCsrr_wf (d c : Nat) (s : State) (h : Memory.wf s.mem = true) : Canonical (execXpCsrr d c s) := by
  refine canonical_next ?_
  split
  · rw [takeTrap_mem]; exact h
  · refine xpWord_wf _ _ _ _ h ?_
    split <;> exact h

/-! ### Every instruction keeps memory canonical -/

/-- One arm per family of instructions whose meanings share a combinator. -/
theorem exec_wf (i : Instr) (s : State) (h : Memory.wf s.mem = true) : Canonical (exec i s) := by
  cases i with
  | add | sub | and | or | xor | andn | shl | shr | sra | mul | mulh | mulhz | div | rem | divz | remz | min | max |
  minz | maxz | sel => exact canonical_next (alu3_wf _ _ _ _ _ h)
  | cmp | cmpiEq | cmpiNe | cmpiLt | cmpiGe | cmpiLtz | cmpiGez => exact canonical_next (cmpWord_wf _ _ _ _ _ _ h)
  | sext | zext | clz | popc | addi | andi | ori | xori | shli | shri | srai => exact canonical_next (alu2_wf _ _ _ _ h)
  | pand | por | pxor | pnot | br | bp | bnp | mand | mor | mnot | mpop | seat | unseat | stintEndCount | taskStart |
  rlcInvalidate | faultDelivery | registerWrite | linkLost | linkRepairDone | hbmLaneRepair | errorCorrectable |
  errorUncorrectable | temperatureHigh | bankOvervoltage | xspiRead | xspiWriteEnable | xspiReadStatus | xspiWriteConfig
  | xspiReadSfdp | xspiResetEnable | xspiReset => exact canonical_next (by simp [h])
  | csrr | jr | chk | isap =>
    refine canonical_next (apWord_wf _ _ _ h ?_)
    (repeat' split) <;> exact h
  | csrw | csrwLong =>
    refine canonical_next (apWord_wf _ _ _ h ?_)
    (repeat' split) <;> simp [h, csrWrite_wf]
  | li | call | lil | addil => exact canonical_next (apWord_wf _ _ _ h h)
  | loop =>
    refine canonical_next (apWord_wf _ _ _ h ?_)
    (repeat' split) <;> simp [h, openLoop_wf]
  | ld | ldAcq =>
    refine canonical_next (apWord_wf _ _ _ h ?_)
    (repeat' split) <;> simp [h, loadWord_wf]
  | lds | cvtaTo | cvtaOf =>
    refine canonical_next (apWord_wf _ _ _ h ?_)
    dsimp only
    (repeat' split) <;> exact h
  | ldsDataArrive =>
    refine canonical_next ?_
    dsimp only
    (repeat' split) <;> simp [h, readPlace_wf]
  | st | stRel =>
    refine canonical_next (apWord_wf _ _ _ h ?_)
    (repeat' split) <;> simp [h, storeWord_wf]
  | qput | qget =>
    refine canonical_next (apWord_wf _ _ _ h ?_)
    (repeat' split) <;> simp [h]
  | shape => exact execShape_wf _ _ _ h
  | sopen | sld | sfill | sdrain | cengWait =>
    refine canonical_next (streamWord_wf _ _ _ _ h ?_)
    dsimp only
    (repeat' split) <;> exact h
  | sfillRes | sfork | scloseFin | sstat =>
    refine canonical_next (streamWord_wf _ _ _ _ h ?_)
    (repeat' split) <;> exact h
  | smark | smarkClr | srew => exact canonical_next (markWord_wf _ _ _ h)
  | sclose => exact execSclose_wf _ _ h
  | ssave => exact execSsave_wf _ _ _ h
  | srest => exact execSrest_wf _ _ h
  | cmd => exact execCmd_wf _ _ _ _ h
  | cengStat | cengSeq | cengRes => exact canonical_next (by simp [h, cengWord_wf])
  | cengDrop => exact canonical_next (by simp [h, cengWord_wf, dropHead_wf])
  | xpAdd | xpSub | xpAnd | xpOr | xpXor | xpShl | xpShr | xpSra | xpMul | xpMin | xpMax | xpCmp =>
    exact canonical_next (xpAlu3_wf _ _ _ _ _ h)
  | xpSel | xpAddi | xpLi => exact canonical_next (xpAlu_wf _ _ _ _ h)
  | xpCsrr => exact execXpCsrr_wf _ _ _ h
  | xpCsrw | xpCsrwLong => exact canonical_next (xpCsrWrite_wf _ _ _ _ _ h)
  | xpB | xpLil | xpAddil => exact canonical_next (xpWord_wf _ _ _ _ h h)
  | xpBp | xfence =>
    refine canonical_next (xpWord_wf _ _ _ _ h ?_)
    (repeat' split) <;> exact h
  | xpLoop =>
    refine canonical_next (xpChecked_wf _ _ _ _ _ h ?_)
    simp [h, openLoop_wf]
  | xpQget | xpQput =>
    refine canonical_next (xpChecked_wf _ _ _ _ _ h ?_)
    simp [h]
  | fadd | fmul | fma => exact canonical_next (xpFloat_wf _ _ _ _ h)
  | lsp =>
    refine canonical_next (xpChecked_wf _ _ _ _ _ h ?_)
    simp [h, openLsp_wf]
  | vset | vsetRot => exact canonical_next (vsetWord_wf _ _ _ _ h)
  | nset => exact canonical_next (by simp [h, nsetWord_wf])
  | xpSteer => exact canonical_next (xpSteer_wf _ _ h)
  | vadd | vsub | vmul | vmulh | vmad | vmin | vmax | vabs | vand | vor | vxor | vnot | vshl | vshr | vsra | vfadd |
  vfsub | vfmul | vfma | vfmin | vfmax | vfsgn => exact canonical_next (elemWord_wf _ _ _ _ _ _ h)
  | vcmp | vfcmp => exact canonical_next (maskWord_wf _ _ _ _ _ h)
  | vsel | vred | vexpand | vperm | vslide | vbcast => exact canonical_next (vecWord_wf _ _ _ _ h)
  | vwadd | vwmul | vwmad => exact canonical_next (wideWord_wf _ _ _ _ _ _ _ h)
  | vnarrow => exact canonical_next (foldWord_wf _ _ _ _ _ _ _ h)
  | vcvt =>
    refine canonical_next ?_
    (repeat' split) <;> simp [h, elemWord_wf, foldWord_wf, spanWord_wf]
  | vcompress => exact canonical_next (by simp [h, putDest_wf, withPorts_wf])
  | wload | wswap => exact canonical_next (by simp [h, seatWord_wf])
  | sclq => exact execSclq_wf _ _ h
  | mmul | mmulg => exact canonical_next (by simp [h, mmWord_wf])
  | azero | drain => exact canonical_next (by simp [h, passWord_wf])
  | rpop => exact execRpop_wf _ _ h
  | rsend => exact execRsend_wf _ _ h
  | exp2 | log2 | rcp | rsqrt | sinpi | cospi | tanh | sigm => exact canonical_next (sfWord_wf _ _ _ _ _ h)
  | seatGrant =>
    refine canonical_next ?_
    dsimp only
    (repeat' split) <;> simp [h, netTurn_wf]
  | nop | tsr | trap | pixr => exact canonical_next (syncWord_wf _ _ _ _ _ h h)
  | spawnAp | spawnXp => exact canonical_next (spawnWord_wf _ _ _ _ _ h)
  | endTask =>
    refine canonical_next (syncWord_wf _ _ _ _ _ h ?_)
    (repeat' split) <;> simp [h]
  | wait => exact execWait_wf _ _ _ _ _ h
  | raise => exact execRaise_wf _ _ _ _ h
  | fwait => exact execFwait_wf _ _ _ _ h
  | fres | ffault => exact canonical_next (resolveWord_wf _ _ _ _ h)
  | hbarHeat | hbarGroup => exact canonical_next (arrive_wf _ _ _ _ h)
  | barm | barmClr => exact canonical_next (armBar_wf _ _ _ _ h)
  | bwait => exact execBwait_wf _ _ _ _ _ h
  | hand =>
    refine canonical_next (syncWord_wf _ _ _ _ _ h ?_)
    dsimp only
    (repeat' split) <;> exact h
  | fence =>
    refine canonical_next (syncWord_wf _ _ _ _ _ h ?_)
    (repeat' split) <;> simp [h, releaseAt_wf, release_wf]
  | rtt => exact execRtt_wf _ h
  | sysXpage => exact canonical_next (by simp [h, sysWord_wf])
  | sysXctx => exact execSysXctx_wf _ _ _ h
  | sysRlc => exact execSysRlc_wf _ _ _ h
  | sysTbsync => exact execSysTbsync_wf _ _ _ h
  | slip | pixw =>
    refine canonical_next (privSync_wf _ _ _ _ _ h ?_)
    dsimp only
    (repeat' split) <;> exact h
  | halt =>
    refine canonical_next (privSync_wf _ _ _ _ _ h ?_)
    dsimp only
    (repeat' split) <;> simp [h]
  | must => exact execMust_wf _ _ _ h
  | unmust =>
    refine canonical_next (syncWord_wf _ _ _ _ _ h ?_)
    dsimp only
    (repeat' split) <;> simp [h, releaseSets_wf]
  | engineHeadStart =>
    refine canonical_next ?_
    split <;> simp [h, headStart_wf]
  | copy => exact canonical_next (chunkStep_wf _ _ _ _ _ h fun _ => copyChunk_wf _ _ _ _)
  | copyDecode => exact canonical_next (chunkStep_wf _ _ _ _ _ h fun _ => decodeChunk_wf _ _ _ _)
  | fill => exact canonical_next (chunkStep_wf _ _ _ _ _ h fun _ => fillChunk_wf _ _ _ _)
  | ragged => exact canonical_next (chunkStep_wf _ _ _ _ _ h fun _ => raggedChunk_wf _ _ _ _)
  | gather | scatter => exact canonical_next (chunkStep_wf _ _ _ _ _ h fun _ => rowChunk_wf _ _ _ _ _)
  | accwAdd | accwAdds | accwFadd | accwXadd | accwOr | accwAnd | accwXor | accwMin | accwMax | accwFmin | accwFmax |
  accwSwap | accwCas => exact canonical_next (accwStep_wf _ _ _ _ _ h)
  | laneLoad => exact canonical_next (chunkStep_wf _ _ _ _ _ h fun _ => laneLoadChunk_wf _ _ _ _)
  | laneRun =>
    refine canonical_next ?_
    split <;> simp [h, laneRunStart_wf]
  | net =>
    refine canonical_next ?_
    split <;> simp [h, takeNet_wf]
  | qfence =>
    refine canonical_next ?_
    split <;> simp [h, qfenceChunk_wf]
  | semaSignal | semaSet =>
    refine canonical_next ?_
    split <;> simp [h, semaChunk_wf]
  | fillerCommit =>
    refine canonical_next ?_
    split <;> simp [h, fillerCommit_wf, overLink_wf]
  | drainerWrite =>
    refine canonical_next ?_
    split <;> simp [h, drainerWrite_wf]
  | coreSlotTransfer =>
    refine canonical_next ?_
    split <;> simp [h, coreSlotTransfer_wf]
  | laneStep => exact canonical_next (laneCycle_wf _ _ h)
  | laneLoopLimit =>
    refine canonical_next ?_
    (repeat' split) <;> simp [h, errRun_wf]
  | netReceiverDone => exact execNetReceiverDone_wf _ _ _ h
  | netSeatRelease =>
    refine canonical_next ?_
    split <;> simp [h, finishReceivers_wf, netWords_wf]
  | rlcWriteback => exact canonical_next (recallLine_wf _ _ _ _ h)
  | heatLaunch =>
    refine canonical_next ?_
    (repeat' split) <;> simp [h, failLaunch_wf, launchHeat_wf]
  | preempt => exact execPreempt_wf _ h
  | preemptSaveDone => exact execPreemptSaveDone_wf _ _ h
  | heatComplete =>
    refine canonical_next ?_
    (repeat' split) <;> simp [h, endHeat_wf]
  | stall | leaseRenew | leaseLapse | leaseTakeover | coxReload =>
    refine canonical_next ?_
    split <;> simp [h]
  | intakeRecord => exact execIntakeRecord_wf _ _ _ _ h
  | intakeCommit =>
    refine canonical_next ?_
    split <;> simp [h, commitOldest_wf]
  | hostBar4Write => exact execHostBar4Write_wf _ _ _ h
  | hostBar4Read => exact execHostBar4Read_wf _ _ _ h
  | lostReadComplete => exact execLostReadComplete_wf _ _ h
  | lostWritePoison => exact execLostWritePoison_wf _ _ h
  | supplyLoss => exact execSupplyLoss_wf _ h
  | quiesceComplete => exact execQuiesceComplete_wf _ h
  | saveSetWritten =>
    refine canonical_next ?_
    (repeat' split) <;> simp [h, writeSet_wf]
  | drillLimitReached =>
    refine canonical_next ?_
    (repeat' split) <;> simp [h, cutSave_wf]
  | reserveExhausted =>
    refine canonical_next ?_
    split <;> simp [h, cutSave_wf]
  | powerUp =>
    refine canonical_next ?_
    split <;> simp [h, filter_wf]
  | healthTest | bankChargeTimeout =>
    refine canonical_next ?_
    split <;> simp [h, bringUp_wf]
  | lifetimeWrite =>
    refine canonical_next ?_
    split <;> simp [h, writeLife_wf]
  | fwLoad => exact execFwLoad_wf _ _ h
  | quote => exact execQuote_wf _ _ _ _ h
  | quoteIdentity => exact canonical_next (serve_wf _ _ _ _ _ h (okay_served _ _ h))
  | extend => exact execExtend_wf _ _ _ _ h
  | ownerInstall => exact execOwnerInstall_wf _ _ _ h
  | ownerRelease | ownerRecover => exact canonical_next (serve_wf _ _ _ _ _ h (tokenCmd_served _ _ h))
  | ctxConfig => exact execCtxConfig_wf _ _ _ _ h
  | map => exact execMap_wf _ _ _ _ h
  | unmap => exact execUnmap_wf _ _ _ _ _ h
  | metaBlock => exact execMetaBlock_wf _ _ _ _ _ h
  | intake => exact execIntake_wf _ _ _ _ h
  | launch => exact execLaunch_wf _ _ _ h
  | heatStatus => exact execHeatStatus_wf _ _ _ h
  | heatContinue => exact execHeatContinue_wf _ _ _ _ h
  | heatEnd => exact execHeatEnd_wf _ _ _ h
  | saveDir => exact execSaveDir_wf _ _ _ h
  | restore => exact execRestore_wf _ _ _ _ _ h
  | saveRelease => exact execSaveRelease_wf _ _ h
  | drill => exact execDrill_wf _ _ _ _ h
  | preauth => exact execPreauth_wf _ _ _ _ h
  | lifeRead => exact execLifeRead_wf _ _ _ _ h
  | rejoin => exact execRejoin_wf _ _ h
  | xspiWrite =>
    refine canonical_next ?_
    dsimp only
    (repeat' split) <;> simp [h, stageWrite_wf]
  | launchRecordTaken => exact execLaunchRecordTaken_wf _ _ h

/-! ### The step keeps memory canonical -/

theorem canonical_fault (f : Fault) : Canonical (.fault f) := by
  rintro _ ⟨⟩

theorem canonical_refused (r : Refusal) : Canonical (.refused r) := by
  rintro _ ⟨⟩

/-- The state a turn's outcome stands in. -/
def Todo.state : Todo → State
  | .ended s => s
  | .run _ s => s

theorem fetchSide_wf (c : Nat) (sd : Side) (s : State) (h : Memory.wf s.mem = true) :
    Memory.wf (fetchSide c sd s).state.mem = true := by
  unfold fetchSide
  dsimp only
  split
  · simpa [Todo.state] using h
  · split
    · simpa [Todo.state] using h
    · next e =>
      have ht := fetchWord_wf _ _ _ _ _ e h
      split
      · simpa [Todo.state] using ht
      · split
        · simpa [Todo.state] using ht
        · next e' =>
          have hu := decodeAt_wf _ _ _ _ _ _ _ e' ht
          split <;> exact hu

theorem sideTurn_wf (c : Nat) (sd : Side) (t : Turn) (s : State) (h : Memory.wf s.mem = true) :
    Memory.wf (sideTurn c sd t s).state.mem = true := by
  unfold sideTurn
  dsimp only
  split
  · exact h
  · split
    · exact (deliverFault_mem ..).symm ▸ h
    · split
      · exact h
      · exact h
      · split
        · exact h
        · exact fetchSide_wf _ _ _ h

theorem engTurn_wf (c : Nat) (e : Eng) (t : Turn) (s : State) (h : Memory.wf s.mem = true) :
    Memory.wf (engTurn c e t s).state.mem = true := by
  unfold engTurn
  dsimp only
  generalize (match (s.core c).slot e with
    | some w => some w.q
    | none => (nextQueued (s.core c) e).filter fun q => mayStart (s.core c) q) = q
  split
  · split
    · exact h
    · split <;> exact h
  · exact h

theorem runInstr_wf (i : Instr) (s : State) (h : Memory.wf s.mem = true) : Canonical (runInstr i s) := by
  unfold runInstr
  split
  · next e => exact canonical_next (afterStep_wf _ (exec_wf i s h _ e))
  · exact canonical_fault _
  · exact canonical_refused _

theorem runTodo_wf (t : Todo) (h : Memory.wf t.state.mem = true) : Canonical (runTodo t) := by
  cases t with
  | ended s => exact canonical_next h
  | run i s => exact runInstr_wf i s h

theorem step_wf (s : State) (h : Memory.wf s.mem = true) : Canonical (step s) := by
  have ht : Memory.wf (tick (nextTurn s).1 (nextTurn s).2).mem = true := by
    rw [tick_mem, nextTurn_mem]; exact h
  unfold step
  dsimp only
  split
  · split
    · exact runTodo_wf _ (sideTurn_wf _ _ _ _ ht)
    · exact canonical_fault _
  · split
    · exact runTodo_wf _ (engTurn_wf _ _ _ _ ht)
    · exact canonical_fault _
  · split
    · split
      · exact runInstr_wf _ _ ht
      · exact canonical_fault _
    · exact canonical_refused _

end Sys2Proof.Machine

namespace Sys2Proof
open Sys2Proof.Machine

/-- Settles O7: every instruction keeps memory canonical, by the writes it makes; so do the turn and the end of a step. -/
theorem stepKeepsMemoryCanonical : Obligations.StepKeepsMemoryCanonical :=
  fun s t h e => step_wf s h t e

end Sys2Proof

namespace Sys2Proof

/-! ### A word as its fixed bits and its fields (O1) -/

/-- A field of a word: its lowest bit, its width and its value. -/
abbrev Field := Nat × Nat × Nat

/-- A word with fields added to its fixed bits. -/
def word : Nat → List Field → Nat
  | m, [] => m
  | m, (l, _, v) :: r => word (m + v * 2 ^ l) r

/-- Bits [lo+n-1:lo] meet no field. -/
def clearOf (lo n : Nat) : List Field → Bool
  | [] => true
  | (l, k, _) :: r => decide (lo + n ≤ l ∨ l + k ≤ lo) && clearOf lo n r

/-- The fields lie in 32 bits, apart from one another, where the fixed bits are zero. -/
def apart (m : Nat) : List Field → Bool
  | [] => true
  | (l, n, _) :: r => decide (fld m l n = 0 ∧ l + n ≤ 32) && clearOf l n r && apart m r

/-- Each value fits its field. -/
def small : List Field → Prop
  | [] => True
  | (_, n, v) :: r => v < 2 ^ n ∧ small r

/-- A word reads each value in its field. -/
def holds (w : Nat) : List Field → Prop
  | [] => True
  | (l, n, v) :: r => fld w l n = v ∧ holds w r

/-- A value in a field leaves every field above it. -/
theorem fld_add_above {x v l lo n : Nat} (h : lo + n ≤ l) : fld (x + v * 2 ^ l) lo n = fld x lo n := by
  obtain ⟨j, rfl⟩ := Nat.exists_eq_add_of_le h
  rw [fld, show x + v * 2 ^ (lo + n + j) = x + 2 ^ lo * (2 ^ n * (v * 2 ^ j)) by ring,
    Nat.add_mul_div_left _ _ (by positivity), Nat.add_mul_mod_self_left, fld]

/-- Where a field is clear, a value that fits it carries nothing above it. -/
theorem add_div_of_fld_eq_zero {x v l k : Nat} (hx : fld x l k = 0) (hv : v < 2 ^ k) :
    (x + v * 2 ^ l) / 2 ^ (l + k) = x / 2 ^ (l + k) := by
  have hd : x / 2 ^ l = 2 ^ k * (x / 2 ^ l / 2 ^ k) := (Nat.mul_div_cancel' (Nat.dvd_of_mod_eq_zero hx)).symm
  rw [Nat.pow_add, ← Nat.div_div_eq_div_mul, ← Nat.div_div_eq_div_mul, Nat.add_mul_div_right _ _ (by positivity), hd,
    Nat.mul_add_div (by positivity), Nat.div_eq_of_lt hv, Nat.mul_div_cancel_left _ (by positivity), Nat.add_zero]

theorem fld_add_below {x v l k lo n : Nat} (hx : fld x l k = 0) (hv : v < 2 ^ k) (h : l + k ≤ lo) :
    fld (x + v * 2 ^ l) lo n = fld x lo n := by
  obtain ⟨j, rfl⟩ := Nat.exists_eq_add_of_le h
  rw [fld, fld, Nat.pow_add, ← Nat.div_div_eq_div_mul, ← Nat.div_div_eq_div_mul, add_div_of_fld_eq_zero hx hv]

theorem fld_add_same {x v l n : Nat} (hx : fld x l n = 0) (hv : v < 2 ^ n) : fld (x + v * 2 ^ l) l n = v := by
  rw [fld, Nat.add_mul_div_right _ _ (by positivity), Nat.add_mod, show x / 2 ^ l % 2 ^ n = 0 from hx,
    Nat.zero_add, Nat.mod_mod, Nat.mod_eq_of_lt hv]

theorem add_lt_of_fld_eq_zero {x v l k : Nat} (hb : x < 2 ^ 32) (hx : fld x l k = 0) (hv : v < 2 ^ k) (h : l + k ≤ 32) :
    x + v * 2 ^ l < 2 ^ 32 := by
  obtain ⟨j, hj⟩ := Nat.exists_eq_add_of_le h
  refine Nat.lt_of_div_eq_zero (by positivity) ?_
  rw [hj, Nat.pow_add _ (l + k), ← Nat.div_div_eq_div_mul, add_div_of_fld_eq_zero hx hv,
    Nat.div_div_eq_div_mul, ← Nat.pow_add, ← hj, Nat.div_eq_of_lt hb]

/-- A field placed where the word is clear leaves what is clear of it. -/
theorem fld_add_of_clear {x v l k lo n : Nat} (hx : fld x l k = 0) (hv : v < 2 ^ k) (h : lo + n ≤ l ∨ l + k ≤ lo) :
    fld (x + v * 2 ^ l) lo n = fld x lo n :=
  h.elim fld_add_above (fld_add_below hx hv)

theorem apart_add {x v l k : Nat} {fs : List Field} (hx : fld x l k = 0) (hv : v < 2 ^ k) (hc : clearOf l k fs = true)
    (ha : apart x fs = true) : apart (x + v * 2 ^ l) fs = true := by
  induction fs with
  | nil => rfl
  | cons f r ih =>
    simp only [clearOf, apart, Bool.and_eq_true, decide_eq_true_eq] at hc ha ⊢
    rw [fld_add_of_clear hx hv (by omega)]
    exact ⟨ha.1, ih hc.2 ha.2⟩

/-- A word whose fields are apart and small: bits clear of the fields are the fixed ones, and each field reads its value. -/
theorem word_spec {m : Nat} {fs : List Field} (ha : apart m fs = true) (hs : small fs) :
    (∀ lo n, clearOf lo n fs = true → fld (word m fs) lo n = fld m lo n) ∧ holds (word m fs) fs ∧
      (m < 2 ^ 32 → word m fs < 2 ^ 32) := by
  induction fs generalizing m with
  | nil => exact ⟨fun _ _ _ => rfl, trivial, id⟩
  | cons f r ih =>
    obtain ⟨l, k, v⟩ := f
    obtain ⟨hv, hs⟩ := hs
    simp only [apart, Bool.and_eq_true, decide_eq_true_eq] at ha
    obtain ⟨⟨⟨hx, hk⟩, hc⟩, ha⟩ := ha
    obtain ⟨ihc, ihh, ihm⟩ := ih (apart_add hx hv hc ha) hs
    refine ⟨fun lo n h => ?_, ⟨(ihc l k hc).trans (fld_add_same hx hv), ihh⟩,
      fun hm => ihm (add_lt_of_fld_eq_zero hm hx hv hk)⟩
    simp only [clearOf, Bool.and_eq_true, decide_eq_true_eq] at h
    exact (ihc lo n h.2).trans (fld_add_of_clear hx hv h.1)

/-! ### The bytes of words, and the decoder on them -/

/-- The bytes of an instruction, followed by any bytes, decode to it and those bytes. -/
def Decodes (i : Instr) : Prop := ∀ rest, decode (encodeBytes i ++ rest) = .ok (i, rest)

theorem length_leBytes (n v : Nat) : (leBytes n v).length = n := by
  induction n generalizing v with
  | zero => rfl
  | succ n ih => rw [leBytes, List.length_cons, ih]

/-- Bytes of a number read back. -/
theorem leNat_leBytes (n v : Nat) : leNat (leBytes n v) = v % 256 ^ n := by
  induction n generalizing v with
  | zero => rw [Nat.pow_zero, Nat.mod_one]; rfl
  | succ n ih =>
    have h8 : (BitVec.ofNat 8 v).toNat = v % 256 := BitVec.toNat_ofNat ..
    rw [leBytes, leNat, ih, h8, Nat.pow_succ', Nat.mod_mul]

theorem leNat_leBytes_of_lt {v : Nat} (h : v < 2 ^ 32) : leNat (leBytes 4 v) = v := by
  rw [leNat_leBytes]
  exact Nat.mod_eq_of_lt h

theorem take_leBytes (v : Nat) (rest : List Byte) : (leBytes 4 v ++ rest).take 4 = leBytes 4 v :=
  List.take_left' (length_leBytes 4 v)

theorem drop_leBytes (v : Nat) (rest : List Byte) : (leBytes 4 v ++ rest).drop 4 = rest :=
  List.drop_left' (length_leBytes 4 v)

theorem decodes_of_word {i : Instr} {w : Nat} (he : encode i = [w]) (hw : w < 2 ^ 32) (h7 : fld w 29 3 ≠ 7)
    (hd : decodeWord w = .ok i) : Decodes i := by
  intro rest
  have hb : encodeBytes i = leBytes 4 w := by rw [encodeBytes, he]; exact List.append_nil _
  rw [hb, decode, if_neg (by rw [List.length_append, length_leBytes]; omega)]
  dsimp only
  rw [take_leBytes, leNat_leBytes_of_lt hw, if_neg h7, drop_leBytes, hd]
  rfl

theorem decodes_of_pair {i : Instr} {w v : Nat} (he : encode i = [w, v]) (hw : w < 2 ^ 32) (hv : v < 2 ^ 32)
    (h7 : fld w 29 3 = 7) (hl : longOk w = true) (hd : decodeLong w v = .ok i) : Decodes i := by
  intro rest
  have hb : encodeBytes i ++ rest = leBytes 4 w ++ (leBytes 4 v ++ rest) := by
    rw [encodeBytes, he, ← List.append_assoc]; exact congrArg (· ++ rest) (congrArg (leBytes 4 w ++ ·) (List.append_nil _))
  have h8 : (leBytes 4 w ++ (leBytes 4 v ++ rest)).drop 8 = rest := by
    rw [← List.append_assoc]
    exact List.drop_left' (by rw [List.length_append, length_leBytes, length_leBytes])
  rw [hb, decode, if_neg (by rw [List.length_append, length_leBytes]; omega)]
  dsimp only
  rw [take_leBytes, leNat_leBytes_of_lt hw, if_pos h7, if_pos hl,
    if_neg (by simp only [List.length_append, length_leBytes]; omega), drop_leBytes, take_leBytes, leNat_leBytes_of_lt hv, hd, h8]
  rfl

/-- A row of one word decodes when its arm of the decoder, given the fixed bits and the fields, answers the instruction. -/
theorem decodes_of_fields {i : Instr} {m : Nat} (fs : List Field) (he : encode i = [word m fs]) (hs : small fs)
    (ha : (apart m fs && clearOf 29 3 fs && decide (m < 2 ^ 32) && decide (fld m 29 3 ≠ 7)) = true)
    (hd : ∀ w, (∀ lo n, clearOf lo n fs = true → fld w lo n = fld m lo n) → holds w fs → decodeWord w = .ok i) :
    Decodes i := by
  simp only [Bool.and_eq_true, decide_eq_true_eq] at ha
  obtain ⟨⟨⟨ha, hc⟩, hm⟩, h7⟩ := ha
  obtain ⟨hf, hh, hlt⟩ := word_spec ha hs
  exact decodes_of_word he (hlt hm) ((hf 29 3 hc).trans_ne h7) (hd _ hf hh)

/-- A row of a LONG pair decodes when its arm of the decoder, given word 0's fixed bits and fields, answers the instruction. -/
theorem decodes_of_long {i : Instr} {m : Nat} {v : BitVec 32} (fs : List Field) (he : encode i = [word m fs, v.toNat])
    (hs : small fs)
    (ha : (apart m fs && clearOf 29 3 fs && clearOf 23 6 fs && clearOf 10 3 fs && decide (m < 2 ^ 32) &&
      decide (fld m 29 3 = 7) && longOk m) = true)
    (hd : ∀ w, (∀ lo n, clearOf lo n fs = true → fld w lo n = fld m lo n) → holds w fs → decodeLong w v.toNat = .ok i) :
    Decodes i := by
  simp only [Bool.and_eq_true, decide_eq_true_eq] at ha
  obtain ⟨⟨⟨⟨⟨⟨ha, h29⟩, h23⟩, h10⟩, hm⟩, h7⟩, hl⟩ := ha
  obtain ⟨hf, hh, hlt⟩ := word_spec ha hs
  refine decodes_of_pair he (hlt hm) v.isLt ((hf 29 3 h29).trans h7) ?_ (hd _ hf hh)
  rwa [longOk, hf 10 3 h10, hf 23 6 h23]

/-! ### The decoder's classes, and the values of its operands -/

theorem decodeWord_apAlu {w : Nat} (h : fld w 29 3 = 0) : decodeWord w = decodeApAlu w := by rw [decodeWord, h]; rfl

theorem decodeWord_apMem {w : Nat} (h : fld w 29 3 = 1) : decodeWord w = decodeApMem w := by rw [decodeWord, h]; rfl

theorem decodeWord_xpCtl {w : Nat} (h : fld w 29 3 = 2) : decodeWord w = decodeXpCtl w := by rw [decodeWord, h]; rfl

theorem decodeWord_xpVec {w : Nat} (h : fld w 29 3 = 3) : decodeWord w = decodeXpVec w := by rw [decodeWord, h]; rfl

theorem decodeWord_xpMtx {w : Nat} (h : fld w 29 3 = 4) : decodeWord w = decodeXpMtx w := by rw [decodeWord, h]; rfl

theorem decodeWord_sync {w : Nat} (h : fld w 29 3 = 5) : decodeWord w = decodeSync w := by rw [decodeWord, h]; rfl

theorem bit_lt (b : Bool) : bit b < 2 ^ 1 := by cases b <;> decide

theorem flag_eq {w l : Nat} {b : Bool} (h : fld w l 1 = bit b) : flag w l = b := by
  cases b <;> simp [flag, h, bit]

theorem imm_eq {w l n : Nat} {i : BitVec n} (h : fld w l n = i.toNat) : BitVec.ofNat n (fld w l n) = i := by
  rw [h, BitVec.ofNat_toNat, BitVec.setWidth_eq]

/-- A field within a field. -/
theorem fld_fld {w lo n j k : Nat} (h : j + k ≤ n) : fld (fld w lo n) j k = fld w (lo + j) k := by
  obtain ⟨r, rfl⟩ := Nat.exists_eq_add_of_le h
  have h2 : w / 2 ^ lo % 2 ^ (j + k + r) / 2 ^ j = w / 2 ^ lo / 2 ^ j % 2 ^ (k + r) := by
    rw [Nat.add_assoc, Nat.pow_add, Nat.mod_mul_right_div_self]
  rw [fld, fld, fld, h2, Nat.pow_add, Nat.mod_mul_right_mod, Nat.pow_add, Nat.div_div_eq_div_mul]

/-- A field is not what a part of it rules out. -/
theorem fld_ne_of_part {w lo n k a c : Nat} (j : Nat) (ha : fld w (lo + j) k = a) (hj : j + k ≤ n) (hc : fld c j k ≠ a) :
    fld w lo n ≠ c := by
  rintro rfl
  exact hc ((fld_fld hj).trans ha)

/-- The rows that no word encodes. -/
theorem encode_event (i : Instr) (hu : i.unit = .event) : encode i = [] := by
  cases i with
  | ldsDataArrive | xpSteer | stintEndCount | seatGrant | taskStart | engineHeadStart | copy | copyDecode | fill
  | ragged | gather | scatter | accwAdd | accwAdds | accwFadd | accwXadd | accwOr | accwAnd | accwXor | accwMin
  | accwMax | accwFmin | accwFmax | accwSwap | accwCas | laneLoad | laneRun | net | qfence | semaSignal | semaSet
  | fillerCommit | drainerWrite | coreSlotTransfer | laneStep | laneLoopLimit | netReceiverDone | netSeatRelease
  | rlcWriteback | rlcInvalidate | faultDelivery | heatLaunch | preempt | preemptSaveDone | heatComplete | stall
  | intakeRecord | intakeCommit | hostBar4Write | hostBar4Read | registerWrite | linkLost | lostReadComplete
  | lostWritePoison | linkRepairDone | hbmLaneRepair | errorCorrectable | errorUncorrectable | temperatureHigh
  | bankOvervoltage | supplyLoss | quiesceComplete | saveSetWritten | drillLimitReached | reserveExhausted | powerUp
  | healthTest | bankChargeTimeout | leaseRenew | leaseLapse | leaseTakeover | coxReload | lifetimeWrite | fwLoad
  | quote | quoteIdentity | extend | ownerInstall | ownerRelease | ownerRecover | ctxConfig | map | unmap | metaBlock
  | intake | launch | heatStatus | heatContinue | heatEnd | saveDir | restore | saveRelease | drill | preauth | lifeRead
  | rejoin | xspiRead | xspiWrite | xspiWriteEnable | xspiReadStatus | xspiWriteConfig | xspiReadSfdp | xspiResetEnable
  | xspiReset | launchRecordTaken => rfl
  | _ => cases hu

/-- The width of a load or store is the low part of its op6. -/
theorem op_range {w k v : Nat} (j : Nat) (h : fld w (23 + j) k = v) (hjk : j + k = 6) :
    v * 2 ^ j ≤ fld w 23 6 ∧ fld w 23 6 < (v + 1) * 2 ^ j := by
  have hlt : fld w 23 6 / 2 ^ j < 2 ^ k := Nat.div_lt_of_lt_mul (by rw [← Nat.pow_add, hjk]; exact Nat.mod_lt _ (by decide))
  have hv : fld w 23 6 / 2 ^ j = v := by rw [← h, ← fld_fld (Nat.le_of_eq hjk)]; exact (Nat.mod_eq_of_lt hlt).symm
  exact ⟨(Nat.le_div_iff_mul_le (by positivity)).1 hv.ge,
    (Nat.div_lt_iff_lt_mul (by positivity)).1 (Nat.lt_succ_of_le hv.le)⟩

theorem decodeApMem_ld {w : Nat} (h : fld w 27 2 = 0) :
    decodeApMem w = selOk (fld w 23 2 ≠ 3 ∨ flag w 25 = false)
      (.ld (flag w 26) (flag w 25) (fld w 23 2) (fld w 18 5) (fld w 13 5) (BitVec.ofNat 13 (fld w 0 13))) := by
  obtain ⟨h1, h2⟩ := op_range 4 h rfl
  rw [decodeApMem]
  generalize fld w 23 6 = o at h1 h2 ⊢
  interval_cases o <;> rfl

theorem decodeApMem_lds {w : Nat} (h : fld w 26 3 = 2) :
    decodeApMem w = selOk (fld w 23 2 ≠ 3 ∨ flag w 25 = false)
      (.lds (flag w 25) (fld w 23 2) (fld w 18 5) (fld w 13 5) (BitVec.ofNat 13 (fld w 0 13))) := by
  obtain ⟨h1, h2⟩ := op_range 3 h rfl
  rw [decodeApMem]
  generalize fld w 23 6 = o at h1 h2 ⊢
  interval_cases o <;> rfl

theorem decodeApMem_st {w : Nat} (h : fld w 25 4 = 6) :
    decodeApMem w = .ok (.st (fld w 23 2) (fld w 18 5) (fld w 13 5) (BitVec.ofNat 13 (fld w 0 13))) := by
  obtain ⟨h1, h2⟩ := op_range 2 h rfl
  rw [decodeApMem]
  generalize fld w 23 6 = o at h1 h2 ⊢
  interval_cases o <;> rfl

theorem decodeApMem_ldAcq {w : Nat} (h : fld w 25 4 = 7) :
    decodeApMem w = if fld w 4 9 = 0 then
        selOk ((fld w 23 2 ≠ 3 ∨ flag w 3 = false) ∧ fld w 0 3 < 5)
          (.ldAcq (fld w 23 2) (fld w 18 5) (fld w 13 5) (flag w 3) (fld w 0 3))
      else .error .reserved := by
  obtain ⟨h1, h2⟩ := op_range 2 h rfl
  rw [decodeApMem]
  generalize fld w 23 6 = o at h1 h2 ⊢
  interval_cases o <;> rfl

theorem decodeApMem_stRel {w : Nat} (h : fld w 25 4 = 8) :
    decodeApMem w = if fld w 3 10 = 0 then selOk (fld w 0 3 < 5) (.stRel (fld w 23 2) (fld w 18 5) (fld w 13 5) (fld w 0 3))
      else .error .reserved := by
  obtain ⟨h1, h2⟩ := op_range 2 h rfl
  rw [decodeApMem]
  generalize fld w 23 6 = o at h1 h2 ⊢
  interval_cases o <;> rfl

/-! ### The rows of each unit

Each arm gives the fields of its rows (lowest bit, width, value) and reads the decoder's arm from the fixed bits, `fix`, and the
fields, `val`. -/

theorem decodes_vec (i : Instr) (hu : i.unit = .vec) (hwf : i.wf = true) : Decodes i := by
  cases i with
  | vadd d a b s m | vsub d a b s m | vmul d a b s m | vmad d a b s m | vshl d a b s m | vshr d a b s m
  | vsra d a b s m =>
    obtain ⟨hd, ha, hb⟩ := of_decide_eq_true hwf
    refine decodes_of_fields [(17, 7, d), (10, 7, a), (3, 7, b), (1, 1, bit s), (0, 1, bit m)] rfl
      ⟨hd, ha, hb, bit_lt s, bit_lt m, trivial⟩ rfl fun _ fix val => ?_
    obtain ⟨rfl, rfl, rfl, hs, hm, -⟩ := val
    obtain rfl := flag_eq hs
    obtain rfl := flag_eq hm
    rw [decodeWord_xpVec (fix 29 3 rfl), decodeXpVec, fix 24 5 rfl]
    exact if_pos (fix 2 1 rfl)
  | vmulh d a b m | vmin d a b m | vmax d a b m | vand d a b m =>
    obtain ⟨hd, ha, hb⟩ := of_decide_eq_true hwf
    refine decodes_of_fields [(17, 7, d), (10, 7, a), (3, 7, b), (0, 1, bit m)] rfl
      ⟨hd, ha, hb, bit_lt m, trivial⟩ rfl fun _ fix val => ?_
    obtain ⟨rfl, rfl, rfl, hm, -⟩ := val
    obtain rfl := flag_eq hm
    rw [decodeWord_xpVec (fix 29 3 rfl), decodeXpVec, fix 24 5 rfl]
    exact if_pos (fix 1 2 rfl)
  | vabs d a s m =>
    obtain ⟨hd, ha⟩ := of_decide_eq_true hwf
    refine decodes_of_fields [(17, 7, d), (10, 7, a), (1, 1, bit s), (0, 1, bit m)] rfl
      ⟨hd, ha, bit_lt s, bit_lt m, trivial⟩ rfl fun _ fix val => ?_
    obtain ⟨rfl, rfl, hs, hm, -⟩ := val
    obtain rfl := flag_eq hs
    obtain rfl := flag_eq hm
    rw [decodeWord_xpVec (fix 29 3 rfl), decodeXpVec, fix 24 5 rfl]
    exact if_pos (fix 2 8 rfl)
  | vor d a b m =>
    obtain ⟨hd, ha, hb⟩ := of_decide_eq_true hwf
    refine decodes_of_fields [(17, 7, d), (10, 7, a), (3, 7, b), (0, 1, bit m)] rfl
      ⟨hd, ha, hb, bit_lt m, trivial⟩ rfl fun _ fix val => ?_
    obtain ⟨rfl, rfl, rfl, hm, -⟩ := val
    obtain rfl := flag_eq hm
    rw [decodeWord_xpVec (fix 29 3 rfl), decodeXpVec, fix 24 5 rfl]
    exact (if_neg ((fix 1 2 rfl).trans_ne (by decide))).trans (if_pos (fix 1 2 rfl))
  | vxor d a b m =>
    obtain ⟨hd, ha, hb⟩ := of_decide_eq_true hwf
    refine decodes_of_fields [(17, 7, d), (10, 7, a), (3, 7, b), (0, 1, bit m)] rfl
      ⟨hd, ha, hb, bit_lt m, trivial⟩ rfl fun _ fix val => ?_
    obtain ⟨rfl, rfl, rfl, hm, -⟩ := val
    obtain rfl := flag_eq hm
    rw [decodeWord_xpVec (fix 29 3 rfl), decodeXpVec, fix 24 5 rfl, fix 1 2 rfl]
    rfl
  | vnot d a m =>
    obtain ⟨hd, ha⟩ := of_decide_eq_true hwf
    refine decodes_of_fields [(17, 7, d), (10, 7, a), (0, 1, bit m)] rfl
      ⟨hd, ha, bit_lt m, trivial⟩ rfl fun _ fix val => ?_
    obtain ⟨rfl, rfl, hm, -⟩ := val
    obtain rfl := flag_eq hm
    rw [decodeWord_xpVec (fix 29 3 rfl), decodeXpVec, fix 24 5 rfl, fix 1 2 rfl, fix 1 9 rfl]
    rfl
  | vcmp d a b c =>
    obtain ⟨hd, ha, hb, hc, hsel⟩ := of_decide_eq_true hwf
    refine decodes_of_fields [(17, 3, d), (10, 7, a), (3, 7, b), (0, 3, c)] rfl
      ⟨hd, ha, hb, hc, trivial⟩ rfl fun _ fix val => ?_
    obtain ⟨rfl, rfl, rfl, rfl, -⟩ := val
    rw [decodeWord_xpVec (fix 29 3 rfl), decodeXpVec, fix 24 5 rfl]
    exact (if_pos (fix 20 4 rfl)).trans (if_pos (decide_eq_true hsel))
  | vsel d a b =>
    obtain ⟨hd, ha, hb⟩ := of_decide_eq_true hwf
    refine decodes_of_fields [(17, 7, d), (10, 7, a), (3, 7, b)] rfl ⟨hd, ha, hb, trivial⟩ rfl fun _ fix val => ?_
    obtain ⟨rfl, rfl, rfl, -⟩ := val
    rw [decodeWord_xpVec (fix 29 3 rfl), decodeXpVec, fix 24 5 rfl]
    exact if_pos (fix 0 3 rfl)
  | vwadd d a b s q m | vwmul d a b s q m | vwmad d a b s q m =>
    obtain ⟨hd, ha, hb⟩ := of_decide_eq_true hwf
    refine decodes_of_fields [(17, 7, d), (10, 7, a), (3, 7, b), (2, 1, bit s), (1, 1, bit q), (0, 1, bit m)] rfl
      ⟨hd, ha, hb, bit_lt s, bit_lt q, bit_lt m, trivial⟩ rfl fun _ fix val => ?_
    obtain ⟨rfl, rfl, rfl, hs, hq, hm, -⟩ := val
    obtain rfl := flag_eq hs
    obtain rfl := flag_eq hq
    obtain rfl := flag_eq hm
    rw [decodeWord_xpVec (fix 29 3 rfl), decodeXpVec, fix 24 5 rfl]
    rfl
  | vnarrow d a s q m =>
    obtain ⟨hd, ha⟩ := of_decide_eq_true hwf
    refine decodes_of_fields [(17, 7, d), (10, 7, a), (2, 1, bit s), (1, 1, bit q), (0, 1, bit m)] rfl
      ⟨hd, ha, bit_lt s, bit_lt q, bit_lt m, trivial⟩ rfl fun _ fix val => ?_
    obtain ⟨rfl, rfl, hs, hq, hm, -⟩ := val
    obtain rfl := flag_eq hs
    obtain rfl := flag_eq hq
    obtain rfl := flag_eq hm
    rw [decodeWord_xpVec (fix 29 3 rfl), decodeXpVec, fix 24 5 rfl]
    exact if_pos (fix 3 7 rfl)
  | vcvt d a f e r m =>
    obtain ⟨hd, ha, he, hr⟩ := of_decide_eq_true hwf
    refine decodes_of_fields [(17, 7, d), (10, 7, a), (8, 1, bit f), (3, 5, e), (1, 2, r), (0, 1, bit m)] rfl
      ⟨hd, ha, bit_lt f, he, hr, bit_lt m, trivial⟩ rfl fun _ fix val => ?_
    obtain ⟨rfl, rfl, hf, rfl, rfl, hm, -⟩ := val
    obtain rfl := flag_eq hf
    obtain rfl := flag_eq hm
    rw [decodeWord_xpVec (fix 29 3 rfl), decodeXpVec, fix 24 5 rfl]
    exact if_pos (fix 9 1 rfl)
  | vfadd d a b r m | vfsub d a b r m | vfmul d a b r m | vfma d a b r m =>
    obtain ⟨hd, ha, hb, hr⟩ := of_decide_eq_true hwf
    refine decodes_of_fields [(17, 7, d), (10, 7, a), (3, 7, b), (1, 2, r), (0, 1, bit m)] rfl
      ⟨hd, ha, hb, hr, bit_lt m, trivial⟩ rfl fun _ fix val => ?_
    obtain ⟨rfl, rfl, rfl, rfl, hm, -⟩ := val
    obtain rfl := flag_eq hm
    rw [decodeWord_xpVec (fix 29 3 rfl), decodeXpVec, fix 24 5 rfl]
    rfl
  | vfmin d a b n m =>
    obtain ⟨hd, ha, hb⟩ := of_decide_eq_true hwf
    refine decodes_of_fields [(17, 7, d), (10, 7, a), (3, 7, b), (2, 1, bit n), (0, 1, bit m)] rfl
      ⟨hd, ha, hb, bit_lt n, bit_lt m, trivial⟩ rfl fun _ fix val => ?_
    obtain ⟨rfl, rfl, rfl, hn, hm, -⟩ := val
    obtain rfl := flag_eq hn
    obtain rfl := flag_eq hm
    rw [decodeWord_xpVec (fix 29 3 rfl), decodeXpVec, fix 24 5 rfl]
    exact if_pos (fix 1 1 rfl)
  | vfmax d a b n m =>
    obtain ⟨hd, ha, hb⟩ := of_decide_eq_true hwf
    refine decodes_of_fields [(17, 7, d), (10, 7, a), (3, 7, b), (2, 1, bit n), (0, 1, bit m)] rfl
      ⟨hd, ha, hb, bit_lt n, bit_lt m, trivial⟩ rfl fun _ fix val => ?_
    obtain ⟨rfl, rfl, rfl, hn, hm, -⟩ := val
    obtain rfl := flag_eq hn
    obtain rfl := flag_eq hm
    rw [decodeWord_xpVec (fix 29 3 rfl), decodeXpVec, fix 24 5 rfl]
    exact (if_neg ((fix 1 1 rfl).trans_ne (by decide))).trans (if_pos (fix 1 1 rfl))
  | vfcmp d a b c =>
    obtain ⟨hd, ha, hb, hc⟩ := of_decide_eq_true hwf
    refine decodes_of_fields [(17, 3, d), (10, 7, a), (3, 7, b), (0, 3, c)] rfl
      ⟨hd, ha, hb, hc, trivial⟩ rfl fun _ fix val => ?_
    obtain ⟨rfl, rfl, rfl, rfl, -⟩ := val
    rw [decodeWord_xpVec (fix 29 3 rfl), decodeXpVec, fix 24 5 rfl]
    exact if_pos (fix 20 4 rfl)
  | vfsgn d a b s m =>
    obtain ⟨hd, ha, hb, hs, hsel⟩ := of_decide_eq_true hwf
    refine decodes_of_fields [(17, 7, d), (10, 7, a), (3, 7, b), (1, 2, s), (0, 1, bit m)] rfl
      ⟨hd, ha, hb, hs, bit_lt m, trivial⟩ rfl fun _ fix val => ?_
    obtain ⟨rfl, rfl, rfl, rfl, hm, -⟩ := val
    obtain rfl := flag_eq hm
    rw [decodeWord_xpVec (fix 29 3 rfl), decodeXpVec, fix 24 5 rfl]
    exact if_pos (decide_eq_true hsel)
  | vred d a r o s m =>
    obtain ⟨hd, ha, hr, ho, hsel⟩ := of_decide_eq_true hwf
    refine decodes_of_fields [(17, 7, d), (10, 7, a), (6, 2, r), (3, 3, o), (1, 1, bit s), (0, 1, bit m)] rfl
      ⟨hd, ha, hr, ho, bit_lt s, bit_lt m, trivial⟩ rfl fun _ fix val => ?_
    obtain ⟨rfl, rfl, rfl, rfl, hs, hm, -⟩ := val
    obtain rfl := flag_eq hs
    obtain rfl := flag_eq hm
    rw [decodeWord_xpVec (fix 29 3 rfl), decodeXpVec, fix 24 5 rfl]
    exact (if_pos ⟨fix 8 2 rfl, fix 2 1 rfl⟩).trans (if_pos (decide_eq_true hsel))
  | vcompress d a =>
    obtain ⟨hd, ha⟩ := of_decide_eq_true hwf
    refine decodes_of_fields [(17, 7, d), (10, 7, a)] rfl ⟨hd, ha, trivial⟩ rfl fun _ fix val => ?_
    obtain ⟨rfl, rfl, -⟩ := val
    rw [decodeWord_xpVec (fix 29 3 rfl), decodeXpVec, fix 24 5 rfl]
    exact if_pos (fix 0 10 rfl)
  | vexpand d a =>
    obtain ⟨hd, ha⟩ := of_decide_eq_true hwf
    refine decodes_of_fields [(17, 7, d), (10, 7, a)] rfl ⟨hd, ha, trivial⟩ rfl fun _ fix val => ?_
    obtain ⟨rfl, rfl, -⟩ := val
    rw [decodeWord_xpVec (fix 29 3 rfl), decodeXpVec, fix 24 5 rfl]
    exact (if_neg ((fix 0 10 rfl).trans_ne (by decide))).trans (if_pos (fix 0 10 rfl))
  | vperm d a m =>
    obtain ⟨hd, ha⟩ := of_decide_eq_true hwf
    refine decodes_of_fields [(17, 7, d), (10, 7, a), (0, 1, bit m)] rfl
      ⟨hd, ha, bit_lt m, trivial⟩ rfl fun _ fix val => ?_
    obtain ⟨rfl, rfl, hm, -⟩ := val
    obtain rfl := flag_eq hm
    rw [decodeWord_xpVec (fix 29 3 rfl), decodeXpVec, fix 24 5 rfl]
    refine (if_neg (fld_ne_of_part 1 (fix 1 9 rfl) (by decide) (by decide))).trans ?_
    refine (if_neg (fld_ne_of_part 1 (fix 1 9 rfl) (by decide) (by decide))).trans ?_
    exact if_pos (fix 1 9 rfl)
  | vslide d a i =>
    obtain ⟨hd, ha⟩ := of_decide_eq_true hwf
    refine decodes_of_fields [(17, 7, d), (10, 7, a), (0, 10, i.toNat)] rfl
      ⟨hd, ha, i.isLt, trivial⟩ rfl fun _ fix val => ?_
    obtain ⟨rfl, rfl, hi, -⟩ := val
    obtain rfl := imm_eq hi
    rw [decodeWord_xpVec (fix 29 3 rfl), decodeXpVec, fix 24 5 rfl]
    rfl
  | vbcast d a j =>
    obtain ⟨hd, ha, hj⟩ := of_decide_eq_true hwf
    refine decodes_of_fields [(17, 7, d), (10, 7, a), (0, 10, j)] rfl ⟨hd, ha, hj, trivial⟩ rfl fun _ fix val => ?_
    obtain ⟨rfl, rfl, rfl, -⟩ := val
    rw [decodeWord_xpVec (fix 29 3 rfl), decodeXpVec, fix 24 5 rfl]
    rfl
  | mand d a b =>
    obtain ⟨hd, ha, hb⟩ := of_decide_eq_true hwf
    refine decodes_of_fields [(17, 3, d), (10, 3, a), (3, 3, b)] rfl ⟨hd, ha, hb, trivial⟩ rfl fun _ fix val => ?_
    obtain ⟨rfl, rfl, rfl, -⟩ := val
    rw [decodeWord_xpVec (fix 29 3 rfl), decodeXpVec, fix 24 5 rfl]
    exact if_pos ⟨fix 20 4 rfl, fix 13 4 rfl, fix 6 4 rfl, fix 0 3 rfl⟩
  | mor d a b =>
    obtain ⟨hd, ha, hb⟩ := of_decide_eq_true hwf
    refine decodes_of_fields [(17, 3, d), (10, 3, a), (3, 3, b)] rfl ⟨hd, ha, hb, trivial⟩ rfl fun _ fix val => ?_
    obtain ⟨rfl, rfl, rfl, -⟩ := val
    rw [decodeWord_xpVec (fix 29 3 rfl), decodeXpVec, fix 24 5 rfl]
    refine (if_neg fun ⟨_, _, _, e⟩ => (fix 0 3 rfl).trans_ne (by decide) e).trans ?_
    exact if_pos ⟨fix 20 4 rfl, fix 13 4 rfl, fix 6 4 rfl, fix 0 3 rfl⟩
  | mnot d a =>
    obtain ⟨hd, ha⟩ := of_decide_eq_true hwf
    refine decodes_of_fields [(17, 3, d), (10, 3, a)] rfl ⟨hd, ha, trivial⟩ rfl fun _ fix val => ?_
    obtain ⟨rfl, rfl, -⟩ := val
    rw [decodeWord_xpVec (fix 29 3 rfl), decodeXpVec, fix 24 5 rfl, fix 20 4 rfl, fix 13 4 rfl, fix 6 4 rfl,
      fix 0 3 rfl, fix 0 10 rfl]
    rfl
  | mpop d a =>
    obtain ⟨hd, ha⟩ := of_decide_eq_true hwf
    refine decodes_of_fields [(17, 5, d), (10, 3, a)] rfl ⟨hd, ha, trivial⟩ rfl fun _ fix val => ?_
    obtain ⟨rfl, rfl, -⟩ := val
    rw [decodeWord_xpVec (fix 29 3 rfl), decodeXpVec, fix 24 5 rfl]
    refine (if_neg fun ⟨_, _, _, e⟩ => (fix 0 3 rfl).trans_ne (by decide) e).trans ?_
    refine (if_neg fun ⟨_, _, _, e⟩ => (fix 0 3 rfl).trans_ne (by decide) e).trans ?_
    refine (if_neg fun ⟨_, _, e⟩ => (fix 0 10 rfl).trans_ne (by decide) e).trans ?_
    exact if_pos ⟨fix 22 2 rfl, fix 13 4 rfl, fix 0 10 rfl⟩
  | _ => cases hu

theorem decodes_mtx (i : Instr) (hu : i.unit = .mtx) (hwf : i.wf = true) : Decodes i := by
  cases i with
  | seat x =>
    have hx := of_decide_eq_true hwf
    refine decodes_of_fields [(5, 5, x)] rfl ⟨hx, trivial⟩ rfl fun _ fix val => ?_
    obtain ⟨rfl, -⟩ := val
    rw [decodeWord_xpMtx (fix 29 3 rfl), decodeXpMtx, fix 24 5 rfl]
    exact if_pos ⟨fix 10 14 rfl, fix 0 5 rfl⟩
  | unseat | wswap =>
    refine decodes_of_fields [] rfl trivial rfl fun _ fix val => ?_
    rw [decodeWord_xpMtx (fix 29 3 rfl), decodeXpMtx, fix 24 5 rfl]
    exact if_pos (fix 0 24 rfl)
  | wload k m t =>
    obtain ⟨hk, ht⟩ := of_decide_eq_true hwf
    refine decodes_of_fields [(15, 5, k), (4, 1, bit m), (0, 3, t)] rfl
      ⟨hk, bit_lt m, ht, trivial⟩ rfl fun _ fix val => ?_
    obtain ⟨rfl, hm, rfl, -⟩ := val
    obtain rfl := flag_eq hm
    rw [decodeWord_xpMtx (fix 29 3 rfl), decodeXpMtx, fix 24 5 rfl]
    exact if_pos ⟨fix 20 4 rfl, fix 5 10 rfl, fix 3 1 rfl⟩
  | sclq k | rsend k =>
    have hk := of_decide_eq_true hwf
    refine decodes_of_fields [(15, 5, k)] rfl ⟨hk, trivial⟩ rfl fun _ fix val => ?_
    obtain ⟨rfl, -⟩ := val
    rw [decodeWord_xpMtx (fix 29 3 rfl), decodeXpMtx, fix 24 5 rfl]
    exact if_pos ⟨fix 20 4 rfl, fix 0 15 rfl⟩
  | mmul t k m h e =>
    obtain ⟨ht, hk, he⟩ := of_decide_eq_true hwf
    refine decodes_of_fields [(20, 4, t), (15, 5, k), (4, 1, bit m), (3, 1, bit h), (0, 3, e)] rfl
      ⟨ht, hk, bit_lt m, bit_lt h, he, trivial⟩ rfl fun _ fix val => ?_
    obtain ⟨rfl, rfl, hm, hh, rfl, -⟩ := val
    obtain rfl := flag_eq hm
    obtain rfl := flag_eq hh
    rw [decodeWord_xpMtx (fix 29 3 rfl), decodeXpMtx, fix 24 5 rfl]
    exact if_pos (fix 5 10 rfl)
  | mmulg t k x m h e =>
    obtain ⟨ht, hk, hx, he⟩ := of_decide_eq_true hwf
    refine decodes_of_fields [(20, 4, t), (15, 5, k), (5, 5, x), (4, 1, bit m), (3, 1, bit h), (0, 3, e)] rfl
      ⟨ht, hk, hx, bit_lt m, bit_lt h, he, trivial⟩ rfl fun _ fix val => ?_
    obtain ⟨rfl, rfl, rfl, hm, hh, rfl, -⟩ := val
    obtain rfl := flag_eq hm
    obtain rfl := flag_eq hh
    rw [decodeWord_xpMtx (fix 29 3 rfl), decodeXpMtx, fix 24 5 rfl]
    exact if_pos (fix 10 5 rfl)
  | azero t =>
    have ht := of_decide_eq_true hwf
    refine decodes_of_fields [(20, 4, t)] rfl ⟨ht, trivial⟩ rfl fun _ fix val => ?_
    obtain ⟨rfl, -⟩ := val
    rw [decodeWord_xpMtx (fix 29 3 rfl), decodeXpMtx, fix 24 5 rfl]
    exact if_pos (fix 0 20 rfl)
  | drain t x s f =>
    obtain ⟨ht, hx, hf⟩ := of_decide_eq_true hwf
    refine decodes_of_fields [(20, 4, t), (5, 5, x), (3, 1, bit s), (0, 3, f)] rfl
      ⟨ht, hx, bit_lt s, hf, trivial⟩ rfl fun _ fix val => ?_
    obtain ⟨rfl, rfl, hs, rfl, -⟩ := val
    obtain rfl := flag_eq hs
    rw [decodeWord_xpMtx (fix 29 3 rfl), decodeXpMtx, fix 24 5 rfl]
    exact if_pos ⟨fix 10 10 rfl, fix 4 1 rfl⟩
  | rpop v =>
    have hv := of_decide_eq_true hwf
    refine decodes_of_fields [(10, 7, v)] rfl ⟨hv, trivial⟩ rfl fun _ fix val => ?_
    obtain ⟨rfl, -⟩ := val
    rw [decodeWord_xpMtx (fix 29 3 rfl), decodeXpMtx, fix 24 5 rfl]
    exact if_pos ⟨fix 17 7 rfl, fix 0 10 rfl⟩
  | _ => cases hu

theorem decodes_func (i : Instr) (hu : i.unit = .func) (hwf : i.wf = true) : Decodes i := by
  cases i with
  | exp2 d a m | log2 d a m | rcp d a m | rsqrt d a m | sinpi d a m | cospi d a m | tanh d a m | sigm d a m =>
    obtain ⟨hd, ha⟩ := of_decide_eq_true hwf
    refine decodes_of_fields [(17, 7, d), (10, 7, a), (0, 1, bit m)] rfl
      ⟨hd, ha, bit_lt m, trivial⟩ rfl fun _ fix val => ?_
    obtain ⟨rfl, rfl, hm, -⟩ := val
    obtain rfl := flag_eq hm
    rw [decodeWord_xpMtx (fix 29 3 rfl), decodeXpMtx, fix 24 5 rfl, fix 1 9 rfl]
    rfl
  | _ => cases hu

theorem decodes_xp (i : Instr) (hu : i.unit = .xp) (hwf : i.wf = true) : Decodes i := by
  cases i with
  | xpAdd d a b | xpSub d a b | xpAnd d a b | xpOr d a b | xpXor d a b | xpShl d a b | xpShr d a b | xpSra d a b
  | xpMul d a b | xpMin d a b | xpMax d a b =>
    obtain ⟨hd, ha, hb⟩ := of_decide_eq_true hwf
    refine decodes_of_fields [(18, 5, d), (13, 5, a), (8, 5, b)] rfl ⟨hd, ha, hb, trivial⟩ rfl fun _ fix val => ?_
    obtain ⟨rfl, rfl, rfl, -⟩ := val
    rw [decodeWord_xpCtl (fix 29 3 rfl), decodeXpCtl, fix 23 6 rfl]
    exact if_pos (fix 0 8 rfl)
  | xpSel d a b c =>
    obtain ⟨hd, ha, hb, hc⟩ := of_decide_eq_true hwf
    refine decodes_of_fields [(18, 5, d), (13, 5, a), (8, 5, b), (0, 5, c)] rfl
      ⟨hd, ha, hb, hc, trivial⟩ rfl fun _ fix val => ?_
    obtain ⟨rfl, rfl, rfl, rfl, -⟩ := val
    rw [decodeWord_xpCtl (fix 29 3 rfl), decodeXpCtl, fix 23 6 rfl]
    exact if_pos (fix 5 3 rfl)
  | xpCmp d a b c =>
    obtain ⟨hd, ha, hb, hc, hsel⟩ := of_decide_eq_true hwf
    refine decodes_of_fields [(18, 5, d), (13, 5, a), (8, 5, b), (0, 8, c)] rfl
      ⟨hd, ha, hb, hc, trivial⟩ rfl fun _ fix val => ?_
    obtain ⟨rfl, rfl, rfl, rfl, -⟩ := val
    rw [decodeWord_xpCtl (fix 29 3 rfl), decodeXpCtl, fix 23 6 rfl]
    exact if_pos (decide_eq_true hsel)
  | xpCsrr d c =>
    obtain ⟨hd, hc⟩ := of_decide_eq_true hwf
    refine decodes_of_fields [(18, 5, d), (0, 12, c)] rfl ⟨hd, hc, trivial⟩ rfl fun _ fix val => ?_
    obtain ⟨rfl, rfl, -⟩ := val
    rw [decodeWord_xpCtl (fix 29 3 rfl), decodeXpCtl, fix 23 6 rfl]
    exact if_pos (fix 12 6 rfl)
  | xpCsrw a c =>
    obtain ⟨ha, hc⟩ := of_decide_eq_true hwf
    refine decodes_of_fields [(13, 5, a), (0, 12, c)] rfl ⟨ha, hc, trivial⟩ rfl fun _ fix val => ?_
    obtain ⟨rfl, rfl, -⟩ := val
    rw [decodeWord_xpCtl (fix 29 3 rfl), decodeXpCtl, fix 23 6 rfl]
    exact if_pos ⟨fix 18 5 rfl, fix 12 1 rfl⟩
  | xpAddi d a i =>
    obtain ⟨hd, ha⟩ := of_decide_eq_true hwf
    refine decodes_of_fields [(18, 5, d), (13, 5, a), (0, 13, i.toNat)] rfl
      ⟨hd, ha, i.isLt, trivial⟩ rfl fun _ fix val => ?_
    obtain ⟨rfl, rfl, hi, -⟩ := val
    obtain rfl := imm_eq hi
    rw [decodeWord_xpCtl (fix 29 3 rfl), decodeXpCtl, fix 23 6 rfl]
    rfl
  | xpLi d i =>
    have hd := of_decide_eq_true hwf
    refine decodes_of_fields [(18, 5, d), (0, 13, i.toNat)] rfl ⟨hd, i.isLt, trivial⟩ rfl fun _ fix val => ?_
    obtain ⟨rfl, hi, -⟩ := val
    obtain rfl := imm_eq hi
    rw [decodeWord_xpCtl (fix 29 3 rfl), decodeXpCtl, fix 23 6 rfl]
    exact if_pos (fix 13 5 rfl)
  | xpB o =>
    refine decodes_of_fields [(0, 18, o.toNat)] rfl ⟨o.isLt, trivial⟩ rfl fun _ fix val => ?_
    obtain ⟨ho, -⟩ := val
    obtain rfl := imm_eq ho
    rw [decodeWord_xpCtl (fix 29 3 rfl), decodeXpCtl, fix 23 6 rfl]
    exact if_pos (fix 18 5 rfl)
  | xpBp c o | xpLoop c o | lsp c o =>
    have hc := of_decide_eq_true hwf
    refine decodes_of_fields [(18, 5, c), (0, 18, o.toNat)] rfl ⟨hc, o.isLt, trivial⟩ rfl fun _ fix val => ?_
    obtain ⟨rfl, ho, -⟩ := val
    obtain rfl := imm_eq ho
    rw [decodeWord_xpCtl (fix 29 3 rfl), decodeXpCtl, fix 23 6 rfl]
    rfl
  | xfence =>
    refine decodes_of_fields [] rfl trivial rfl fun _ fix val => ?_
    rw [decodeWord_xpCtl (fix 29 3 rfl), decodeXpCtl, fix 23 6 rfl]
    exact if_pos (fix 0 23 rfl)
  | xpQget d q =>
    obtain ⟨hd, hq⟩ := of_decide_eq_true hwf
    refine decodes_of_fields [(18, 5, d), (13, 3, q)] rfl ⟨hd, hq, trivial⟩ rfl fun _ fix val => ?_
    obtain ⟨rfl, rfl, -⟩ := val
    rw [decodeWord_xpCtl (fix 29 3 rfl), decodeXpCtl, fix 23 6 rfl]
    exact if_pos ⟨fix 16 2 rfl, fix 0 13 rfl⟩
  | xpQput q a =>
    obtain ⟨hq, ha⟩ := of_decide_eq_true hwf
    refine decodes_of_fields [(18, 3, q), (13, 5, a)] rfl ⟨hq, ha, trivial⟩ rfl fun _ fix val => ?_
    obtain ⟨rfl, rfl, -⟩ := val
    rw [decodeWord_xpCtl (fix 29 3 rfl), decodeXpCtl, fix 23 6 rfl]
    exact if_pos ⟨fix 21 2 rfl, fix 0 13 rfl⟩
  | fadd d a b r | fmul d a b r | fma d a b r =>
    obtain ⟨hd, ha, hb, hr⟩ := of_decide_eq_true hwf
    refine decodes_of_fields [(18, 5, d), (13, 5, a), (8, 5, b), (0, 2, r)] rfl
      ⟨hd, ha, hb, hr, trivial⟩ rfl fun _ fix val => ?_
    obtain ⟨rfl, rfl, rfl, rfl, -⟩ := val
    rw [decodeWord_xpCtl (fix 29 3 rfl), decodeXpCtl, fix 23 6 rfl]
    exact if_pos (fix 2 6 rfl)
  | vset m e =>
    obtain ⟨hm, he⟩ := of_decide_eq_true hwf
    refine decodes_of_fields [(5, 3, m), (0, 5, e)] rfl ⟨hm, he, trivial⟩ rfl fun _ fix val => ?_
    obtain ⟨rfl, rfl, -⟩ := val
    rw [decodeWord_xpCtl (fix 29 3 rfl), decodeXpCtl, fix 23 6 rfl]
    exact if_pos (fix 8 15 rfl)
  | vsetRot a m e =>
    obtain ⟨ha, hm, he⟩ := of_decide_eq_true hwf
    refine decodes_of_fields [(13, 5, a), (5, 3, m), (0, 5, e)] rfl ⟨ha, hm, he, trivial⟩ rfl fun _ fix val => ?_
    obtain ⟨rfl, rfl, rfl, -⟩ := val
    rw [decodeWord_xpCtl (fix 29 3 rfl), decodeXpCtl, fix 23 6 rfl]
    refine (if_neg (fld_ne_of_part 0 (fix 8 5 rfl) (by decide) (by decide))).trans ?_
    exact if_pos ⟨fix 18 5 rfl, fix 8 5 rfl⟩
  | nset c =>
    have hc := of_decide_eq_true hwf
    refine decodes_of_fields [(0, 7, c)] rfl ⟨hc, trivial⟩ rfl fun _ fix val => ?_
    obtain ⟨rfl, -⟩ := val
    rw [decodeWord_xpCtl (fix 29 3 rfl), decodeXpCtl, fix 23 6 rfl]
    exact if_pos (fix 7 16 rfl)
  | slip a =>
    have ha := of_decide_eq_true hwf
    refine decodes_of_fields [(13, 5, a)] rfl ⟨ha, trivial⟩ rfl fun _ fix val => ?_
    obtain ⟨rfl, -⟩ := val
    rw [decodeWord_sync (fix 29 3 rfl), decodeSync, fix 23 6 rfl]
    exact if_pos ⟨fix 18 5 rfl, fix 0 13 rfl⟩
  | xpLil d i =>
    have hd := of_decide_eq_true hwf
    refine decodes_of_long [(18, 5, d), (13, 5, 0)] rfl ⟨hd, by decide, trivial⟩ rfl fun _ fix val => ?_
    obtain ⟨rfl, h0, -⟩ := val
    rw [decodeLong, fix 10 3 rfl, fix 23 6 rfl, i.ofNat_toNat, i.setWidth_eq]
    exact if_pos ⟨h0, fix 0 10 rfl⟩
  | xpAddil d a i =>
    obtain ⟨hd, ha⟩ := of_decide_eq_true hwf
    refine decodes_of_long [(18, 5, d), (13, 5, a)] rfl ⟨hd, ha, trivial⟩ rfl fun _ fix val => ?_
    obtain ⟨rfl, rfl, -⟩ := val
    rw [decodeLong, fix 10 3 rfl, fix 23 6 rfl, i.ofNat_toNat, i.setWidth_eq]
    exact if_pos (fix 0 10 rfl)
  | xpCsrwLong c i =>
    have hc := of_decide_eq_true hwf
    refine decodes_of_long [(0, 10, c)] rfl ⟨hc, trivial⟩ rfl fun _ fix val => ?_
    obtain ⟨rfl, -⟩ := val
    rw [decodeLong, fix 10 3 rfl, fix 23 6 rfl, i.ofNat_toNat, i.setWidth_eq]
    exact if_pos (fix 13 10 rfl)
  | _ => cases hu

theorem decodes_both (i : Instr) (hu : i.unit = .both) (hwf : i.wf = true) : Decodes i := by
  cases i with
  | nop | endTask | rtt | halt =>
    refine decodes_of_fields [] rfl trivial rfl fun _ fix val => ?_
    rw [decodeWord_sync (fix 29 3 rfl), decodeSync, fix 23 6 rfl]
    exact if_pos (fix 0 23 rfl)
  | spawnAp d a b | fwait d a b =>
    obtain ⟨hd, ha, hb⟩ := of_decide_eq_true hwf
    refine decodes_of_fields [(18, 5, d), (13, 5, a), (8, 5, b)] rfl ⟨hd, ha, hb, trivial⟩ rfl fun _ fix val => ?_
    obtain ⟨rfl, rfl, rfl, -⟩ := val
    rw [decodeWord_sync (fix 29 3 rfl), decodeSync, fix 23 6 rfl]
    exact if_pos (fix 0 8 rfl)
  | spawnXp d a b =>
    obtain ⟨hd, ha, hb⟩ := of_decide_eq_true hwf
    refine decodes_of_fields [(18, 5, d), (13, 5, a), (8, 5, b)] rfl ⟨hd, ha, hb, trivial⟩ rfl fun _ fix val => ?_
    obtain ⟨rfl, rfl, rfl, -⟩ := val
    rw [decodeWord_sync (fix 29 3 rfl), decodeSync, fix 23 6 rfl]
    exact (if_neg ((fix 0 8 rfl).trans_ne (by decide))).trans (if_pos (fix 0 8 rfl))
  | wait d a c s =>
    obtain ⟨hd, ha, hc, hs⟩ := of_decide_eq_true hwf
    refine decodes_of_fields [(18, 5, d), (13, 5, a), (6, 7, c), (0, 6, s)] rfl
      ⟨hd, ha, hc, hs, trivial⟩ rfl fun _ fix val => ?_
    obtain ⟨rfl, rfl, rfl, rfl, -⟩ := val
    rw [decodeWord_sync (fix 29 3 rfl), decodeSync, fix 23 6 rfl]
    rfl
  | raise a c s =>
    obtain ⟨ha, hc, hs⟩ := of_decide_eq_true hwf
    refine decodes_of_fields [(13, 5, a), (6, 7, c), (0, 6, s)] rfl ⟨ha, hc, hs, trivial⟩ rfl fun _ fix val => ?_
    obtain ⟨rfl, rfl, rfl, -⟩ := val
    rw [decodeWord_sync (fix 29 3 rfl), decodeSync, fix 23 6 rfl]
    exact if_pos (fix 18 5 rfl)
  | fres a b | ffault a b =>
    obtain ⟨ha, hb⟩ := of_decide_eq_true hwf
    refine decodes_of_fields [(13, 5, a), (8, 5, b)] rfl ⟨ha, hb, trivial⟩ rfl fun _ fix val => ?_
    obtain ⟨rfl, rfl, -⟩ := val
    rw [decodeWord_sync (fix 29 3 rfl), decodeSync, fix 23 6 rfl]
    exact if_pos ⟨fix 18 5 rfl, fix 0 8 rfl⟩
  | hbarHeat a =>
    have ha := of_decide_eq_true hwf
    refine decodes_of_fields [(13, 5, a)] rfl ⟨ha, trivial⟩ rfl fun _ fix val => ?_
    obtain ⟨rfl, -⟩ := val
    rw [decodeWord_sync (fix 29 3 rfl), decodeSync, fix 23 6 rfl]
    exact if_pos ⟨fix 18 5 rfl, fix 0 13 rfl⟩
  | hbarGroup a h w =>
    obtain ⟨ha, hh, hw, hlo, hhi⟩ := of_decide_eq_true hwf
    refine decodes_of_fields [(13, 5, a), (3, 3, h), (0, 3, w)] rfl ⟨ha, hh, hw, trivial⟩ rfl fun _ fix val => ?_
    obtain ⟨rfl, rfl, rfl, -⟩ := val
    rw [decodeWord_sync (fix 29 3 rfl), decodeSync, fix 23 6 rfl]
    refine (if_neg fun ⟨_, e⟩ => fld_ne_of_part 6 (fix 6 7 rfl) (by decide) (by decide) e).trans ?_
    refine (if_pos ⟨fix 18 5 rfl, fix 6 7 rfl⟩).trans ?_
    exact if_pos (decide_eq_true ⟨hlo, hhi⟩)
  | barm a b =>
    obtain ⟨ha, hb⟩ := of_decide_eq_true hwf
    refine decodes_of_fields [(13, 5, a), (0, 5, b)] rfl ⟨ha, hb, trivial⟩ rfl fun _ fix val => ?_
    obtain ⟨rfl, rfl, -⟩ := val
    rw [decodeWord_sync (fix 29 3 rfl), decodeSync, fix 23 6 rfl]
    exact if_pos ⟨fix 18 5 rfl, fix 5 8 rfl⟩
  | barmClr a b =>
    obtain ⟨ha, hb⟩ := of_decide_eq_true hwf
    refine decodes_of_fields [(13, 5, a), (0, 5, b)] rfl ⟨ha, hb, trivial⟩ rfl fun _ fix val => ?_
    obtain ⟨rfl, rfl, -⟩ := val
    rw [decodeWord_sync (fix 29 3 rfl), decodeSync, fix 23 6 rfl]
    exact (if_neg fun ⟨_, e⟩ => (fix 5 8 rfl).trans_ne (by decide) e).trans (if_pos ⟨fix 18 5 rfl, fix 5 8 rfl⟩)
  | bwait d a p b =>
    obtain ⟨hd, ha, hb⟩ := of_decide_eq_true hwf
    refine decodes_of_fields [(18, 5, d), (13, 5, a), (5, 1, bit p), (0, 5, b)] rfl
      ⟨hd, ha, bit_lt p, hb, trivial⟩ rfl fun _ fix val => ?_
    obtain ⟨rfl, rfl, hp, rfl, -⟩ := val
    obtain rfl := flag_eq hp
    rw [decodeWord_sync (fix 29 3 rfl), decodeSync, fix 23 6 rfl]
    exact if_pos (fix 6 7 rfl)
  | fence s =>
    obtain ⟨hs, hsel⟩ := of_decide_eq_true hwf
    refine decodes_of_fields [(0, 3, s)] rfl ⟨hs, trivial⟩ rfl fun _ fix val => ?_
    obtain ⟨rfl, -⟩ := val
    rw [decodeWord_sync (fix 29 3 rfl), decodeSync, fix 23 6 rfl]
    exact (if_pos (fix 3 20 rfl)).trans (if_pos (decide_eq_true hsel))
  | tsr d =>
    have hd := of_decide_eq_true hwf
    refine decodes_of_fields [(18, 5, d)] rfl ⟨hd, trivial⟩ rfl fun _ fix val => ?_
    obtain ⟨rfl, -⟩ := val
    rw [decodeWord_sync (fix 29 3 rfl), decodeSync, fix 23 6 rfl]
    exact if_pos (fix 0 18 rfl)
  | trap n =>
    have hn := of_decide_eq_true hwf
    refine decodes_of_fields [(0, 12, n)] rfl ⟨hn, trivial⟩ rfl fun _ fix val => ?_
    obtain ⟨rfl, -⟩ := val
    rw [decodeWord_sync (fix 29 3 rfl), decodeSync, fix 23 6 rfl]
    exact if_pos (fix 12 11 rfl)
  | sysXpage d a =>
    obtain ⟨hd, ha⟩ := of_decide_eq_true hwf
    refine decodes_of_fields [(18, 5, d), (13, 5, a)] rfl ⟨hd, ha, trivial⟩ rfl fun _ fix val => ?_
    obtain ⟨rfl, rfl, -⟩ := val
    rw [decodeWord_sync (fix 29 3 rfl), decodeSync, fix 23 6 rfl]
    exact if_pos (fix 0 13 rfl)
  | sysXctx d a =>
    obtain ⟨hd, ha⟩ := of_decide_eq_true hwf
    refine decodes_of_fields [(18, 5, d), (13, 5, a)] rfl ⟨hd, ha, trivial⟩ rfl fun _ fix val => ?_
    obtain ⟨rfl, rfl, -⟩ := val
    rw [decodeWord_sync (fix 29 3 rfl), decodeSync, fix 23 6 rfl]
    exact (if_neg ((fix 0 13 rfl).trans_ne (by decide))).trans (if_pos (fix 0 13 rfl))
  | sysRlc d a | sysTbsync d a =>
    obtain ⟨hd, ha⟩ := of_decide_eq_true hwf
    refine decodes_of_fields [(18, 5, d), (13, 5, a)] rfl ⟨hd, ha, trivial⟩ rfl fun _ fix val => ?_
    obtain ⟨rfl, rfl, -⟩ := val
    rw [decodeWord_sync (fix 29 3 rfl), decodeSync, fix 23 6 rfl, fix 0 13 rfl]
    rfl
  | pixr d e =>
    obtain ⟨hd, he⟩ := of_decide_eq_true hwf
    refine decodes_of_fields [(18, 5, d), (0, 2, e)] rfl ⟨hd, he, trivial⟩ rfl fun _ fix val => ?_
    obtain ⟨rfl, rfl, -⟩ := val
    rw [decodeWord_sync (fix 29 3 rfl), decodeSync, fix 23 6 rfl]
    exact if_pos (fix 2 16 rfl)
  | pixw a e =>
    obtain ⟨ha, he⟩ := of_decide_eq_true hwf
    refine decodes_of_fields [(13, 5, a), (0, 2, e)] rfl ⟨ha, he, trivial⟩ rfl fun _ fix val => ?_
    obtain ⟨rfl, rfl, -⟩ := val
    rw [decodeWord_sync (fix 29 3 rfl), decodeSync, fix 23 6 rfl]
    exact if_pos ⟨fix 18 5 rfl, fix 2 11 rfl⟩
  | _ => cases hu

theorem decodes_ap (i : Instr) (hu : i.unit = .ap) (hwf : i.wf = true) : Decodes i := by
  cases i with
  | add d a b | sub d a b | and d a b | or d a b | xor d a b | andn d a b | shl d a b | shr d a b | sra d a b
  | mul d a b | mulh d a b | mulhz d a b | div d a b | rem d a b | divz d a b | remz d a b | min d a b | max d a b
  | minz d a b | maxz d a b =>
    obtain ⟨hd, ha, hb⟩ := of_decide_eq_true hwf
    refine decodes_of_fields [(18, 5, d), (13, 5, a), (8, 5, b)] rfl ⟨hd, ha, hb, trivial⟩ rfl fun _ fix val => ?_
    obtain ⟨rfl, rfl, rfl, -⟩ := val
    rw [decodeWord_apAlu (fix 29 3 rfl), decodeApAlu, fix 23 6 rfl]
    exact if_pos (fix 0 8 rfl)
  | sel d a b p =>
    obtain ⟨hd, ha, hb, hp⟩ := of_decide_eq_true hwf
    refine decodes_of_fields [(18, 5, d), (13, 5, a), (8, 5, b), (0, 3, p)] rfl
      ⟨hd, ha, hb, hp, trivial⟩ rfl fun _ fix val => ?_
    obtain ⟨rfl, rfl, rfl, rfl, -⟩ := val
    rw [decodeWord_apAlu (fix 29 3 rfl), decodeApAlu, fix 23 6 rfl]
    exact if_pos (fix 3 5 rfl)
  | cmp p a b c =>
    obtain ⟨hp, ha, hb, hc, hsel⟩ := of_decide_eq_true hwf
    refine decodes_of_fields [(18, 3, p), (13, 5, a), (8, 5, b), (0, 8, c)] rfl
      ⟨hp, ha, hb, hc, trivial⟩ rfl fun _ fix val => ?_
    obtain ⟨rfl, rfl, rfl, rfl, -⟩ := val
    rw [decodeWord_apAlu (fix 29 3 rfl), decodeApAlu, fix 23 6 rfl]
    exact (if_pos (fix 21 2 rfl)).trans (if_pos (decide_eq_true hsel))
  | sext d a w | zext d a w =>
    obtain ⟨hd, ha, hw, hlo, hhi⟩ := of_decide_eq_true hwf
    refine decodes_of_fields [(18, 5, d), (13, 5, a), (0, 8, w)] rfl ⟨hd, ha, hw, trivial⟩ rfl fun _ fix val => ?_
    obtain ⟨rfl, rfl, rfl, -⟩ := val
    rw [decodeWord_apAlu (fix 29 3 rfl), decodeApAlu, fix 23 6 rfl]
    exact (if_pos (fix 8 5 rfl)).trans (if_pos (decide_eq_true ⟨hlo, hhi⟩))
  | clz d a | popc d a | jr d a =>
    obtain ⟨hd, ha⟩ := of_decide_eq_true hwf
    refine decodes_of_fields [(18, 5, d), (13, 5, a)] rfl ⟨hd, ha, trivial⟩ rfl fun _ fix val => ?_
    obtain ⟨rfl, rfl, -⟩ := val
    rw [decodeWord_apAlu (fix 29 3 rfl), decodeApAlu, fix 23 6 rfl]
    exact if_pos (fix 0 13 rfl)
  | pand d a b | por d a b | pxor d a b =>
    obtain ⟨hd, ha, hb⟩ := of_decide_eq_true hwf
    refine decodes_of_fields [(18, 3, d), (13, 3, a), (8, 3, b)] rfl ⟨hd, ha, hb, trivial⟩ rfl fun _ fix val => ?_
    obtain ⟨rfl, rfl, rfl, -⟩ := val
    rw [decodeWord_apAlu (fix 29 3 rfl), decodeApAlu, fix 23 6 rfl]
    exact if_pos ⟨fix 21 2 rfl, fix 16 2 rfl, fix 11 2 rfl, fix 0 8 rfl⟩
  | pnot d a =>
    obtain ⟨hd, ha⟩ := of_decide_eq_true hwf
    refine decodes_of_fields [(18, 3, d), (13, 3, a)] rfl ⟨hd, ha, trivial⟩ rfl fun _ fix val => ?_
    obtain ⟨rfl, rfl, -⟩ := val
    rw [decodeWord_apAlu (fix 29 3 rfl), decodeApAlu, fix 23 6 rfl]
    exact if_pos ⟨fix 21 2 rfl, fix 16 2 rfl, fix 0 13 rfl⟩
  | csrr d c =>
    obtain ⟨hd, hc⟩ := of_decide_eq_true hwf
    refine decodes_of_fields [(18, 5, d), (0, 12, c)] rfl ⟨hd, hc, trivial⟩ rfl fun _ fix val => ?_
    obtain ⟨rfl, rfl, -⟩ := val
    rw [decodeWord_apAlu (fix 29 3 rfl), decodeApAlu, fix 23 6 rfl]
    exact if_pos (fix 12 6 rfl)
  | csrw a c =>
    obtain ⟨ha, hc⟩ := of_decide_eq_true hwf
    refine decodes_of_fields [(13, 5, a), (0, 12, c)] rfl ⟨ha, hc, trivial⟩ rfl fun _ fix val => ?_
    obtain ⟨rfl, rfl, -⟩ := val
    rw [decodeWord_apAlu (fix 29 3 rfl), decodeApAlu, fix 23 6 rfl]
    exact if_pos ⟨fix 18 5 rfl, fix 12 1 rfl⟩
  | addi d a i | andi d a i | ori d a i | xori d a i =>
    obtain ⟨hd, ha⟩ := of_decide_eq_true hwf
    refine decodes_of_fields [(18, 5, d), (13, 5, a), (0, 13, i.toNat)] rfl
      ⟨hd, ha, i.isLt, trivial⟩ rfl fun _ fix val => ?_
    obtain ⟨rfl, rfl, hi, -⟩ := val
    obtain rfl := imm_eq hi
    rw [decodeWord_apAlu (fix 29 3 rfl), decodeApAlu, fix 23 6 rfl]
    rfl
  | shli d a s | shri d a s | srai d a s =>
    obtain ⟨hd, ha, hs⟩ := of_decide_eq_true hwf
    refine decodes_of_fields [(18, 5, d), (13, 5, a), (0, 6, s)] rfl ⟨hd, ha, hs, trivial⟩ rfl fun _ fix val => ?_
    obtain ⟨rfl, rfl, rfl, -⟩ := val
    rw [decodeWord_apAlu (fix 29 3 rfl), decodeApAlu, fix 23 6 rfl]
    exact if_pos (fix 6 7 rfl)
  | li d i =>
    have hd := of_decide_eq_true hwf
    refine decodes_of_fields [(18, 5, d), (0, 13, i.toNat)] rfl ⟨hd, i.isLt, trivial⟩ rfl fun _ fix val => ?_
    obtain ⟨rfl, hi, -⟩ := val
    obtain rfl := imm_eq hi
    rw [decodeWord_apAlu (fix 29 3 rfl), decodeApAlu, fix 23 6 rfl]
    exact if_pos (fix 13 5 rfl)
  | cmpiEq p a i | cmpiNe p a i | cmpiLt p a i | cmpiGe p a i | cmpiLtz p a i | cmpiGez p a i =>
    obtain ⟨hp, ha⟩ := of_decide_eq_true hwf
    refine decodes_of_fields [(18, 3, p), (13, 5, a), (0, 13, i.toNat)] rfl
      ⟨hp, ha, i.isLt, trivial⟩ rfl fun _ fix val => ?_
    obtain ⟨rfl, rfl, hi, -⟩ := val
    obtain rfl := imm_eq hi
    rw [decodeWord_apAlu (fix 29 3 rfl), decodeApAlu, fix 23 6 rfl]
    exact if_pos (fix 21 2 rfl)
  | br o | call o =>
    refine decodes_of_fields [(0, 18, o.toNat)] rfl ⟨o.isLt, trivial⟩ rfl fun _ fix val => ?_
    obtain ⟨ho, -⟩ := val
    obtain rfl := imm_eq ho
    rw [decodeWord_apAlu (fix 29 3 rfl), decodeApAlu, fix 23 6 rfl]
    exact if_pos (fix 18 5 rfl)
  | bp p o | bnp p o =>
    have hp := of_decide_eq_true hwf
    refine decodes_of_fields [(18, 3, p), (0, 18, o.toNat)] rfl ⟨hp, o.isLt, trivial⟩ rfl fun _ fix val => ?_
    obtain ⟨rfl, ho, -⟩ := val
    obtain rfl := imm_eq ho
    rw [decodeWord_apAlu (fix 29 3 rfl), decodeApAlu, fix 23 6 rfl]
    exact if_pos (fix 21 2 rfl)
  | loop c o =>
    have hc := of_decide_eq_true hwf
    refine decodes_of_fields [(18, 5, c), (0, 18, o.toNat)] rfl ⟨hc, o.isLt, trivial⟩ rfl fun _ fix val => ?_
    obtain ⟨rfl, ho, -⟩ := val
    obtain rfl := imm_eq ho
    rw [decodeWord_apAlu (fix 29 3 rfl), decodeApAlu, fix 23 6 rfl]
    rfl
  | ld n z w d a i =>
    obtain ⟨hw, hd, ha, hsel⟩ := of_decide_eq_true hwf
    refine decodes_of_fields [(26, 1, bit n), (25, 1, bit z), (23, 2, w), (18, 5, d), (13, 5, a), (0, 13, i.toNat)] rfl
      ⟨bit_lt n, bit_lt z, hw, hd, ha, i.isLt, trivial⟩ rfl fun _ fix val => ?_
    obtain ⟨hn, hz, rfl, rfl, rfl, hi, -⟩ := val
    obtain rfl := flag_eq hn
    obtain rfl := flag_eq hz
    obtain rfl := imm_eq hi
    rw [decodeWord_apMem (fix 29 3 rfl), decodeApMem_ld (fix 27 2 rfl)]
    exact if_pos (decide_eq_true hsel)
  | lds z w d a i =>
    obtain ⟨hw, hd, ha, hsel⟩ := of_decide_eq_true hwf
    refine decodes_of_fields [(25, 1, bit z), (23, 2, w), (18, 5, d), (13, 5, a), (0, 13, i.toNat)] rfl
      ⟨bit_lt z, hw, hd, ha, i.isLt, trivial⟩ rfl fun _ fix val => ?_
    obtain ⟨hz, rfl, rfl, rfl, hi, -⟩ := val
    obtain rfl := flag_eq hz
    obtain rfl := imm_eq hi
    rw [decodeWord_apMem (fix 29 3 rfl), decodeApMem_lds (fix 26 3 rfl)]
    exact if_pos (decide_eq_true hsel)
  | st w d a i =>
    obtain ⟨hw, hd, ha⟩ := of_decide_eq_true hwf
    refine decodes_of_fields [(23, 2, w), (18, 5, d), (13, 5, a), (0, 13, i.toNat)] rfl
      ⟨hw, hd, ha, i.isLt, trivial⟩ rfl fun _ fix val => ?_
    obtain ⟨rfl, rfl, rfl, hi, -⟩ := val
    obtain rfl := imm_eq hi
    rw [decodeWord_apMem (fix 29 3 rfl), decodeApMem_st (fix 25 4 rfl)]
  | ldAcq w d a z s =>
    obtain ⟨hw, hd, ha, hs, hsel, hscope⟩ := of_decide_eq_true hwf
    refine decodes_of_fields [(23, 2, w), (18, 5, d), (13, 5, a), (3, 1, bit z), (0, 3, s)] rfl
      ⟨hw, hd, ha, bit_lt z, hs, trivial⟩ rfl fun _ fix val => ?_
    obtain ⟨rfl, rfl, rfl, hz, rfl, -⟩ := val
    obtain rfl := flag_eq hz
    rw [decodeWord_apMem (fix 29 3 rfl), decodeApMem_ldAcq (fix 25 4 rfl)]
    exact (if_pos (fix 4 9 rfl)).trans (if_pos (decide_eq_true ⟨hsel, hscope⟩))
  | stRel w d a s =>
    obtain ⟨hw, hd, ha, hs, hsel⟩ := of_decide_eq_true hwf
    refine decodes_of_fields [(23, 2, w), (18, 5, d), (13, 5, a), (0, 3, s)] rfl
      ⟨hw, hd, ha, hs, trivial⟩ rfl fun _ fix val => ?_
    obtain ⟨rfl, rfl, rfl, rfl, -⟩ := val
    rw [decodeWord_apMem (fix 29 3 rfl), decodeApMem_stRel (fix 25 4 rfl)]
    exact (if_pos (fix 3 10 rfl)).trans (if_pos (decide_eq_true hsel))
  | chk a | srest a =>
    have ha := of_decide_eq_true hwf
    refine decodes_of_fields [(13, 5, a)] rfl ⟨ha, trivial⟩ rfl fun _ fix val => ?_
    obtain ⟨rfl, -⟩ := val
    rw [decodeWord_apMem (fix 29 3 rfl), decodeApMem, fix 23 6 rfl]
    exact if_pos ⟨fix 18 5 rfl, fix 0 13 rfl⟩
  | cvtaTo d a p =>
    obtain ⟨hd, ha, hp⟩ := of_decide_eq_true hwf
    refine decodes_of_fields [(18, 5, d), (13, 5, a), (0, 2, p)] rfl ⟨hd, ha, hp, trivial⟩ rfl fun _ fix val => ?_
    obtain ⟨rfl, rfl, rfl, -⟩ := val
    rw [decodeWord_apMem (fix 29 3 rfl), decodeApMem, fix 23 6 rfl]
    exact if_pos (fix 2 11 rfl)
  | cvtaOf d a p =>
    obtain ⟨hd, ha, hp⟩ := of_decide_eq_true hwf
    refine decodes_of_fields [(18, 5, d), (13, 5, a), (0, 2, p)] rfl ⟨hd, ha, hp, trivial⟩ rfl fun _ fix val => ?_
    obtain ⟨rfl, rfl, rfl, -⟩ := val
    rw [decodeWord_apMem (fix 29 3 rfl), decodeApMem, fix 23 6 rfl]
    exact (if_neg ((fix 2 11 rfl).trans_ne (by decide))).trans (if_pos (fix 2 11 rfl))
  | isap d a p =>
    obtain ⟨hd, ha, hp⟩ := of_decide_eq_true hwf
    refine decodes_of_fields [(18, 3, d), (13, 5, a), (0, 2, p)] rfl ⟨hd, ha, hp, trivial⟩ rfl fun _ fix val => ?_
    obtain ⟨rfl, rfl, rfl, -⟩ := val
    rw [decodeWord_apMem (fix 29 3 rfl), decodeApMem, fix 23 6 rfl]
    exact if_pos ⟨fix 21 2 rfl, fix 2 11 rfl⟩
  | qput q a =>
    obtain ⟨hq, ha⟩ := of_decide_eq_true hwf
    refine decodes_of_fields [(18, 3, q), (13, 5, a)] rfl ⟨hq, ha, trivial⟩ rfl fun _ fix val => ?_
    obtain ⟨rfl, rfl, -⟩ := val
    rw [decodeWord_apMem (fix 29 3 rfl), decodeApMem, fix 23 6 rfl]
    exact if_pos ⟨fix 21 2 rfl, fix 0 13 rfl⟩
  | qget d q =>
    obtain ⟨hd, hq⟩ := of_decide_eq_true hwf
    refine decodes_of_fields [(18, 5, d), (13, 3, q)] rfl ⟨hd, hq, trivial⟩ rfl fun _ fix val => ?_
    obtain ⟨rfl, rfl, -⟩ := val
    rw [decodeWord_apMem (fix 29 3 rfl), decodeApMem, fix 23 6 rfl]
    exact if_pos ⟨fix 16 2 rfl, fix 0 13 rfl⟩
  | shape k a | sfill k a | ssave k a =>
    obtain ⟨hk, ha⟩ := of_decide_eq_true hwf
    refine decodes_of_fields [(18, 5, k), (13, 5, a)] rfl ⟨hk, ha, trivial⟩ rfl fun _ fix val => ?_
    obtain ⟨rfl, rfl, -⟩ := val
    rw [decodeWord_apMem (fix 29 3 rfl), decodeApMem, fix 23 6 rfl]
    exact if_pos (fix 0 13 rfl)
  | sopen k a b | sld k a b =>
    obtain ⟨hk, ha, hb⟩ := of_decide_eq_true hwf
    refine decodes_of_fields [(18, 5, k), (13, 5, a), (8, 5, b)] rfl ⟨hk, ha, hb, trivial⟩ rfl fun _ fix val => ?_
    obtain ⟨rfl, rfl, rfl, -⟩ := val
    rw [decodeWord_apMem (fix 29 3 rfl), decodeApMem, fix 23 6 rfl]
    exact if_pos (fix 0 8 rfl)
  | sfillRes k =>
    have hk := of_decide_eq_true hwf
    refine decodes_of_fields [(18, 5, k)] rfl ⟨hk, trivial⟩ rfl fun _ fix val => ?_
    obtain ⟨rfl, -⟩ := val
    rw [decodeWord_apMem (fix 29 3 rfl), decodeApMem, fix 23 6 rfl]
    exact (if_neg ((fix 0 13 rfl).trans_ne (by decide))).trans (if_pos (fix 0 18 rfl))
  | sfork n m s t w =>
    obtain ⟨hn, hm, hw⟩ := of_decide_eq_true hwf
    refine decodes_of_fields [(18, 5, n), (8, 5, m), (3, 1, bit s), (2, 1, bit t), (0, 2, w)] rfl
      ⟨hn, hm, bit_lt s, bit_lt t, hw, trivial⟩ rfl fun _ fix val => ?_
    obtain ⟨rfl, rfl, hs, ht, rfl, -⟩ := val
    obtain rfl := flag_eq hs
    obtain rfl := flag_eq ht
    rw [decodeWord_apMem (fix 29 3 rfl), decodeApMem, fix 23 6 rfl]
    exact if_pos ⟨fix 13 5 rfl, fix 4 4 rfl⟩
  | smark k | srew k | sclose k =>
    have hk := of_decide_eq_true hwf
    refine decodes_of_fields [(18, 5, k)] rfl ⟨hk, trivial⟩ rfl fun _ fix val => ?_
    obtain ⟨rfl, -⟩ := val
    rw [decodeWord_apMem (fix 29 3 rfl), decodeApMem, fix 23 6 rfl]
    exact if_pos (fix 0 18 rfl)
  | smarkClr k | scloseFin k =>
    have hk := of_decide_eq_true hwf
    refine decodes_of_fields [(18, 5, k)] rfl ⟨hk, trivial⟩ rfl fun _ fix val => ?_
    obtain ⟨rfl, -⟩ := val
    rw [decodeWord_apMem (fix 29 3 rfl), decodeApMem, fix 23 6 rfl]
    exact (if_neg ((fix 0 18 rfl).trans_ne (by decide))).trans (if_pos (fix 0 18 rfl))
  | sdrain d k | sstat d k =>
    obtain ⟨hd, hk⟩ := of_decide_eq_true hwf
    refine decodes_of_fields [(18, 5, d), (8, 5, k)] rfl ⟨hd, hk, trivial⟩ rfl fun _ fix val => ?_
    obtain ⟨rfl, rfl, -⟩ := val
    rw [decodeWord_apMem (fix 29 3 rfl), decodeApMem, fix 23 6 rfl]
    exact if_pos ⟨fix 13 5 rfl, fix 0 8 rfl⟩
  | cmd d a r =>
    obtain ⟨hd, ha, hr⟩ := of_decide_eq_true hwf
    refine decodes_of_fields [(18, 5, d), (13, 5, a), (0, 2, r)] rfl ⟨hd, ha, hr, trivial⟩ rfl fun _ fix val => ?_
    obtain ⟨rfl, rfl, rfl, -⟩ := val
    rw [decodeWord_apMem (fix 29 3 rfl), decodeApMem, fix 23 6 rfl]
    exact if_pos (fix 2 11 rfl)
  | cengStat d r =>
    obtain ⟨hd, hr⟩ := of_decide_eq_true hwf
    refine decodes_of_fields [(18, 5, d), (0, 2, r)] rfl ⟨hd, hr, trivial⟩ rfl fun _ fix val => ?_
    obtain ⟨rfl, rfl, -⟩ := val
    rw [decodeWord_apMem (fix 29 3 rfl), decodeApMem, fix 23 6 rfl]
    exact if_pos (fix 2 16 rfl)
  | cengSeq d r =>
    obtain ⟨hd, hr⟩ := of_decide_eq_true hwf
    refine decodes_of_fields [(18, 5, d), (0, 2, r)] rfl ⟨hd, hr, trivial⟩ rfl fun _ fix val => ?_
    obtain ⟨rfl, rfl, -⟩ := val
    rw [decodeWord_apMem (fix 29 3 rfl), decodeApMem, fix 23 6 rfl]
    exact (if_neg ((fix 2 16 rfl).trans_ne (by decide))).trans (if_pos (fix 2 16 rfl))
  | cengWait d a r =>
    obtain ⟨hd, ha, hr⟩ := of_decide_eq_true hwf
    refine decodes_of_fields [(18, 5, d), (13, 5, a), (0, 2, r)] rfl ⟨hd, ha, hr, trivial⟩ rfl fun _ fix val => ?_
    obtain ⟨rfl, rfl, rfl, -⟩ := val
    rw [decodeWord_apMem (fix 29 3 rfl), decodeApMem, fix 23 6 rfl]
    refine (if_neg (fld_ne_of_part 0 (fix 2 11 rfl) (by decide) (by decide))).trans ?_
    refine (if_neg (fld_ne_of_part 0 (fix 2 11 rfl) (by decide) (by decide))).trans ?_
    exact if_pos (fix 2 11 rfl)
  | cengRes d r | cengDrop d r =>
    obtain ⟨hd, hr⟩ := of_decide_eq_true hwf
    refine decodes_of_fields [(18, 5, d), (0, 2, r)] rfl ⟨hd, hr, trivial⟩ rfl fun _ fix val => ?_
    obtain ⟨rfl, rfl, -⟩ := val
    rw [decodeWord_apMem (fix 29 3 rfl), decodeApMem, fix 23 6 rfl, fix 2 16 rfl, fix 2 11 rfl]
    rfl
  | hand a b =>
    obtain ⟨ha, hb⟩ := of_decide_eq_true hwf
    refine decodes_of_fields [(13, 5, a), (8, 5, b)] rfl ⟨ha, hb, trivial⟩ rfl fun _ fix val => ?_
    obtain ⟨rfl, rfl, -⟩ := val
    rw [decodeWord_sync (fix 29 3 rfl), decodeSync, fix 23 6 rfl]
    exact if_pos ⟨fix 18 5 rfl, fix 0 8 rfl⟩
  | must d a =>
    obtain ⟨hd, ha⟩ := of_decide_eq_true hwf
    refine decodes_of_fields [(18, 5, d), (13, 5, a)] rfl ⟨hd, ha, trivial⟩ rfl fun _ fix val => ?_
    obtain ⟨rfl, rfl, -⟩ := val
    rw [decodeWord_sync (fix 29 3 rfl), decodeSync, fix 23 6 rfl]
    exact if_pos (fix 0 13 rfl)
  | unmust a =>
    have ha := of_decide_eq_true hwf
    refine decodes_of_fields [(13, 5, a)] rfl ⟨ha, trivial⟩ rfl fun _ fix val => ?_
    obtain ⟨rfl, -⟩ := val
    rw [decodeWord_sync (fix 29 3 rfl), decodeSync, fix 23 6 rfl]
    exact if_pos ⟨fix 18 5 rfl, fix 0 13 rfl⟩
  | lil d i =>
    have hd := of_decide_eq_true hwf
    refine decodes_of_long [(18, 5, d), (13, 5, 0)] rfl ⟨hd, by decide, trivial⟩ rfl fun _ fix val => ?_
    obtain ⟨rfl, h0, -⟩ := val
    rw [decodeLong, fix 10 3 rfl, fix 23 6 rfl, i.ofNat_toNat, i.setWidth_eq]
    exact if_pos ⟨h0, fix 0 10 rfl⟩
  | addil d a i =>
    obtain ⟨hd, ha⟩ := of_decide_eq_true hwf
    refine decodes_of_long [(18, 5, d), (13, 5, a)] rfl ⟨hd, ha, trivial⟩ rfl fun _ fix val => ?_
    obtain ⟨rfl, rfl, -⟩ := val
    rw [decodeLong, fix 10 3 rfl, fix 23 6 rfl, i.ofNat_toNat, i.setWidth_eq]
    exact if_pos (fix 0 10 rfl)
  | csrwLong c i =>
    have hc := of_decide_eq_true hwf
    refine decodes_of_long [(0, 10, c)] rfl ⟨hc, trivial⟩ rfl fun _ fix val => ?_
    obtain ⟨rfl, -⟩ := val
    rw [decodeLong, fix 10 3 rfl, fix 23 6 rfl, i.ofNat_toNat, i.setWidth_eq]
    exact if_pos (fix 13 10 rfl)
  | _ => cases hu

/-- Settles O1: each row is its fixed bits and fields that stand apart, so the decoder's arm reads every field back. -/
theorem decodeInvertsEncode : Obligations.DecodeInvertsEncode := by
  intro i rest hwf hne
  cases hu : i.unit with
  | ap => exact decodes_ap i hu hwf rest
  | xp => exact decodes_xp i hu hwf rest
  | both => exact decodes_both i hu hwf rest
  | vec => exact decodes_vec i hu hwf rest
  | mtx => exact decodes_mtx i hu hwf rest
  | func => exact decodes_func i hu hwf rest
  | event => exact absurd (encode_event i hu) hne

end Sys2Proof

namespace Sys2Proof.Machine

/-- Every core of the part holds the reset values of R12 and R21 (log 5). -/
theorem State.reset_core (c : Nat) : State.reset.core c = Core.reset := rfl

theorem Core.reset_areg (n : Nat) : Core.reset.areg n = ⟨0, false⟩ := ite_self _

theorem Core.reset_xreg (n : Nat) : Core.reset.xreg n = 0 := ite_self _

theorem Core.reset_pred (n : Nat) : Core.reset.pred n = decide (n = 0) := by
  simp [Core.pred, Core.reset, beq_eq_decide]

theorem Core.reset_side (sd : Side) : Core.reset.side sd = SideSt.reset := by cases sd <;> rfl

theorem csrPix_reset : csrPix Core.reset = 0 := by decide

end Sys2Proof.Machine

namespace Sys2Proof
open Sys2Proof.Machine
/-- Settles O3: each word is computed and decoded. -/
theorem wordsOfTheSpecDecode : Obligations.WordsOfTheSpecDecode :=
  ⟨rfl, rfl, rfl, rfl, rfl, rfl, rfl, rfl, rfl, rfl, rfl, rfl, rfl, rfl, rfl, rfl⟩

/-- Settles O5: State.reset lists no unit, so each reads as its reset value. -/
theorem resetLeavesThePart : Obligations.ResetLeavesThePart := by
  refine ⟨fun c n sd => ?_, fun n => ⟨rfl, rfl, rfl, rfl, rfl, rfl⟩, fun a => rfl, rfl, rfl, rfl, rfl⟩
  have side : (State.reset.core c).side sd = SideSt.reset := Core.reset_side sd
  refine ⟨Core.reset_areg n, Core.reset_xreg n, rfl, Core.reset_pred n, rfl, rfl, rfl, rfl, rfl, rfl, rfl, rfl, csrPix_reset, rfl, rfl, rfl,
    rfl, rfl, rfl, rfl, rfl, rfl, ?_, ?_, ?_, ?_, ?_, rfl, rfl, rfl, rfl, rfl, rfl, rfl⟩ <;> rw [side] <;> rfl
end Sys2Proof

namespace Sys2Proof.Machine

/-! ### What taking a fault writes (R28, R307, R317) -/

/-- QUEUE of FCODE for the unit that moves (R28). -/
def trapQueue (s : State) : Nat :=
  match s.cur.eng with
  | some e => e.queueNo
  | none => 0

/-- SOURCE of the delivery of the unit that moves (R318). -/
def trapSource (s : State) : Nat :=
  match s.cur.eng, s.cur.side with
  | some e, _ => 1 + e.queueNo
  | none, .ap => 0
  | none, .xp => 1

/-- The side as a fault leaves it: stopped, with FADDR and FCODE written (R307). -/
def trapSide (t : Trap) (s : State) (x : SideSt) : SideSt :=
  { x with run := .stopped, faddr := t.faddr.getD s.cur.addr, fcode := fcodeOf t (trapQueue s) }

/-- The delivery that a fault of the moving unit posts (R318). -/
def trapDelivery (t : Trap) (s : State) : Delivery :=
  ⟨deliveryWord t.code.num t.deferred (trapSource s) 0 true none s.cur.core, t.faddr.getD s.cur.addr, s.cur.addr, 0⟩

/-- A core with a delivery in its pending list, or held at its source (R317). -/
def Core.posted (d : Delivery) (k : Core) : Core :=
  if k.pending.length < 64 then { k with pending := k.pending ++ [d] } else { k with held := k.held ++ [d] }

theorem trapQueue_eq (s : State) : trapQueue s = (match s.cur.eng with
      | some .vec => 1
      | some .pass => 2
      | some .load => 2
      | some .func => 3
      | none => 0) := by
  unfold trapQueue
  rcases s.cur.eng with _ | _ | _ | _ | _ <;> rfl

theorem trapSource_eq (s : State) :
    trapSource s = if s.cur.eng = none then (if s.cur.side = .ap then 0 else 1) else 1 + trapQueue s := by
  unfold trapSource trapQueue
  rcases s.cur.eng with _ | e <;> cases s.cur.side <;> rfl

/-- No engine number is that of a stream, so a fault of the moving unit names no port (R318). -/
theorem trapSource_ne (s : State) : trapSource s ≠ 6 := by
  unfold trapSource
  rcases s.cur.eng with _ | _ | _ | _ | _ <;> cases s.cur.side <;> decide

theorem trapDelivery_eq (t : Trap) (s : State) : trapDelivery t s =
    ⟨BitVec.ofNat 64 (t.code.num + t.deferred.toNat * 2 ^ 8 + trapSource s * 2 ^ 9 + 2 ^ 14 + s.cur.core * 2 ^ 32),
      t.faddr.getD s.cur.addr, s.cur.addr, 0⟩ := by
  simp [trapDelivery, deliveryWord, trapSource_ne]

/-- The moving core as a fault of it leaves it. -/
def trapCore (t : Trap) (s : State) (k : Core) : Core :=
  (k.modSide s.cur.side (trapSide t s)).posted (trapDelivery t s)

theorem takeTrap_eq (t : Trap) (s : State) : takeTrap t s = s.modMe (trapCore t s) := by
  simp only [takeTrap, postDelivery, State.modSide, State.modCore_modCore]
  rfl

@[simp] theorem takeTrap_cur (t : Trap) (s : State) : (takeTrap t s).cur = s.cur := by rw [takeTrap_eq]; rfl

@[simp] theorem takeTrap_core (t : Trap) (s : State) : (takeTrap t s).core s.cur.core = trapCore t s (s.core s.cur.core) := by
  rw [takeTrap_eq, State.modMe, State.core_modCore]

theorem takeTrap_core_ne (t : Trap) (s : State) {c : Nat} (h : c ≠ s.cur.core) : (takeTrap t s).core c = s.core c := by
  rw [takeTrap_eq, State.modMe, State.core_modCore_ne _ _ _ _ h]

/-- A fault changes nothing of the part but the cores. -/
theorem takeTrap_rest (t : Trap) (s : State) : { takeTrap t s with cores := s.cores } = s := by rw [takeTrap_eq]; rfl

/-! ### A core with a delivery posted -/

/-- Posting a delivery leaves a core alone but for its two lists. -/
theorem Core.posted_rest (d : Delivery) (k : Core) : { k.posted d with pending := k.pending, held := k.held } = k := by
  unfold Core.posted; split <;> rfl

@[simp] theorem Core.posted_side (d : Delivery) (k : Core) (sd : Side) : (k.posted d).side sd = k.side sd := by
  unfold Core.posted; split <;> cases sd <;> rfl

theorem trapCore_side_same (t : Trap) (s : State) (k : Core) :
    (trapCore t s k).side s.cur.side = trapSide t s (k.side s.cur.side) := by
  rw [trapCore, Core.posted_side, Core.side_modSide]

theorem trapCore_side_ne (t : Trap) (s : State) (k : Core) {sd : Side} (h : sd ≠ s.cur.side) :
    (trapCore t s k).side sd = k.side sd := by
  rw [trapCore, Core.posted_side, Core.side_modSide_ne _ _ _ _ h]

theorem trapCore_room (t : Trap) (s : State) {k : Core} (h : k.pending.length < 64) :
    (trapCore t s k).pending = k.pending ++ [trapDelivery t s] ∧ (trapCore t s k).held = k.held := by
  simp [trapCore, Core.posted, h]

theorem trapCore_full (t : Trap) (s : State) {k : Core} (h : 64 ≤ k.pending.length) :
    (trapCore t s k).pending = k.pending ∧ (trapCore t s k).held = k.held ++ [trapDelivery t s] := by
  simp [trapCore, Core.posted, Nat.not_lt.2 h]

/-- A fault leaves its core alone but for its sides and the lists of deliveries. -/
theorem trapCore_rest (t : Trap) (s : State) (k : Core) :
    { trapCore t s k with ap := k.ap, xp := k.xp, pending := k.pending, held := k.held } = k := by
  unfold trapCore Core.posted
  cases s.cur.side <;> split <;> rfl

/-! ### Words set aside in steering order (R308, R320) -/

theorem mem_insertSeq (q x : QWord) (l : List QWord) : x ∈ insertSeq q l ↔ x = q ∨ x ∈ l := by
  induction l with
  | nil => simp [insertSeq]
  | cons w r ih =>
    rw [insertSeq]
    split
    · simp
    · simp only [List.mem_cons, ih]; tauto

theorem mem_sortSeq (x : QWord) (l : List QWord) : x ∈ sortSeq l ↔ x ∈ l := by
  induction l with
  | nil => simp [sortSeq]
  | cons w r ih => simpa [sortSeq, mem_insertSeq] using or_congr_right ih

theorem insertSeq_sorted (q : QWord) (l : List QWord) (h : l.Pairwise (fun x y => x.seq ≤ y.seq)) :
    (insertSeq q l).Pairwise (fun x y => x.seq ≤ y.seq) := by
  induction l with
  | nil => simp [insertSeq]
  | cons w r ih =>
    obtain ⟨hw, hr⟩ := List.pairwise_cons.1 h
    rw [insertSeq]
    split
    next hq => exact List.pairwise_cons.2 ⟨by rintro x (_ | ⟨_, hx⟩); exacts [hq, hq.trans (hw x hx)], h⟩
    next hq =>
      refine List.pairwise_cons.2 ⟨fun x hx => ?_, ih hr⟩
      rcases (mem_insertSeq q x r).1 hx with rfl | hx
      · omega
      · exact hw x hx

theorem sortSeq_sorted (l : List QWord) : (sortSeq l).Pairwise (fun x y => x.seq ≤ y.seq) := by
  induction l with
  | nil => exact List.Pairwise.nil
  | cons w r ih => exact insertSeq_sorted w _ ih

/-- The words set aside by a queue fault are the faulting one, those of before, and those steered after it. -/
theorem mem_setAside (k : Core) (w x : QWord) :
    x ∈ (setAside k w).aside ↔ x = w ∨ x ∈ k.aside ∨ (x ∈ k.vq ++ k.mq ++ k.fq ∧ w.seq < x.seq) := by
  have h : x ∈ (setAside k w).aside ↔ x = w ∨ (((x ∈ k.vq ∧ w.seq < x.seq) ∨ (x ∈ k.mq ∧ w.seq < x.seq)) ∨
      (x ∈ k.fq ∧ w.seq < x.seq)) ∨ x ∈ k.aside := by
    simp only [setAside, mem_sortSeq, List.mem_cons, List.mem_append, List.mem_filter, decide_eq_true_eq]
  rw [h, List.mem_append, List.mem_append, or_and_right, or_and_right, or_comm (b := x ∈ k.aside)]

theorem filter_not_later (w : QWord) (l : List QWord) :
    l.filter (fun q => !decide (w.seq < q.seq)) = l.filter (fun x => decide (x.seq ≤ w.seq)) := by
  refine List.filter_congr fun q _ => ?_
  simp only [← decide_not, Nat.not_lt]

/-- What a fault keeps of the words of its core. -/
theorem trapCore_words (t : Trap) (s : State) (k : Core) :
    let u := trapCore t s k
    u.vq = k.vq ∧ u.mq = k.mq ∧ u.fq = k.fq ∧ u.inVec = k.inVec ∧ u.inPass = k.inPass ∧ u.inLoad = k.inLoad ∧
      u.inFun = k.inFun ∧ u.aside = k.aside := by
  unfold trapCore Core.posted
  cases s.cur.side <;> split <;> exact ⟨rfl, rfl, rfl, rfl, rfl, rfl, rfl, rfl⟩

theorem takeQueueTrap_core (t : Trap) (w : QWord) (s : State) :
    (takeQueueTrap t w s).core s.cur.core = trapCore t (s.modMe (setAside · w)) (setAside (s.core s.cur.core) w) := by
  rw [takeQueueTrap]
  have := takeTrap_core t (s.modMe (setAside · w))
  rwa [State.modMe, State.modCore_cur, State.core_modCore] at this

end Sys2Proof.Machine

namespace Sys2Proof
open Sys2Proof.Machine

/-- Settles O47: takeTrap changes one core, there one side and the lists of deliveries; a queue fault has first set the later words
aside. -/
theorem takingAFault : Obligations.TakingAFault := by
  intro s t _ c sd q source fa d
  have hq : trapQueue s = q := trapQueue_eq s
  have hd : trapDelivery t s = d := by rw [trapDelivery_eq, trapSource_eq, hq]
  clear_value q d
  refine ⟨?_, fun w => ?_⟩
  · rintro u rfl
    have hc : (takeTrap t s).core c = trapCore t s (s.core c) := takeTrap_core t s
    rw [hc]
    refine ⟨?_, fun x hx => trapCore_side_ne t s _ hx, fun h => hd ▸ trapCore_room t s h, fun h => hd ▸ trapCore_full t s h,
      trapCore_rest t s _, fun x hx => takeTrap_core_ne t s hx, takeTrap_rest t s⟩
    rw [trapCore_side_same, trapSide, hq]
    rfl
  · have hc : (takeQueueTrap t w s).core c = _ := takeQueueTrap_core t w s
    obtain ⟨hv, hm, hf, hiv, hip, hil, hif, ha⟩ := trapCore_words t (s.modMe (setAside · w)) (setAside (s.core s.cur.core) w)
    simp only [hc, hv, hm, hf, hiv, hip, hil, hif, ha]
    exact ⟨filter_not_later w _, filter_not_later w _, filter_not_later w _, rfl, rfl, rfl, rfl, mem_setAside _ w, sortSeq_sorted _⟩

end Sys2Proof

namespace Sys2Proof.Machine

/-! ### Steering (R9-R11) -/

theorem slipOpen_eq_false (k : Core) : slipOpen k = false ↔ k.slip.toNat ≤ k.vq.length + k.mq.length + k.fq.length := by
  rw [slipOpen, decide_eq_false_iff_not, Nat.not_lt, Core.occupancy]

/-- A word whose check fails takes ILLEGAL, one that SLIP holds back waits, any other joins its queue. -/
theorem steerWord_eq (w : Word) (i : Instr) (u : State) :
    steerWord w i u =
      if steerOk u.me i = false then takeTrap (trapAt .illegal) u
      else if u.me.slip.toNat ≤ u.me.vq.length + u.me.mq.length + u.me.fq.length then u
      else moveOn 4 (u.modMe (fun k => enqueueWord i.unit ⟨u.cur.addr, w, u.me.vt, u.me.g, u.me.seq⟩ { k with seq := k.seq + 1 })) := by
  simp only [steerWord, slipOpen_eq_false]

@[simp] theorem asSide_core (c d : Nat) (sd : Side) (s : State) : (asSide c sd s).core d = s.core d := rfl

/-- A running XP with nothing set aside steers the queued word that it fetches. -/
theorem xpSteer_fetched {s u : State} {c : Nat} {w : Word} {i : Instr} (hl : s.live c = true) (hr : (s.core c).xp.run = .run)
    (hd : (s.core c).xp.land = false) (ha : (s.core c).aside = []) (hs : stageSkips (s.core c) (s.core c).xp.pc = false)
    (hf : fetchWord (asSide c .xp s) c (s.core c).xp.pc = .ok (u, w)) (hi : wordInstr w = some i) (hq : isQueued i.unit = true) :
    xpSteer c s = steerWord w i u := by
  have me : (asSide c .xp s).me = s.core c := rfl
  have mine : (asSide c .xp s).mySide = (s.core c).xp := rfl
  have live : (asSide c .xp s).live c = true := hl
  simp [xpSteer, me, mine, live, hr, hd, ha, hs, hf, hi, hq]

end Sys2Proof.Machine

namespace Sys2Proof
open Sys2Proof.Machine

/-- Settles O26: the fetched word goes through steerWord. -/
theorem xpSteersQueuedWords : Obligations.XpSteersQueuedWords := by
  intro s u c w i t hl hr hd ha hs hf hi hq q
  have he : exec (.xpSteer c) s = .next (steerWord w i u) := congrArg _ (xpSteer_fetched hl hr hd ha hs hf hi hq)
  rw [he, steerWord_eq, apply_ite Host.Outcome.next, apply_ite Host.Outcome.next]
  rfl

end Sys2Proof

namespace Sys2Proof.Machine

/-! ### Words that wait for nothing -/

/-- No outstanding load holds a register of a shorter list either (R95). -/
theorem Core.ldsWaits_mono {k : Core} {l r : List Nat} (h : k.ldsWaits r = false) (hl : l ⊆ r) : k.ldsWaits l = false := by
  simp only [Core.ldsWaits, List.any_eq_false, Bool.and_eq_true, List.contains_iff_mem] at h ⊢
  exact fun w hw hc => h w hw ⟨hc.1, hl hc.2⟩

theorem Core.ldsWaits_nil (k : Core) : k.ldsWaits [] = false := by
  simp [Core.ldsWaits]

theorem Core.anyPoison_single (k : Core) (a : Nat) : k.anyPoison [a] = (k.areg a).bad := Bool.or_false _

/-! ### The values of the CSRs (R22, R25, R26) -/

theorem csrCore_eq (c : Nat) : csrCore c = BitVec.ofNat 64 (c + c % 24 * 2 ^ 8 + c / 24 * 2 ^ 13) := by
  simp only [csrCore, coreX, coreY]; congr 1; omega

theorem csrCrew_eq (c : Nat) :
    csrCrew c = BitVec.ofNat 64 (crewOf c + c % 24 / 2 * 2 ^ 8 + c / 48 * 2 ^ 12 + posOf c * 2 ^ 16) := by
  simp only [csrCrew, coreX, coreY, Nat.div_div_eq_div_mul]; congr 1; omega

theorem csrDie_eq (f : Form) (c : Nat) :
    csrDie f c = BitVec.ofNat 64 ((if c % 24 < 12 then 0 else 1) + 2 + (if f = .la2h then 0 else 4)) := by
  cases f <;> rfl

/-- Each 16-bit field of PIX is the step count of its engine (R26). -/
theorem csrPix_field (k : Core) {e : Nat} (he : e < 4) : (csrPix k).toNat / 2 ^ (16 * e) % 2 ^ 16 = pixField k e % 2 ^ 16 := by
  have h0 := Nat.mod_lt (pixField k 0) (Nat.two_pow_pos 16)
  have h1 := Nat.mod_lt (pixField k 1) (Nat.two_pow_pos 16)
  have h2 := Nat.mod_lt (pixField k 2) (Nat.two_pow_pos 16)
  have h3 := Nat.mod_lt (pixField k 3) (Nat.two_pow_pos 16)
  rw [csrPix, BitVec.toNat_ofNat]
  interval_cases e <;> omega

/-! ### A write of PIX (R26, R231) -/

theorem pixIdle_setPixField (k : Core) (e v j : Nat) : pixIdle (setPixField k e v) j = pixIdle k j := by
  unfold setPixField pixIdle Core.ring
  split <;> split <;> simp

theorem pixStart_setPixField (k : Core) (v : Nat) {e j : Nat} (he : e < 4) (hj : j < 4) :
    Safety.pixStart (setPixField k e v) j = if j = e then v else Safety.pixStart k j := by
  interval_cases e <;> interval_cases j <;> simp [setPixField, Safety.pixStart, Core.ring]

theorem side_setPixField (k : Core) (e v : Nat) (sd : Side) : (setPixField k e v).side sd = k.side sd := by
  unfold setPixField; split <;> cases sd <;> rfl

/-- The fields from n on are set up to the first whose engine is busy, each to its 16 bits of the value. -/
theorem pixFields_spec (v : Addr) (sd : Side) (fuel n : Nat) (k : Core) (h : n + fuel ≤ 4) :
    let r := pixFields fuel n v k
    n ≤ r.1 ∧ r.1 ≤ n + fuel ∧ (∀ e, n ≤ e → e < r.1 → pixIdle k e = true) ∧ (r.1 < n + fuel → pixIdle k r.1 = false) ∧
      (∀ e, e < 4 → Safety.pixStart r.2 e =
        if n ≤ e ∧ e < r.1 then v.toNat / 2 ^ (16 * e) % 2 ^ 16 else Safety.pixStart k e) ∧ r.2.side sd = k.side sd := by
  induction fuel generalizing n k with
  | zero => exact ⟨le_rfl, le_rfl, fun e _ _ => by simp [pixFields] at *; omega, fun hh => absurd hh (by simp [pixFields]),
      fun e _ => by rw [if_neg (by simp [pixFields])]; rfl, rfl⟩
  | succ fuel ih =>
    rw [pixFields]
    split
    next hb =>
      obtain ⟨h1, h2, h3, h4, h5, h6⟩ := ih (n + 1) (setPixField k n (nfld v.toNat (16 * n) 16)) (by omega)
      simp only [pixIdle_setPixField] at h3 h4
      refine ⟨by omega, by omega, fun e he hlt => ?_, fun hlt => h4 (by omega), fun e he => ?_, h6.trans (side_setPixField _ _ _ _)⟩
      · rcases Nat.eq_or_lt_of_le he with rfl | hlt'
        exacts [hb, h3 e hlt' hlt]
      · rw [h5 e he, pixStart_setPixField k _ (by omega) he]
        by_cases hen : e = n
        · subst hen; rw [if_neg (by omega), if_pos rfl, if_pos (by omega)]; rfl
        · rw [if_neg hen]; exact if_congr (by omega) rfl rfl
    next hb =>
      exact ⟨le_rfl, by omega, fun e _ _ => by omega, fun _ => by simpa using hb, fun e _ => by rw [if_neg (by omega)], rfl⟩

theorem pixStart_modSide (k : Core) (sd : Side) (f : SideSt → SideSt) (e : Nat) :
    Safety.pixStart (k.modSide sd f) e = Safety.pixStart k e := by
  unfold Safety.pixStart Core.ring; split <;> simp

theorem csrWrite_pix (sd : Side) (v : Addr) (s : State) : csrWrite sd 0x020 v s =
    let r := pixFields (4 - s.mySide.pix) s.mySide.pix v s.me
    if r.1 = 4 then .ok (.made (s.modMe (fun _ => r.2.modSide s.cur.side (fun x => { x with pix := 0 }))))
    else .ok (.wait (s.modMe (fun _ => r.2.modSide s.cur.side (fun x => { x with pix := r.1 })))) := rfl

/-- What a CSR write that passed its checks comes to. -/
def csrWritten (len : Nat) (sd : Side) (n : Nat) (v : Addr) (s : State) : Res :=
  .next (settle ((csrWrite sd n v s).map (csrDone len)) s)

theorem State.mySide_modMe (s : State) (f : Core → Core) : (s.modMe f).mySide = (f s.me).side s.cur.side := by
  rw [State.mySide, State.me_modMe]; rfl

theorem csrWritten_pix (len : Nat) (sd : Side) (v : Addr) (s : State) :
    Safety.pixWritten (csrWritten len sd 0x020 v s) s len v.toNat := by
  intro hn
  rw [csrWritten, csrWrite_pix]
  generalize hp : s.mySide.pix = n at hn ⊢
  obtain ⟨h1, h2, h3, h4, h5, h6⟩ := pixFields_spec v s.cur.side (4 - n) n s.me (by omega)
  generalize pixFields (4 - n) n v s.me = r at h1 h2 h3 h4 h5 h6 ⊢
  refine ⟨fun hall => ?_, fun e hle hlt hbelow hbusy => ?_⟩
  · have hr : r.1 = 4 := by
      by_contra hne
      exact absurd (h4 (by omega)) (by rw [hall _ h1 (by omega)]; decide)
    refine ⟨s.modMe (fun _ => r.2.modSide s.cur.side (fun x => { x with pix := 0 })), by simp only [hr, if_true]; rfl, rfl, fun e he => ?_⟩
    rw [State.me_modMe, pixStart_modSide, h5 e he, hr]
    exact if_congr (by omega) rfl rfl
  · have hr : r.1 = e := by
      rcases Nat.lt_trichotomy r.1 e with hl | hl | hl
      · exact absurd (h4 (by omega)) (by rw [hbelow _ h1 hl]; decide)
      · exact hl
      · exact absurd (h3 e hle hl) (by rw [hbusy]; decide)
    refine ⟨s.modMe (fun _ => r.2.modSide s.cur.side (fun x => { x with pix := r.1 })), ?_, ?_, ?_, fun j hj => ?_⟩
    · rw [if_neg (by omega)]; rfl
    · rw [State.mySide_modMe, Core.side_modSide, hr]
    · rw [State.mySide_modMe, Core.side_modSide, h6]; rfl
    · rw [State.me_modMe, pixStart_modSide, h5 j hj, hr]

/-! ### The CSR words of the AP (R21, R89) -/

theorem csrRead_heat {s : State} {h : Heat} (hh : s.heatOf s.cur.core = some h) (sd : Side) :
    csrRead s sd 0x004 = some (BitVec.ofNat 64 (h.hr.ctx + h.hr.prio * 2 ^ 4)) := by
  simp only [csrRead, hh]
  rfl

theorem csrRead_mode {s : State} {h : Heat} (hh : s.heatOf s.cur.core = some h) (sd : Side) :
    csrRead s sd 0x006 = some (if h.hr.system = true then 1 else 0) := by
  simp only [csrRead, State.sysMode, hh]

theorem csrRead_ap_none {s : State} {n : Nat}
    (hn : n ∉ [0x000, 0x001, 0x002, 0x003, 0x004, 0x005, 0x006, 0x020, 0x022, 0x030, 0x031, 0x040, 0x041, 0x042, 0x043]) :
    csrRead s .ap n = none := by
  simp only [csrRead]
  split <;> simp_all

theorem csrWriteOk_ap_illegal {s : State} {n : Nat} (hn : n ∉ [0x020, 0x030, 0x031]) :
    csrWriteOk s .ap n = some (trapAt .illegal) := by
  unfold csrWriteOk
  split <;> simp_all

theorem execCsrr_some {s : State} {d n : Nat} {v : Addr} (hd : s.me.ldsWaits [d] = false) (h : csrRead s .ap n = some v) :
    exec (.csrr d n) s = Safety.apPut 4 d v false s := by
  have : execCsrr d n s = Safety.apPut 4 d v false s := by rw [execCsrr, apWord_free _ _ _ hd, h]; rfl
  exact this

theorem execCsrr_none {s : State} {d n : Nat} (hd : s.me.ldsWaits [d] = false) (h : csrRead s .ap n = none) :
    exec (.csrr d n) s = Safety.traps (trapAt .illegal) s := by
  have : execCsrr d n s = Safety.traps (trapAt .illegal) s := by rw [execCsrr, apWord_free _ _ _ hd, h]; rfl
  exact this

theorem execCsrw_refused {s : State} {a n : Nat} {t : Trap} (ha : s.me.ldsWaits [a] = false) (h : csrWriteOk s .ap n = some t) :
    exec (.csrw a n) s = Safety.traps t s := by
  have : execCsrw a n s = Safety.traps t s := by rw [execCsrw, apWord_free _ _ _ ha, h]; rfl
  exact this

theorem execCsrw_ok {s : State} {a n : Nat} (ha : s.me.ldsWaits [a] = false) (h : csrWriteOk s .ap n = none) :
    exec (.csrw a n) s =
      if (s.me.areg a).bad = true then Safety.traps trapPoison s else csrWritten 4 .ap n (s.me.areg a).val s := by
  have : execCsrw a n s = if (s.me.areg a).bad = true then Safety.traps trapPoison s else csrWritten 4 .ap n (s.me.areg a).val s := by
    rw [execCsrw, apWord_free _ _ _ ha, h]
    simp only [Core.anyPoison_single]
    split <;> rfl
  exact this

theorem execCsrwLong_refused {s : State} {n : Nat} {j : BitVec 32} {t : Trap} (h : csrWriteOk s .ap n = some t) :
    exec (.csrwLong n j) s = Safety.traps t s := by
  have : execCsrwLong n j s = Safety.traps t s := by rw [execCsrwLong, apWord_free _ _ _ (Core.ldsWaits_nil _), h]; rfl
  exact this

theorem execCsrwLong_ok {s : State} {n : Nat} {j : BitVec 32} (h : csrWriteOk s .ap n = none) :
    exec (.csrwLong n j) s = csrWritten 8 .ap n (j.setWidth 64) s := by
  have : execCsrwLong n j s = csrWritten 8 .ap n (j.setWidth 64) s := by
    rw [execCsrwLong, apWord_free _ _ _ (Core.ldsWaits_nil _), h]; rfl
  exact this

end Sys2Proof.Machine

namespace Sys2Proof
open Sys2Proof.Machine

/-- Settles O13: csrRead gives each value, and a write of PIX goes field by field (pixFields_spec). -/
theorem apReadsAndWritesCsrs : Obligations.ApReadsAndWritesCsrs := by
  intro s d a i n j ⟨hside, heng, hlds⟩ hi c rd ill bad v poison
  have hd : s.me.ldsWaits [d] = false := Core.ldsWaits_mono hlds (by simp)
  have ha : s.me.ldsWaits [a] = false := Core.ldsWaits_mono hlds (by simp)
  have hp : csrWriteOk s .ap 0x020 = if s.sysMode c = true then none else some (trapAt .priv) := rfl
  refine ⟨?_, ?_, ?_, execCsrr_some hd rfl, fun h hh => ⟨execCsrr_some hd (csrRead_heat hh _), execCsrr_some hd (csrRead_mode hh _)⟩,
    execCsrr_some hd rfl, execCsrr_some hd rfl, fun e he => csrPix_field _ he, execCsrr_some hd rfl, execCsrr_some hd rfl,
    execCsrr_some hd rfl, ?_, fun hm => execCsrr_none hd (csrRead_ap_none hm), execCsrw_ok ha rfl, execCsrw_ok ha rfl,
    fun hs => ?_, fun hs => ?_, fun hm => ?_, execCsrwLong_ok rfl, execCsrwLong_ok rfl⟩
  · rw [execCsrr_some hd rfl, csrCore_eq]
  · rw [execCsrr_some hd rfl, csrCrew_eq]
  · rw [execCsrr_some hd rfl, csrDie_eq]
  · interval_cases i <;> exact execCsrr_some hd rfl
  · have hp : csrWriteOk s .ap 0x020 = some (trapAt .priv) := by rw [hp, hs]; rfl
    exact ⟨execCsrw_refused ha hp, execCsrwLong_refused hp⟩
  · have hp : csrWriteOk s .ap 0x020 = none := by rw [hp, if_pos hs]
    have long : (j.setWidth 64 : Addr).toNat = j.toNat := BitVec.toNat_setWidth_of_le (by decide)
    rw [execCsrw_ok ha hp, execCsrwLong_ok hp]
    exact ⟨fun hb => if_pos hb, fun hb => by rw [if_neg (by simpa using hb)]; exact csrWritten_pix 4 .ap v s,
      long ▸ csrWritten_pix 8 .ap _ s⟩
  · have := csrWriteOk_ap_illegal (s := s) hm
    exact ⟨execCsrw_refused ha this, execCsrwLong_refused this⟩

end Sys2Proof

namespace Sys2Proof.Machine

/-! ### Sequencer words that wait for nothing (R9) -/

theorem shares_mono {a b r : List RegName} (h : shares b r = false) (hl : a ⊆ b) : shares a r = false := by
  simp only [shares, List.any_eq_false] at h ⊢
  exact fun x hx => h x (hl hx)

/-- What holds back no word with certain registers holds back none with fewer. -/
theorem Core.holdsBack_mono {k : Core} {r w r' w' : List RegName} (h : k.holdsBack r w = false) (hl : r' ++ w' ⊆ r ++ w) :
    k.holdsBack r' w' = false := by
  simp only [Core.holdsBack, List.any_eq_false, Bool.not_eq_true] at h ⊢
  exact fun x hx => shares_mono (h x hx) hl

theorem Core.holdsBack_of_unfinished {k : Core} (h : k.unfinished = []) (r w : List RegName) : k.holdsBack r w = false := by
  simp [Core.holdsBack, h]

theorem xpWord_free {srcs dsts : List Nat} {s : State} (body : State → Except Trap State)
    (h : s.me.holdsBack (srcs.map .x) (dsts.map .x) = false) : xpWord srcs dsts body s = settle (body s) s := by
  simp [xpWord, h]

theorem xpChecked_some (t : Trap) (srcs dsts : List Nat) (body : State → Except Trap State) (s : State) :
    xpChecked (some t) srcs dsts body s = takeTrap t s := rfl

theorem xpChecked_free {srcs dsts : List Nat} {s : State} (body : State → Except Trap State)
    (h : s.me.holdsBack (srcs.map .x) (dsts.map .x) = false) : xpChecked none srcs dsts body s = settle (body s) s :=
  xpWord_free body h

theorem xpIdle_iff (k : Core) : k.xpIdle = true ↔ k.unfinished = [] := List.isEmpty_iff

/-! ### The CSR words of the XP (R21, R168) -/

theorem csrRead_xp_none {s : State} {n : Nat}
    (hn : n ∉ [0x000, 0x001, 0x002, 0x003, 0x004, 0x005, 0x006, 0x010, 0x011, 0x012, 0x013, 0x014, 0x020, 0x021, 0x022, 0x030, 0x031]) :
    csrRead s .xp n = none := by
  simp only [csrRead]
  split <;> simp_all

theorem csrWriteOk_xp_illegal {s : State} {n : Nat} (hn : n ∉ [0x010, 0x011, 0x012, 0x013, 0x020, 0x021, 0x030, 0x031]) :
    csrWriteOk s .xp n = some (trapAt .illegal) := by
  unfold csrWriteOk
  split <;> simp_all

theorem execXpCsrr_none {s : State} {d n : Nat} (h : csrRead s .xp n = none) :
    exec (.xpCsrr d n) s = Safety.traps (trapAt .illegal) s := by
  have : execXpCsrr d n s = Safety.traps (trapAt .illegal) s := by rw [execXpCsrr, h]; rfl
  exact this

theorem execXpCsrr_some {s : State} {d n : Nat} {v : Addr} (hd : s.me.holdsBack [] ([d].map .x) = false)
    (h : csrRead s .xp n = some v) (hf : csrFenced n = false) : exec (.xpCsrr d n) s = Safety.xpPut 4 d v s := by
  have : execXpCsrr d n s = Safety.xpPut 4 d v s := by
    rw [execXpCsrr, h]; simp only [xpWord_free (srcs := []) _ hd, hf, Bool.false_and]; rfl
  exact this

theorem execXpCsrr_fenced {s : State} {d n : Nat} {v : Addr} (hd : s.me.holdsBack [] ([d].map .x) = false)
    (h : csrRead s .xp n = some v) (hf : csrFenced n = true) :
    exec (.xpCsrr d n) s = if s.me.unfinished = [] then Safety.xpPut 4 d v s else .next s := by
  have : execXpCsrr d n s = if s.me.unfinished = [] then Safety.xpPut 4 d v s else .next s := by
    rw [execXpCsrr, h]; simp only [xpWord_free (srcs := []) _ hd, hf, Bool.true_and, ← xpIdle_iff]
    cases s.me.xpIdle <;> rfl
  exact this

theorem xpCsrWrite_refused {len n : Nat} {srcs : List Nat} {f : Core → Addr} {s : State} {t : Trap}
    (h : csrWriteOk s .xp n = some t) : .next (xpCsrWrite len n srcs f s) = Safety.traps t s := by
  rw [xpCsrWrite, h]; rfl

theorem xpCsrWrite_fenced {len n : Nat} {srcs : List Nat} {f : Core → Addr} {s : State}
    (hs : s.me.holdsBack (srcs.map .x) [] = false) (h : csrWriteOk s .xp n = none) (hf : csrFenced n = true) :
    .next (xpCsrWrite len n srcs f s) = if s.me.unfinished = [] then csrWritten len .xp n (f s.me) s else .next s := by
  rw [xpCsrWrite, h, xpChecked_free (dsts := []) _ hs]
  simp only [hf, Bool.true_and, ← xpIdle_iff]
  cases s.me.xpIdle <;> rfl

theorem xpCsrWrite_open {len n : Nat} {srcs : List Nat} {f : Core → Addr} {s : State}
    (hs : s.me.holdsBack (srcs.map .x) [] = false) (h : csrWriteOk s .xp n = none) (hf : csrFenced n = false) :
    .next (xpCsrWrite len n srcs f s) = csrWritten len .xp n (f s.me) s := by
  rw [xpCsrWrite, h, xpChecked_free (dsts := []) _ hs]
  simp only [hf, Bool.false_and]
  rfl

theorem csrWritten_vt (len : Nat) (v : Addr) (s : State) : csrWritten len .xp 0x010 v s =
    if vtOk s.me.nv v = true then .next (finishN len (s.modMe (fun k => { k with vt := v }))) else Safety.traps (trapAt .illegal) s := by
  simp only [csrWritten, csrWrite]; split <;> rfl

theorem csrWritten_vcnt (len : Nat) (v : Addr) (s : State) : csrWritten len .xp 0x011 v s =
    if v.toNat < 2 ^ 11 then .next (finishN len (s.modMe (fun k => { k with vcnt := v.extractLsb' 0 11 })))
    else Safety.traps (trapAt .illegal) s := by
  simp only [csrWritten, csrWrite, BitVec.setWidth_eq_extractLsb' (show 11 ≤ 64 by decide)]; split <;> rfl

theorem csrWritten_g (len : Nat) (v : Addr) (s : State) : csrWritten len .xp 0x012 v s =
    if v.toNat < 2 ^ 16 then .next (finishN len (s.modMe (fun k => { k with g := v.extractLsb' 0 16 })))
    else Safety.traps (trapAt .illegal) s := by
  simp only [csrWritten, csrWrite, BitVec.setWidth_eq_extractLsb' (show 16 ≤ 64 by decide)]; split <;> rfl

theorem csrWritten_flags (len : Nat) (v : Addr) (s : State) : csrWritten len .xp 0x013 v s =
    .next (finishN len (s.modMe (fun k => { k with flags := v.extractLsb' 0 6 }))) := by
  rw [csrWritten, csrWrite, BitVec.setWidth_eq_extractLsb' (show 6 ≤ 64 by decide)]; rfl

theorem csrWritten_slip (len : Nat) (v : Addr) (s : State) : csrWritten len .xp 0x021 v s =
    if v.extractLsb' 0 6 = 0 ∨ 32 < (v.extractLsb' 0 6).toNat then Safety.traps (trapAt .illegal) s
    else .next (finishN len (s.modMe (fun k => { k with slip := v.extractLsb' 0 6 }))) := by
  have hn : (v.extractLsb' 0 6).toNat = v.toNat % 64 := by simp
  have hz : v.extractLsb' 0 6 = 0 ↔ v.toNat % 64 = 0 := by rw [← hn, BitVec.toNat_eq]; rfl
  have hv : BitVec.ofNat 6 (v.toNat % 64) = v.extractLsb' 0 6 := by rw [← hn, BitVec.ofNat_toNat, BitVec.setWidth_eq]
  simp only [csrWritten, csrWrite, hz, hn, hv, gt_iff_lt]
  split <;> rfl

/-! ### Queues between the sides (R15, R167) -/

theorem illegalIf_eq (p : Prop) [Decidable p] : illegalIf (decide p) = if p then some (trapAt .illegal) else none := by
  by_cases h : p <;> simp [illegalIf, h]

theorem execXpQget_eq {s : State} {d q : Nat} (hd : s.me.holdsBack [] ([d].map .x) = false) :
    execXpQget d q s = if 4 ≤ q then Safety.traps (trapAt .illegal) s else .next (queueGet d q s) := by
  rw [execXpQget, illegalIf_eq]
  by_cases hq : 4 ≤ q
  · rw [if_pos hq, if_pos hq]; rfl
  · rw [if_neg hq, if_neg hq, xpChecked_free (srcs := []) _ hd]; rfl

/-- A scalar register that the XP writes is an x register. -/
theorem State.put_xp {s : State} (h : s.cur.side = .xp) (d : Nat) (v : Addr) : s.put d v = s.modMe (fun k => k.setXreg d v) := by
  rw [State.put, h]; rfl

theorem execXpQput_eq {s : State} {a q : Nat} (ha : s.me.holdsBack ([a].map .x) [] = false) :
    execXpQput q a s = if q < 4 then Safety.traps (trapAt .illegal) s else .next (queuePut q (s.me.xreg a) s) := by
  rw [execXpQput, illegalIf_eq]
  by_cases hq : q < 4
  · rw [if_pos hq, if_pos hq]; rfl
  · rw [if_neg hq, if_neg hq, xpChecked_free (dsts := []) _ ha]; rfl

/-! ### VT and `vset` (R23, R170) -/

/-- Bits 8 to 8 + n - 1 of a value over a new low byte. -/
theorem mask_or_low {v mask : Addr} {n r : Nat} (hm : ∀ i, i < 64 → mask.getLsbD i = decide (8 ≤ i ∧ i < 8 + n)) (hr : r < 2 ^ 8) :
    v &&& mask ||| BitVec.ofNat 64 r = BitVec.ofNat 64 (nfld v.toNat 8 n * 2 ^ 8 + r) := by
  refine BitVec.eq_of_getLsbD_eq fun i hi => ?_
  rw [Nat.mul_comm, Nat.two_pow_add_eq_or_of_lt hr, BitVec.getLsbD_or, BitVec.getLsbD_and, hm i hi, BitVec.getLsbD_ofNat,
    BitVec.getLsbD_ofNat, Nat.testBit_or, Nat.testBit_two_pow_mul, nfld, Nat.testBit_mod_two_pow, Nat.testBit_div_two_pow]
  by_cases h8 : 8 ≤ i
  · simp [hi, h8, Nat.sub_add_cancel h8, BitVec.getLsbD, Nat.sub_lt_iff_lt_add h8, Nat.add_comm, Bool.and_comm]
  · simp [hi, h8]

theorem vtType_low (a : Nat) {m e : Nat} (he : e < 32) : vtType (BitVec.ofNat 64 (a * 2 ^ 8 + m * 2 ^ 5 + e)) = e := by
  rw [vtType, nfld, BitVec.toNat_ofNat]
  omega

theorem vtSet_eq (vt : BitVec 64) {m e : Nat} (hm : m < 8) (he : e < 32) :
    vtSet vt m e = vt &&& ~~~(0xFF : BitVec 64) ||| BitVec.ofNat 64 (m * 32 + e) := by
  have := vt.isLt
  rw [mask_or_low (n := 56) (by decide) (by omega), vtSet, nfld]
  exact congrArg _ (by omega)

theorem vtRot_eq (v : Addr) {m e : Nat} (hm : m < 8) (he : e < 32) :
    BitVec.ofNat 64 (nfld v.toNat 8 21 * 2 ^ 8 + m * 2 ^ 5 + e) = v &&& 0x1FFFFF00 ||| BitVec.ofNat 64 (m * 32 + e) := by
  rw [mask_or_low (n := 21) (by decide) (by omega), Nat.add_assoc]
  simp only [Nat.reducePow]

/-- A `vset` writes VT or takes ILLEGAL, at an ETYPE above 14 in any case. -/
theorem vsetWord_free {srcs : List Nat} {e : Nat} {f : Core → BitVec 64} {s : State}
    (hs : s.me.holdsBack (srcs.map .x) [] = false) (he : vtType (f s.me) = e) :
    .next (vsetWord srcs e f s) =
      if vtOk s.me.nv (f s.me) = true then .next (finish (s.modMe (fun k => { k with vt := f s.me })))
      else Safety.traps (trapAt .illegal) s := by
  rw [vsetWord, illegalIf_eq]
  by_cases h : 15 ≤ e
  · have bad : vtOk s.me.nv (f s.me) = false := by simp [vtOk, he, Nat.not_lt.2 h]
    rw [if_pos h, bad]; rfl
  · rw [if_neg h, xpChecked_free (dsts := []) _ hs]
    dsimp only
    split <;> rfl

/-! ### `nset` (R171) -/

/-- The eight control registers are the 544-bit parts of 1,024 bytes. -/
theorem loadControl_eq (v : Nat) (k : Core) : loadControl v k =
    { k with nregs := (List.range 8).map (fun j => (j, (BitVec.ofNat 8192 v).extractLsb' (544 * j) 544)) } := by
  rw [loadControl]
  congr 1
  refine List.map_congr_left fun j hj => Prod.ext rfl (BitVec.eq_of_getLsbD_eq fun i hi => ?_)
  have hj := List.mem_range.1 hj
  rw [BitVec.getLsbD_ofNat, Nat.testBit_div_two_pow, BitVec.getLsbD_extractLsb', BitVec.getLsbD_ofNat, Nat.add_comm i]
  simp [hi, show 544 * j + i < 8192 by omega]

theorem ofNat_append (x y : BitVec 4096) : BitVec.ofNat 8192 (x.toNat + y.toNat * 2 ^ 4096) = y ++ x := by
  have : x.toNat + y.toNat * 2 ^ 4096 = (y ++ x).toNat := by
    rw [BitVec.toNat_append, ← Nat.shiftLeft_add_eq_or_of_lt x.isLt, Nat.shiftLeft_eq, Nat.add_comm]
  rw [this]
  exact (BitVec.ofNat_toNat 8192 (y ++ x)).trans (BitVec.setWidth_eq _)

theorem permWaits_of_unfinished {k : Core} (h : k.unfinished = []) : permWaits k = false := by
  have : k.vq = [] := by simp only [Core.unfinished, List.append_eq_nil_iff] at h; exact h.1.1.1
  simp [permWaits, this]

theorem nsetBad_iff {c : Nat} (hc : c < 96) (k : Core) :
    nsetBad c k = true ↔ k.nv < c + 2 ∨ k.nv ≤ rename k.vt c ∨ k.nv ≤ rename k.vt (c + 1) := by
  simp [nsetBad, hc, or_assoc]

/-- `nset` of two registers, none of them in use. -/
theorem nsetWord_regs {c : Nat} {s : State} (hu : s.me.unfinished = []) (hc : c < 96) :
    nsetWord c s =
      if s.me.nv < c + 2 ∨ s.me.nv ≤ rename s.me.vt c ∨ s.me.nv ≤ rename s.me.vt (c + 1) then .error (trapAt .illegal)
      else .ok (finish (s.modMe (loadControl
        ((s.me.vreg (rename s.me.vt c)).toNat + (s.me.vreg (rename s.me.vt (c + 1))).toNat * 2 ^ 4096)))) := by
  simp only [nsetWord, nsetBad_iff hc, permWaits_of_unfinished hu, ge_iff_le, Nat.not_le.2 hc, Core.holdsBack_of_unfinished hu]
  rfl

/-- `nset` of a port reads both units of it or comes to what their checks say. -/
theorem nsetWord_port {c : Nat} {s : State} (hu : s.me.unfinished = []) (hc : 96 ≤ c) : nsetWord c s = nsetPort (c - 96) s := by
  have hb : nsetBad c s.me = false := by simp [nsetBad, Nat.not_lt.2 hc]
  simp only [nsetWord, hb, permWaits_of_unfinished hu, ge_iff_le, hc, if_true]
  rfl

theorem seatst_eq (s : State) : seatst s s.cur.core =
    let own := fun (p : Plane) => decide (p.tagH = s.me.heat ∧ p.holder = posOf s.cur.core ∧ p.holder ≠ 7)
    let w := s.crew (crewOf s.cur.core)
    BitVec.ofNat 64 (s.me.hasSeat.toNat + (own w.active).toNat * 2 + (own w.shadow).toNat * 2 ^ 2 + s.me.stint * 2 ^ 3 +
      w.holder * 2 ^ 8) := by
  have own : ∀ p : Plane, planeOwn p s.me s.cur.core = decide (p.tagH = s.me.heat ∧ p.holder = posOf s.cur.core ∧ p.holder ≠ 7) :=
    fun p => by simp [planeOwn, beq_eq_decide, Bool.and_assoc, bne]
  simp only [← own]
  rfl

end Sys2Proof.Machine

namespace Sys2Proof
open Sys2Proof.Machine

/-- Settles O25: each word is its model function without its waits. -/
theorem xpQueuesCsrsAndVt : Obligations.XpQueuesCsrsAndVt := by
  intro s d a q m e n c j ⟨hside, heng, hfree⟩ hm he v core ill priv rd vt1 vt2 r0 r1 fenced own w load write
  have hd : s.me.holdsBack [] ([d].map .x) = false := Core.holdsBack_mono hfree (by simp)
  have ha : s.me.holdsBack ([a].map .x) [] = false := Core.holdsBack_mono hfree (by simp)
  have h0 : s.me.holdsBack [] [] = false := Core.holdsBack_mono hfree (by simp)
  have hslip : csrWriteOk s .xp 0x021 = if s.sysMode core = true then none else some (trapAt .priv) := rfl
  have hpix : csrWriteOk s .xp 0x020 = if s.sysMode core = true then none else some (trapAt .priv) := rfl
  have hwrite : ∀ (len : Nat) (i : Nat → Instr) (srcs : List Nat) (f : Core → Addr),
      (∀ n, exec (i n) s = .next (xpCsrWrite len n srcs f s)) → s.me.holdsBack (srcs.map .x) [] = false → write len i (f s.me) := by
    intro len i srcs f hi hs
    refine ⟨?_, ?_, ?_, ?_, ?_, ?_, ?_, fun hm => ?_, fun hm hu => ?_, fun hm hu => ?_, fun hn => ?_⟩
    · rw [hi, xpCsrWrite_open hs rfl rfl, csrWritten_vt]
    · rw [hi, xpCsrWrite_open hs rfl rfl, csrWritten_g]
    · rw [hi, xpCsrWrite_fenced hs rfl rfl, csrWritten_vcnt]
    · rw [hi, xpCsrWrite_fenced hs rfl rfl, csrWritten_flags]
    · rw [hi, xpCsrWrite_open hs rfl rfl]; rfl
    · rw [hi, xpCsrWrite_open hs rfl rfl]; rfl
    · rw [hi]
      cases hm : s.sysMode core
      · rw [xpCsrWrite_refused (t := trapAt .priv) (by rw [hslip, hm]; rfl)]; rfl
      · rw [xpCsrWrite_open hs (by rw [hslip, hm]; rfl) rfl, csrWritten_slip]; rfl
    · rw [hi, xpCsrWrite_refused (t := trapAt .priv) (by rw [hpix, hm]; rfl)]
    · rw [hi, xpCsrWrite_fenced hs (by rw [hpix, hm]; rfl) rfl, if_neg hu]
    · rw [hi, xpCsrWrite_fenced hs (by rw [hpix, hm]; rfl) rfl, if_pos hu]; exact csrWritten_pix len .xp _ s
    · rw [hi, xpCsrWrite_refused (csrWriteOk_xp_illegal hn)]
  have hvset : (exec (.vset m e) s = _) := vsetWord_free (srcs := []) (f := fun k => vtSet k.vt m e) h0 (vtType_low _ he)
  have hrot : (exec (.vsetRot a m e) s = _) :=
    vsetWord_free (srcs := [a]) (f := fun k => BitVec.ofNat 64 (nfld (k.xreg a).toNat 8 21 * 2 ^ 8 + m * 2 ^ 5 + e)) ha (vtType_low _ he)
  simp only [vtSet_eq _ hm he] at hvset
  simp only [vtRot_eq _ hm he] at hrot
  refine ⟨?_, ?_, ?_, ?_, ?_, execXpCsrr_some hd rfl rfl,
    fun h hh => ⟨execXpCsrr_some hd (csrRead_heat hh _) rfl, execXpCsrr_some hd (csrRead_mode hh _) rfl⟩, execXpCsrr_some hd rfl rfl,
    execXpCsrr_some hd rfl rfl, execXpCsrr_some hd rfl rfl, execXpCsrr_some hd rfl rfl, execXpCsrr_some hd rfl rfl,
    execXpCsrr_some hd rfl rfl, execXpCsrr_some hd rfl rfl, execXpCsrr_fenced hd rfl rfl, execXpCsrr_fenced hd rfl rfl,
    ?_, execXpCsrr_fenced hd rfl rfl, fun hn => execXpCsrr_none (csrRead_xp_none hn),
    hwrite 4 _ [a] (fun k => k.xreg a) (fun _ => rfl) ha, hwrite 8 (fun n => .xpCsrwLong n j) [] (fun _ => j.setWidth 64) (fun _ => rfl) h0, hvset, hrot,
    fun hu => ⟨fun hc => ?_, fun hc => ?_⟩⟩
  · refine Eq.trans (execXpQget_eq hd) (if_congr Iff.rfl rfl ?_)
    rw [queueGet]
    cases s.me.queue q with
    | nil => rfl
    | cons x r => dsimp only; rw [State.put_xp (by exact hside)]; rfl
  · refine Eq.trans (execXpQput_eq ha) (if_congr Iff.rfl rfl ?_)
    rw [queuePut, apply_ite Host.Outcome.next]
  · rw [execXpCsrr_some hd rfl rfl, csrCore_eq]
  · rw [execXpCsrr_some hd rfl rfl, csrCrew_eq]
  · rw [execXpCsrr_some hd rfl rfl, csrDie_eq]
  · exact execXpCsrr_fenced hd (n := 0x014) (congrArg some (seatst_eq s)) rfl
  · have : exec (.nset c) s = .next (settle (nsetWord c s) s) := rfl
    rw [this, nsetWord_regs hu hc, apply_ite (settle · s), apply_ite Host.Outcome.next]
    refine if_congr Iff.rfl rfl (congrArg (fun f => Host.Outcome.next (finish (s.modMe f))) (funext fun k => ?_))
    rw [loadControl_eq, ofNat_append]
  · have : exec (.nset c) s = .next (settle (nsetWord c s) s) := rfl
    rw [this, nsetWord_port hu hc, nsetPort]
    dsimp only
    split
    next t h => exact h ▸ rfl
    next h => exact h ▸ rfl
    next h => rw [show loadControl _ = _ from funext (loadControl_eq _)]; exact h ▸ rfl

end Sys2Proof

namespace Sys2Proof.Machine

/-! ### What completing a word writes (R87, R165) -/

/-- The loop check of the moving side's word of `len` bytes. -/
def loopEnd (len : Nat) (s : State) : LoopEnd :=
  closeLoops (fun e => e == s.cur.addr || (len == 8 && e == s.cur.addr + 4)) s.me.vt s.me.g s.mySide.loops

/-- The moving side past its word. -/
def movedSide (len : Nat) (s : State) (x : SideSt) : SideSt :=
  { x with
    loops := (loopEnd len s).loops
    pc := (loopEnd len s).back.getD (s.cur.addr + BitVec.ofNat 64 len)
    land := (loopEnd len s).back.isSome
    wait := none }

/-- The moving core past its word. -/
def movedOn (len : Nat) (s : State) (k : Core) : Core :=
  ({ k with vt := (loopEnd len s).vt, g := (loopEnd len s).g }).modSide s.cur.side (movedSide len s)

theorem moveOn_eq (len : Nat) (s : State) : moveOn len s = s.modMe (movedOn len s) := rfl

theorem finishN_eq (len : Nat) (s : State) : finishN len s = (s.modMe (movedOn len s)).act s.cur.core := rfl

/-- A word that completes leaves its core alone but for its sides, VT and G. -/
theorem movedOn_rest (len : Nat) (s : State) (k : Core) : { movedOn len s k with ap := k.ap, xp := k.xp, vt := k.vt, g := k.g } = k := by
  unfold movedOn; cases s.cur.side <;> rfl

theorem movedOn_side_same (len : Nat) (s : State) (k : Core) :
    (movedOn len s k).side s.cur.side = movedSide len s (k.side s.cur.side) := by
  rw [movedOn, Core.side_modSide]; cases s.cur.side <;> rfl

theorem movedOn_side_ne (len : Nat) (s : State) (k : Core) {sd : Side} (h : sd ≠ s.cur.side) :
    (movedOn len s k).side sd = k.side sd := by
  rw [movedOn, Core.side_modSide_ne _ _ _ _ h]; cases sd <;> rfl

theorem finishN_core (len : Nat) (s : State) : (finishN len s).core s.cur.core = movedOn len s (s.core s.cur.core) :=
  State.core_modCore s s.cur.core (movedOn len s)

theorem finishN_core_ne (len : Nat) (s : State) {c : Nat} (h : c ≠ s.cur.core) : (finishN len s).core c = s.core c :=
  State.core_modCore_ne s s.cur.core c (movedOn len s) h

/-- A word that completes changes nothing of the part but the cores, and marks its core active (R301). -/
theorem finishN_rest (len : Nat) (s : State) : { finishN len s with cores := s.cores, acted := s.acted } = s := rfl

/-! ### SYNC words that wait for nothing (R207, R208) -/

/-- A SYNC word that nothing holds back takes POISON at a poisoned source of the AP, else does what it does. -/
theorem syncWord_free {fenced : Bool} {srcs dsts l : List Nat} {s : State} (body : State → Except Trap State)
    (h : Safety.syncFree false l s) (hf : fenced = true → s.cur.side = .xp → s.me.unfinished = []) (hl : srcs ++ dsts ⊆ l) :
    .next (syncWord fenced srcs dsts body s) = Safety.synced srcs s (.next (settle (body s) s)) := by
  obtain ⟨-, ⟨hs, hw⟩ | ⟨hs, hw, -⟩⟩ := h
  · have hw : s.me.ldsWaits (srcs ++ dsts) = false := Core.ldsWaits_mono hw hl
    simp only [syncWord, hs, apWord_free _ _ _ hw, Safety.synced, true_and]
    split <;> rfl
  · have hw : s.me.holdsBack (srcs.map .x) (dsts.map .x) = false :=
      Core.holdsBack_mono hw (by rw [← List.map_append]; exact List.map_subset _ hl)
    have hf : (fenced && !s.me.xpIdle) = false := by
      cases fenced
      · rfl
      · simp [(xpIdle_iff _).2 (hf rfl hs)]
    simp only [syncWord, hs, hf, xpWord_free _ hw, Safety.synced]
    rfl

theorem Safety.syncFree.mono {l r : List Nat} {s : State} (h : Safety.syncFree false r s) (hl : l ⊆ r) : Safety.syncFree false l s := by
  obtain ⟨he, ⟨hs, hw⟩ | ⟨hs, hw, -⟩⟩ := h
  · exact ⟨he, .inl ⟨hs, Core.ldsWaits_mono hw hl⟩⟩
  · exact ⟨he, .inr ⟨hs, Core.holdsBack_mono hw (List.map_subset _ hl), by simp⟩⟩

/-- A check that refuses a word with ILLEGAL, before what it does otherwise. -/
theorem settle_refuse (p q : Prop) [Decidable p] [Decidable q] (t u s : State) :
    (.next (settle (if p then refuseIllegal else if q then .ok t else .ok u) s) : Res) =
      if p then Safety.traps (trapAt .illegal) s else .next (if q then t else u) := by
  split
  · rfl
  · split <;> rfl

theorem Safety.synced_nil (s : State) (r : Res) : Safety.synced [] s r = r := by simp [Safety.synced, Core.anyPoison]

/-- A privileged SYNC word that nothing holds back takes PRIV in user mode. -/
theorem privSync_free {fenced : Bool} {srcs dsts l : List Nat} {s : State} (body : State → Except Trap State)
    (h : Safety.syncFree false l s) (hf : fenced = true → s.cur.side = .xp → s.me.unfinished = []) (hl : srcs ++ dsts ⊆ l) :
    .next (privSync fenced srcs dsts body s) = Safety.synced srcs s
      (if ¬ s.sysMode s.cur.core = true then Safety.traps (trapAt .priv) s else .next (settle (body s) s)) := by
  have inner : (settle (if s.sysMode s.cur.core then body s else .error (trapAt .priv)) s) =
      if ¬ s.sysMode s.cur.core = true then takeTrap (trapAt .priv) s else settle (body s) s := by
    cases s.sysMode s.cur.core <;> rfl
  have word := syncWord_free (srcs := srcs) (dsts := dsts)
    (fun s => if s.sysMode s.cur.core then body s else .error (trapAt .priv)) h hf hl
  rw [inner, apply_ite Host.Outcome.next] at word
  rw [privSync]
  cases hs : s.cur.side with
  | ap => simpa only [xpFirst, hs, Safety.traps] using word
  | xp =>
    cases hm : s.sysMode s.cur.core
    · simp [xpFirst, hs, Safety.synced, Safety.traps]
    · simpa [xpFirst, hs, hm] using word

/-- What a release comes to: a wait for the AP's loads, then for the lost writes of its die. -/
theorem settle_release (flush : State → State) (go : State → Except Trap State) (s : State) :
    settle (release flush go s) s =
      if s.cur.side = .ap ∧ s.me.lds ≠ [] then s
      else if (flush s).owes (dieOf s.cur.core) = true then flush s else settle (go (flush s)) s := by
  unfold release
  split
  · rfl
  · split <;> rfl

/-! ### A heat that halts itself (R230) -/

theorem pushEvent_cores (e : Event) (s : State) : (pushEvent e s).cores = s.cores := by
  unfold pushEvent; dsimp only; split <;> rfl

theorem pushEvent_heats (e : Event) (s : State) : (pushEvent e s).heats = s.heats := by
  unfold pushEvent; dsimp only; split <;> rfl

theorem pushEvent_cur (e : Event) (s : State) : (pushEvent e s).cur = s.cur := by
  unfold pushEvent; dsimp only; split <;> rfl

/-- An event posted changes no core, no heat and not the moving unit. -/
theorem postEvent_keeps (kind ctx number code : Nat) (data : Option Nat) (s : State) :
    (postEvent kind ctx number code data s).cores = s.cores ∧ (postEvent kind ctx number code data s).heats = s.heats ∧
      (postEvent kind ctx number code data s).cur = s.cur := by
  simp only [postEvent, pushEvent_cores, pushEvent_heats, pushEvent_cur]
  cases data <;> exact ⟨rfl, rfl, rfl⟩

/-- The heat that occupies a core, once every heat of its number is halted. -/
theorem heatOf_halted {s t : State} {c : Nat} {h : Heat} (hh : s.heatOf c = some h) (hc : (t.core c).heat = (s.core c).heat)
    (ht : t.heats = s.heats.map (fun h => if h.hr.number = (s.core c).heat then { h with st := .halted, bridge := false } else h)) :
    ∃ g, t.heatOf c = some g ∧ g.st = .halted ∧ g.bridge = false := by
  unfold State.heatOf at hh ⊢
  rw [hc]
  split at hh
  · cases hh
  next h0 =>
    rw [if_neg h0, ht, List.find?_map]
    have hp := List.find?_some hh
    simp only [Bool.and_eq_true, beq_iff_eq] at hp
    have same : (s.heats.find? (fun x => x.hr.number == (s.core c).heat)).isSome = true :=
      List.find?_isSome.2 ⟨h, List.mem_of_find?_eq_some hh, beq_iff_eq.2 hp.1⟩
    obtain ⟨x, hx⟩ := Option.isSome_iff_exists.1 same
    have hn : x.hr.number = (s.core c).heat := by simpa using List.find?_some hx
    refine ⟨{ x with st := .halted, bridge := false },
      (congrArg (Option.map _) ((congrArg (List.find? · s.heats) (funext fun y => ?_)).trans hx)).trans ?_, rfl, rfl⟩
    · by_cases hy : y.hr.number = (s.core c).heat <;> simp [hy]
    · rw [Option.map_some, if_pos hn]

/-- `halt` stops the sides of the heat as halted, its engines going on. -/
theorem execHalt_done {s : State} (hfree : Safety.syncFree false [] s) (hx : s.cur.side = .xp → s.me.unfinished = [])
    (hm : s.sysMode s.cur.core = true) (he : endWaits s = false) :
    ∃ t, execHalt s = .next t ∧ (∃ g, t.heatOf s.cur.core = some g ∧ g.st = .halted) ∧ t.live s.cur.core = false ∧
      t.unitsLive s.cur.core = true ∧ t.mySide.pc = (finish s).mySide.pc ∧ t.mem = s.mem := by
  obtain ⟨h, hh⟩ : ∃ h, s.heatOf s.cur.core = some h := by
    unfold State.sysMode at hm; split at hm
    next h hh => exact ⟨h, hh⟩
    · cases hm
  let s1 := (freeNat s).1
  let p := postEvent 3 (s1.ctxOf s.cur.core) s.me.heat ((freeNat s).2 % 256) none (finish s1)
  let t := p.modHeat s.me.heat (fun h => { h with st := .halted, bridge := false })
  obtain ⟨hcores, hheats, hcur⟩ := postEvent_keeps 3 (s1.ctxOf s.cur.core) s.me.heat ((freeNat s).2 % 256) none (finish s1)
  have hcore : ∀ c, t.core c = (finish s).core c := fun c => congrArg (tget · c Core.reset) hcores
  have hheat : (t.core s.cur.core).heat = (s.core s.cur.core).heat := by
    rw [hcore, finish, finishN_core]
    have rest := congrArg Core.heat (movedOn_rest 4 s (s.core s.cur.core))
    exact rest
  obtain ⟨g, hg, hst, hb⟩ := heatOf_halted (t := t) hh hheat (congrArg (List.map _) hheats)
  refine ⟨t, ?_, ⟨g, hg, hst⟩, by simp [State.live, hg, hst], by simp [State.unitsLive, hg, hst, hb], ?_, ?_⟩
  · refine ((privSync_free _ hfree (fun _ => hx) (by simp)).trans (Safety.synced_nil _ _)).trans ((if_neg (not_not.2 hm)).trans ?_)
    simp only [he]; rfl
  · have : t.mySide = (t.core t.cur.core).side t.cur.side := rfl
    rw [this, show t.cur = s.cur from hcur, hcore]; rfl
  · exact (postEvent_mem 3 (s1.ctxOf s.cur.core) s.me.heat ((freeNat s).2 % 256) none (finish s1)).trans (finish_mem s1)

end Sys2Proof.Machine

namespace Sys2Proof
open Sys2Proof.Machine

/-- Settles O34: each word is its body once nothing holds it back. -/
theorem syncScalarWords : Obligations.SyncScalarWords := by
  intro s d a e n sc hfree he v sys priv ill
  have noFence : false = true → s.cur.side = .xp → s.me.unfinished = [] := by simp
  refine ⟨?_, ?_, ?_, ?_, ?_, fun hx => ⟨?_, ?_, fun hm => ?_, fun hm hw => ?_, fun hm hw => ?_⟩⟩
  · exact (syncWord_free _ hfree noFence (by simp)).trans (Safety.synced_nil _ _)
  · exact (syncWord_free _ hfree noFence (by simp)).trans (Safety.synced_nil _ _)
  · exact (syncWord_free _ hfree noFence (by simp)).trans (Safety.synced_nil _ _)
  · exact (syncWord_free _ hfree noFence (by simp)).trans (Safety.synced_nil _ _)
  · refine (privSync_free _ hfree noFence (by simp)).trans (congrArg _ (if_congr Iff.rfl rfl ?_))
    dsimp only
    rw [settle_refuse]
    rfl
  · refine (privSync_free _ hfree (fun _ => hx) (by simp)).trans (congrArg _ (if_congr Iff.rfl rfl ?_))
    dsimp only
    rw [settle_refuse]
  · refine ((syncWord_free _ hfree (fun _ => hx) (by simp)).trans (Safety.synced_nil _ _)).trans (congrArg _ ?_)
    dsimp only
    cases hs : s.cur.side with
    | ap => simp only [settle_release, hs, true_and, reduceCtorEq, if_false]; rfl
    | xp => rfl
  · exact ((privSync_free _ hfree (fun _ => hx) (by simp)).trans (Safety.synced_nil _ _)).trans (if_pos hm)
  · refine ((privSync_free _ hfree (fun _ => hx) (by simp)).trans (Safety.synced_nil _ _)).trans ((if_neg (not_not.2 hm)).trans ?_)
    simp only [hw]; rfl
  · exact execHalt_done (Safety.syncFree.mono hfree (by simp)) hx hm hw

end Sys2Proof

namespace Sys2Proof.Machine

/-! ### What a word does to the control of its side

A register word waits, or takes a fault, or writes its register and moves its side on: in each case what else changes is the control
of the moving side. `ControlStep` says this of the moving core and `Controls` of the part. -/

/-- Two states of a side that differ in its control alone: pc, loops, landing bit, status, fault registers and wait. -/
def sideControl (x y : SideSt) : Prop :=
  { y with pc := x.pc, run := x.run, land := x.land, loops := x.loops, faddr := x.faddr, fcode := x.fcode, wait := x.wait } = x

/-- Two states of a core between which a side keeps all but its control: the deliveries, FADDR and FCODE while it runs, VT and G without
an `lsp` entry (R13, R28, R165). -/
structure ControlKept (sd : Side) (k k' : Core) : Prop where
  quiet : (k.side sd).run = .run → (k'.side sd).run = .run →
    (k'.side sd).faddr = (k.side sd).faddr ∧ (k'.side sd).fcode = (k.side sd).fcode ∧ k'.pending = k.pending ∧ k'.held = k.held
  pass : (∀ e ∈ (k.side sd).loops, e.sl = 0) → k'.vt = k.vt ∧ k'.g = k.g
  side : sideControl (k.side sd) (k'.side sd)

/-- Two states of a core that differ in the control of a side alone. -/
structure ControlStep (sd : Side) (k k' : Core) : Prop extends ControlKept sd k k' where
  core : ({ k' with vt := k.vt, g := k.g, pending := k.pending, held := k.held }).modSide sd (fun _ => k.side sd) = k

/-- Two states of the part of which the later differs in the moving core's control alone, and in that it acted. -/
structure Controls (s t : State) : Prop where
  rest : { t with cores := s.cores, acted := s.acted } = s
  cores : ∀ c, c ≠ s.cur.core → t.core c = s.core c
  me : ControlStep s.cur.side s.me t.me

theorem ControlStep.refl (sd : Side) (k : Core) : ControlStep sd k k :=
  ⟨⟨fun _ _ => ⟨rfl, rfl, rfl, rfl⟩, fun _ => ⟨rfl, rfl⟩, rfl⟩, by cases sd <;> rfl⟩

/-- Changes of a side's pc, landing bit and loop stack are a control step. -/
theorem ControlStep.modSide (sd : Side) (k : Core) (f : SideSt → SideSt)
    (hf : ∀ x, { x with pc := (f x).pc, land := (f x).land, loops := (f x).loops } = f x) : ControlStep sd k (k.modSide sd f) := by
  refine ⟨⟨fun _ _ => ?_, fun _ => ⟨Core.modSide_vt k sd f, Core.modSide_g k sd f⟩, ?_⟩, ?_⟩
  · rw [Core.side_modSide, ← hf]
    exact ⟨rfl, rfl, Core.modSide_pending k sd f, Core.modSide_held k sd f⟩
  · rw [Core.side_modSide, ← hf]; rfl
  · cases sd <;> rfl

/-- The loop check changes VT and G only at an `lsp` entry. -/
theorem closeLoops_plain (done : Addr → Bool) (vt : BitVec 64) (g : BitVec 16) (l : List Loop) (h : ∀ e ∈ l, e.sl = 0) :
    (closeLoops done vt g l).vt = vt ∧ (closeLoops done vt g l).g = g := by
  induction l with
  | nil => exact ⟨rfl, rfl⟩
  | cons e r ih =>
    have he : e.sl = 0 := h e (List.mem_cons_self ..)
    have hr := ih fun x hx => h x (List.mem_cons_of_mem _ hx)
    rw [closeLoops]
    simp only [he, if_true]
    split
    · split
      · exact ⟨rfl, rfl⟩
      · exact hr
    · exact ⟨rfl, rfl⟩

theorem ControlStep.movedOn (len : Nat) (s : State) : ControlStep s.cur.side s.me (movedOn len s s.me) := by
  refine ⟨⟨fun _ _ => ?_, fun h => ?_, ?_⟩, ?_⟩
  · rw [movedOn_side_same]
    exact ⟨rfl, rfl, Core.modSide_pending .., Core.modSide_held ..⟩
  · have hl := closeLoops_plain (fun e => e == s.cur.addr || (len == 8 && e == s.cur.addr + 4)) s.me.vt s.me.g s.mySide.loops h
    exact ⟨(Core.modSide_vt ..).trans hl.1, (Core.modSide_g ..).trans hl.2⟩
  · rw [movedOn_side_same]; rfl
  · unfold Machine.movedOn; cases s.cur.side <;> rfl

theorem ControlStep.trapCore (t : Trap) (s : State) : ControlStep s.cur.side s.me (trapCore t s s.me) := by
  refine ⟨⟨fun _ h => ?_, fun _ => ?_, ?_⟩, ?_⟩
  · rw [trapCore_side_same] at h; cases h
  · have hvt := congrArg Core.vt (trapCore_rest t s s.me)
    have hg := congrArg Core.g (trapCore_rest t s s.me)
    exact ⟨hvt, hg⟩
  · rw [trapCore_side_same]; rfl
  · unfold Machine.trapCore Core.posted; cases s.cur.side <;> split <;> rfl

theorem Controls.modMe {s : State} {f : Core → Core} (h : ControlStep s.cur.side s.me (f s.me)) : Controls s (s.modMe f) :=
  ⟨rfl, fun c hc => State.core_modCore_ne s _ c f hc, by rw [State.me_modMe]; exact h⟩

theorem Controls.act {s t : State} (h : Controls s t) (c : Nat) : Controls s (t.act c) := ⟨h.rest, h.cores, h.me⟩

theorem Controls.refl (s : State) : Controls s s := ⟨rfl, fun _ _ => rfl, .refl _ _⟩

theorem Controls.finishN (len : Nat) (s : State) : Controls s (finishN len s) := (Controls.modMe (.movedOn len s)).act _

theorem Controls.takeTrap (t : Trap) (s : State) : Controls s (takeTrap t s) := by
  rw [takeTrap_eq]; exact .modMe (.trapCore t s)

theorem Controls.modMySide (s : State) (f : SideSt → SideSt)
    (hf : ∀ x, { x with pc := (f x).pc, land := (f x).land, loops := (f x).loops } = f x) : Controls s (s.modMySide f) :=
  .modMe (.modSide _ _ f hf)

theorem Controls.jump (t : Addr) (s : State) : Controls s (jump t s) := (Controls.modMySide s _ fun _ => rfl).act _

theorem State.modMySide_modMySide (s : State) (f g : SideSt → SideSt) :
    (s.modMySide f).modMySide g = s.modMySide (fun x => g (f x)) := by
  simp only [State.modMySide, State.modSide, State.modCore_cur, State.modCore_modCore]
  cases s.cur.side <;> rfl

theorem Controls.branch (t : Addr) (s : State) : Controls s (branch t s) := by
  have : Machine.branch t s = (s.modMySide (fun x => { x with loops := leaveLoops t x.loops, pc := t, land := true })).act s.cur.core :=
    congrArg (State.act s.cur.core) (State.modMySide_modMySide ..)
  rw [this]
  exact (Controls.modMySide s _ fun _ => rfl).act _

theorem Controls.openLoop {n : Nat} {o : BitVec 18} {s t : State} (h : openLoop n o s = .ok t) : Controls s t := by
  rw [Machine.openLoop] at h
  split at h
  · cases h
  · split at h <;> cases h <;> exact (Controls.modMySide s _ fun _ => rfl).act _

/-! ### Words of the AP and the XP by their outcomes -/

/-- What holds of the state as it was, of the word's fault and of what its body answers holds of what an AP word leaves. -/
theorem apWord_cases {P : State → Prop} {regs : List Nat} {body : State → Except Trap State} {s : State} (hs : P s)
    (herr : ∀ t, body s = .error t → P (takeTrap t s)) (hok : ∀ u, body s = .ok u → P u) : P (apWord regs body s) := by
  unfold apWord
  split
  · exact hs
  · cases h : body s with
    | error t => exact herr t h
    | ok u => exact hok u h

/-- The same of a sequencer word of the XP. -/
theorem xpWord_cases {P : State → Prop} {srcs dsts : List Nat} {body : State → Except Trap State} {s : State} (hs : P s)
    (herr : ∀ t, body s = .error t → P (takeTrap t s)) (hok : ∀ u, body s = .ok u → P u) : P (xpWord srcs dsts body s) := by
  unfold xpWord
  split
  · exact hs
  · cases h : body s with
    | error t => exact herr t h
    | ok u => exact hok u h

/-- A state that a word leaves which writes a register of its core by one of `w`, or nothing. -/
def WordLeaves {α : Type} (w : α → Core → Core) (s t : State) : Prop := Controls s t ∨ ∃ v, Controls (s.modMe (w v)) t

section

variable {α : Type} {w : α → Core → Core} {s : State}

theorem WordLeaves.apWord {regs : List Nat} {body : State → Except Trap State} (hok : ∀ u, body s = .ok u → WordLeaves w s u) :
    WordLeaves w s (apWord regs body s) :=
  apWord_cases (.inl (.refl s)) (fun t _ => .inl (.takeTrap t s)) hok

theorem WordLeaves.xpWord {srcs dsts : List Nat} {body : State → Except Trap State} (hok : ∀ u, body s = .ok u → WordLeaves w s u) :
    WordLeaves w s (xpWord srcs dsts body s) :=
  xpWord_cases (.inl (.refl s)) (fun t _ => .inl (.takeTrap t s)) hok

theorem WordLeaves.xpChecked {bad : Option Trap} {srcs dsts : List Nat} {body : State → Except Trap State}
    (hok : ∀ u, body s = .ok u → WordLeaves w s u) : WordLeaves w s (xpChecked bad srcs dsts body s) := by
  unfold Machine.xpChecked
  split
  · exact .inl (.takeTrap _ s)
  · exact .xpWord hok

/-- The word's register is written and the word completes. -/
theorem WordLeaves.put (len : Nat) (v : α) : WordLeaves w s (finishN len (s.modMe (w v))) := .inr ⟨v, .finishN len _⟩

end

/-! ### The words of the AP -/

/-- A write of an a register, as the words of the AP make it. -/
abbrev writeA (d : Nat) (v : Poi) (k : Core) : Core := k.setAreg d v

theorem alu3_leaves (f : Addr → Addr → Addr) (d a b : Nat) (s : State) : WordLeaves (writeA d) s (alu3 f d a b s) :=
  .apWord fun _ h => by cases h; exact .put 4 _

theorem alu2_leaves (f : Addr → Addr) (d a : Nat) (s : State) : WordLeaves (writeA d) s (alu2 f d a s) :=
  .apWord fun _ h => by cases h; exact .put 4 _

theorem cmpWord_leaves (c p : Nat) (srcs : List Nat) (x y : Core → Addr) (s : State) :
    WordLeaves (fun v k => k.setPred p v) s (cmpWord c p srcs x y s) :=
  .apWord fun _ h => by
    split at h <;> cases h
    exact .inr ⟨condHolds c (x s.me) (y s.me), .finishN 4 _⟩

theorem predWord_leaves (f : Core → Bool) (d : Nat) (s : State) : WordLeaves (fun v k => k.setPred d v) s (predWord f d s) :=
  .inr ⟨f s.me, .finishN 4 _⟩

theorem apPut_leaves (regs : List Nat) (len d : Nat) (v : State → Poi) (s : State) :
    WordLeaves (writeA d) s (apWord regs (fun s => .ok (finishN len (putA d (v s) s))) s) :=
  .apWord fun _ h => by cases h; exact .put len _

theorem execCsrr_leaves {d c : Nat} {s t : State} (h : execCsrr d c s = .next t) : WordLeaves (writeA d) s t := by
  cases h
  refine .apWord fun _ h => ?_
  split at h <;> cases h
  exact .put 4 _

theorem execCvtaTo_leaves {d a w : Nat} {s t : State} (h : execCvtaTo d a w s = .next t) : WordLeaves (writeA d) s t := by
  cases h
  refine .apWord fun _ h => ?_
  dsimp only at h
  split at h
  · cases h; exact .put 4 _
  · split at h <;> cases h
    exact .put 4 _

theorem execCvtaOf_leaves {d a w : Nat} {s t : State} (h : execCvtaOf d a w s = .next t) : WordLeaves (writeA d) s t := by
  cases h
  refine .apWord fun _ h => ?_
  dsimp only at h
  split at h
  · cases h; exact .put 4 _
  · split at h <;> cases h
    exact .put 4 _

theorem execIsap_leaves {p a w : Nat} {s t : State} (h : execIsap p a w s = .next t) : WordLeaves (fun v k => k.setPred p v) s t := by
  cases h
  refine .apWord fun _ h => ?_
  split at h <;> cases h
  exact .put 4 _

/-- A register is written and the side goes to another address (R85, R86). -/
theorem WordLeaves.putJump {d : Nat} {s : State} (v : Poi) (t : Addr) : WordLeaves (writeA d) s (jump t (putA d v s)) :=
  .inr ⟨v, .jump t _⟩

theorem execJr_leaves {d a : Nat} {s t : State} (h : execJr d a s = .next t) : WordLeaves (writeA d) s t := by
  cases h
  refine .apWord fun _ h => ?_
  split at h
  · cases h
  · split at h <;> cases h
    exact .putJump _ _

theorem execCall_leaves {o : BitVec 18} {s t : State} (h : execCall o s = .next t) : WordLeaves (writeA 31) s t := by
  cases h
  exact .apWord fun _ h => by cases h; exact .putJump _ _

/-- A taken branch or the word's completion. -/
theorem branchOr_leaves {α : Type} {w : α → Core → Core} (p : Prop) [Decidable p] (a : Addr) (s : State) :
    WordLeaves w s (if p then branch a s else finish s) := by
  split
  exacts [.inl (.branch a s), .inl (.finishN 4 s)]

theorem orBranch_leaves {α : Type} {w : α → Core → Core} (p : Prop) [Decidable p] (a : Addr) (s : State) :
    WordLeaves w s (if p then finish s else branch a s) := by
  split
  exacts [.inl (.finishN 4 s), .inl (.branch a s)]

theorem execLoop_leaves {α : Type} {w : α → Core → Core} {c : Nat} {o : BitVec 18} {s t : State} (h : execLoop c o s = .next t) :
    WordLeaves w s t := by
  cases h
  refine .apWord fun _ h => ?_
  split at h
  · cases h
  · exact .inl (.openLoop h)

theorem execChk_leaves {α : Type} {w : α → Core → Core} {a : Nat} {s t : State} (h : execChk a s = .next t) : WordLeaves w s t := by
  cases h
  refine .apWord fun _ h => ?_
  split at h <;> cases h
  exact .inl (.finishN 4 s)

/-! ### The words of the XP -/

/-- A write of an x register, as the words of the XP make it. -/
abbrev writeX (d : Nat) (v : Addr) (k : Core) : Core := k.setXreg d v

/-- A write of an x register with flags raised. -/
abbrev writeXFlags (d : Nat) (v : Addr × BitVec 6) (k : Core) : Core :=
  { k.setXreg d v.1 with flags := (k.setXreg d v.1).flags ||| v.2 }

theorem xpAlu_leaves (srcs : List Nat) (d : Nat) (f : Core → Addr) (s : State) : WordLeaves (writeX d) s (xpAlu srcs d f s) :=
  .xpWord fun _ h => by cases h; exact .put 4 _

theorem xpPut_leaves (srcs dsts : List Nat) (len d : Nat) (v : State → Addr) (s : State) :
    WordLeaves (writeX d) s (xpWord srcs dsts (fun s => .ok (finishN len (putX d (v s) s))) s) :=
  .xpWord fun _ h => by cases h; exact .put len _

theorem execXpCsrr_leaves {d c : Nat} {s t : State} (h : execXpCsrr d c s = .next t) : WordLeaves (writeX d) s t := by
  cases h
  split
  · exact .inl (.takeTrap _ s)
  · refine .xpWord fun _ h => ?_
    split at h <;> cases h
    exacts [.inl (.refl s), .put 4 _]

theorem execXpB_leaves {α : Type} {w : α → Core → Core} {o : BitVec 18} {s t : State} (h : execXpB o s = .next t) :
    WordLeaves w s t := by
  cases h
  exact .xpWord fun _ h => by cases h; exact .inl (.branch _ s)

theorem execXpBp_leaves {α : Type} {w : α → Core → Core} {c : Nat} {o : BitVec 18} {s t : State} (h : execXpBp c o s = .next t) :
    WordLeaves w s t := by
  cases h
  exact .xpWord fun _ h => by cases h; exact branchOr_leaves _ _ s

theorem execXpLoop_leaves {α : Type} {w : α → Core → Core} {c : Nat} {o : BitVec 18} {s t : State}
    (h : execXpLoop c o s = .next t) : WordLeaves w s t := by
  cases h
  exact .xpChecked fun _ h => .inl (.openLoop h)

theorem execXfence_leaves {α : Type} {w : α → Core → Core} {s t : State} (h : execXfence s = .next t) : WordLeaves w s t := by
  cases h
  refine .xpWord fun _ h => ?_
  split at h <;> cases h
  exacts [.inl (.finishN 4 s), .inl (.refl s)]

theorem xpFloat_leaves (srcs : List Nat) (d : Nat) (f : Core → FRes) (s : State) :
    WordLeaves (writeXFlags d) s (xpFloat srcs d f s) :=
  .xpWord fun _ h => by
    cases h
    rw [raiseFlags, putX, State.modMe_modMe]
    exact .put 4 (BitVec.ofNat 64 (f s.me).v, BitVec.ofNat 6 (f s.me).fl)

/-- What a register word leaves of the part, read off its outcomes. -/
theorem WordLeaves.rest {α : Type} {w : α → Core → Core} {s t : State} (h : WordLeaves w s t) :
    { t with cores := s.cores, acted := s.acted } = s ∧ ∀ c, c ≠ s.cur.core → t.core c = s.core c := by
  obtain h | ⟨v, h⟩ := h
  · exact ⟨h.rest, h.cores⟩
  · exact ⟨congrArg (fun u : State => { u with cores := s.cores, acted := s.acted }) h.rest,
      fun c hc => (h.cores c hc).trans (State.core_modCore_ne s _ c _ hc)⟩

theorem WordLeaves.cur {α : Type} {w : α → Core → Core} {s t : State} (h : WordLeaves w s t) : t.cur = s.cur := by
  have := congrArg State.cur h.rest.1
  exact this

/-- What a register word leaves of the moving core: a control step from the core with the register written or not. -/
theorem WordLeaves.me {α : Type} {w : α → Core → Core} {s t : State} (h : WordLeaves w s t) :
    ControlStep s.cur.side s.me t.me ∨ ∃ v, ControlStep s.cur.side (w v s.me) t.me := by
  obtain h | ⟨v, h⟩ := h
  · exact .inl h.me
  · exact .inr ⟨v, by simpa using h.me⟩

/-- A core whose registers alone are written. -/
structure RegsOnly (k k' : Core) : Prop where
  eq : { k' with aregs := k.aregs, preds := k.preds, xregs := k.xregs, flags := k.flags } = k

theorem RegsOnly.side {k k' : Core} (h : RegsOnly k k') (sd : Side) : k'.side sd = k.side sd := by
  have := congrArg (Core.side · sd) h.eq
  cases sd <;> exact this

/-- A register written before a control step does not show in what the step keeps. -/
theorem ControlKept.of_regs {sd : Side} {k k₀ k' : Core} (hr : RegsOnly k k₀) (h : ControlKept sd k₀ k') : ControlKept sd k k' := by
  have hs := hr.side sd
  have hp := congrArg Core.pending hr.eq
  have hh := congrArg Core.held hr.eq
  have hv := congrArg Core.vt hr.eq
  have hg := congrArg Core.g hr.eq
  refine ⟨fun a b => ?_, fun a => ?_, hs ▸ h.side⟩
  · obtain ⟨h1, h2, h3, h4⟩ := h.quiet (hs ▸ a) b
    exact ⟨hs ▸ h1, hs ▸ h2, h3.trans hp, h4.trans hh⟩
  · obtain ⟨h1, h2⟩ := h.pass (hs ▸ a)
    exact ⟨h1.trans hv, h2.trans hg⟩

theorem WordLeaves.kept {α : Type} {w : α → Core → Core} {s t : State} (hw : ∀ v, RegsOnly s.me (w v s.me)) (h : WordLeaves w s t) :
    ControlKept s.cur.side s.me t.me := by
  obtain h | ⟨v, h⟩ := h.me
  exacts [h.toControlKept, h.toControlKept.of_regs (hw v)]

/-- A property of the registers that each write of a word gives holds of what the word leaves. -/
theorem WordLeaves.regs {α : Type} {w : α → Core → Core} {s t : State} {P : Core → Prop} (h : WordLeaves w s t)
    (hP : ∀ k k', ControlStep s.cur.side k k' → P k → P k') (h0 : P s.me) (hw : ∀ v, P (w v s.me)) : P t.me := by
  obtain h | ⟨v, h⟩ := h.me
  exacts [hP _ _ h h0, hP _ _ h (hw v)]

theorem ControlStep.aregs {sd : Side} {k k' : Core} (h : ControlStep sd k k') : k'.aregs = k.aregs := by
  have := congrArg Core.aregs h.core
  rwa [Core.modSide_aregs] at this

theorem ControlStep.preds {sd : Side} {k k' : Core} (h : ControlStep sd k k') : k'.preds = k.preds := by
  have := congrArg Core.preds h.core
  rwa [Core.modSide_preds] at this

theorem ControlStep.xregs {sd : Side} {k k' : Core} (h : ControlStep sd k k') : k'.xregs = k.xregs := by
  have := congrArg Core.xregs h.core
  rwa [Core.modSide_xregs] at this

theorem ControlStep.flags {sd : Side} {k k' : Core} (h : ControlStep sd k k') : k'.flags = k.flags := by
  have := congrArg Core.flags h.core
  rwa [Core.modSide_flags] at this

theorem regsOnly_writeA (d : Nat) (v : Poi) (k : Core) : RegsOnly k (writeA d v k) := by
  constructor; unfold writeA Core.setAreg; split <;> rfl

theorem regsOnly_setPred (p : Nat) (v : Bool) (k : Core) : RegsOnly k (k.setPred p v) := by
  constructor; unfold Core.setPred; split <;> rfl

theorem regsOnly_writeX (d : Nat) (v : Addr) (k : Core) : RegsOnly k (writeX d v k) := by
  constructor; unfold writeX Core.setXreg; split <;> rfl

theorem regsOnly_writeXFlags (d : Nat) (v : Addr × BitVec 6) (k : Core) : RegsOnly k (writeXFlags d v k) := by
  constructor; unfold writeXFlags Core.setXreg; split <;> rfl

/-- Two states of a core that differ in what a word of the AP may change. -/
def apKeeps (k k' : Core) : Prop :=
  { k' with ap := k.ap, aregs := k.aregs, preds := k.preds, vt := k.vt, g := k.g, pending := k.pending, held := k.held } = k

/-- Two states of a core that differ in what a word of the XP may change. -/
def xpKeeps (k k' : Core) : Prop :=
  { k' with xp := k.xp, xregs := k.xregs, vt := k.vt, g := k.g, pending := k.pending, held := k.held } = k

/-- Two states of a core that differ in what a float word of the XP may change. -/
def xpFloatKeeps (k k' : Core) : Prop :=
  { k' with xp := k.xp, xregs := k.xregs, vt := k.vt, g := k.g, pending := k.pending, held := k.held, flags := k.flags } = k

theorem apKeeps.step {k k₁ k₂ : Core} (h : ControlStep .ap k₁ k₂) (hk : apKeeps k k₁) : apKeeps k k₂ := by
  have := congrArg (fun x : Core => { x with ap := k.ap, aregs := k.aregs, preds := k.preds, vt := k.vt, g := k.g,
                                             pending := k.pending, held := k.held }) h.core
  exact this.trans hk

theorem xpKeeps.step {k k₁ k₂ : Core} (h : ControlStep .xp k₁ k₂) (hk : xpKeeps k k₁) : xpKeeps k k₂ := by
  have := congrArg (fun x : Core => { x with xp := k.xp, xregs := k.xregs, vt := k.vt, g := k.g, pending := k.pending,
                                             held := k.held }) h.core
  exact this.trans hk

theorem xpFloatKeeps.step {k k₁ k₂ : Core} (h : ControlStep .xp k₁ k₂) (hk : xpFloatKeeps k k₁) : xpFloatKeeps k k₂ := by
  have := congrArg (fun x : Core => { x with xp := k.xp, xregs := k.xregs, vt := k.vt, g := k.g, pending := k.pending,
                                             held := k.held, flags := k.flags }) h.core
  exact this.trans hk

theorem apKeeps_writeA (d : Nat) (v : Poi) (k : Core) : apKeeps k (writeA d v k) := by
  unfold apKeeps writeA Core.setAreg; split <;> rfl

theorem apKeeps_setPred (p : Nat) (v : Bool) (k : Core) : apKeeps k (k.setPred p v) := by
  unfold apKeeps Core.setPred; split <;> rfl

theorem xpKeeps_writeX (d : Nat) (v : Addr) (k : Core) : xpKeeps k (writeX d v k) := by
  unfold xpKeeps writeX Core.setXreg; split <;> rfl

theorem xpFloatKeeps_writeXFlags (d : Nat) (v : Addr × BitVec 6) (k : Core) : xpFloatKeeps k (writeXFlags d v k) := by
  unfold xpFloatKeeps writeXFlags Core.setXreg; split <;> rfl

/-- A predicate written leaves the others. -/
theorem Core.pred_setPred_ne (k : Core) (v : Bool) {p q : Nat} (h : q ≠ p) (hq : q < 8) : (k.setPred p v).pred q = k.pred q := by
  have bit : (1#8 <<< p).getLsbD q = false := by
    rw [BitVec.getLsbD_shiftLeft, BitVec.getLsbD_one]
    simp; omega
  unfold Core.setPred
  split
  · rfl
  · cases v <;> simp only [Core.pred, BitVec.getLsbD_or, BitVec.getLsbD_and, BitVec.getLsbD_not, bit, hq, Bool.or_false,
      Bool.not_false, Bool.and_true, decide_true, if_true, if_false, reduceCtorEq]

theorem Core.areg_setAreg_ne (k : Core) (v : Poi) {d e : Nat} (h : e ≠ d) : (k.setAreg d v).areg e = k.areg e := by
  unfold Core.setAreg
  split
  · rfl
  · rw [Core.areg, tget_tset_other _ _ _ _ _ h]; rfl

theorem Core.xreg_setXreg_ne (k : Core) (v : Addr) {d e : Nat} (h : e ≠ d) : (k.setXreg d v).xreg e = k.xreg e := by
  unfold Core.setXreg
  split
  · rfl
  · rw [Core.xreg, tget_tset_other _ _ _ _ _ h]; rfl

end Sys2Proof.Machine

namespace Sys2Proof
open Sys2Proof.Machine

/-- Settles O59: each word waits, takes a fault, or writes its register and moves its side on (WordLeaves). -/
theorem registerWordsKeepTheRest : Obligations.RegisterWordsKeepTheRest := by
  unfold Obligations.RegisterWordsKeepTheRest
  intro others sideKeeps calm s t d a b p q r n w c i j o heng
  have kept : ∀ {α : Type} {w : α → Core → Core}, (∀ v, RegsOnly s.me (w v s.me)) → WordLeaves w s t → others s t ∧ calm s t := by
    intro α w hw h
    have hk := h.kept hw
    have hside : t.mySide = t.me.side s.cur.side := congrArg (fun x : Cur => t.me.side x.side) h.cur
    exact ⟨h.rest, fun h1 h2 => by rw [hside] at h2 ⊢; exact hk.quiet h1 h2, hk.pass⟩
  refine ⟨fun hside => ?_, fun hside => ?_⟩
  · intro rest
    have keeps : ∀ {α : Type} {w : α → Core → Core}, (∀ v, RegsOnly s.me (w v s.me)) → (∀ v, apKeeps s.me (w v s.me)) →
        WordLeaves w s t → rest := by
      intro α w hw hk h
      obtain ⟨ho, hc⟩ := kept hw h
      have hs := (h.kept hw).side
      rw [hside] at hs
      exact ⟨ho, hc, hs, h.regs (P := apKeeps s.me) (fun _ _ h => apKeeps.step (hside ▸ h)) rfl hk⟩
    have areg : ∀ {u : State} {d : Nat}, WordLeaves (writeA d) s u → (.next u : Res) = .next t →
        rest ∧ (∀ k, k ≠ d → t.me.areg k = s.me.areg k) ∧ t.me.preds = s.me.preds := by
      rintro u d h ⟨⟩
      refine ⟨keeps (regsOnly_writeA d · _) (apKeeps_writeA d · _) h, fun k hk => ?_, ?_⟩
      · exact h.regs (P := fun x => x.areg k = s.me.areg k) (fun _ _ h hx => by rw [Core.areg, h.aregs]; exact hx) rfl
          fun v => Core.areg_setAreg_ne _ v hk
      · exact h.regs (P := fun x => x.preds = s.me.preds) (fun _ _ h hx => h.preds.trans hx) rfl fun v => Core.setAreg_preds ..
    have pred : ∀ {u : State} {p : Nat}, WordLeaves (fun v k => k.setPred p v) s u → (.next u : Res) = .next t →
        rest ∧ t.me.aregs = s.me.aregs ∧ ∀ k, k ≠ p → k < 8 → p < 8 → t.me.pred k = s.me.pred k := by
      rintro u p h ⟨⟩
      refine ⟨keeps (regsOnly_setPred p · _) (apKeeps_setPred p · _) h, ?_, fun k hk hk8 _ => ?_⟩
      · exact h.regs (P := fun x => x.aregs = s.me.aregs) (fun _ _ h hx => h.aregs.trans hx) rfl
          fun v => Core.setPred_aregs _ _ _
      · exact h.regs (P := fun x => x.pred k = s.me.pred k) (fun _ _ h hx => by rw [Core.pred, h.preds]; exact hx) rfl
          fun v => Core.pred_setPred_ne _ v hk hk8
    have control : ∀ {u : State}, WordLeaves (fun (_ : Unit) k => k) s u → (.next u : Res) = .next t →
        rest ∧ t.me.aregs = s.me.aregs ∧ t.me.preds = s.me.preds := by
      rintro u h ⟨⟩
      exact ⟨keeps (fun _ => ⟨rfl⟩) (fun _ => by exact rfl) h, h.regs (P := fun x => x.aregs = s.me.aregs) (fun _ _ h hx => h.aregs.trans hx) rfl
        fun _ => rfl, h.regs (P := fun x => x.preds = s.me.preds) (fun _ _ h hx => h.preds.trans hx) rfl fun _ => rfl⟩
    simp only [List.forall_mem_cons]
    refine ⟨?_, ?_, ?_, fun h => areg (execCall_leaves h) rfl⟩
    · have three := fun f a b => areg (alu3_leaves f d a b s)
      have two := fun f a => areg (alu2_leaves f d a s)
      exact ⟨three _ _ _, three _ _ _, three _ _ _, three _ _ _, three _ _ _, three _ _ _, three _ _ _, three _ _ _, three _ _ _,
        three _ _ _, three _ _ _, three _ _ _, three _ _ _, three _ _ _, three _ _ _, three _ _ _, three _ _ _, three _ _ _,
        three _ _ _, three _ _ _, three _ _ _, two _ _, two _ _, two _ _, two _ _, two _ _, two _ _, two _ _, two _ _, two _ _,
        two _ _, two _ _, areg (apPut_leaves [d] 4 d (fun _ => ⟨sx i, false⟩) s), areg (apPut_leaves [d] 8 d (fun _ => ⟨sx j, false⟩) s),
        areg (apPut_leaves [d, a] 8 d (fun s => ⟨(s.me.areg a).val + sx j, (s.me.areg a).bad⟩) s),
        fun h => areg (execCsrr_leaves h) rfl, fun h => areg (execCvtaTo_leaves h) rfl, fun h => areg (execCvtaOf_leaves h) rfl,
        fun h => areg (execJr_leaves h) rfl, by simp⟩
    · have cmp := fun c srcs x y => pred (cmpWord_leaves c p srcs x y s)
      have bits := fun f => pred (predWord_leaves f p s)
      exact ⟨cmp _ _ _ _, cmp _ _ _ _, cmp _ _ _ _, cmp _ _ _ _, cmp _ _ _ _, cmp _ _ _ _, cmp _ _ _ _, bits _, bits _, bits _, bits _,
        fun h => pred (execIsap_leaves h) rfl, by simp⟩
    · exact ⟨control (.inl (.branch _ s)), control (branchOr_leaves _ _ s), control (orBranch_leaves _ _ s),
        fun h => control (execLoop_leaves h) rfl, fun h => control (execChk_leaves h) rfl, by simp⟩
  · intro rest
    have keeps : ∀ {α : Type} {w : α → Core → Core}, (∀ v, RegsOnly s.me (w v s.me)) → WordLeaves w s t → rest := by
      intro α w hw h
      obtain ⟨ho, hc⟩ := kept hw h
      have hs := (h.kept hw).side
      rw [hside] at hs
      exact ⟨ho, hc, hs⟩
    have xreg : ∀ {u : State} {d : Nat}, WordLeaves (writeX d) s u → (.next u : Res) = .next t →
        rest ∧ (∀ k, k ≠ d → t.me.xreg k = s.me.xreg k) ∧ xpKeeps s.me t.me := by
      rintro u d h ⟨⟩
      exact ⟨keeps (regsOnly_writeX d · _) h, fun k hk => h.regs (P := fun x => x.xreg k = s.me.xreg k)
        (fun _ _ h hx => by rw [Core.xreg, h.xregs]; exact hx) rfl fun v => Core.xreg_setXreg_ne _ v hk,
        h.regs (P := xpKeeps s.me) (fun _ _ h => xpKeeps.step (hside ▸ h)) rfl (xpKeeps_writeX d · _)⟩
    have float : ∀ {u : State} {d : Nat}, WordLeaves (writeXFlags d) s u → (.next u : Res) = .next t →
        rest ∧ (∀ k, k ≠ d → t.me.xreg k = s.me.xreg k) ∧
          (∀ k, s.me.flags.getLsbD k = true → t.me.flags.getLsbD k = true) ∧ xpFloatKeeps s.me t.me := by
      rintro u d h ⟨⟩
      exact ⟨keeps (regsOnly_writeXFlags d · _) h, fun k hk => h.regs (P := fun x => x.xreg k = s.me.xreg k)
        (fun _ _ h hx => by rw [Core.xreg, h.xregs]; exact hx) rfl fun v => Core.xreg_setXreg_ne _ v.1 hk,
        fun k hk => h.regs (P := fun x => x.flags.getLsbD k = true) (fun _ _ h hx => by rw [h.flags]; exact hx) hk
          fun v => by simp [hk],
        h.regs (P := xpFloatKeeps s.me) (fun _ _ h => xpFloatKeeps.step (hside ▸ h)) rfl (xpFloatKeeps_writeXFlags d · _)⟩
    simp only [List.forall_mem_cons]
    have alu := fun srcs f => xreg (xpAlu_leaves srcs d f s)
    refine ⟨⟨alu _ _, alu _ _, alu _ _, alu _ _, alu _ _, alu _ _, alu _ _, alu _ _, alu _ _, alu _ _, alu _ _, alu _ _, alu _ _,
      fun h => xreg (execXpCsrr_leaves h) rfl, alu _ _, alu _ _, xreg (xpPut_leaves [] [d] 8 d (fun _ => sx j) s),
      xreg (xpPut_leaves [a] [d] 8 d (fun s => s.me.xreg a + sx j) s), fun h => xreg (execXpB_leaves h) rfl,
      fun h => xreg (execXpBp_leaves h) rfl, fun h => xreg (execXpLoop_leaves h) rfl, fun h => xreg (execXfence_leaves h) rfl, by simp⟩,
      float (xpFloat_leaves _ d _ s), float (xpFloat_leaves _ d _ s), float (xpFloat_leaves _ d _ s), by simp⟩

end Sys2Proof

namespace Sys2Proof.Machine

/-! ### Bytes and their numbers (R5) -/

theorem natBytes_bytesNat (l : List Byte) : natBytes l.length (bytesNat l) = l := by
  induction l with
  | nil => rfl
  | cons b r ih =>
    have hb : BitVec.ofNat 8 (b.toNat + 256 * bytesNat r) = b :=
      BitVec.eq_of_toNat_eq (by rw [BitVec.toNat_ofNat]; have := b.isLt; omega)
    have hr : (b.toNat + 256 * bytesNat r) / 256 = bytesNat r := by have := b.isLt; omega
    show BitVec.ofNat 8 (b.toNat + 256 * bytesNat r) :: natBytes r.length ((b.toNat + 256 * bytesNat r) / 256) = b :: r
    rw [hb, hr, ih]

theorem bytesNat_lt (l : List Byte) : bytesNat l < 2 ^ (8 * l.length) := by
  induction l with
  | nil => exact Nat.one_pos
  | cons b r ih =>
    have hb := b.isLt
    have hc : bytesNat (b :: r) = b.toNat + 256 * bytesNat r := rfl
    rw [hc, List.length_cons, Nat.mul_succ, Nat.pow_add]
    omega

/-- A list of bytes is read back from the bit vector of its number. -/
theorem bvBytes_bytesNat {n w : Nat} {l : List Byte} (h : l.length = n) (hw : w = 8 * n) :
    bvBytes n (BitVec.ofNat w (bytesNat l)) = l := by
  subst h hw
  rw [bvBytes, BitVec.toNat_ofNat, Nat.mod_eq_of_lt (bytesNat_lt l), natBytes_bytesNat]

theorem natBytes_eq_leBytes (n v : Nat) : natBytes n v = leBytes n v := by
  induction n generalizing v with
  | zero => rfl
  | succ n ih => rw [natBytes, leBytes, ih]

theorem length_natBytes (n v : Nat) : (natBytes n v).length = n := by
  induction n generalizing v with
  | zero => rfl
  | succ n ih => rw [natBytes, List.length_cons, ih]

theorem length_bvBytes {w : Nat} (n : Nat) (v : BitVec w) : (bvBytes n v).length = n := length_natBytes _ _

/-- Bytes of a list by their positions. -/
theorem take_drop_eq_map {l : List Byte} {k n : Nat} (h : k + n ≤ l.length) :
    (l.drop k).take n = (List.range n).map (fun i => l.getD (k + i) 0) := by
  refine List.ext_getElem (by simp; omega) fun i h1 h2 => ?_
  have hi : i < n := by simpa using h2
  simp [List.getElem_take, List.getElem_drop, List.getD_eq_getElem?_getD, List.getElem?_eq_getElem (show k + i < l.length by omega)]

/-! ### Relaxed reads of bytes of one line (R272) -/

/-- A byte of a copy of a line. -/
def RlcLine.byte (l : RlcLine) (k : Nat) : Byte := (bvBytes 64 l.data).getD k 0

/-- The bytes that a copy of a line gives of an access within it. -/
theorem RlcLine.got_bytes (l : RlcLine) {va n : Nat} (h : va % 64 + n ≤ 64) :
    (l.got va n).bytes = (List.range n).map (fun i => l.byte (va % 64 + i)) :=
  take_drop_eq_map (by rw [length_bvBytes]; exact h)

theorem homeLine_byte (s : State) (ctx line : Nat) {k : Nat} (hk : k < 64) :
    (homeLine s ctx line).byte k = memGet s.mem (globKey ctx (line * 64) + k) := by
  have hl : (memRead s.mem (globKey ctx (line * 64)) 64).length = 64 := by simp [memRead]
  have hb : bvBytes 64 (homeLine s ctx line).data = memRead s.mem (globKey ctx (line * 64)) 64 := bvBytes_bytesNat hl rfl
  rw [RlcLine.byte, hb, memRead]
  simp [List.getD_eq_getElem?_getD, hk]

theorem globKey_line (ctx va : Nat) : globKey ctx (va / 64 * 64) + va % 64 = globKey ctx va := by
  unfold globKey; omega

/-- The copy that a party of a die reads a global address from, when its die's cache holds one. -/
def cachedLine (s : State) (die ctx va : Nat) : Option RlcLine :=
  if s.homeDie (.glob ctx va) ≠ die ∧ s.cacheable (.glob ctx va) = true then (s.die die).line ctx (va / 64) else none

/-- An access by a party of a die to a global address that misses its cache and that a failing link carries is lost (R314). -/
def crossesLost (s : State) (die ctx va : Nat) : Prop := s.homeDie (.glob ctx va) ≠ die ∧ s.cur.link.isSome = true

theorem readRelaxed_cached {s : State} {die ctx va n : Nat} {l : RlcLine} (h : cachedLine s die ctx va = some l) :
    readRelaxed s die ctx va n = (s, l.got va n) := by
  unfold cachedLine at h
  split at h
  next hc => simp only [readRelaxed, if_pos hc, h]
  next => cases h

theorem readRelaxed_lost {s : State} {die ctx va n : Nat} (h : cachedLine s die ctx va = none) (hl : crossesLost s die ctx va) :
    readRelaxed s die ctx va n = (sawLost s, lostRead (globKey ctx va) n) := by
  unfold cachedLine at h
  split at h
  next hc => simp only [readRelaxed, if_pos hc, h, hl.2, if_true]
  next hc => simp only [readRelaxed, if_neg hc]; exact if_pos hl

theorem readRelaxed_home {s : State} {die ctx va n : Nat} (h : cachedLine s die ctx va = none) (hl : ¬ crossesLost s die ctx va)
    (hn : va % 64 + n ≤ 64) : (readRelaxed s die ctx va n).2.bytes = memRead s.mem (globKey ctx va) n := by
  unfold cachedLine at h
  split at h
  next hc =>
    have hl : ¬ s.cur.link.isSome = true := fun h => hl ⟨hc.1, h⟩
    simp only [readRelaxed, if_pos hc, h]
    rw [if_neg hl]
    refine (RlcLine.got_bytes _ hn).trans ?_
    refine List.map_congr_left fun i hi => ?_
    have hi := List.mem_range.1 hi
    rw [homeLine_byte _ _ _ (by omega), ← Nat.add_assoc, globKey_line]
  next hc => simp only [readRelaxed, if_neg hc]; exact congrArg (fun x : State × Got => x.2.bytes) (if_neg hl)

/-- Reading bytes of one line is one access. -/
theorem readLines_line {fuel va n : Nat} (s : State) (die ctx : Nat) (sv : Serve) (hn : n ≠ 0) (h : va % 64 + n ≤ 64) :
    readLines (fuel + 1) s die ctx va n sv = readLine s die ctx va n sv := by
  have hm : inLine va n = n := Nat.min_eq_left (by omega)
  have hz : ∀ t v, readLines fuel t die ctx v 0 sv = (t, ⟨[], false⟩) := by cases fuel <;> simp [readLines]
  simp [readLines, hn, hm, hz]

theorem readPlace_byte (s : State) (die ctx va : Nat) : readPlace s die (.glob ctx va) 1 .relaxed = readRelaxed s die ctx va 1 :=
  readLines_line (fuel := 1) s die ctx .relaxed one_ne_zero (by omega)

theorem peek_cached {s : State} {die ctx va : Nat} {l : RlcLine} (h : cachedLine s die ctx va = some l) :
    peek s die (.glob ctx va) = l.byte (va % 64) := by
  rw [peek, readPlace_byte, readRelaxed_cached h]
  simp only
  rw [l.got_bytes (by omega)]; rfl

theorem peek_lost {s : State} {die ctx va : Nat} (h : cachedLine s die ctx va = none) (hl : crossesLost s die ctx va) :
    peek s die (.glob ctx va) = Config.lostByte (globKey ctx va) := by
  simp [peek, readPlace_byte, readRelaxed_lost h hl, lostRead]

theorem peek_home {s : State} {die ctx va : Nat} (h : cachedLine s die ctx va = none) (hl : ¬ crossesLost s die ctx va) :
    peek s die (.glob ctx va) = memGet s.mem (globKey ctx va) := by
  rw [peek, readPlace_byte, readRelaxed_home h hl (by omega)]
  simp [memRead]

/-! ### An aligned word lies in one line, one page of the spread and one region -/

section

variable {va i : Nat} (ha : va % 4 = 0) (hi : i < 4)
include ha hi

theorem line_in_word : (va + i) / 64 = va / 64 := by omega

theorem offset_in_word : (va + i) % 64 = va % 64 + i := by omega

theorem region_in_word (s : State) (ctx : Nat) : s.region ctx (va + i) = s.region ctx va := by
  rw [State.region, State.region, show (va + i) / 2 ^ 21 = va / 2 ^ 21 by omega]

theorem homeDie_in_word (s : State) (ctx : Nat) : s.homeDie (.glob ctx (va + i)) = s.homeDie (.glob ctx va) := by
  simp only [State.homeDie, State.channelOf, State.spreadOf, region_in_word ha hi, homeChannel,
    show (va + i) / 2 ^ 21 = va / 2 ^ 21 by omega, show (va + i) % 2 ^ 21 / 2 ^ 12 = va % 2 ^ 21 / 2 ^ 12 by omega]

theorem cacheable_in_word (s : State) (ctx : Nat) : s.cacheable (.glob ctx (va + i)) = s.cacheable (.glob ctx va) := by
  simp only [State.cacheable, region_in_word ha hi, show (va + i < 2 ^ 48) = (va < 2 ^ 48) from propext (by omega)]

end

/-- A word that is read unpoisoned gives the four bytes that its die sees (R272). -/
theorem readRelaxed_word {s : State} {die ctx va : Nat} (ha : va % 4 = 0) (hp : (readRelaxed s die ctx va 4).2.poison = false) :
    (readRelaxed s die ctx va 4).2.bytes = (List.range 4).map (fun i => peek s die (.glob ctx (va + i))) := by
  have hcached : ∀ i, i < 4 → cachedLine s die ctx (va + i) = cachedLine s die ctx va := fun i hi => by
    simp only [cachedLine, homeDie_in_word ha hi, cacheable_in_word ha hi, line_in_word ha hi]
  have hlost : ∀ i, i < 4 → (crossesLost s die ctx (va + i) ↔ crossesLost s die ctx va) := fun i hi => by
    simp only [crossesLost, homeDie_in_word ha hi]
  cases hc : cachedLine s die ctx va with
  | some l =>
    rw [readRelaxed_cached hc, l.got_bytes (by omega)]
    refine List.map_congr_left fun i hi => ?_
    have hi := List.mem_range.1 hi
    rw [peek_cached ((hcached i hi).trans hc), offset_in_word ha hi]
  | none =>
    by_cases hl : crossesLost s die ctx va
    · rw [readRelaxed_lost hc hl] at hp; cases hp
    · rw [readRelaxed_home hc hl (by omega)]
      refine List.map_congr_left fun i hi => ?_
      have hi := List.mem_range.1 hi
      rw [peek_home ((hcached i hi).trans hc) (mt (hlost i hi).1 hl), globKey, globKey, Nat.add_assoc]

/-- A global address below a tag is the address itself (R67). -/
theorem place_glob {s : State} {c ctx va : Nat} {ea : Addr} (h : s.place c ea = some (.glob ctx va)) :
    va = ea.toNat % 2 ^ 56 := by
  simp only [State.place] at h
  split_ifs at h <;> simp only [Option.some.injEq, reduceCtorEq, Place.glob.injEq] at h
  simp [← h.2, nfld]

/-- A fetched word is the four bytes that its die sees at the pc (R7). -/
theorem fetchWord_bytes {s t : State} {c : Nat} {pc : Addr} {w : Word} (hpc : pc.toNat % 4 = 0) (h : fetchWord s c pc = .ok (t, w)) :
    leBytes 4 w.toNat = Safety.seen s c pc 4 := by
  unfold fetchWord at h
  split at h
  next ctx va hplace =>
    have ha : va % 4 = 0 := by
      rw [place_glob hplace]; omega
    split at h
    · cases h
    · have read : readPlace s (dieOf c) (.glob ctx va) 4 .relaxed = readRelaxed s (dieOf c) ctx va 4 :=
        readLines_line (fuel := 1) s (dieOf c) ctx .relaxed (by decide) (by omega)
      rw [read] at h
      dsimp only at h
      split at h
      · cases h
      next hp =>
        cases h
        have hb := readRelaxed_word (s := s) (die := dieOf c) (ctx := ctx) ha (by simpa using hp)
        have hw : leBytes 4 (BitVec.ofNat 32 (bytesNat (readRelaxed s (dieOf c) ctx va 4).2.bytes)).toNat =
            (readRelaxed s (dieOf c) ctx va 4).2.bytes := by
          rw [← natBytes_eq_leBytes]
          exact bvBytes_bytesNat (n := 4) (by rw [hb]; rfl) rfl
        rw [hw, hb, Safety.seen, hplace]; rfl
  · cases h

/-! ### The step is the decoded instruction of the unit that moves -/

/-- The long pairs are scalar words: none is steered into a queue. -/
theorem decodeLong_not_queued {w w1 : Nat} {i : Instr} (h : decodeLong w w1 = .ok i) : isQueued i.unit = false := by
  unfold decodeLong at h
  split at h <;> (try split at h) <;> cases h <;> rfl

theorem tick_hasCore (t : Turn) (s : State) (c : Nat) : (tick t s).hasCore c = s.hasCore c := rfl

/-- The step of a turn of a side. -/
theorem step_side {s s1 : State} {t : Turn} {c : Nat} {sd : Side} (hn : nextTurn s = (t, s1)) (ha : t.act = .side c sd)
    (hc : s1.hasCore c = true) : step s = runTodo (sideTurn c sd t (tick t s1)) := by
  simp only [step, hn, ha, tick_hasCore, hc, if_true]

/-- The step of a turn of an engine. -/
theorem step_eng {s s1 : State} {t : Turn} {c : Nat} {e : Eng} (hn : nextTurn s = (t, s1)) (ha : t.act = .eng c e)
    (hc : s1.hasCore c = true) : step s = runTodo (engTurn c e t (tick t s1)) := by
  simp only [step, hn, ha, tick_hasCore, hc, if_true]

/-- A side that fetches takes the word at its pc. -/
theorem sideTurn_fetches {c : Nat} {sd : Side} {t : Turn} {u : State} (h : Safety.fetches c sd (Safety.sideMoves c sd t u)) :
    sideTurn c sd t u = fetchSide c sd (Safety.sideMoves c sd t u) := by
  obtain ⟨hlive, hap, hdel, hrun, haside, -⟩ := h
  have hends : ¬ (u.live c = false ∨ (sd = .ap ∧ apAwaitsLink (Safety.sideMoves c sd t u) c = true)) := by
    rintro (h | ⟨hs, h⟩)
    · rw [show u.live c = true from hlive] at h; cases h
    · rw [hap hs] at h; cases h
  have hruns : ((u.core c).side sd).run = .run := hrun
  have hpend : ¬ (sd = .xp ∧ (u.core c).aside ≠ []) := fun h => h.2 (haside h.1)
  exact (if_neg hends).trans ((if_neg (ne_of_eq_of_ne hdel Bool.false_ne_true)).trans (by rw [hruns]; exact if_neg hpend))

/-- The word at a pc that passes the landing check is decoded, or its fetch faults. -/
theorem fetchSide_word {c : Nat} {sd : Side} {s s4 : State} {w : Word}
    (hland : ((s.core c).side sd).land = true → landsBad s c ((s.core c).side sd).pc = false)
    (hf : fetchWord (s.modSide c sd (fun x => { x with land := false })) c ((s.core c).side sd).pc = .ok (s4, w))
    (hskip : sd = .xp → stageSkips (s4.core c) ((s.core c).side sd).pc = false) :
    fetchSide c sd s =
      match decodeAt s4 c sd ((s.core c).side sd).pc w with
      | .error t => .ended (takeTrap t s4)
      | .ok (s, i) => if isQueued i.unit = true then .run (.xpSteer c) s else .run i s := by
  have hl : ¬ (((s.core c).side sd).land = true ∧ landsBad s c ((s.core c).side sd).pc = true) := fun h => by
    rw [hland h.1] at h; cases h.2
  have hs : ¬ (sd = .xp ∧ stageSkips (s4.core c) ((s.core c).side sd).pc = true) := fun h => by
    rw [hskip h.1] at h; cases h.2
  unfold fetchSide
  dsimp only
  rw [if_neg hl, hf]
  exact if_neg hs

theorem decodeAt_word {s : State} {c : Nat} {sd : Side} {pc : Addr} {w : Word} {i : Instr} (hw : fld w.toNat 29 3 ≠ 7)
    (hd : decodeWord w.toNat = .ok i) (hu : i.unit.onSide sd = true) : decodeAt s c sd pc w = .ok (s, i) := by
  simp [decodeAt, hw, hd, hu]

theorem decodeAt_long {s t : State} {c : Nat} {sd : Side} {pc : Addr} {w w1 : Word} {i : Instr} (hw : fld w.toNat 29 3 = 7)
    (hl : longOk w.toNat = true) (hf : fetchWord s c (pc + 4) = .ok (t, w1)) (hd : decodeLong w.toNat w1.toNat = .ok i)
    (hu : i.unit.onSide sd = true) : decodeAt s c sd pc w = .ok (t, i) := by
  simp only [decodeAt, hw, hl, hf, hd, hu, if_true]

/-- An engine takes up its word in progress, or the head of its queue that may start. -/
theorem engTurn_takes {c : Nat} {e : Eng} {q : QWord} {i : Instr} {t : Turn} {u : State} (hlive : u.live c = true)
    (hq : ((u.core c).slot e).map (fun w => w.q) = some q ∨
      ((u.core c).slot e = none ∧ nextQueued (u.core c) e = some q ∧ mayStart (u.core c) q = true))
    (hi : wordInstr q.word = some i) : engTurn c e t u = .run i (Safety.engMoves c e q t u) := by
  have hunits : (Safety.engMoves c e q t u).unitsLive c = true := by
    change u.unitsLive c = true
    simp only [State.live, State.unitsLive] at hlive ⊢
    split at hlive
    · simp [hlive]
    · cases hlive
  unfold Safety.engMoves at hunits ⊢
  rcases hq with hq | ⟨hnone, hnext, hmay⟩
  · cases hs : (u.core c).slot e with
    | none => rw [hs] at hq; cases hq
    | some w =>
      rw [hs] at hq; cases hq
      simp [engTurn, hs, hunits, hi]
  · simp [engTurn, hnone, hnext, hmay, hunits, hi, Option.filter]

theorem runTodo_run (i : Instr) (s : State) : runTodo (.run i s) = Safety.around i s := rfl

/-- Settles O4: the turn's unit decides which function makes the step, each with an equation of its own, and a fetched word is read byte
by byte from what its die sees. -/
theorem stepRunsTheDecodedInstruction : Obligations.StepRunsTheDecodedInstruction := by
  unfold Obligations.StepRunsTheDecodedInstruction
  refine ⟨fun s s1 t hn => ?_, fun s t c pc w hpc hf => fetchWord_bytes hpc hf⟩
  intro u
  refine ⟨?_, ?_, ?_, ?_⟩
  · intro c sd ha hc s2 hfetch s4 w hf hskip i hu
    have hstep : step s = runTodo (fetchSide c sd s2) := by rw [step_side hn ha hc, sideTurn_fetches hfetch]
    have ⟨_, _, _, _, _, hland⟩ := hfetch
    have hword := fetchSide_word hland hf hskip
    constructor
    · intro hw hd
      rw [hstep, hword, decodeAt_word hw hd hu]
      by_cases hq : isQueued i.unit = true <;> simp [hq, runTodo_run]
    · intro s5 w1 hw hl hf1 hd
      have hdec : decodeAt s4 c sd ((s2.core c).side sd).pc w = .ok (s5, i) := decodeAt_long hw hl hf1 hd hu
      rw [hstep, hword, hdec]
      simp [decodeLong_not_queued hd, runTodo_run]
  · intro c e q i ha hc hlive hq hi
    rw [step_eng hn ha hc, engTurn_takes hlive hq hi, runTodo_run]
  · intro i ha
    refine ⟨?_, ?_, ?_⟩
    · intro hu hwf hp
      simp only [step, hn, ha, hu, hwf, and_self, if_true]
      exact if_pos hp
    · intro hu hwf hp
      simp only [step, hn, ha, hu, hwf, and_self, if_true]
      exact if_neg (by rw [show unitPresent i (tick t s1) = false from hp]; decide)
    · rintro h
      simp only [step, hn, ha]
      exact if_neg (by rintro ⟨hu, hwf⟩; rcases h with h | h <;> simp_all)
  · rintro c (⟨sd, ha⟩ | ⟨e, ha⟩) hc <;> simp [step, hn, ha, tick_hasCore, hc]

end Sys2Proof.Machine

namespace Sys2Proof

/-! ### A word is made up of its fields and its fixed bits (R6, R8) -/

theorem fld_lt_of {n k : Nat} (w lo : Nat) (h : 2 ^ n ≤ k) : fld w lo n < k := (Nat.mod_lt _ (by positivity)).trans_le h

theorem bit_flag (w l : Nat) : bit (flag w l) = fld w l 1 := by
  have : fld w l 1 < 2 := fld_lt_of _ _ (by decide)
  unfold bit flag
  split <;> simp_all
  omega

theorem toNat_ofNat_fld (w l n : Nat) : (BitVec.ofNat n (fld w l n)).toNat = fld w l n := by
  rw [BitVec.toNat_ofNat, fld, Nat.mod_mod]

theorem holds_iff {w : Nat} {fs : List Field} : holds w fs ↔ ∀ f ∈ fs, fld w f.1 f.2.1 = f.2.2 := by
  induction fs with
  | nil => simp [holds]
  | cons f r ih => simp [holds, ih]

theorem small_of_holds {w : Nat} {fs : List Field} (h : holds w fs) : small fs := by
  induction fs with
  | nil => trivial
  | cons f r ih => exact ⟨h.1 ▸ fld_lt_of _ _ le_rfl, ih h.2⟩

/-- The fields of a word as they are read from it. -/
def readFields (w : Nat) (ls : List (Nat × Nat)) : List Field := ls.map fun f => (f.1, f.2, fld w f.1 f.2)

theorem holds_readFields (w : Nat) (ls : List (Nat × Nat)) : holds w (readFields w ls) :=
  holds_iff.2 fun _ h => by obtain ⟨_, -, rfl⟩ := List.mem_map.1 h; rfl

/-- The bits of the fields. -/
def cover : List Field → Nat
  | [] => 0
  | f :: r => (2 ^ f.2.1 - 1) <<< f.1 ||| cover r

theorem exists_field_of_cover {fs : List Field} {b : Nat} (h : (cover fs).testBit b = true) :
    ∃ f ∈ fs, f.1 ≤ b ∧ b < f.1 + f.2.1 := by
  induction fs with
  | nil => simp [cover] at h
  | cons f r ih =>
    simp only [cover, Nat.testBit_or, Nat.testBit_shiftLeft, Nat.testBit_two_pow_sub_one, Bool.or_eq_true, Bool.and_eq_true,
      decide_eq_true_eq] at h
    rcases h with h | h
    · exact ⟨f, List.mem_cons_self, by omega⟩
    · obtain ⟨g, hg, hb⟩ := ih h
      exact ⟨g, List.mem_cons_of_mem _ hg, hb⟩

/-- The fields as far as their places count. -/
def blankFields (ls : List (Nat × Nat)) : List Field := ls.map fun f => (f.1, f.2, 0)

theorem clearOf_readFields (w lo n : Nat) (ls : List (Nat × Nat)) : clearOf lo n (readFields w ls) = clearOf lo n (blankFields ls) := by
  induction ls with
  | nil => rfl
  | cons f r ih => exact congrArg (_ && ·) ih

theorem apart_readFields (w m : Nat) (ls : List (Nat × Nat)) : apart m (readFields w ls) = apart m (blankFields ls) := by
  induction ls with
  | nil => rfl
  | cons f r ih =>
    change (_ && clearOf f.1 f.2 (readFields w r) && apart m (readFields w r)) = _
    rw [clearOf_readFields, ih]
    rfl

theorem cover_readFields (w : Nat) (ls : List (Nat × Nat)) : cover (readFields w ls) = cover (blankFields ls) := by
  induction ls with
  | nil => rfl
  | cons f r ih => exact congrArg (_ ||| ·) ih

/-- Outside the given bits, a field's value is that of the fixed bits. -/
def agrees (m given : Nat) (f : Field) : Bool :=
  decide ((f.2.2 <<< f.1 ^^^ (m &&& (2 ^ f.2.1 - 1) <<< f.1)) ||| given = given)

/-- The fields stand apart on the fixed bits, the known fields agree with these elsewhere, and each bit of a word lies in one of either. -/
def makesUp (m : Nat) (ls : List (Nat × Nat)) (known : List Field) : Bool :=
  apart m (blankFields ls) && decide (m < 2 ^ 32) && known.all (agrees m (cover (blankFields ls))) &&
    decide (cover (blankFields ls) ||| cover known = 2 ^ 32 - 1)

theorem testBit_fld {w l n b : Nat} (hl : l ≤ b) (hn : b < l + n) : (fld w l n).testBit (b - l) = w.testBit b := by
  obtain ⟨j, rfl⟩ := Nat.exists_eq_add_of_le hl
  simp [fld, Nat.testBit_mod_two_pow, Nat.testBit_div_two_pow, Nat.add_comm, show j < n by omega]

theorem testBit_of_agrees {m given b : Nat} {f : Field} (h : agrees m given f = true) (hg : given.testBit b = false) (hl : f.1 ≤ b)
    (hn : b < f.1 + f.2.1) : f.2.2.testBit (b - f.1) = m.testBit b := by
  have hb := congrArg (·.testBit b) (of_decide_eq_true h)
  have hj : b - f.1 < f.2.1 := by omega
  simpa [Nat.testBit_or, Nat.testBit_xor, Nat.testBit_and, Nat.testBit_shiftLeft, Nat.testBit_two_pow_sub_one, hg, hl, hj] using hb

theorem clearOf_of_cover {fs : List Field} {b : Nat} (h : (cover fs).testBit b = false) : clearOf b 1 fs = true := by
  induction fs with
  | nil => rfl
  | cons f r ih =>
    obtain ⟨l, k, v⟩ := f
    simp only [cover, Nat.testBit_or, Nat.testBit_shiftLeft, Nat.testBit_two_pow_sub_one, Bool.or_eq_false_iff, Bool.and_eq_false_iff,
      decide_eq_false_iff_not] at h
    simp only [clearOf, Bool.and_eq_true, decide_eq_true_eq]
    exact ⟨by omega, ih h.2⟩

/-- A word whose known fields and read fields make up its 32 bits is the sum of the fixed bits and the read fields. -/
theorem word_readFields {w m : Nat} {known : List Field} {ls : List (Nat × Nat)} (hw : w < 2 ^ 32) (hk : holds w known)
    (h : makesUp m ls known = true) : word m (readFields w ls) = w := by
  simp only [makesUp, ← apart_readFields w, ← cover_readFields w, Bool.and_eq_true, decide_eq_true_eq, List.all_eq_true] at h
  obtain ⟨⟨⟨ha, hm⟩, hkn⟩, hcov⟩ := h
  have hfs := holds_readFields w ls
  obtain ⟨hclear, hh, hlt⟩ := word_spec ha (small_of_holds hfs)
  refine Nat.eq_of_testBit_eq fun b => ?_
  by_cases hb : b < 32
  · cases hg : (cover (readFields w ls)).testBit b with
    | true =>
      obtain ⟨f, hf, hl, hn⟩ := exists_field_of_cover hg
      rw [← testBit_fld hl hn, ← testBit_fld (w := w) hl hn, holds_iff.1 hh f hf, holds_iff.1 hfs f hf]
    | false =>
      have hc : (cover known).testBit b = true := by
        have hs : (cover (readFields w ls) ||| cover known).testBit b = true := by
          rw [hcov, Nat.testBit_two_pow_sub_one]
          exact decide_eq_true hb
        simpa only [Nat.testBit_or, hg, Bool.false_or] using hs
      obtain ⟨f, hf, hl, hn⟩ := exists_field_of_cover hc
      calc (word m (readFields w ls)).testBit b = m.testBit b := by
            rw [← testBit_fld le_rfl (Nat.lt_add_one b), hclear b 1 (clearOf_of_cover hg), testBit_fld le_rfl (Nat.lt_add_one b)]
        _ = f.2.2.testBit (b - f.1) := (testBit_of_agrees (hkn f hf) hg hl hn).symm
        _ = w.testBit b := by rw [← holds_iff.1 hk f hf, testBit_fld hl hn]
  · have hp : 2 ^ 32 ≤ 2 ^ b := Nat.pow_le_pow_right (by decide) (by omega)
    rw [Nat.testBit_lt_two_pow ((hlt hm).trans_le hp), Nat.testBit_lt_two_pow (hw.trans_le hp)]

/-! ### What the decoder answers for a word is encoded as that word -/

/-- Fixed bits and fields read from the word add up to the word. -/
def SumsTo (w : Nat) (ls : List (Nat × Nat)) (m : Nat) : Prop := word m (readFields w ls) = w

theorem sumsTo_field {w m l n : Nat} {ls : List (Nat × Nat)} :
    SumsTo w ls (m + fld w l n * 2 ^ l) ↔ SumsTo w ((l, n) :: ls) m := Iff.rfl

/-- What an arm of the decoder answers for a word, the fields `known` being as listed, is encoded as the word and the words after it. -/
def Encoded (tail : List Nat) (w : Nat) (known : List Field) (r : Except Reject Instr) : Prop :=
  holds w known → ∀ i, r = .ok i → encode i = w :: tail

section

variable {w l n c l₂ n₂ c₂ l₃ n₃ c₃ l₄ n₄ c₄ : Nat} {tail : List Nat} {known : List Field} {x y : Except Reject Instr}

theorem Encoded.error (e : Reject) : Encoded tail w known (.error e) := fun _ _ h => by cases h

theorem Encoded.know (h : fld w l n = c) (hx : Encoded tail w ((l, n, c) :: known) x) : Encoded tail w known x := fun hk => hx ⟨h, hk⟩

theorem Encoded.sel {b : Bool} {i : Instr} (h : Encoded tail w known (.ok i)) : Encoded tail w known (selOk b i) := fun hk j hj => by
  cases b with
  | true => exact h hk j hj
  | false => cases hj

/-- A condition on fields is known where it holds. -/
theorem Encoded.ite_all {p : Prop} [Decidable p] (fs : List Field) (hp : p → holds w fs) (hx : Encoded tail w (fs ++ known) x)
    (hy : Encoded tail w known y) : Encoded tail w known (if p then x else y) := fun hk => by
  split
  next h => exact hx (holds_iff.2 fun f hf => (List.mem_append.1 hf).elim (holds_iff.1 (hp h) f) (holds_iff.1 hk f))
  next => exact hy hk

theorem Encoded.ite (hx : Encoded tail w ((l, n, c) :: known) x) (hy : Encoded tail w known y) :
    Encoded tail w known (if fld w l n = c then x else y) :=
  ite_all [(l, n, c)] (fun h => ⟨h, trivial⟩) hx hy

theorem Encoded.ite₂ (hx : Encoded tail w ((l, n, c) :: (l₂, n₂, c₂) :: known) x) (hy : Encoded tail w known y) :
    Encoded tail w known (if fld w l n = c ∧ fld w l₂ n₂ = c₂ then x else y) :=
  ite_all [(l, n, c), (l₂, n₂, c₂)] (fun ⟨h, h₂⟩ => ⟨h, h₂, trivial⟩) hx hy

theorem Encoded.ite₃ (hx : Encoded tail w ((l, n, c) :: (l₂, n₂, c₂) :: (l₃, n₃, c₃) :: known) x) (hy : Encoded tail w known y) :
    Encoded tail w known (if fld w l n = c ∧ fld w l₂ n₂ = c₂ ∧ fld w l₃ n₃ = c₃ then x else y) :=
  ite_all [(l, n, c), (l₂, n₂, c₂), (l₃, n₃, c₃)] (fun ⟨h, h₂, h₃⟩ => ⟨h, h₂, h₃, trivial⟩) hx hy

theorem Encoded.ite₄ (hx : Encoded tail w ((l, n, c) :: (l₂, n₂, c₂) :: (l₃, n₃, c₃) :: (l₄, n₄, c₄) :: known) x) (hy : Encoded tail w known y) :
    Encoded tail w known (if fld w l n = c ∧ fld w l₂ n₂ = c₂ ∧ fld w l₃ n₃ = c₃ ∧ fld w l₄ n₄ = c₄ then x else y) :=
  ite_all [(l, n, c), (l₂, n₂, c₂), (l₃, n₃, c₃), (l₄, n₄, c₄)] (fun ⟨h, h₂, h₃, h₄⟩ => ⟨h, h₂, h₃, h₄, trivial⟩) hx hy

theorem Encoded.ok {i : Instr} {v : Nat} (he : encode i = v :: tail) (hv : holds w known → SumsTo w [] v) : Encoded tail w known (.ok i) :=
  fun hk j hj => by cases hj; rw [he, show v = w from hv hk]

theorem SumsTo.all {m : Nat} {ls : List (Nat × Nat)} (hw : w < 2 ^ 32) (h : makesUp m ls known = true)
    (hk : holds w known) : SumsTo w ls m := word_readFields hw hk h

end

/-! ### The classes of words, arm by arm -/

section

variable {w : Nat} (hw : w < 2 ^ 32)
include hw

theorem encoded_apAlu (hc : fld w 29 3 = 0) : Encoded [] w [] (decodeApAlu w) := by
  refine Encoded.know hc ?_
  unfold decodeApAlu
  split <;> rename_i hop
  any_goals refine Encoded.know hop ?_
  any_goals apply_rules [Encoded.ite, Encoded.ite₂, Encoded.ite₃, Encoded.ite₄, Encoded.sel, Encoded.error]
  all_goals refine Encoded.ok rfl ?_
  all_goals try simp only [toNat_ofNat_fld, sumsTo_field]
  all_goals exact SumsTo.all hw rfl

theorem encoded_apMem (hc : fld w 29 3 = 1) : Encoded [] w [] (decodeApMem w) := by
  refine Encoded.know hc ?_
  unfold decodeApMem
  split <;> rename_i hop
  any_goals refine Encoded.know hop ?_
  any_goals apply_rules [Encoded.ite, Encoded.ite₂, Encoded.ite₃, Encoded.ite₄, Encoded.sel, Encoded.error]
  all_goals refine Encoded.ok rfl ?_
  all_goals try simp only [bit_flag, toNat_ofNat_fld, sumsTo_field]
  all_goals exact SumsTo.all hw rfl

theorem encoded_xpCtl (hc : fld w 29 3 = 2) : Encoded [] w [] (decodeXpCtl w) := by
  refine Encoded.know hc ?_
  unfold decodeXpCtl
  split <;> rename_i hop
  any_goals refine Encoded.know hop ?_
  any_goals apply_rules [Encoded.ite, Encoded.ite₂, Encoded.ite₃, Encoded.ite₄, Encoded.sel, Encoded.error]
  all_goals refine Encoded.ok rfl ?_
  all_goals try simp only [toNat_ofNat_fld, sumsTo_field]
  all_goals exact SumsTo.all hw rfl

theorem encoded_xpVec (hc : fld w 29 3 = 3) : Encoded [] w [] (decodeXpVec w) := by
  refine Encoded.know hc ?_
  unfold decodeXpVec
  split <;> rename_i hop
  any_goals refine Encoded.know hop ?_
  any_goals apply_rules [Encoded.ite, Encoded.ite₂, Encoded.ite₃, Encoded.ite₄, Encoded.sel, Encoded.error]
  all_goals refine Encoded.ok rfl ?_
  all_goals try simp only [bit_flag, toNat_ofNat_fld, sumsTo_field]
  all_goals exact SumsTo.all hw rfl

theorem encoded_xpMtx (hc : fld w 29 3 = 4) : Encoded [] w [] (decodeXpMtx w) := by
  refine Encoded.know hc ?_
  unfold decodeXpMtx
  split <;> rename_i hop
  any_goals refine Encoded.know hop ?_
  any_goals apply_rules [Encoded.ite, Encoded.ite₂, Encoded.ite₃, Encoded.ite₄, Encoded.sel, Encoded.error]
  all_goals refine Encoded.ok rfl ?_
  all_goals try simp only [bit_flag, sumsTo_field]
  all_goals exact SumsTo.all hw rfl

theorem encoded_sync (hc : fld w 29 3 = 5) : Encoded [] w [] (decodeSync w) := by
  refine Encoded.know hc ?_
  unfold decodeSync
  split <;> rename_i hop
  any_goals refine Encoded.know hop ?_
  any_goals apply_rules [Encoded.ite, Encoded.ite₂, Encoded.ite₃, Encoded.ite₄, Encoded.sel, Encoded.error]
  all_goals refine Encoded.ok rfl ?_
  all_goals try simp only [bit_flag, sumsTo_field]
  all_goals exact SumsTo.all hw rfl

theorem encoded_long (v : Nat) (hc : fld w 29 3 = 7) : Encoded [(BitVec.ofNat 32 v).toNat] w [] (decodeLong w v) := by
  refine Encoded.know hc ?_
  unfold decodeLong
  split
  case h_7 => exact Encoded.error _
  all_goals
    rename_i htc hop
    refine Encoded.know htc (Encoded.know hop ?_)
    apply_rules [Encoded.ite, Encoded.ite₂, Encoded.error]
    refine Encoded.ok rfl ?_
    simp only [Nat.zero_mul, Nat.add_zero, sumsTo_field]
    exact SumsTo.all hw rfl

end

/-! ### What a class decodes is well formed (R8) -/

theorem selOk_eq_ok {c : Bool} {i j : Instr} (h : selOk c i = .ok j) : c = true ∧ i = j := by
  cases c with
  | false => cases h
  | true => exact ⟨rfl, Except.ok.inj h⟩

theorem wf_of_apAlu {w : Nat} {i : Instr} (h : decodeApAlu w = .ok i) : i.wf = true := by
  unfold decodeApAlu selOk at h
  (repeat' split at h) <;> cases h
  any_goals refine decide_eq_true ?_
  any_goals rfl
  all_goals simp_all [fld_lt_of]

theorem wf_of_apMem {w : Nat} {i : Instr} (h : decodeApMem w = .ok i) : i.wf = true := by
  unfold decodeApMem selOk at h
  (repeat' split at h) <;> cases h
  any_goals refine decide_eq_true ?_
  all_goals simp_all [fld_lt_of]

theorem wf_of_xpCtl {w : Nat} {i : Instr} (h : decodeXpCtl w = .ok i) : i.wf = true := by
  unfold decodeXpCtl selOk at h
  (repeat' split at h) <;> cases h
  any_goals refine decide_eq_true ?_
  any_goals rfl
  all_goals simp_all [fld_lt_of]

theorem wf_of_xpVec {w : Nat} {i : Instr} (h : decodeXpVec w = .ok i) : i.wf = true := by
  unfold decodeXpVec selOk at h
  (repeat' split at h) <;> cases h
  any_goals refine decide_eq_true ?_
  all_goals simp_all [fld_lt_of]

theorem wf_of_xpMtx {w : Nat} {i : Instr} (h : decodeXpMtx w = .ok i) : i.wf = true := by
  unfold decodeXpMtx at h
  (repeat' split at h) <;> cases h
  any_goals refine decide_eq_true ?_
  any_goals rfl
  all_goals simp_all [fld_lt_of]

theorem wf_of_sync {w : Nat} {i : Instr} (h : decodeSync w = .ok i) : i.wf = true := by
  unfold decodeSync selOk at h
  (repeat' split at h) <;> cases h
  any_goals refine decide_eq_true ?_
  any_goals rfl
  all_goals simp_all [fld_lt_of]

theorem wf_of_long {w v : Nat} {i : Instr} (h : decodeLong w v = .ok i) : i.wf = true := by
  unfold decodeLong at h
  (repeat' split at h) <;> cases h
  all_goals refine decide_eq_true ?_
  all_goals simp [fld_lt_of]

/-! ### The decoder -/

/-- A word that is no LONG word 0 decodes to a well-formed instruction whose encoding it is. -/
theorem decodeWord_sound {w : Nat} {i : Instr} (hw : w < 2 ^ 32) (h : decodeWord w = .ok i) : i.wf = true ∧ encode i = [w] := by
  unfold decodeWord at h
  split at h <;> rename_i hc
  · exact ⟨wf_of_apAlu h, encoded_apAlu hw hc trivial i h⟩
  · exact ⟨wf_of_apMem h, encoded_apMem hw hc trivial i h⟩
  · exact ⟨wf_of_xpCtl h, encoded_xpCtl hw hc trivial i h⟩
  · exact ⟨wf_of_xpVec h, encoded_xpVec hw hc trivial i h⟩
  · exact ⟨wf_of_xpMtx h, encoded_xpMtx hw hc trivial i h⟩
  · exact ⟨wf_of_sync h, encoded_sync hw hc trivial i h⟩
  · cases h

/-- A LONG pair decodes to a well-formed instruction whose encoding it is. -/
theorem decodeLong_sound {w v : Nat} {i : Instr} (hw : w < 2 ^ 32) (hv : v < 2 ^ 32) (hc : fld w 29 3 = 7)
    (h : decodeLong w v = .ok i) : i.wf = true ∧ encode i = [w, v] := by
  have he := encoded_long hw v hc trivial i h
  rw [BitVec.toNat_ofNat, Nat.mod_eq_of_lt hv] at he
  exact ⟨wf_of_long h, he⟩

theorem leNat_eq_bytesNat (l : List Byte) : leNat l = Machine.bytesNat l := by
  induction l with
  | nil => rfl
  | cons b r ih => exact congrArg (b.toNat + 256 * ·) ih

theorem leNat_lt {l : List Byte} (h : l.length = 4) : leNat l < 2 ^ 32 := by
  have := Machine.bytesNat_lt l
  rwa [h, ← leNat_eq_bytesNat] at this

theorem leBytes_leNat {l : List Byte} (h : l.length = 4) : leBytes 4 (leNat l) = l := by
  have := Machine.natBytes_bytesNat l
  rwa [h, ← leNat_eq_bytesNat, Machine.natBytes_eq_leBytes] at this

/-- Settles O2: each arm's fields and fixed bits make up the word, so encoding what was decoded gives back the bytes. -/
theorem encodeInvertsDecode : Obligations.EncodeInvertsDecode := by
  intro bs i rest h
  unfold decode at h
  split at h
  · cases h
  next hlen =>
    dsimp only at h
    have hw : (bs.take 4).length = 4 := by rw [List.length_take]; omega
    split at h
    next hc =>
      split at h
      next =>
        split at h
        · cases h
        next hlen8 =>
          have hv : ((bs.drop 4).take 4).length = 4 := by rw [List.length_take, List.length_drop]; omega
          cases hd : decodeLong (leNat (bs.take 4)) (leNat ((bs.drop 4).take 4)) with
          | error e => rw [hd] at h; cases h
          | ok j =>
            rw [hd] at h
            cases h
            obtain ⟨hwf, he⟩ := decodeLong_sound (leNat_lt hw) (leNat_lt hv) hc hd
            refine ⟨hwf, by rw [he]; exact List.cons_ne_nil _ _, ?_⟩
            calc bs = bs.take 4 ++ ((bs.drop 4).take 4 ++ (bs.drop 4).drop 4) := by rw [List.take_append_drop, List.take_append_drop]
              _ = _ := by simp [encodeBytes, he, leBytes_leNat hw, leBytes_leNat hv]
      · cases h
    next hc =>
      cases hd : decodeWord (leNat (bs.take 4)) with
      | error e => rw [hd] at h; cases h
      | ok j =>
        rw [hd] at h
        cases h
        obtain ⟨hwf, he⟩ := decodeWord_sound (leNat_lt hw) hd
        refine ⟨hwf, by rw [he]; exact List.cons_ne_nil _ _, ?_⟩
        simp [encodeBytes, he, leBytes_leNat hw]

end Sys2Proof

namespace Sys2Proof.Machine

/-! ### A held unit longer than a unit (O60)

A DECODE chunk whose unit is held writes the whole hold buffer of the core. No instruction fills that buffer with more than the
4,096 bytes of a unit, but O60 speaks of every state: in one whose hold buffer is longer, the chunk writes past its span. -/

/-- The head of a COPY with DECODE of two units to the start of the scratchpad (R144, R146). -/
def twoUnitCopy : BitVec 512 := 1 ||| (1 <<< 39) ||| (0xFC <<< 248) ||| (8192 <<< 320)

/-- That record at the head of ring 0 of core 0 of the placed heat, its first unit held in a buffer of 4,097 bytes. -/
def overfullHold : State :=
  ((placeProgram State.reset).modRing 0 0 (fun g =>
    { g with wp := 1, st := .run, held := true, recs := [(0, ⟨twoUnitCopy, 0, true, 0⟩)] })).modCore 0 (fun k =>
    { k with hold := [(List.replicate 4097 1, false)], holdRing := some 0 })

/-- The start of the local scratchpad as a generic address (R90). -/
abbrev padAddr : Addr := 0xFC00000000000000

/-- The moving unit of that state's chunk. -/
abbrev overfullUnit : State := asSide 0 .ap overfullHold

/-- The hold buffer freed, as a chunk that writes the held unit leaves it (R144). -/
def dropHold (c r : Nat) (s : State) : State :=
  (s.modCore c (fun y => { y with hold := [], holdBad := none, holdRing := none })).modRing c r (fun g => { g with held := false })

/-- A chunk of a DECODE record whose unit is held writes the hold buffer (R144). -/
theorem decodeChunk_held {c r k : Nat} {g : Ring} {b : BitVec 512} {dst : Addr} {s : State} (hh : chunkHead s c r 1 k = some (g, b))
    (hd : rkDecode b = true) (hg : g.held = true) (hk : k = g.chunk) (ht : k < recFld b 0x28 4 / 4096)
    (ha : BitVec.ofNat 64 (recFld b 0x18 8 + 4096 * k) = dst) (hf : spanFault s c dst 4096 .store = none) :
    decodeChunk c r k s =
      writeUnit c r k (recFld b 0x28 4 / 4096) dst (s.core c).hold (s.core c).holdBad (dropHold c r s) := by
  subst hk ha
  simp only [decodeChunk, hh, hd, hg, writeHeld, hf, if_neg (Nat.not_le.2 ht), dropHold]
  rfl

/-- A chunk that ends in order, before the last one of its record, leaves memory as it was. -/
theorem finishChunk_mem {c r k total n : Nat} {s : State} (hm : ((s.core c).ring r).marks = 0) (hk : ((s.core c).ring r).chunk = k)
    (ht : k + 1 < total) : (finishChunk c r k total n s).mem = s.mem := by
  have hl : leadMarks (0 ||| (1#64 <<< (k - k))) = 1 := by rw [Nat.sub_self]; decide
  have hc : (((s.modRing c r (fun g => setMark k { g with bytes := g.bytes + n })).core c).ring r).chunk = k + 1 := by
    simp only [State.modRing, Core.ring, State.core_modCore, tget_tset_same, setMark]
    simp only [Core.ring] at hm hk
    rw [hm, hk, hl]
  exact (congrArg State.mem (if_neg (Nat.not_le.2 (hc ▸ ht)))).trans rfl

/-- Marking what a write leaves poisoned or clean touches nothing but the list of poisoned granules. -/
theorem markWrite_cores (k n : Nat) (b : Bool) (s : State) : (markWrite k n b s).cores = s.cores := by
  unfold markWrite
  generalize granules k n = l
  induction l generalizing s with
  | nil => rfl
  | cons g r ih => rw [List.foldl_cons, ih]; unfold poisonKey; (repeat' split) <;> rfl

/-- A write to the scratchpad of its own die goes to the pool. -/
theorem writeAt_pool {c d off : Nat} {ea : Addr} {l : List Byte} {p : Bool} {s : State} (h : s.place c ea = some (.pool d off))
    (hl : s.cur.link = none) : writeAt c ea l p .relaxed s = writeKey (poolKey d off) l p s := by
  have hw : s.wlink = none := by simp [State.wlink, hl]
  simp only [writeAt, h, writePlace, hw]
  rfl

/-- VALUE of a ring after a unit of 4,096 bytes (R158). -/
def unitValue (g : Ring) : Ring := { g with value := g.value + BitVec.ofNat 32 4096 }

theorem unitValue_marks (g : Ring) : (unitValue g).marks = g.marks := by simp only [unitValue]

theorem unitValue_chunk (g : Ring) : (unitValue g).chunk = g.chunk := by simp only [unitValue]

/-- What memory holds after a unit without poison goes to the scratchpad, chunks before the last. -/
theorem writeUnit_pool_mem {c r k total d off : Nat} {ea : Addr} {l : List Byte} {s : State} (h : s.place c ea = some (.pool d off))
    (hl : s.cur.link = none) (hm : ((s.core c).ring r).marks = 0) (hk : ((s.core c).ring r).chunk = k) (ht : k + 1 < total) :
    (writeUnit c r k total ea [(l, false)] none s).mem = memWrite s.mem (poolKey d off) l := by
  have hw : (writeAt c ea l false .relaxed s).cores = s.cores := by rw [writeAt_pool h hl]; exact markWrite_cores ..
  have hr : (((writeAt c ea l false .relaxed s).modRing c r unitValue).core c).ring r = unitValue ((s.core c).ring r) := by
    simp only [State.modRing, Core.ring, State.core_modCore, tget_tset_same]
    simp only [State.core, hw]
  calc (writeUnit c r k total ea [(l, false)] none s).mem
      = (finishChunk c r k total 4096 ((writeAt c ea l false .relaxed s).modRing c r unitValue)).mem := by
        simp only [writeUnit, List.flatMap_cons, List.flatMap_nil, List.append_nil]
        rfl
    _ = (writeAt c ea l false .relaxed s).mem := by
        rw [finishChunk_mem (by rwa [hr, unitValue_marks]) (by rwa [hr, unitValue_chunk]) ht]
        rfl
    _ = memWrite s.mem (poolKey d off) l := by
        rw [writeAt_pool h hl]
        exact markWrite_mem ..

/-- With no read outstanding and no link failing, a step of an engine is made. -/
theorem overLink_calm {who : LostReader} {f : State → State} {s : State} (hr : s.bridge.reads = []) (hl : s.cur.link = none) :
    overLink who f s = f s := by
  simp only [overLink, hr, hl, List.any_nil]
  cases (f s).cur.lost <;> rfl

/-- The ring's head is served, with nothing done, and its span can be written. -/
theorem overfullHold_due :
    overfullHold.unitsLive 0 = true ∧
      (chunkHead overfullUnit 0 0 1 0).map (fun x => (x.1.chunk, x.1.held, x.2)) = some (0, true, twoUnitCopy) ∧
      spanFault overfullUnit 0 padAddr 4096 .store = none := by
  decide +kernel

/-- The fields of the record. -/
theorem twoUnitCopy_fields :
    rkDecode twoUnitCopy = true ∧ rkKind twoUnitCopy = 1 ∧ recFld twoUnitCopy 0x28 4 / 4096 = 2 ∧
      BitVec.ofNat 64 (recFld twoUnitCopy 0x18 8 + 4096 * 0) = padAddr ∧ rkRaiseKind twoUnitCopy = 0 ∧ rkDevrel twoUnitCopy = false := by
  decide +kernel

/-- The chunk writes the whole hold buffer to the scratchpad. -/
theorem overfullHold_mem :
    (chunkStep (decodeChunk 0 0 0) 0 0 0 overfullHold).mem = memWrite [] (poolKey 0 327680) (List.replicate 4097 1) := by
  obtain ⟨hlive, hhead, hspan⟩ := overfullHold_due
  obtain ⟨hdec, -, htot, hdst, -, -⟩ := twoUnitCopy_fields
  obtain ⟨⟨g, b⟩, hg, he⟩ := Option.map_eq_some_iff.1 hhead
  simp only [Prod.mk.injEq] at he
  obtain ⟨hchunk, hheld, rfl⟩ := he
  have hstep : chunkStep (decodeChunk 0 0 0) 0 0 0 overfullHold = decodeChunk 0 0 0 overfullUnit :=
    (if_pos hlive).trans (overLink_calm rfl rfl)
  rw [hstep, decodeChunk_held hg hdec hheld hchunk.symm (by rw [htot]; decide) hdst hspan, htot]
  exact writeUnit_pool_mem (d := 0) (off := 327680) (by decide +kernel) rfl (by decide +kernel) (by decide +kernel) (by decide)

/-- What a party of the pool's die sees of it is what stands in memory. -/
theorem peek_pool (s : State) (c off : Nat) : peek s (dieOf c) (.pool c off) = memGet s.mem (poolKey c off) := by
  simp [peek, readPlace, State.homeDie, readKey, memRead, Place.key]

/-- The byte after the record's span is outside it. -/
theorem beyond_unit : Safety.beyond overfullUnit 0 padAddr 4096 (.pool 0 (327680 + 4096)) := by
  intro p i hp hi
  have hpad : overfullUnit.place 0 padAddr = some (.pool 0 327680) := by decide +kernel
  obtain rfl : Place.pool 0 327680 = p := Option.some.inj (hpad.symm.trans hp)
  refine ⟨?_, .inl rfl⟩
  simp only [Place.key, poolKey]
  omega

end Sys2Proof.Machine

namespace Sys2Proof

open Sys2Proof.Machine

/-- Refutes O60: a DECODE chunk with 4,097 bytes in its hold buffer writes the byte after its span of 4,096. -/
theorem not_wordsAndRecordsKeepTheRest : ¬ Obligations.WordsAndRecordsKeepTheRest := by
  unfold Obligations.WordsAndRecordsKeepTheRest
  intro h
  obtain ⟨-, -, -, hrecords, -⟩ := h
  obtain ⟨-, hmem, -⟩ := hrecords overfullHold (chunkStep (decodeChunk 0 0 0) 0 0 0 overfullHold) 0 0 0 0 0
  obtain ⟨hdec, hkind, -, hdst, hraise, hrel⟩ := twoUnitCopy_fields
  have hb : headBytes ((overfullHold.core 0).ring 0) = twoUnitCopy := by decide +kernel
  have hclear : Safety.clear overfullUnit 0 (Safety.chunkSpans overfullUnit 0 0 0 twoUnitCopy) (.pool 0 (327680 + 4096)) := by
    simp only [Safety.clear, Safety.chunkSpans, hkind, hdec, hdst, if_true, List.forall_mem_singleton]
    exact beyond_unit
  have hsame := (hmem (by rw [hb, hraise]; decide) (by rw [hb]; exact hrel)).2 rfl (by decide +kernel) (.copyDecode 0 0 0)
    (by simp) rfl (.pool 0 (327680 + 4096)) (by decide) (by rw [hb]; exact hclear) 0 (by decide)
  have hbyte := (peek_pool _ 0 _).symm.trans (hsame.trans (peek_pool _ 0 _))
  rw [overfullHold_mem, memGet_memWrite, dif_pos (by rw [List.length_replicate]; simp only [poolKey]; omega),
    List.getElem_replicate] at hbyte
  exact absurd (hbyte : (1 : Byte) = 0) (by decide)

end Sys2Proof

namespace Sys2Proof.Machine

/-! ### An image in a pool (O50)

The part has 16 contexts, but O50 speaks of every state: in one whose queued heat is of context 32, a byte of the image has the
key of a byte of a pool (`globKey 32 0 = poolKey 0 0`). The launch zeroes the pool of a core that comes from another context
(R270) before it reads the image, so that it finds no header there, and the resume fails. -/

/-- A section of which the part kept nothing has the number that its place gives. -/
theorem sectionAt_none_num (b : Addr → Nat) (r : HeatRec) (n : Nat) (l : List Byte) : (sectionAt none b r n l).num = n := rfl

/-- The hold buffer of a section leaves the continuation records. -/
theorem holdAt_pool (k : Core) (l : List Byte) (c : Core) : (holdAt k l c).pool = c.pool := by
  unfold holdAt
  split <;> rfl

@[simp] theorem setSlot_cont (k : Core) (e : Eng) (o : Option Started) : (k.setSlot e o).cont = k.cont := by
  cases e <;> rfl

theorem foldl_setSlot_cont (l : List QWord) (k : Core) : (l.foldl (fun c q => c.setSlot q.eng none) k).cont = k.cont := by
  induction l generalizing k with
  | nil => rfl
  | cons q l ih => rw [List.foldl_cons, ih, setSlot_cont]

theorem setReissued_cont (c : Core) : (setReissued c).cont = c.cont := by
  unfold setReissued
  (repeat' split) <;> simp

/-- The queues of a section leave the partition. -/
theorem queuesAt_cont (k : Core) (l : List Byte) (c : Core) : (queuesAt k l c).cont = c.cont := by
  unfold queuesAt
  dsimp only
  split
  · exact foldl_setSlot_cont ..
  · split
    · exact setReissued_cont _
    · rfl

/-- A core without continuation records in its partition is restored with none. -/
theorem sectionAt_none_records (b : Addr → Nat) {r : HeatRec} (n : Nat) (l : List Byte) (h : nfld r.part 7 4 = 0) :
    (sectionAt none b r n l).core.pool = [] := by
  simp [sectionAt, holdAt_pool, poolAt, queuesAt_cont, h]

/-- The scratchpad bytes of a section lie in the pool of its core. -/
theorem padCells_mem {c : Core} {n : Nat} {l : List Byte} {p : Host.Cell} (h : p ∈ padCells c n l) :
    poolKey n 0 ≤ p.1 ∧ p.1 < poolKey (n + 1) 0 := by
  obtain ⟨x, hx, rfl⟩ := List.mem_map.1 h
  have hlt := (List.mem_zipIdx (List.mem_filter.1 hx).1).2.1
  have hlen : (spanAt l (0x20000 + c.padBase) c.spad).length ≤ c.spad := List.length_take_le ..
  have hpad : c.spad = 1048576 - 32768 - c.padBase := rfl
  simp only [poolKey]
  omega

/-- The cores of an image of which the part kept nothing are read from its sections. -/
theorem imageFor_sections {s : State} {r : HeatRec} {m : Image} (hs : s.images = []) (h : imageFor s r = some m) :
    ∀ i ∈ m.cores, ∃ b n l, i = sectionAt none b r n l := by
  unfold imageFor at h
  dsimp only at h
  split at h
  · cases h
  · obtain rfl := Option.some.inj h
    intro i hi
    obtain ⟨p, -, rfl⟩ := List.mem_map.1 hi
    simp only [keptImage, hs, List.find?_nil, Option.orElse_none, Option.bind_none]
    exact ⟨_, _, _, rfl⟩

/-- A resume record of context 32 for core 0, without continuation records, its image at address 0. -/
def farRec : HeatRec := { placeRec with ctx := 32, resume := true, w := 1, h := 1, part := 0 }

/-- The heat of that record, which waits. -/
def farHeat : Heat := { placeHeat with hr := farRec, st := .queued }

/-- That heat at the head of a queue of a ready part, and the header of its image in memory. -/
def farImage : State :=
  { State.reset with
    water := { Water.reset with power := .ready }, coxS := { Cox.reset with up := true, lead := true }
    heats := [farHeat], queues := [(0, [1])]
    mem := [(poolKey 0 0, 0x53), (poolKey 0 1, 0x41), (poolKey 0 2, 0x56), (poolKey 0 3, 0x45), (poolKey 0 4, 1),
      (poolKey 0 6, 1), (poolKey 0 8, 1), (poolKey 0 12, 32), (poolKey 0 0x4A, 1), (poolKey 0 0x4B, 1)] }

/-- The heat is the one head, and it can launch. -/
theorem farImage_picked :
    heads farImage = [farHeat] ∧ headAbsent farImage farHeat = false ∧ launchOrigin farImage farHeat = some (0, 0) ∧
      led farImage farHeat = true := by
  decide +kernel

/-- The record names an image, of a heat that ran. -/
theorem farImage_was : (imageFor farImage farRec).map (fun m => m.was) = some .running := by
  decide +kernel

/-- The header is erased with the pool of core 0 before the image is read, so that the launch fails. -/
theorem farImage_fails : ∀ g ∈ (reserve (launchHeat farHeat (0, 0) farImage)).heats, g.st = .complete := by
  decide +kernel

/-- HEAT_LAUNCH of one head that can launch launches it. -/
theorem heatLaunch_of_single {s : State} {h : Heat} {o : Nat × Nat} (hr : isReady s = true) (hl : hasLeader s 0 = true)
    (hh : heads s = [h]) (ha : headAbsent s h = false) (ho : launchOrigin s h = some o) (hd : led s h = true) :
    exec .heatLaunch s = .next (reserve (launchHeat h o s)) := by
  show execHeatLaunch s = _
  simp [execHeatLaunch, hr, hl, hh, ha, ho, hd, bestOf]

end Sys2Proof.Machine

namespace Sys2Proof

open Sys2Proof.Machine

/-- Refutes O50: a resume record of a context 32, whose memory shares its keys with the pools, loses its image to the zeroing of its
core's pool. -/
theorem not_heatsLaunchRestAndComplete : ¬ Obligations.HeatsLaunchRestAndComplete := by
  unfold Obligations.HeatsLaunchRestAndComplete
  intro hall
  obtain ⟨hheads, habsent, horigin, hled⟩ := farImage_picked
  obtain ⟨m, hm, hwas⟩ := Option.map_eq_some_iff.1 farImage_was
  obtain ⟨-, -, -, hresume, -⟩ := hall farImage (by decide +kernel) (.inl (by decide +kernel))
  have hmem : farHeat ∈ heads farImage := by rw [hheads]; exact List.mem_singleton_self _
  have hone : ∀ x ∈ heads farImage, x = farHeat := fun x hx => by rw [hheads] at hx; exact List.mem_singleton.1 hx
  obtain ⟨t, ht, ⟨g, hg, -, hst⟩, -⟩ := hresume farHeat (0, 0) m
    ⟨fun x hx => hone x hx ▸ habsent, hmem, by decide +kernel, horigin, hled, fun x hx hne => absurd (hone x hx) hne⟩
    rfl rfl rfl rfl (by decide +kernel) (by decide +kernel) (by decide +kernel) hm
    (fun i hi => by
      obtain ⟨b, n, l, rfl⟩ := imageFor_sections rfl hm i hi
      rw [sectionAt_none_records b n l rfl]
      simp)
    (fun i hi => by
      obtain ⟨b, n, l, rfl⟩ := imageFor_sections rfl hm i hi
      exact fun p hp => padCells_mem hp)
    (by decide +kernel) rfl
  rw [heatLaunch_of_single (by decide +kernel) (by decide +kernel) hheads habsent horigin hled] at ht
  obtain rfl := Host.Outcome.next.inj ht
  have := farImage_fails g hg
  rw [hst, hwas] at this
  cases this

end Sys2Proof

namespace Sys2Proof.Machine

/-! ### Scalar words of the XP (R161, R162) -/

/-- A sequencer word that nothing holds back and that takes no fault comes to what its body gives. -/
theorem xpWord_next {srcs dsts : List Nat} {body : State → Except Trap State} {s t : State}
    (h : s.me.holdsBack (srcs.map .x) (dsts.map .x) = false) (hb : body s = .ok t) :
    (.next (xpWord srcs dsts body s) : Res) = .next t := by
  rw [xpWord_free _ h, hb, settle_ok]

theorem min_slt (x y : Addr) : (if y.slt x then y else x) = if x.toInt ≤ y.toInt then x else y := by
  simp only [BitVec.slt_iff_toInt_lt, ← not_le, ite_not]

/-- Of two equal operands of `max` it makes no difference which is taken. -/
theorem max_slt (x y : Addr) : (if x.slt y then y else x) = if x.toInt ≤ y.toInt then y else x := by
  by_cases he : x.toInt = y.toInt
  · rw [BitVec.toInt_inj.1 he, ite_self, ite_self]
  · simp only [BitVec.slt_iff_toInt_lt, lt_iff_le_and_ne, ne_eq, he, not_false_eq_true, and_true]

theorem condHolds_ne (x y : Addr) : condHolds 1 x y = decide (x ≠ y) := by
  by_cases h : x = y <;> simp [condHolds, h]

theorem condHolds_ge (x y : Addr) : condHolds 3 x y = decide (y.toInt ≤ x.toInt) := by
  simp only [condHolds, BitVec.slt, ← not_le, decide_not, Bool.not_not]

end Sys2Proof.Machine

namespace Sys2Proof
open Sys2Proof.Machine

/-- Settles O22: with no register of the word held, each word is its function of the x registers. -/
theorem xpScalarWords : Obligations.XpScalarWords := by
  intro s d a b c m i j ⟨_, _, hfree⟩ x y sh res fl f32 holds
  have free : ∀ srcs : List Nat, srcs ⊆ [d, a, b, c] → s.me.holdsBack (srcs.map .x) ([d].map .x) = false := fun srcs hs =>
    Core.holdsBack_mono hfree (by simpa using List.map_subset RegName.x hs)
  have alu : ∀ (srcs : List Nat) (f : Core → Addr), srcs ⊆ [d, a, b, c] → .next (xpAlu srcs d f s) = res (f s.me) :=
    fun srcs f hs => xpWord_next (free srcs hs) rfl
  have alu3 : ∀ f : Addr → Addr → Addr, .next (xpAlu3 f d a b s) = res (f x y) := fun f => alu [a, b] _ (by simp)
  have cmp : ∀ (n : Nat) (v : Bool), condHolds n x y = v → exec (.xpCmp d a b n) s = res (holds v) := fun n v hv =>
    hv ▸ alu3 (fun a b => if condHolds n a b then 1 else 0)
  have float : ∀ (srcs : List Nat) (f : Core → FRes), srcs ⊆ [d, a, b, c] → .next (xpFloat srcs d f s) = fl (f s.me) :=
    fun srcs f hs => xpWord_next (free srcs hs) rfl
  have hsh : sh = y.toNat % 64 := by simp [sh]
  refine ⟨alu3 _, alu3 _, alu3 _, alu3 _, alu3 _, hsh ▸ alu3 _, hsh ▸ alu3 _, hsh ▸ alu3 _, alu3 _,
    min_slt x y ▸ alu3 _, max_slt x y ▸ alu3 _, alu [a, b, c] _ (by simp), cmp 0 _ rfl, cmp 1 _ (condHolds_ne x y), cmp 2 _ rfl,
    cmp 3 _ (condHolds_ge x y), cmp 4 _ rfl, cmp 5 _ rfl, alu [a] _ (by simp), alu [] _ (by simp), xpWord_next (free [] (by simp)) rfl,
    xpWord_next (free [a] (by simp)) rfl, float [a, b] _ (by simp), float [a, b] _ (by simp), float [a, b, d] _ (by simp)⟩

end Sys2Proof

namespace Sys2Proof.Machine

/-! ### Elements of an operand (R14) -/

theorem etBits_cases (e : Nat) : etBits e = 4 ∨ etBits e = 8 ∨ etBits e = 16 ∨ etBits e = 32 := by
  unfold etBits; split <;> simp

/-- The elements of a type fill an operand. -/
theorem etBits_mul_etCount (e : Nat) : etBits e * etCount e = 4096 := by
  obtain h | h | h | h := etBits_cases e <;> simp [etCount, h]

theorem etCount_pos (e : Nat) : 0 < etCount e := by
  obtain h | h | h | h := etBits_cases e <;> simp [etCount, h]

theorem etCount_le (e : Nat) : etCount e ≤ 1024 := by
  obtain h | h | h | h := etBits_cases e <;> simp [etCount, h]

theorem el_eq_nfld (w i : Nat) (v : BitVec 4096) : Safety.el w i v = nfld v.toNat (w * i) w := by
  rw [Safety.el, BitVec.extractLsb'_toNat, Nat.shiftRight_eq_div_pow, nfld]

theorem el_lt (w i : Nat) (v : BitVec 4096) : Safety.el w i v < 2 ^ w := BitVec.isLt _

@[simp] theorem el_mod (w i : Nat) (v : BitVec 4096) : Safety.el w i v % 2 ^ w = Safety.el w i v := Nat.mod_eq_of_lt (el_lt w i v)

theorem elems_eq_map (w : Nat) (v : BitVec 4096) : elems w v = (List.range (4096 / w)).map (fun i => Safety.el w i v) := by
  simp only [elems, el_eq_nfld]

/-- A digit of a number that is given by its digits. -/
theorem nfld_foldr (w : Nat) (l : List Nat) (i : Nat) :
    nfld (l.foldr (fun x acc => x % 2 ^ w + 2 ^ w * acc) 0) (w * i) w = l.getD i 0 % 2 ^ w := by
  have hp : 0 < 2 ^ w := Nat.two_pow_pos w
  induction l generalizing i with
  | nil => simp [nfld]
  | cons x l ih =>
    cases i with
    | zero => simp [nfld]
    | succ i =>
      have hx : x % 2 ^ w / 2 ^ w = 0 := Nat.div_eq_of_lt (Nat.mod_lt _ hp)
      rw [List.foldr_cons, List.getD_cons_succ, ← ih i, nfld, Nat.mul_succ, Nat.add_comm (w * i), Nat.pow_add, ← Nat.div_div_eq_div_mul,
        Nat.add_mul_div_left _ _ hp, hx, Nat.zero_add, nfld]

/-- Packed elements read back, zero after the last. -/
theorem el_packEls {w i : Nat} (l : List Nat) (h : w * i + w ≤ 4096) : Safety.el w i (packEls w l) = l.getD i 0 % 2 ^ w := by
  rw [← nfld_foldr, el_eq_nfld, packEls, BitVec.toNat_ofNat]
  refine Nat.eq_of_testBit_eq fun j => ?_
  simp only [nfld, Nat.testBit_mod_two_pow, Nat.testBit_div_two_pow]
  by_cases hj : j < w
  · simp [show j + w * i < 4096 by omega]
  · simp [hj]

/-- The elements of a type fit the operand, so that each reads back. -/
theorem el_packEls_type {e i : Nat} (l : List Nat) (h : i < etCount e) :
    Safety.el (etBits e) i (packEls (etBits e) l) = l.getD i 0 % 2 ^ etBits e := by
  refine el_packEls l ?_
  rw [← Nat.mul_succ, ← etBits_mul_etCount e]
  exact Nat.mul_le_mul_left _ h

/-! ### Masks (R14, R172) -/

theorem testBit_foldr_bool (l : List Bool) (i : Nat) : (l.foldr (fun (b : Bool) acc => b.toNat + 2 * acc) 0).testBit i = l.getD i false := by
  induction l generalizing i with
  | nil => simp
  | cons b l ih =>
    rw [List.foldr_cons, Nat.add_comm]
    cases i with
    | zero => cases b <;> simp [Nat.testBit_zero]
    | succ i =>
      have hb := b.toNat_lt
      rw [List.getD_cons_succ, ← ih i, Nat.testBit_succ, Nat.mul_add_div (by decide), Nat.div_eq_of_lt hb, Nat.add_zero]

theorem getLsbD_packMask {l : List Bool} (h : l.length ≤ 1024) (j : Nat) : (packMask l).getLsbD j = l.getD j false := by
  rw [packMask, BitVec.getLsbD_ofNat, testBit_foldr_bool]
  by_cases hj : j < 1024
  · simp [hj]
  · simp [List.getElem?_eq_none (show l.length ≤ j by omega)]

theorem getD_map_range {α : Type} (f : Nat → α) (n j : Nat) (d : α) : ((List.range n).map f).getD j d = if j < n then f j else d := by
  by_cases h : j < n <;> simp [h]

/-- The bits of a mask made element by element. -/
theorem getLsbD_packMask_range (f : Nat → Bool) {n : Nat} (h : n ≤ 1024) (j : Nat) :
    (packMask ((List.range n).map f)).getLsbD j = (decide (j < n) && f j) := by
  rw [getLsbD_packMask (by simpa using h), getD_map_range]
  by_cases hj : j < n <;> simp [hj]

theorem active_eq_map (s : State) (m : Bool) (n : Nat) : active s m n = (List.range n).map (Safety.act s m) := by
  cases m with
  | false =>
    show List.replicate n true = (List.range n).map fun _ => true
    rw [List.map_const', List.length_range]
  | true => rfl

/-! ### Flags of a list of elements (R24) -/

theorem testBit_foldl_flagOr (l : List FRes) (n j : Nat) :
    (l.foldl (fun n r => flagOr n r.fl) n).testBit j = true ↔ n.testBit j = true ∨ ∃ r ∈ l, r.fl.testBit j = true := by
  induction l generalizing n with
  | nil => simp
  | cons x l ih =>
    have hx : (flagOr n x.fl).testBit j = (n.testBit j || x.fl.testBit j) := Nat.testBit_or n x.fl j
    rw [List.foldl_cons, ih, hx]
    simp [or_assoc]

theorem testBit_allFlags (l : List FRes) (j : Nat) : (allFlags l).testBit j = true ↔ ∃ r ∈ l, r.fl.testBit j = true := by
  rw [allFlags, testBit_foldl_flagOr]; simp

/-! ### Words with operands at ports (R127, R129, R172) -/

theorem withPorts_ready {srcs dsts : List Nat} {go : State → State} {s : State} (h : Safety.portsReady srcs dsts s) :
    withPorts srcs dsts go s = go s := by
  rw [withPorts, h]

theorem vecWord_ready {d : Nat} {srcs : List Nat} {f : State → BitVec 4096 × Nat} {s : State} (h : Safety.portsReady srcs [d] s) :
    vecWord d srcs f s = dropWord (raiseFlags (f s).2 (putDest d (f s).1 (takeUnits srcs s))) := withPorts_ready h

/-- A word whose result is packed from elements, with the flags of its active ones. -/
theorem vecWord_elementwise {d : Nat} {srcs : List Nat} {m : Bool} {s : State} {f : State → BitVec 4096 × Nat} (g : Nat → FRes)
    (h : Safety.portsReady srcs [d] s)
    (hf : f s =
      let w := etBits (vtType s.cur.vt)
      let rs := (List.range (4096 / w)).map fun i => pickEl (Safety.act s m i) (Safety.el w i (oldDest s d)) (g i)
      (packEls w (rs.map (fun r => r.v)), allFlags rs)) :
    Safety.elementwise (.next (vecWord d srcs f s)) s d srcs m g := by
  refine ⟨(f s).1, (f s).2, by rw [vecWord_ready h], fun i hi => ?_, fun j => ?_⟩
  · rw [hf]
    dsimp only
    rw [el_packEls_type _ hi, List.map_map, getD_map_range, if_pos hi]
    by_cases ha : Safety.act s m i = true <;> simp [pickEl, ha]
  · rw [hf]
    simp only [testBit_allFlags, List.mem_map, List.mem_range, exists_exists_and_eq_and]
    refine exists_congr fun i => and_congr_right fun _ => ?_
    by_cases ha : Safety.act s m i = true <;> simp [pickEl, ha]

/-- A word reads a port that two of its operands name once. -/
theorem vecWord_congr {srcs srcs' : List Nat} (hp : portsOf srcs = portsOf srcs') (d : Nat) (f : State → BitVec 4096 × Nat) :
    vecWord d srcs f = vecWord d srcs' f := by
  funext s; simp only [vecWord, withPorts, takeUnits, hp]

theorem portsOf_pair (a : Nat) : portsOf [a, a] = portsOf [a] := by
  by_cases h : 96 ≤ a <;> simp [portsOf, h, List.eraseDups_cons]

/-- An elementwise word (R172); `srcs` are its source codes, each once. -/
theorem elemWord_elementwise {d a b : Nat} {srcs : List Nat} {m : Bool} {s : State} (f : Nat → Nat → Nat → Nat → FRes)
    (hp : portsOf [a, b] = portsOf srcs) (h : Safety.portsReady srcs [d] s) :
    let e := vtType s.cur.vt
    let w := etBits e
    Safety.elementwise (.next (elemWord d a b m f s)) s d srcs m
      (fun i => f e (Safety.el w i (operand s a)) (Safety.el w i (operand s b)) (Safety.el w i (oldDest s d))) := by
  intro e w
  rw [elemWord, vecWord_congr hp]
  refine vecWord_elementwise _ h ?_
  simp only [elems_eq_map, active_eq_map, etCount, List.zip_map', List.map_map]
  rfl

/-- Sign injection puts one sign over the rest of the first operand (R178). -/
theorem signInject_eq (w sel x y : Nat) :
    let sgn := fun (x : Nat) => x / 2 ^ (w - 1) % 2
    signInject w sel x y = x % 2 ^ (w - 1) + 2 ^ (w - 1) *
      (if sel = 0 then sgn y else if sel = 1 then 1 - sgn y else (sgn x + sgn y) % 2) := by
  match sel with
  | 0 | 1 | _ + 2 => simp [signInject, Nat.mul_comm]

end Sys2Proof.Machine

namespace Sys2Proof
open Sys2Proof.Machine

/-- Settles O28: each word is an elementwise word of its element's operation, of two sources or of one. -/
theorem vectorFloatAndFunctionWords : Obligations.VectorFloatAndFunctionWords := by
  intro s d a b r sg num m h₂ h₁ e w fm A B D sgn two fn
  have bin : ∀ f : Nat → Nat → Nat → Nat → FRes,
      Safety.elementwise (.next (elemWord d a b m f s)) s d [a, b] m (fun i => f e (A i) (B i) (D i)) :=
    fun f => elemWord_elementwise f rfl h₂
  have un : ∀ f : Sf, Safety.elementwise (.next (sfWord f d a m s)) s d [a] m (fun i => sfApply f e (A i)) :=
    fun f => elemWord_elementwise (fun e x _ _ => sfApply f e x) (portsOf_pair a) h₁
  have inject : two (.vfsgn d a b sg m) (fun i => ⟨signInject w sg (A i) (B i), 0⟩) :=
    bin fun e x y _ => ⟨signInject (etBits e) sg x y, 0⟩
  simp only [signInject_eq] at inject
  exact ⟨bin fun e x y _ => fpAdd (etFmt e) r x y, bin fun e x y _ => fpSub (etFmt e) r x y, bin fun e x y _ => fpMul (etFmt e) r x y,
    bin fun e x y z => fpFma (etFmt e) r x y z, bin fun e x y _ => fpMinMax (etFmt e) false num x y,
    bin fun e x y _ => fpMinMax (etFmt e) true num x y, inject, un .exp2, un .log2, un .rcp, un .rsqrt, un .sinpi, un .cospi, un .tanh,
    un .sigm⟩

end Sys2Proof

namespace Sys2Proof.Machine

/-! ### Words that write a mask (R176, R186) -/

/-- A word leaves its engine with the n mask bits f, zero above them, and with the flags of its n elements (R14, R24). -/
def WritesMask (r : Res) (n : Nat) (g : Nat → BitVec 1024 → State) (f : Nat → Bool) (fl : Nat → Nat) : Prop :=
  ∃ v : BitVec 1024, ∃ x, r = .next (dropWord (g x v)) ∧
    (∀ j, v.getLsbD j = (decide (j < n) && f j)) ∧ (∀ j, Nat.testBit x j = true ↔ ∃ i, i < n ∧ (fl i).testBit j = true)

/-- A word that compares elements, each result not 0 where p holds (R176). -/
theorem maskWord_writesMask {d a b : Nat} {s : State} (f : Nat → Nat → Nat → FRes) (p : Nat → Nat → Bool)
    (h : Safety.portsReady [a, b] [] s) (hp : ∀ x y, ((f (vtType s.cur.vt) x y).v != 0) = p x y) :
    let e := vtType s.cur.vt
    let A := fun i => Safety.el (etBits e) i (operand s a)
    let B := fun i => Safety.el (etBits e) i (operand s b)
    WritesMask (.next (maskWord d a b f s)) (etCount e)
      (fun x v => raiseFlags x ((takeUnits [a, b] s).modMe (fun k => k.setMask d v))) (fun i => p (A i) (B i))
      (fun i => (f e (A i) (B i)).fl) := by
  intro e A B
  refine ⟨packMask ((List.range (etCount e)).map fun i => p (A i) (B i)), allFlags ((List.range (etCount e)).map fun i => f e (A i) (B i)),
    ?_, getLsbD_packMask_range _ (etCount_le e), fun j => ?_⟩
  · rw [maskWord, withPorts_ready h]
    simp only [elems_eq_map, List.zip_map', List.map_map, ← hp]
    rfl
  · simp only [testBit_allFlags, List.mem_map, List.mem_range, exists_exists_and_eq_and]

/-- A word of mask registers (R186). -/
theorem maskOp_writesMask (d : Nat) (f : Core → Nat → Bool) (s : State) :
    WritesMask (.next (maskOp d f s)) (etCount (vtType s.cur.vt)) (fun _ v => s.modMe (fun k => k.setMask d v)) (f s.me) (fun _ => 0) :=
  ⟨packMask ((List.range (etCount (vtType s.cur.vt))).map (f s.me)), 0, rfl, getLsbD_packMask_range _ (etCount_le _), by simp⟩

/-- The conditions on integers, in the order of their numbers (R176). -/
theorem ordHolds_compare (x y : Int) {c : Nat} (hc : c < 6) :
    ordHolds c (if x < y then -1 else if x = y then 0 else 1) =
      [decide (x = y), decide (x ≠ y), decide (x < y), decide (y ≤ x), decide (y < x), decide (x ≤ y)].getD c false := by
  obtain h | h | h := lt_trichotomy x y
  · interval_cases c <;> simp [ordHolds, h, h.ne, h.le, h.not_ge, h.not_gt]
  · subst h; interval_cases c <;> simp [ordHolds]
  · interval_cases c <;> simp [ordHolds, h, h.ne', h.le, h.not_ge, h.not_gt]

theorem toNat_ne_zero (b : Bool) : (b.toNat != 0) = b := by cases b <;> rfl

/-- A float comparison's value is 1 or 0 (R176). -/
theorem fpCmp_ne_zero (f : Fmt) (c x y : Nat) : ((fpCmp f c x y).v != 0) = ((fpCmp f c x y).v == 1) := by
  have hb : ∀ b : Bool, (b.toNat != 0) = (b.toNat == 1) := by decide
  exact hb _

theorem popN_eq_length (n : Nat) (v : BitVec 1024) : popN n v.toNat = ((List.range n).filter (fun i => v.getLsbD i)).length := by
  have hbit : ∀ i, v.toNat / 2 ^ i % 2 = (v.getLsbD i).toNat := fun i => by rw [BitVec.getLsbD, Nat.toNat_testBit]
  induction n with
  | zero => rfl
  | succ n ih =>
    rw [popN] at ih ⊢
    rw [List.range_succ, List.foldl_append, ih, List.filter_append, List.length_append, List.foldl_cons, List.foldl_nil, hbit]
    cases h : v.getLsbD n <;> simp [h]

/-! ### Words that move elements (R177, R183-R185) -/

/-- A word that sets no flag and whose result is packed from elements: its active elements are g, the others the old ones. -/
theorem vecWord_moves {d : Nat} {srcs : List Nat} {m : Bool} {s : State} {f : State → BitVec 4096 × Nat} (g : Nat → Nat)
    (h : Safety.portsReady srcs [d] s) (l : List Nat) (hf : f s = (packEls (etBits (vtType s.cur.vt)) l, 0))
    (hl : let w := etBits (vtType s.cur.vt)
      ∀ i, i < etCount (vtType s.cur.vt) → l.getD i 0 % 2 ^ w = if Safety.act s m i = true then g i % 2 ^ w else Safety.el w i (oldDest s d)) :
    Safety.elementwise (.next (vecWord d srcs f s)) s d srcs m (fun i => ⟨g i, 0⟩) :=
  ⟨_, 0, by rw [vecWord_ready h, hf], fun i hi => by rw [el_packEls_type l hi, hl i hi], by simp⟩

theorem selected_map (p : Nat → Bool) (f : Nat → Nat) (l : List Nat) : selected (l.map f) (l.map p) = (l.filter p).map f := by
  induction l with
  | nil => rfl
  | cons x l ih => cases hx : p x <;> simp [selected, hx, ih]

theorem spread_false (l : List Nat) (bs : List Bool) : spread l (false :: bs) = 0 :: spread l bs := by cases l <;> rfl

theorem spread_true (l : List Nat) (bs : List Bool) : spread l (true :: bs) = l.headD 0 :: spread l.tail bs := by cases l <;> rfl

/-- A selected place takes the element whose number is how many places before it are selected (R183). -/
theorem getD_spread (l : List Nat) (bs : List Bool) (i : Nat) :
    (spread l bs).getD i 0 = if bs.getD i false = true then l.getD ((bs.take i).countP id) 0 else 0 := by
  induction bs generalizing l i with
  | nil => cases l <;> simp [spread]
  | cons b bs ih =>
    cases b with
    | false =>
      rw [spread_false]
      cases i with
      | zero => rfl
      | succ i => rw [List.getD_cons_succ, ih]; simp
    | true =>
      rw [spread_true]
      cases i with
      | zero => cases l <;> rfl
      | succ i => rw [List.getD_cons_succ, ih]; simp

theorem countP_take_map_range (p : Nat → Bool) {n i : Nat} (h : i ≤ n) :
    (((List.range n).map p).take i).countP id = ((List.range i).filter p).length := by
  rw [← List.map_take, List.take_range, Nat.min_eq_left h, List.countP_map, List.countP_eq_length_filter]
  rfl

/-- An element at a place that may lie below the first or above the last (R185). -/
theorem getD_map_range_int (f : Nat → Nat) (n : Nat) (t : Int) :
    (if t < 0 then 0 else ((List.range n).map f).getD t.toNat 0) = if 0 ≤ t ∧ t < n then f t.toNat else 0 := by
  rw [getD_map_range]
  by_cases ht : t < 0
  · rw [if_pos ht, if_neg (by omega)]
  · rw [if_neg ht]; exact if_congr (by omega) rfl rfl

/-! ### What each word that moves or folds elements leaves -/

/-- Element i of an operand, of the captured type. -/
abbrev element (s : State) (c i : Nat) : Nat := Safety.el (etBits (vtType s.cur.vt)) i (operand s c)

/-- The element count of the captured type (R14). -/
abbrev elementCount (s : State) : Nat := etCount (vtType s.cur.vt)

theorem elems_operand (s : State) (c : Nat) :
    elems (etBits (vtType s.cur.vt)) (operand s c) = (List.range (elementCount s)).map (element s c) := elems_eq_map _ _

section

variable {s : State} {d a b : Nat}

/-- `vsel` (R177). -/
theorem vsel_elementwise (h : Safety.portsReady [a, b] [d] s) :
    Safety.elementwise (exec (.vsel d a b) s) s d [a, b] false
      (fun i => ⟨if Safety.act s true i = true then element s a i else element s b i, 0⟩) := by
  refine vecWord_moves _ h
    ((List.range (elementCount s)).map fun i => if Safety.act s true i = true then element s a i else element s b i) ?_ fun i hi => ?_
  · dsimp only
    rw [elems_operand, elems_operand, active_eq_map, List.zip_map', List.zip_map', List.map_map]
    rfl
  · rw [getD_map_range, if_pos hi]; rfl

/-- `vcompress` (R183). -/
theorem vcompress_gathers (h : Safety.portsReady [a] [d] s) :
    let low := (List.range (elementCount s)).filter (Safety.act s true)
    ∃ v, exec (.vcompress d a) s = .next (dropWord ((putDest d v (takeUnits [a] s)).modMe
        (fun k => { k with vcnt := BitVec.ofNat 11 low.length }))) ∧
      ∀ i, i < elementCount s → Safety.el (etBits (vtType s.cur.vt)) i v = (low[i]?).elim 0 (element s a) := by
  intro low
  have hcnt : (active s true (elementCount s)).countP (fun b => b) = low.length := by
    rw [active_eq_map, List.countP_map, List.countP_eq_length_filter]; rfl
  have hv : selected (elems (etBits (vtType s.cur.vt)) (operand s a)) (active s true (elementCount s)) = low.map (element s a) := by
    rw [elems_operand, active_eq_map, selected_map]
  refine ⟨packEls (etBits (vtType s.cur.vt)) (low.map (element s a)), ?_, fun i hi => ?_⟩
  · rw [← hv, ← hcnt]
    exact congrArg Host.Outcome.next (withPorts_ready h)
  · rw [el_packEls_type _ hi, List.getD_eq_getElem?_getD, List.getElem?_map]
    cases low[i]? with
    | none => exact Nat.zero_mod _
    | some j => exact el_mod _ j _

/-- `vexpand` (R183): as many leading elements are used as places are selected. -/
theorem vexpand_elementwise (h : Safety.portsReady [a] [d] s) :
    Safety.elementwise (exec (.vexpand d a) s) s d [a] false
      (fun i => ⟨if Safety.act s true i = true then element s a ((List.range i).filter (Safety.act s true)).length else 0, 0⟩) := by
  refine vecWord_moves _ h _ rfl fun i hi => congrArg (· % _) ?_
  have hlow : ((List.range i).filter (Safety.act s true)).length < elementCount s :=
    ((List.length_filter_le _ _).trans_eq List.length_range).trans_lt hi
  rw [getD_spread, active_eq_map, countP_take_map_range _ hi.le, getD_map_range, if_pos hi, elems_operand, getD_map_range,
    if_pos hlow]

/-- `vslide` (R185). -/
theorem vslide_elementwise (k : BitVec 10) (h : Safety.portsReady [a] [d] s) :
    Safety.elementwise (exec (.vslide d a k) s) s d [a] false
      (fun i => ⟨if 0 ≤ (i : Int) + k.toInt ∧ (i : Int) + k.toInt < elementCount s then element s a ((i : Int) + k.toInt).toNat else 0,
        0⟩) := by
  refine vecWord_moves _ h _ rfl fun i hi => congrArg (· % _) ?_
  rw [elems_operand, List.length_map, List.length_range, getD_map_range, if_pos hi]
  exact getD_map_range_int (element s a) _ _

/-- `vbcast` (R185). -/
theorem vbcast_elementwise {j : Nat} (hj : j < elementCount s) (h : Safety.portsReady [a] [d] s) :
    Safety.elementwise (exec (.vbcast d a j) s) s d [a] false (fun _ => ⟨element s a j, 0⟩) := by
  refine vecWord_moves _ h _ rfl fun i hi => congrArg (· % _) ?_
  rw [elems_operand, List.length_map, List.length_range, getD_map_range, if_pos hj, List.getD_replicate _ hi]

/-- `vperm` (R184). -/
theorem vperm_elementwise (m : Bool) (h : Safety.portsReady [a] [d] s) :
    Safety.elementwise (exec (.vperm d a m) s) s d [a] m
      (fun i => ⟨Safety.el (etBits (vtType s.cur.vt)) i (benes s.me (operand s a)), 0⟩) := by
  let w := etBits (vtType s.cur.vt)
  refine vecWord_moves _ h ((List.range (elementCount s)).map fun i =>
    if Safety.act s m i = true then Safety.el w i (benes s.me (operand s a)) else Safety.el w i (oldDest s d)) ?_ fun i hi => ?_
  · dsimp only
    rw [elems_eq_map, elems_eq_map, active_eq_map, etCount, List.zip_map', List.zip_map', List.map_map]
    rfl
  · rw [getD_map_range, if_pos hi]
    split
    exacts [rfl, el_mod w i _]

/-- The leaves of the tree of `vred`: an inactive element is the identity of the operation (R182). -/
theorem redLeaves_eq (s : State) (a x : Nat) (m : Bool) :
    ((elems (etBits (vtType s.cur.vt)) (operand s a)).zip (active s m (elementCount s))).map (fun p => pickEl p.2 x ⟨p.1, 0⟩) =
      (List.range (elementCount s)).map (fun i => ⟨if Safety.act s m i = true then element s a i else x, 0⟩) := by
  rw [elems_operand, active_eq_map, List.zip_map', List.map_map]
  exact List.map_congr_left fun i _ => (apply_ite (fun x => (⟨x, 0⟩ : FRes)) _ _ _).symm

/-- `vred` (R70, R182). -/
theorem vred_reduces (r o : Nat) (sat m : Bool) (h : Safety.portsReady [a] [d] s) :
    let e := vtType s.cur.vt
    let red := treeRed (elementCount s).log2 (redOp e r o sat) ((List.range (elementCount s)).map
      (fun i => (⟨if Safety.act s m i = true then element s a i else redIdent e o, 0⟩ : FRes)))
    ∃ v, exec (.vred d a r o sat m) s = .next (dropWord (raiseFlags red.fl (putDest d v (takeUnits [a] s)))) ∧
      (∀ i, 0 < i → i < elementCount s → Safety.el (etBits e) i v = 0) ∧ Safety.el (etBits e) 0 v = red.v % 2 ^ etBits e := by
  intro e red
  refine ⟨packEls (etBits e) [red.v], ?_, fun i h0 hi => ?_, el_packEls_type _ (etCount_pos e)⟩
  · refine (congrArg Host.Outcome.next (vecWord_ready h)).trans ?_
    dsimp only
    rw [redLeaves_eq]
  · rw [el_packEls_type _ hi, List.getD_eq_default _ _ (by exact h0), Nat.zero_mod]

/-- `mpop` (R186). -/
theorem mpop_counts (d a : Nat) (s : State) :
    exec (.mpop d a) s = .next (dropWord (s.modMe (fun k => k.setXreg d
      (BitVec.ofNat 64 ((List.range (elementCount s)).filter (fun i => (s.me.mask a).getLsbD i)).length)))) := by
  rw [← popN_eq_length]; rfl

/-- `vcmp` (R176). -/
theorem vcmp_writesMask {c : Nat} (hc : c < 6) (h : Safety.portsReady [a, b] [] s) :
    let e := vtType s.cur.vt
    let order := fun (x y : Int) => [decide (x = y), decide (x ≠ y), decide (x < y), decide (y ≤ x), decide (y < x), decide (x ≤ y)]
    WritesMask (exec (.vcmp d a b c) s) (elementCount s)
      (fun x v => raiseFlags x ((takeUnits [a, b] s).modMe (fun k => k.setMask d v)))
      (fun i => (order (etInt e (element s a i)) (etInt e (element s b i))).getD c false) (fun _ => 0) := by
  intro e order
  exact maskWord_writesMask (fun e x y =>
    ⟨(ordHolds c (if etInt e x < etInt e y then -1 else if etInt e x = etInt e y then 0 else 1)).toNat, 0⟩)
    (fun x y => (order (etInt e x) (etInt e y)).getD c false) h fun x y => (toNat_ne_zero _).trans (ordHolds_compare _ _ hc)

/-- `vfcmp` (R176). -/
theorem vfcmp_writesMask (c : Nat) (h : Safety.portsReady [a, b] [] s) :
    let cmp := fun i => fpCmp (etFmt (vtType s.cur.vt)) c (element s a i) (element s b i)
    WritesMask (exec (.vfcmp d a b c) s) (elementCount s)
      (fun x v => raiseFlags x ((takeUnits [a, b] s).modMe (fun k => k.setMask d v))) (fun i => (cmp i).v == 1) (fun i => (cmp i).fl) :=
  maskWord_writesMask (fun e x y => fpCmp (etFmt e) c x y) _ h (fpCmp_ne_zero (etFmt (vtType s.cur.vt)) c)

end

end Sys2Proof.Machine

namespace Sys2Proof
open Sys2Proof.Machine

/-- Settles O29, a word at a time: what each leaves, element by element of the captured type. -/
theorem vectorMaskAndMoveWords : Obligations.VectorMaskAndMoveWords := by
  intro s d a b c r o k sat m h₂ h₀ h₁
  exact ⟨fun hc => vcmp_writesMask hc h₀, vfcmp_writesMask c h₀, vsel_elementwise h₂, vcompress_gathers h₁, vexpand_elementwise h₁,
    vslide_elementwise k h₁, fun hc => vbcast_elementwise hc h₁, vperm_elementwise m h₁, vred_reduces r o sat m h₁,
    maskOp_writesMask d _ s, maskOp_writesMask d _ s, maskOp_writesMask d _ s, mpop_counts d a s⟩

end Sys2Proof

namespace Sys2Proof.Machine

/-! ### Words of the AP that wait for nothing (R76, R95) -/

/-- An AP word that waits for no load comes to what its body says. -/
theorem apWord_next {regs : List Nat} {body : State → Except Trap State} {s t : State} (h : s.me.ldsWaits regs = false)
    (hb : body s = .ok t) : (.next (apWord regs body s) : Res) = .next t := by
  rw [apWord_free _ _ _ h, hb, settle_ok]

theorem alu3_free {d a b : Nat} {s : State} (h : s.me.ldsWaits [d, a, b] = false) (f : Addr → Addr → Addr) :
    .next (alu3 f d a b s) =
      Safety.apPut 4 d (f (s.me.areg a).val (s.me.areg b).val) ((s.me.areg a).bad || (s.me.areg b).bad) s :=
  apWord_next h rfl

theorem alu2_free {d a : Nat} {s : State} (h : s.me.ldsWaits [d, a] = false) (f : Addr → Addr) :
    .next (alu2 f d a s) = Safety.apPut 4 d (f (s.me.areg a).val) (s.me.areg a).bad s :=
  apWord_next h rfl

/-! ### The functions of the register words (R77, R78) -/

/-- The low half of the 128-bit product is the product of the low halves. -/
theorem mul_eq_extract (x y : Addr) : x * y = (x.signExtend 128 * y.signExtend 128).extractLsb' 0 64 := by
  have low : ∀ z : Addr, (z.signExtend 128).setWidth 64 = z := fun z => by
    rw [← BitVec.signExtend_eq_setWidth_of_le _ (by decide), ← BitVec.toInt_inj,
      BitVec.toInt_signExtend_eq_toInt_bmod_of_le _ (by decide), BitVec.toInt_signExtend_of_le (by decide)]
    exact BitVec.toInt_bmod_cancel z
  rw [← BitVec.setWidth_eq_extractLsb' (by decide), BitVec.setWidth_mul _ _ (by decide), low, low]

theorem extract_high_ofInt (n : Int) : (BitVec.ofInt 128 n).extractLsb' 64 64 = BitVec.ofInt 64 (n / 2 ^ 64) := by
  refine BitVec.eq_of_toNat_eq ?_
  simp only [BitVec.extractLsb'_toNat, BitVec.toNat_ofInt, Nat.shiftRight_eq_div_pow]
  omega

theorem mulHigh_eq_extract (x y : Addr) : mulHigh x y = (x.signExtend 128 * y.signExtend 128).extractLsb' 64 64 := by
  rw [BitVec.signExtend, BitVec.signExtend, ← BitVec.ofInt_mul, extract_high_ofInt, mulHigh]

theorem mulHighU_eq_extract (x y : Addr) : mulHighU x y = (x.zeroExtend 128 * y.zeroExtend 128).extractLsb' 64 64 := by
  have hx := x.isLt
  have hy := y.isLt
  have : x.toNat * y.toNat < 2 ^ 128 := lt_of_lt_of_eq (Nat.mul_lt_mul'' hx hy) (by norm_num)
  refine BitVec.eq_of_toNat_eq ?_
  simp only [mulHighU, BitVec.extractLsb'_toNat, BitVec.toNat_mul, BitVec.toNat_setWidth, BitVec.toNat_ofNat, Nat.shiftRight_eq_div_pow]
  rw [Nat.mod_eq_of_lt (hx.trans (by norm_num) : x.toNat < 2 ^ 128), Nat.mod_eq_of_lt (hy.trans (by norm_num) : y.toNat < 2 ^ 128),
    Nat.mod_eq_of_lt this]

theorem divS_eq (x y : Addr) :
    divS x y = if y = 0 then -1 else if x = BitVec.intMin 64 ∧ y = -1 then BitVec.intMin 64 else x.sdiv y := by
  have hq : BitVec.ofInt 64 (x.toInt.tdiv y.toInt) = x.sdiv y := by
    rw [← BitVec.toInt_inj, BitVec.toInt_sdiv, BitVec.toInt_ofInt]
  have hw : ∀ h : x = BitVec.intMin 64 ∧ y = -1, x.sdiv y = BitVec.intMin 64 := fun ⟨hx, hy⟩ => by
    rw [hx, hy]; exact BitVec.intMin_sdiv_neg_one
  rw [divS, hq]
  refine if_congr Iff.rfl (by decide) ?_
  split
  exacts [hw ‹_›, rfl]

theorem remS_eq (x y : Addr) :
    remS x y = if y = 0 then x else if x = BitVec.intMin 64 ∧ y = -1 then 0 else x.srem y := by
  have hr : BitVec.ofInt 64 (x.toInt.tmod y.toInt) = x.srem y := by
    rw [← BitVec.toInt_srem, BitVec.ofInt_toInt]
  have hw : ∀ h : x = BitVec.intMin 64 ∧ y = -1, x.srem y = 0 := fun ⟨hx, hy⟩ => by
    rw [hx, hy]; decide
  rw [remS, hr]
  refine if_congr Iff.rfl rfl ?_
  split
  exacts [hw ‹_›, rfl]

theorem divU_eq (x y : Addr) : divU x y = if y = 0 then -1 else x / y := by
  have hq : BitVec.ofNat 64 (x.toNat / y.toNat) = x / y := by rw [← BitVec.toNat_udiv, BitVec.ofNat_toNat, BitVec.setWidth_eq]
  exact if_congr Iff.rfl (by decide) hq

theorem remU_eq (x y : Addr) : remU x y = if y = 0 then x else x % y := by
  have hr : BitVec.ofNat 64 (x.toNat % y.toNat) = x % y := by rw [← BitVec.toNat_umod, BitVec.ofNat_toNat, BitVec.setWidth_eq]
  exact if_congr Iff.rfl rfl hr

/-! ### Least and greatest -/

theorem minz_le (x y : Addr) : (if y < x then y else x) = if x.toNat ≤ y.toNat then x else y := by
  simp only [BitVec.lt_def, ← not_le, ite_not]

/-- Of two equal operands of `maxz` it makes no difference which is taken. -/
theorem maxz_le (x y : Addr) : (if x < y then y else x) = if x.toNat ≤ y.toNat then y else x := by
  by_cases he : x.toNat = y.toNat
  · rw [BitVec.eq_of_toNat_eq he, ite_self, ite_self]
  · simp only [BitVec.lt_def, lt_iff_le_and_ne, ne_eq, he, not_false_eq_true, and_true]

end Sys2Proof.Machine

namespace Sys2Proof
open Sys2Proof.Machine

/-- Settles O9: with no register of the word held, each word is its function of the a registers. -/
theorem apRegisterArithmetic : Obligations.ApRegisterArithmetic := by
  intro s d a b ⟨_, _, hfree⟩ x y res
  have word : ∀ (f : Addr → Addr → Addr) {v : Addr}, f x y = v → .next (alu3 f d a b s) = res v := fun f v hv => hv ▸ alu3_free hfree f
  have hsh : (y.extractLsb' 0 6).toNat = y.toNat % 64 := by simp
  exact ⟨word _ rfl, word _ rfl, word _ rfl, word _ rfl, word _ rfl, word _ rfl, word _ (by rw [hsh]), word _ (by rw [hsh]),
    word _ (by rw [hsh]), word _ (mul_eq_extract x y), word _ (mulHigh_eq_extract x y), word _ (mulHighU_eq_extract x y),
    word _ (divS_eq x y), word _ (remS_eq x y), word _ (divU_eq x y), word _ (remU_eq x y), word _ (min_slt x y), word _ (max_slt x y),
    word _ (minz_le x y), word _ (maxz_le x y)⟩

end Sys2Proof

namespace Sys2Proof.Machine

/-! ### The unary words (R81) -/

theorem toSigned_eq_toInt {n : Nat} (hn : 0 < n) (v : Nat) : toSigned n v = (BitVec.ofNat n v).toInt := by
  have h2 : 2 ^ (n - 1) * 2 = 2 ^ n := Nat.two_pow_pred_mul_two hn
  rw [toSigned, BitVec.toInt_eq_toNat_cond, BitVec.toNat_ofNat]
  split <;> split <;> push_cast <;> omega

theorem sext_eq (x : Addr) {w : Nat} (hw : 1 ≤ w) : BitVec.ofInt 64 (toSigned w x.toNat) = (x.extractLsb' 0 w).signExtend 64 := by
  rw [toSigned_eq_toInt hw, BitVec.signExtend]
  congr 2

theorem zext_eq (x : Addr) (w : Nat) : BitVec.ofNat 64 (x.toNat % 2 ^ w) = (x.extractLsb' 0 w).zeroExtend 64 := by
  refine BitVec.eq_of_toNat_eq ?_
  simp

theorem ofNat_clz64 (x : Addr) : BitVec.ofNat 64 (clz64 x) = x.clz := by
  rw [clz64]
  split
  next h => rw [BitVec.clz_eq_iff_eq_zero.2 (BitVec.eq_of_toNat_eq h)]; rfl
  next h =>
    have hx : x ≠ 0 := fun hx => h (by rw [hx]; rfl)
    have hc : x.clz.toNat < 64 := BitVec.clz_lt_iff_ne_zero.2 hx
    have lo := BitVec.two_pow_sub_clz_le_toNat_of_ne_zero (by decide) hx
    have hi := BitVec.toNat_lt_two_pow_sub_clz (x := x)
    have : x.toNat.log2 = 63 - x.clz.toNat := (Nat.log2_eq_iff h).2 ⟨lo, by rwa [show 63 - x.clz.toNat + 1 = 64 - x.clz.toNat by omega]⟩
    rw [this, show 63 - (63 - x.clz.toNat) = x.clz.toNat by omega, BitVec.ofNat_toNat, BitVec.setWidth_eq]

theorem popN_word (x : Addr) : popN 64 x.toNat = ((List.range 64).filter (fun k => x.getLsbD k)).length := by
  have := popN_eq_length 64 (x.setWidth 1024)
  rw [BitVec.toNat_setWidth_of_le (by decide)] at this
  rw [this]
  refine congrArg List.length (List.filter_congr fun i hi => ?_)
  simp [(List.mem_range.1 hi).trans (by decide : 64 < 1024)]

end Sys2Proof.Machine

namespace Sys2Proof
open Sys2Proof.Machine

/-- Settles O10: with no register of the word held, each word is its function of the registers it reads as values. -/
theorem apImmediatesAndUnaryWords : Obligations.ApImmediatesAndUnaryWords := by
  intro s d a b p n w i j hw _ ⟨_, _, hfree⟩ x y res
  have free : ∀ {l : List Nat}, l ⊆ [d, a, b] → s.me.ldsWaits l = false := fun hl => Core.ldsWaits_mono hfree hl
  have word : ∀ (f : Addr → Addr) {v : Addr}, f x = v → .next (alu2 f d a s) = res v := fun f v hv =>
    hv ▸ alu2_free (free (by simp)) f
  exact ⟨word _ rfl, word _ rfl, word _ rfl, word _ rfl, word _ rfl, word _ rfl, word _ rfl, apWord_next (free (by simp)) rfl,
    apWord_next (free (by simp)) rfl, apWord_next (free (by simp)) rfl, word _ (sext_eq x hw), word _ (zext_eq x w),
    word _ (ofNat_clz64 x), word _ (congrArg _ (popN_word x)), alu3_free hfree _⟩

end Sys2Proof

namespace Sys2Proof.Machine

/-! ### Compares and predicates (R82, R84) -/

theorem Core.anyPoison_pair (k : Core) (a b : Nat) : k.anyPoison [a, b] = ((k.areg a).bad || (k.areg b).bad) := by
  simp [Core.anyPoison]

/-- A word that takes POISON at a poisoned source first. -/
theorem apWord_poison {regs srcs : List Nat} {f : State → Except Trap State} {s : State} (h : s.me.ldsWaits regs = false) :
    (.next (apWord regs (fun s => if s.me.anyPoison srcs then .error trapPoison else f s) s) : Res) =
      if s.me.anyPoison srcs = true then Safety.traps trapPoison s else .next (settle (f s) s) := by
  rw [apWord_free _ _ _ h]
  split <;> rfl

theorem cmpWord_free {c p : Nat} {srcs : List Nat} {x y : Core → Addr} {s : State} {v : Bool} (h : s.me.ldsWaits srcs = false)
    (hv : condHolds c (x s.me) (y s.me) = v) :
    .next (cmpWord c p srcs x y s) = if s.me.anyPoison srcs = true then Safety.traps trapPoison s else Safety.apPred p v s :=
  hv ▸ apWord_poison h

end Sys2Proof.Machine

namespace Sys2Proof
open Sys2Proof.Machine

/-- Settles O11: a compare takes POISON or writes the condition; a predicate word reads and writes predicates alone. -/
theorem apComparesAndPredicates : Obligations.ApComparesAndPredicates := by
  intro s p a b q r i ⟨_, _, hfree⟩ x y z poison two one
  have cmp : ∀ (c : Nat) {v : Bool}, condHolds c x y = v → exec (.cmp p a b c) s = two v := fun c v hv => by
    have h := cmpWord_free (p := p) (x := fun k => (k.areg a).val) (y := fun k => (k.areg b).val) hfree hv
    simp only [Core.anyPoison_pair, Bool.or_eq_true] at h
    exact h
  have cmpi : ∀ (c : Nat) {v : Bool}, condHolds c x z = v →
      .next (cmpWord c p [a] (fun k => (k.areg a).val) (fun _ => sx i) s) = one v := fun c v hv => by
    have h := cmpWord_free (p := p) (x := fun k => (k.areg a).val) (y := fun _ => sx i)
      (Core.ldsWaits_mono hfree (by simp : [a] ⊆ [a, b])) hv
    rwa [Core.anyPoison_single] at h
  exact ⟨cmp 0 rfl, cmp 1 (condHolds_ne x y), cmp 2 rfl, cmp 3 (condHolds_ge x y), cmp 4 rfl, cmp 5 rfl,
    cmpi 0 rfl, cmpi 1 (condHolds_ne x z), cmpi 2 rfl, cmpi 3 (condHolds_ge x z), cmpi 4 rfl, cmpi 5 rfl, rfl, rfl, rfl, rfl⟩

end Sys2Proof

namespace Sys2Proof.Machine

/-! ### Transfers of a side (R85-R88) -/

/-- A branch word's target is its address plus four times the signed offset (R8). -/
theorem branchTarget_eq (s : State) (o : BitVec 18) : branchTarget s o = s.cur.addr + 4 * o.signExtend 64 := by
  rw [branchTarget, sx, ← BitVec.twoPow_mul_eq_shiftLeft]
  rfl

/-- A taken branch leaves the loops whose body does not hold its target, and goes there. -/
theorem branch_eq (t : Addr) (s : State) :
    branch t s = (s.modMySide (fun x => { x with
      pc := t, land := true, loops := x.loops.dropWhile (fun e => !decide (e.start ≤ t ∧ t ≤ e.stop)) })).act s.cur.core := by
  have hl : ∀ l, leaveLoops t l = l.dropWhile (fun e => !decide (e.start ≤ t ∧ t ≤ e.stop)) := fun l => by
    simp only [leaveLoops, Bool.decide_and]
  simp only [← hl]
  exact congrArg (State.act s.cur.core) (State.modMySide_modMySide ..)

/-- A choice that a word's body makes is a choice between what its outcomes come to. -/
theorem next_settle_ite (p : Prop) [Decidable p] (x y : Except Trap State) (s : State) :
    (.next (settle (if p then x else y) s) : Res) = if p then .next (settle x s) else .next (settle y s) := by
  split <;> rfl

/-- A `loop` word takes ILLEGAL, skips its body, or pushes its entry (R87). -/
theorem settle_openLoop (n : Nat) (o : BitVec 18) (s : State) :
    .next (settle (openLoop n o s) s) =
      if o.toInt < 1 ∨ 3 ≤ s.mySide.loops.length then Safety.traps (trapAt .illegal) s
      else if n = 0 then .next ((s.modMySide (fun x => { x with pc := branchTarget s o + 4, land := false })).act s.cur.core)
      else .next ((s.modMySide (fun x => { x with
        loops := ⟨s.cur.addr + 4, branchTarget s o, n, 0, 0, 0⟩ :: x.loops, pc := s.cur.addr + 4, land := false })).act s.cur.core) := by
  simp only [openLoop, next_settle_ite]
  rfl

end Sys2Proof.Machine

namespace Sys2Proof
open Sys2Proof.Machine

/-- Settles O12: a transfer is `branch`, `jump` or `openLoop` on the moving side. -/
theorem apTransfers : Obligations.ApTransfers := by
  intro s p c d a o ⟨_, _, hfree⟩ T c₀ taken n x
  have free : ∀ {l : List Nat}, l ⊆ [31, c, d, a] → s.me.ldsWaits l = false := fun hl => Core.ldsWaits_mono hfree hl
  have hT : branchTarget s o = T := branchTarget_eq s o
  have hbranch : .next (branch (branchTarget s o) s) = taken := by rw [hT, branch_eq]
  have hn : ∀ v : Addr, v.toNat = 0 ↔ v = 0 := fun v => (BitVec.toNat_eq (y := 0)).symm
  refine ⟨hbranch, ?_, ?_, ?_, ?_, ?_⟩
  · rw [← hbranch, ← apply_ite Host.Outcome.next]; rfl
  · rw [← hbranch, ← apply_ite Host.Outcome.next]; rfl
  · change execCall o s = _
    rw [execCall, apWord_free _ _ _ (free (by simp)), hT]; rfl
  · change execLoop c o s = _
    rw [execLoop, apWord_poison (free (by simp)), Core.anyPoison_single, settle_openLoop, hT]
    simp only [hn]
    rfl
  · change execJr d a s = _
    rw [execJr, apWord_poison (free (by simp)), Core.anyPoison_single, next_settle_ite]
    rfl

end Sys2Proof

namespace Sys2Proof.Machine

/-! ### The loop check after a word (R87, R164, R165) -/

/-- An update of the moving core is what it makes of that core. -/
theorem State.modMe_congr {s : State} {f g : Core → Core} (h : f s.me = g s.me) : s.modMe f = s.modMe g :=
  congrArg (s.setCore s.cur.core) h

theorem Core.modSide_congr {k : Core} {sd : Side} {f g : SideSt → SideSt} (h : f (k.side sd) = g (k.side sd)) :
    k.modSide sd f = k.modSide sd g := by
  cases sd
  exacts [congrArg (fun x => { k with ap := x }) h, congrArg (fun x => { k with xp := x }) h]

theorem State.modMySide_modMe (s : State) (f : Core → Core) (g : SideSt → SideSt) :
    (s.modMe f).modMySide g = s.modMe (fun k => (f k).modSide s.cur.side g) := State.modMe_modMe s f _

/-- The moving side is given a loop stack, a pc and a landing check; VT and G are given to its core. -/
def loopSide (r : LoopEnd) (pc : Addr) (x : SideSt) : SideSt := { x with loops := r.loops, pc := pc, land := r.back.isSome, wait := none }

/-- A word completes with what its loop check leaves. -/
theorem finishN_loopEnd {len : Nat} {s : State} {r : LoopEnd} (h : loopEnd len s = r) :
    finishN len s = (s.modMe (fun k => ({ k with vt := r.vt, g := r.g }).modSide s.cur.side
      (loopSide r (r.back.getD (s.cur.addr + BitVec.ofNat 64 len))))).act s.cur.core := by
  subst h; rfl

/-- A word whose loop check goes on from a shorter stack, another VT and another G completes as from a core that has them. -/
theorem finishN_popped {len : Nat} {s : State} {v : BitVec 64} {g : BitVec 16} {l : List Loop}
    (h : loopEnd len s = closeLoops (fun e => e == s.cur.addr || (len == 8 && e == s.cur.addr + 4)) v g l) :
    finishN len s = finishN len (s.modMe (fun k => ({ k with vt := v, g := g }).modSide s.cur.side (fun x => { x with loops := l }))) := by
  generalize hu : s.modMe (fun k => ({ k with vt := v, g := g }).modSide s.cur.side (fun x => { x with loops := l })) = u
  have hme : u.me = ({ s.me with vt := v, g := g }).modSide s.cur.side (fun x => { x with loops := l }) := by
    rw [← hu, State.me_modMe]
  have hcur : u.cur = s.cur := by rw [← hu]; rfl
  have hl : loopEnd len u = loopEnd len s := by
    rw [h, loopEnd, State.mySide, hme, hcur, Core.side_modSide]
    simp
  rw [finishN_loopEnd hl, finishN_loopEnd rfl, hcur, ← hu, State.modMe_modMe]
  refine congrArg (State.act _) (State.modMe_congr ?_)
  cases s.cur.side <;> rfl

theorem finishN_past {len : Nat} {s : State} (h : loopEnd len s = ⟨s.mySide.loops, none, s.me.vt, s.me.g⟩) :
    finishN len s =
      (s.modMySide (fun x => { x with pc := s.cur.addr + BitVec.ofNat 64 len, land := false, wait := none })).act s.cur.core := by
  rw [finishN_loopEnd h]
  exact congrArg (State.act _) (State.modMe_congr (Core.modSide_congr (k := s.me) rfl))

section

variable {len : Nat} {s : State} {t : Loop} {r : List Loop}

/-- The loop check at the top entry of the stack. -/
theorem loopEnd_top (hl : s.mySide.loops = t :: r) (hend : t.stop = s.cur.addr ∨ (len = 8 ∧ t.stop = s.cur.addr + 4)) :
    loopEnd len s =
      let v := if t.sl = 0 then s.me.vt else rotStep s.me.vt
      let g := if t.sl = 0 then s.me.g else (s.me.g <<< 1) ||| (if t.started < t.n then 1 else 0)
      if 1 < t.left then
        ⟨{ t with left := t.left - 1, started := if t.started < t.n then t.started + 1 else t.started } :: r, some t.start, v, g⟩
      else closeLoops (fun e => e == s.cur.addr || (len == 8 && e == s.cur.addr + 4)) v g r := by
  rw [loopEnd, hl, closeLoops, if_pos (by simpa using hend)]
  exact if_congr Nat.sub_pos_iff_lt rfl rfl

theorem loopEnd_elsewhere (hl : s.mySide.loops = t :: r)
    (hend : ¬ (t.stop = s.cur.addr ∨ (len = 8 ∧ t.stop = s.cur.addr + 4))) :
    loopEnd len s = ⟨s.mySide.loops, none, s.me.vt, s.me.g⟩ := by
  rw [loopEnd, hl, closeLoops, if_neg (by simpa using hend)]

end

end Sys2Proof.Machine

namespace Sys2Proof
open Sys2Proof.Machine

/-- Settles O24: closeLoops at the top entry, then on the rest of the stack. -/
theorem loopChecksAfterAWord : Obligations.LoopChecksAfterAWord := by
  intro s len _ here past
  refine ⟨fun h => finishN_past (by rw [loopEnd, h]; rfl), fun t r hl => ?_⟩
  intro back popped rotated turned
  refine ⟨fun h => finishN_past (loopEnd_elsewhere hl h), fun h hs hn => ?_, fun h hs => ?_⟩ <;> have he := loopEnd_top hl h
  · simp only [hs, hn, if_true, Nat.not_lt_zero, if_false] at he
    refine ⟨fun hleft => ?_, fun hleft => ?_⟩
    · rw [finishN_loopEnd (he.trans (if_pos hleft))]
      refine congrArg (State.act _) (State.modMe_congr (Core.modSide_congr (k := s.me) ?_))
      simp only [loopSide, hs, hn]
      rfl
    · rw [finishN_popped (he.trans (if_neg (Nat.not_lt.2 hleft)))]
      exact congrArg (finishN len) (State.modMe_congr rfl)
  · simp only [hs, if_false] at he
    refine ⟨fun hleft => ?_, fun hleft => ?_⟩
    · rw [finishN_loopEnd (he.trans (if_pos hleft))]
      exact congrArg (State.act _) (Eq.trans (State.modMe_congr (by exact rfl)) (State.modMySide_modMe ..).symm)
    · rw [finishN_popped (he.trans (if_neg (Nat.not_lt.2 hleft)))]
      exact congrArg (finishN len) (Eq.trans (State.modMe_congr (by exact rfl)) (State.modMySide_modMe ..).symm)

end Sys2Proof

namespace Sys2Proof.Machine

/-! ### Addresses in apertures, and the AP's queues (R90, R96, R100-R102) -/

theorem apertureTag_eq {p : Nat} (hp : p < 4) : apertureTag p = [0x00, 0xF0, 0xF8, 0xFC].getD p 0 := by
  interval_cases p <;> rfl

/-- An address is valid in an aperture when its tag is the aperture's and it has a place. -/
theorem validIn_eq (s : State) (c : Nat) (x : Addr) {p : Nat} (hp : p < 4) :
    validIn s c p x = (decide (x.toNat / 2 ^ 56 = [0x00, 0xF0, 0xF8, 0xFC].getD p 0) && (s.place c x).isSome) := by
  have hx := x.isLt
  rw [validIn, apertureTag_eq hp, nfld, Nat.mod_eq_of_lt (by omega), beq_eq_decide]

/-- The 56 bits of an address below its tag. -/
theorem ofNat_low_bits (x : Addr) : BitVec.ofNat 64 (nfld x.toNat 0 56) = x &&& 0x00FFFFFFFFFFFFFF := by
  refine BitVec.eq_of_getLsbD_eq fun i hi => ?_
  have hm : (0x00FFFFFFFFFFFFFF : Addr).getLsbD i = decide (i < 56) := by
    revert i; decide
  rw [BitVec.getLsbD_ofNat, BitVec.getLsbD_and, hm, nfld, Nat.pow_zero, Nat.div_one, Nat.testBit_mod_two_pow]
  simp [hi, BitVec.getLsbD, Bool.and_comm]

/-- A scalar register that the AP writes is an a register. -/
theorem State.put_ap {s : State} (h : s.cur.side = .ap) (d : Nat) (v : Addr) : s.put d v = putA d ⟨v, false⟩ s := by
  rw [State.put, h]; rfl

/-- A queue that has room takes the value, one that is full leaves the state as it is (R15). -/
theorem next_queuePut (q : Nat) (v : Addr) (s : State) :
    (.next (queuePut q v s) : Res) = if 16 ≤ (s.me.queue q).length then .next s
      else .next (finish (s.modMe (fun k => { k with queues := tset k.queues q (k.queue q ++ [v]) }))) :=
  apply_ite Host.Outcome.next ..

end Sys2Proof.Machine

namespace Sys2Proof
open Sys2Proof.Machine

/-- Settles O18: with its registers free, each word is the choice its body makes. -/
theorem apAddressAndQueueWords : Obligations.ApAddressAndQueueWords := by
  intro s d a p q hp ⟨hside, _, hfree⟩ c x bad tag poison up valid
  have hd : s.me.ldsWaits [d] = false := Core.ldsWaits_mono hfree (by simp)
  have ha : s.me.ldsWaits [a] = false := Core.ldsWaits_mono hfree (by simp)
  refine ⟨?_, ?_, ?_, ?_, ?_, ?_⟩
  · change execChk a s = _
    rw [execChk, apWord_poison ha, Core.anyPoison_single]; rfl
  · change execCvtaTo d a p s = _
    rw [execCvtaTo, apWord_free _ _ _ hfree]
    simp only [apertureTag_eq hp, next_settle_ite]
    rfl
  · change execCvtaOf d a p s = _
    rw [execCvtaOf, apWord_free _ _ _ hfree]
    simp only [validIn_eq _ _ _ hp, ofNat_low_bits, next_settle_ite]
    rfl
  · change execIsap d a p s = _
    rw [execIsap, apWord_poison ha, Core.anyPoison_single]
    simp only [validIn_eq _ _ _ hp]
    rfl
  · change execQput q a s = _
    rw [execQput, apWord_free _ _ _ ha]
    simp only [Core.anyPoison_single, next_settle_ite, settle_ok, next_queuePut]
    rfl
  · change execQget d q s = _
    rw [execQget, apWord_free _ _ _ hd, next_settle_ite, settle_ok, queueGet]
    cases s.me.queue q with
    | nil => rfl
    | cons v r => dsimp only; rw [State.put_ap (by exact hside)]; rfl

end Sys2Proof

namespace Sys2Proof.Machine

/-! ### The checks of an access (R91) -/

theorem checkAccess_misaligned {s : State} {c n : Nat} {ea : Addr} {acc : Acc} (h : ea.toNat % n ≠ 0) :
    checkAccess s c ea n acc = .error (trapOn .alignIssue ea) := if_pos h

/-- An aligned access takes the first check of its address that fails. -/
theorem checkAccess_aligned {s : State} {c n : Nat} {ea : Addr} {acc : Acc} (h : ea.toNat % n = 0) :
    checkAccess s c ea n acc = (checkAddr s c ea acc).mapError (fun e => trapOn e ea) := by
  rw [checkAccess, if_neg (not_not.2 h)]
  cases checkAddr s c ea acc <;> rfl

theorem checkAddr_none {s : State} {c : Nat} {ea : Addr} {acc : Acc} (h : s.place c ea = none) :
    checkAddr s c ea acc = .error .aperture := by
  rw [checkAddr, h]

theorem checkAddr_glob {s : State} {c ctx va : Nat} {ea : Addr} {acc : Acc} (h : s.place c ea = some (.glob ctx va)) :
    checkAddr s c ea acc = (checkGlobal s c ctx va acc).elim (.ok (.glob ctx va)) .error := by
  rw [checkAddr, h]
  dsimp only
  cases checkGlobal s c ctx va acc <;> rfl

theorem checkAddr_local {s : State} {c : Nat} {ea : Addr} {p : Place} {acc : Acc} (h : s.place c ea = some p)
    (hp : ∀ ctx va, p ≠ .glob ctx va) : checkAddr s c ea acc = .ok p := by
  rw [checkAddr, h]
  cases p with
  | glob ctx va => exact absurd rfl (hp ctx va)
  | sram => rfl
  | pool => rfl

/-- What an access that lacks the rights of its page and region would do. -/
def accessDenied (acc : Acc) (p : Page) (r : RegionEntry) : Prop :=
  if acc = .store then r.st = .frozen ∨ p.w = false else p.r = false

theorem checkGlobal_mapped {s : State} {c ctx va : Nat} {acc : Acc} {p : Page} {r : RegionEntry}
    (hp : s.translation (dieOf c) ctx va = some p) (hr : s.region ctx va = some r) :
    (r.st = .priv ∧ r.owner ≠ c → checkGlobal s c ctx va acc = some .owner) ∧
    (¬ (r.st = .priv ∧ r.owner ≠ c) → accessDenied acc p r → checkGlobal s c ctx va acc = some .perm) ∧
    (¬ (r.st = .priv ∧ r.owner ≠ c) → ¬ accessDenied acc p r → (s.unitMeta c va).1 ≠ 0 →
      checkGlobal s c ctx va acc = some .compressed) ∧
    (¬ (r.st = .priv ∧ r.owner ≠ c) → ¬ accessDenied acc p r → ¬ (s.unitMeta c va).1 ≠ 0 → checkGlobal s c ctx va acc = none) := by
  have hiff : ((acc = .store ∧ (r.st = .frozen ∨ p.w = false)) ∨ (acc ≠ .store ∧ p.r = false)) ↔ accessDenied acc p r := by
    unfold accessDenied; by_cases h : acc = .store <;> simp [h]
  rw [checkGlobal, hp, hr]
  dsimp only
  exact ⟨fun h => if_pos h, fun h hd => by rw [if_neg h, if_pos (hiff.2 hd)],
    fun h hd hm => by rw [if_neg h, if_neg (mt hiff.1 hd), if_pos hm],
    fun h hd hm => by rw [if_neg h, if_neg (mt hiff.1 hd), if_neg hm]⟩

theorem checkGlobal_unmapped {s : State} {c ctx va : Nat} {acc : Acc}
    (h : s.translation (dieOf c) ctx va = none ∨ s.region ctx va = none) : checkGlobal s c ctx va acc = some .xlate := by
  rw [checkGlobal]
  split
  next hp hr => rw [hp, hr] at h; simp at h
  next => rfl

theorem translation_page {s : State} {die ctx va : Nat} {p : Page} (h : s.page ctx va = some p) : s.translation die ctx va = some p := by
  rw [State.translation, h]

/-- Without a page in force the translation is one that the die's cache still holds, if any (R263). -/
theorem translation_cached {s : State} {die ctx va : Nat} (h : s.page ctx va = none) :
    s.translation die ctx va = none ∨ ∃ p ∈ (s.die die).tlb.filter (fun p => p.holds ctx va), s.translation die ctx va = some p := by
  rw [State.translation, h]
  dsimp only
  cases hf : (s.die die).tlb.find? (fun p => p.holds ctx va && Config.oldPage s.turns die) with
  | none => exact .inl rfl
  | some p =>
    have hh := List.find?_some hf
    exact .inr ⟨p, List.mem_filter.2 ⟨List.mem_of_find?_eq_some hf, (Bool.and_eq_true_iff.1 hh).1⟩, rfl⟩

end Sys2Proof.Machine

namespace Sys2Proof
open Sys2Proof.Machine

/-- Settles O14: checkAccess is the alignment check, the place, and at a global address the checks under a page and an entry. -/
theorem accessChecksInOrder : Obligations.AccessChecksInOrder := by
  intro s c n ea acc got
  refine ⟨fun h => checkAccess_misaligned h, fun h => ?_⟩
  have hgot : got = (checkAddr s c ea acc).mapError (fun e => trapOn e ea) := checkAccess_aligned h
  refine ⟨fun hp => by rw [hgot, checkAddr_none hp]; rfl, fun p hp hl => by rw [hgot, checkAddr_local hp hl]; rfl, fun ctx va hp => ?_⟩
  intro cached under
  rw [checkAddr_glob hp] at hgot
  have fault : ∀ {e : Code}, checkGlobal s c ctx va acc = some e → got = .error (trapOn e ea) := fun he => by rw [hgot, he]; rfl
  have hunder : ∀ p r, s.translation (dieOf c) ctx va = some p → s.region ctx va = some r → under p r := fun p r ht hr => by
    obtain ⟨ho, hperm, hpack, hok⟩ := checkGlobal_mapped (acc := acc) ht hr
    exact ⟨fun h => fault (ho h), fun h hd => fault (hperm h hd), fun h hd hm => fault (hpack h hd hm),
      fun h hd hm => by rw [hgot, hok h hd hm]; rfl⟩
  have hgone : s.page ctx va = none ∧ cached = [] → s.translation (dieOf c) ctx va = none := fun ⟨hp, hc⟩ =>
    (translation_cached hp).resolve_right fun ⟨p, hm, _⟩ => absurd (hc ▸ hm : p ∈ []) List.not_mem_nil
  refine ⟨fun h => fault (checkGlobal_unmapped (h.imp_left hgone)), fun p r hp hr => hunder p r (translation_page hp) hr, fun r hp hr => ?_⟩
  obtain ht | ⟨p, hm, ht⟩ := translation_cached (die := dieOf c) hp
  · exact .inl (fault (checkGlobal_unmapped (.inl ht)))
  · exact .inr ⟨p, hm, hunder p r ht hr⟩

end Sys2Proof

namespace Sys2Proof.Machine

/-! ### What accesses of memory leave of the part

An access changes the bytes, their poison, the remote-line caches, what the part keeps of past contents and of lost writes, and the draw of
free values. `MemStep` says so; without a failing link it leaves the bridge alone and marks no read as lost. -/

/-- Two states of the part of which the later comes from the earlier by accesses of memory. -/
structure MemStep (s t : State) : Prop where
  rest : { t with mem := s.mem, bad := s.bad, past := s.past, dies := s.dies, bridge := s.bridge, count := s.count, cur := s.cur } = s
  dies : ∀ d, { t.die d with rlc := (s.die d).rlc, invs := (s.die d).invs } = s.die d
  cur : { t.cur with lost := s.cur.lost } = s.cur
  calm : s.cur.link = none → t.cur.lost = s.cur.lost ∧ t.bridge = s.bridge

namespace MemStep

variable {s t u : State}

theorem refl (s : State) : MemStep s s := ⟨rfl, fun _ => rfl, rfl, fun _ => ⟨rfl, rfl⟩⟩

theorem link (h : MemStep s t) : t.cur.link = s.cur.link := by rw [← h.cur]

theorem curCore (h : MemStep s t) : t.cur.core = s.cur.core := by
  have hc := congrArg Cur.core h.cur
  exact hc

theorem trans (h : MemStep s t) (h' : MemStep t u) : MemStep s u where
  rest := (congrArg (fun x : State => { x with
    mem := s.mem, bad := s.bad, past := s.past, dies := s.dies, bridge := s.bridge, count := s.count, cur := s.cur }) h'.rest).trans h.rest
  dies d := (congrArg (fun x : Die => { x with rlc := (s.die d).rlc, invs := (s.die d).invs }) (h'.dies d)).trans (h.dies d)
  cur := (congrArg (fun x : Cur => { x with lost := s.cur.lost }) h'.cur).trans h.cur
  calm hl := by
    obtain ⟨h1, h2⟩ := h.calm hl
    obtain ⟨h3, h4⟩ := h'.calm (h.link.trans hl)
    exact ⟨h3.trans h1, h4.trans h2⟩

/-- A change of bytes, poison, past contents and the draw alone. -/
theorem of_rest (h : { t with mem := s.mem, bad := s.bad, past := s.past, count := s.count } = s) : MemStep s t := by
  have hd : t.dies = s.dies := by rw [← h]
  have hc : t.cur = s.cur := by rw [← h]
  have hb : t.bridge = s.bridge := by rw [← h]
  refine ⟨?_, fun d => ?_, by rw [hc], fun _ => ⟨by rw [hc], hb⟩⟩
  · rw [← hd, ← hc, ← hb]; exact h
  · simp only [State.die, hd]

/-- A change of a die's cache and of the invalidations sent to it. -/
theorem modDie (n : Nat) {f : Die → Die} (hf : { f (s.die n) with rlc := (s.die n).rlc, invs := (s.die n).invs } = s.die n) :
    MemStep s (s.modDie n f) := by
  refine ⟨rfl, fun d => ?_, rfl, fun _ => ⟨rfl, rfl⟩⟩
  by_cases hd : d = n
  · subst hd; rw [State.die_modDie]; exact hf
  · rw [State.die_modDie_ne _ _ _ _ hd]

theorem foldl {α : Type} {f : State → α → State} (hf : ∀ s x, MemStep s (f s x)) (l : List α) (s : State) :
    MemStep s (l.foldl f s) := by
  induction l generalizing s with
  | nil => exact refl s
  | cons x r ih => exact (hf s x).trans (ih _)

/-- What an access leaves of the fields that it does not change. -/
theorem eq (h : MemStep s t) : t = { s with
    mem := t.mem, bad := t.bad, past := t.past, dies := t.dies, bridge := t.bridge, count := t.count, cur := t.cur } :=
  (congrArg (fun x : State => { x with
    mem := t.mem, bad := t.bad, past := t.past, dies := t.dies, bridge := t.bridge, count := t.count, cur := t.cur }) h.rest)

theorem cur_eq (h : MemStep s t) (hl : s.cur.link = none) : t.cur = s.cur := by
  rw [← h.cur, ← (h.calm hl).1]

end MemStep

section

variable (s : State)

theorem poisonKey_step (k : Nat) : MemStep s (poisonKey k s) := .of_rest (by unfold poisonKey; split <;> rfl)

theorem cleanKey_step (k : Nat) : MemStep s (cleanKey k s) := .of_rest rfl

theorem keepPast_step (l : RlcLine) : MemStep s (keepPast l s) := .of_rest (by unfold keepPast; dsimp only; split <;> rfl)

theorem putLine_step (die : Nat) (l : RlcLine) : MemStep s (s.modDie die (fun d => d.putLine l)) := .modDie _ rfl

theorem writeMem_step (m : List Host.Cell) : MemStep s { s with mem := m } := .of_rest rfl

theorem sawLost_step (h : s.cur.link.isSome = true) : MemStep s (sawLost s) :=
  ⟨rfl, fun _ => rfl, rfl, fun hl => by rw [hl] at h; cases h⟩

theorem loseWrite_step {l : Nat} (h : s.wlink = some l) (die key n : Nat) (a : Addr) (cores : List Nat) :
    MemStep s (loseWrite l die key n a cores s) :=
  ⟨rfl, fun _ => rfl, rfl, fun hl => by rw [State.wlink, hl] at h; split at h <;> cases h⟩

theorem applyInv_step (die ctx line : Nat) : MemStep s (applyInv die ctx line s) := by
  refine .modDie _ ?_
  dsimp only
  split
  · split <;> rfl
  · rfl

theorem sendInv_step (die ctx line : Nat) : MemStep s (sendInv die ctx line s) := by
  unfold sendInv
  split
  · exact .modDie _ rfl
  · exact .refl s

theorem writeHome_step (l : RlcLine) : MemStep s (writeHome l s) := by
  have h := (keepPast_step s (homeLine s l.ctx l.line)).trans (writeMem_step _ (memWrite (keepPast (homeLine s l.ctx l.line) s).mem
    (globKey l.ctx (l.line * 64)) (bvBytes 64 l.data)))
  unfold writeHome
  dsimp only
  split
  exacts [h.trans (poisonKey_step _ _), h.trans (cleanKey_step _ _)]

theorem writeBack_step (die : Nat) (l : RlcLine) : MemStep s (writeBack die l s) := by
  unfold writeBack
  split
  · dsimp only
    split
    next k h => exact (loseWrite_step s h ..).trans (putLine_step ..)
    next => exact (writeHome_step s l).trans (putLine_step ..)
  · exact .refl s

theorem recallLine_step (die ctx line : Nat) : MemStep s (recallLine die ctx line s) := by
  unfold recallLine
  split
  · exact writeBack_step ..
  · exact .refl s

theorem flushDie_step (die : Nat) : MemStep s (flushDie die s) :=
  (MemStep.foldl (fun s l => writeBack_step s die l) _ s).trans (MemStep.foldl (fun s (p : Nat × Nat) => applyInv_step s (1 - die) p.1 p.2) _ _)

theorem markWrite_step (key n : Nat) (b : Bool) : MemStep s (markWrite key n b s) := by
  refine MemStep.foldl (fun s g => ?_) _ s
  split
  · exact poisonKey_step ..
  · split
    exacts [cleanKey_step .., .refl s]

theorem writeKey_step (key : Nat) (l : List Byte) (b : Bool) : MemStep s (writeKey key l b s) :=
  (writeMem_step s _).trans (markWrite_step ..)

theorem writeAtHome_step (die ctx va : Nat) (l : List Byte) (b : Bool) : MemStep s (writeAtHome die ctx va l b s) := by
  have hr := recallLine_step s (1 - s.homeDie (.glob ctx va)) ctx (va / 64)
  unfold writeAtHome
  dsimp only
  have hk : ∀ t, MemStep s t → MemStep s (writeKey (globKey ctx va) l b t) := fun t h => h.trans (writeKey_step ..)
  split <;> split
  exacts [(hk _ (hr.trans (keepPast_step ..))).trans (sendInv_step ..), (hk _ hr).trans (sendInv_step ..),
    (hk _ (hr.trans (keepPast_step ..))).trans (applyInv_step ..), (hk _ hr).trans (applyInv_step ..)]

theorem writeCached_step (die ctx va : Nat) (l : List Byte) (b : Bool) : MemStep s (writeCached die ctx va l b s) :=
  (keepPast_step s _).trans (putLine_step ..)

theorem writeLine_step (c die ctx va : Nat) (l : List Byte) (b : Bool) (sv : Serve) : MemStep s (writeLine c die ctx va l b sv s) := by
  unfold writeLine
  dsimp only
  split
  · have hi : MemStep s (if (s.die die).invs.contains (ctx, va / 64) then applyInv die ctx (va / 64) s else s) := by
      split
      exacts [applyInv_step .., .refl s]
    generalize (if (s.die die).invs.contains (ctx, va / 64) then applyInv die ctx (va / 64) s else s) = t at hi ⊢
    refine hi.trans ?_
    split
    next k hk _ => exact loseWrite_step t hk ..
    next => exact writeCached_step ..
  · cases hw : s.wlink with
    | none => exact writeAtHome_step ..
    | some k =>
      dsimp only
      split
      exacts [loseWrite_step s hw .., writeAtHome_step ..]

theorem writeLines_step (fuel c die ctx va : Nat) (l : List Byte) (b : Bool) (sv : Serve) :
    MemStep s (writeLines fuel c die ctx va l b sv s) := by
  induction fuel generalizing s va l with
  | zero => exact .refl s
  | succ fuel ih =>
    rw [writeLines]
    split
    · exact .refl s
    · exact (writeLine_step ..).trans (ih ..)

/-- A write at a place. -/
theorem writePlace_step (c die : Nat) (p : Place) (l : List Byte) (b : Bool) (sv : Serve) : MemStep s (writePlace c die p l b sv s) := by
  have hk : ∀ p : Place, MemStep s (match s.wlink with
      | some k => if s.homeDie p ≠ die then loseWrite k die p.key l.length p.addr [c] s else writeKey p.key l b s
      | none => writeKey p.key l b s) := fun p => by
    split
    next k hk =>
      split
      exacts [loseWrite_step s hk .., writeKey_step ..]
    next => exact writeKey_step ..
  cases p with
  | glob ctx va => exact writeLines_step ..
  | sram => exact hk _
  | pool => exact hk _

/-! ### Reads -/

/-- A relaxed read of bytes of a line. -/
theorem readRelaxed_step (die ctx va n : Nat) : MemStep s (readRelaxed s die ctx va n).1 := by
  unfold readRelaxed
  dsimp only
  split
  · split
    · exact .refl s
    · split
      next hl => exact sawLost_step s hl
      next => exact putLine_step ..
  · split
    next hl => exact sawLost_step s hl.2
    next => exact .refl s

theorem readHomeLine_step (die ctx va n : Nat) : MemStep s (readHomeLine s die ctx va n).1 := by
  have hr := recallLine_step s (1 - s.homeDie (.glob ctx va)) ctx (va / 64)
  unfold readHomeLine
  dsimp only
  split
  · exact hr
  · split
    next hl => exact hr.trans (sawLost_step _ hl)
    next => exact hr.trans (applyInv_step ..)

theorem readInv_step (die ctx va n : Nat) : MemStep s (readInv s die ctx va n).1 := by
  have hr := readRelaxed_step s die ctx va n
  unfold readInv
  dsimp only
  split
  · exact hr
  · exact hr.trans (.of_rest rfl)

theorem readLine_step (die ctx va n : Nat) (sv : Serve) : MemStep s (readLine s die ctx va n sv).1 := by
  cases sv with
  | relaxed => exact readRelaxed_step ..
  | home => exact readHomeLine_step ..
  | inv => exact readInv_step ..

theorem readLines_step (fuel die ctx va n : Nat) (sv : Serve) : MemStep s (readLines fuel s die ctx va n sv).1 := by
  induction fuel generalizing s va n with
  | zero => exact .refl s
  | succ fuel ih =>
    rw [readLines]
    split
    · exact .refl s
    · exact (readLine_step ..).trans (ih ..)

/-- A read at a place. -/
theorem readPlace_step (die : Nat) (p : Place) (n : Nat) (sv : Serve) : MemStep s (readPlace s die p n sv).1 := by
  have hk : ∀ p : Place, MemStep s (if s.homeDie p ≠ die ∧ s.cur.link.isSome = true then (sawLost s, lostRead p.key n)
      else (s, readKey s p.key n)).1 := fun p => by
    split
    next hl => exact sawLost_step s hl.2
    next => exact .refl s
  cases p with
  | glob ctx va => exact readLines_step ..
  | sram => exact hk _
  | pool => exact hk _

end

end Sys2Proof.Machine

namespace Sys2Proof.Machine

/-! ### An access that passes its checks (R91) -/

theorem checkAccess_ok {s : State} {c n : Nat} {ea : Addr} {acc : Acc} {p : Place} (h : checkAccess s c ea n acc = .ok p) :
    ea.toNat % n = 0 ∧ s.place c ea = some p := by
  by_cases ha : ea.toNat % n = 0
  · refine ⟨ha, ?_⟩
    rw [checkAccess_aligned ha] at h
    cases hp : s.place c ea with
    | none => rw [checkAddr_none hp] at h; cases h
    | some q =>
      have hq : checkAddr s c ea acc = .ok q ∨ ∃ e, checkAddr s c ea acc = .error e := by
        cases q with
        | glob ctx va =>
          rw [checkAddr_glob hp]
          cases checkGlobal s c ctx va acc with
          | none => exact .inl rfl
          | some e => exact .inr ⟨e, rfl⟩
        | sram => exact .inl (checkAddr_local hp (by simp))
        | pool => exact .inl (checkAddr_local hp (by simp))
      rcases hq with hq | ⟨e, hq⟩ <;> rw [hq] at h <;> cases h
      rfl
  · rw [checkAccess_misaligned ha] at h; cases h

/-- An aligned access of 1, 2, 4 or 8 bytes of global memory lies in one line. -/
theorem checkAccess_in_line {s : State} {c w ctx va : Nat} {ea : Addr} {acc : Acc} (hw : w ≤ 3)
    (h : checkAccess s c ea (2 ^ w) acc = .ok (.glob ctx va)) : va % 64 + 2 ^ w ≤ 64 := by
  obtain ⟨ha, hp⟩ := checkAccess_ok h
  have hva := place_glob hp
  interval_cases w <;> omega

/-! ### A read returns as many bytes as it asks for -/

theorem RlcLine.got_length (l : RlcLine) {va n : Nat} (h : va % 64 + n ≤ 64) : (l.got va n).bytes.length = n := by
  rw [l.got_bytes h]; simp

theorem readKey_length (s : State) (key n : Nat) : (readKey s key n).bytes.length = n := by simp [readKey, memRead]

theorem lostRead_length (key n : Nat) : (lostRead key n).bytes.length = n := by simp [lostRead]

theorem readHomeLine_length (s : State) (die ctx va n : Nat) : (readHomeLine s die ctx va n).2.bytes.length = n := by
  unfold readHomeLine
  dsimp only
  split
  · exact readKey_length ..
  · split
    exacts [lostRead_length .., readKey_length ..]

/-- An entry of a nonempty list read with its head as the default. -/
theorem getD_cons_cases {α : Type} (x : α) (l : List α) (i : Nat) : (x :: l).getD i x = x ∨ (x :: l).getD i x ∈ l := by
  cases i with
  | zero => exact .inl rfl
  | succ i =>
    by_cases hi : i < l.length
    · exact .inr (by simp [hi])
    · exact .inl (by simp [hi])

section

variable {s : State} {die ctx va n : Nat} (h : va % 64 + n ≤ 64)
include h

theorem readRelaxed_length : (readRelaxed s die ctx va n).2.bytes.length = n := by
  unfold readRelaxed
  dsimp only
  split
  · split
    · exact RlcLine.got_length _ h
    · split
      exacts [lostRead_length .., RlcLine.got_length _ h]
  · split
    exacts [lostRead_length .., readKey_length ..]

theorem invGots_length {g x : Got} (hx : x ∈ invGots s ctx va n g) : x.bytes.length = n := by
  unfold invGots at hx
  dsimp only at hx
  split at hx
  · obtain ⟨l, -, rfl⟩ := List.mem_map.1 (List.mem_filter.1 hx).1
    exact l.got_length h
  · cases hx

theorem readInv_length : (readInv s die ctx va n).2.bytes.length = n := by
  have hg := readRelaxed_length (s := s) (die := die) (ctx := ctx) h
  unfold readInv
  dsimp only
  split
  · exact hg
  · rcases getD_cons_cases (readRelaxed s die ctx va n).2 (invGots s ctx va n (readRelaxed s die ctx va n).2) _ with hx | hx
    · exact (congrArg (fun x : Got => x.bytes.length) hx).trans hg
    · exact invGots_length h hx

theorem readLine_length (sv : Serve) : (readLine s die ctx va n sv).2.bytes.length = n := by
  cases sv with
  | relaxed => exact readRelaxed_length h
  | home => exact readHomeLine_length ..
  | inv => exact readInv_length h

end

/-- An access of the AP that passes its checks returns as many bytes as its width. -/
theorem readPlace_length {s : State} {c w die : Nat} {ea : Addr} {acc : Acc} {p : Place} (hw : w ≤ 3)
    (h : checkAccess s c ea (2 ^ w) acc = .ok p) (t : State) (sv : Serve) : (readPlace t die p (2 ^ w) sv).2.bytes.length = 2 ^ w := by
  have hk : ∀ p : Place, (if t.homeDie p ≠ die ∧ t.cur.link.isSome = true then (sawLost t, lostRead p.key (2 ^ w))
      else (t, readKey t p.key (2 ^ w))).2.bytes.length = 2 ^ w := fun p => by
    split
    exacts [lostRead_length .., readKey_length ..]
  cases p with
  | glob ctx va =>
    have hl := checkAccess_in_line hw h
    have hr := readLines_line (fuel := 2 ^ w / 64 + 1) t die ctx sv (by positivity) hl
    exact (congrArg (fun x : State × Got => x.2.bytes.length) hr).trans (readLine_length hl sv)
  | sram => exact hk _
  | pool => exact hk _

/-! ### The value of loaded bytes (R92) -/

theorem loadValue_zero (l : List Byte) :
    loadValue true l = (BitVec.ofNat (8 * l.length) (bytesNat l)).zeroExtend 64 := by
  refine BitVec.eq_of_toNat_eq ?_
  simp [loadValue, Nat.mod_eq_of_lt (bytesNat_lt l)]

theorem loadValue_sign {l : List Byte} (h : l ≠ []) : loadValue false l = (BitVec.ofNat (8 * l.length) (bytesNat l)).signExtend 64 := by
  have hl := List.length_pos_of_ne_nil h
  rw [loadValue, if_neg (by decide), toSigned_eq_toInt (by omega), BitVec.signExtend]

/-- The bytes of a load, extended with zeros or with the sign. -/
theorem loadValue_eq {l : List Byte} {n : Nat} (hl : l.length = n) (hn : 0 < n) (z : Bool) :
    loadValue z l =
      if z = true then (BitVec.ofNat (8 * n) (bytesNat l)).zeroExtend 64 else (BitVec.ofNat (8 * n) (bytesNat l)).signExtend 64 := by
  subst hl
  cases z
  · exact loadValue_sign (List.ne_nil_of_length_pos hn)
  · exact loadValue_zero l

/-! ### Loads of the AP (R91, R92, R98) -/

theorem State.put_ap_of_step {s t : State} (h : MemStep s t) (hl : s.cur.link = none) (hs : s.cur.side = .ap) (d : Nat) (v : Addr) :
    t.put d v = putA d ⟨v, false⟩ t :=
  State.put_ap (by rw [h.cur_eq hl]; exact hs) d v

/-- A load of the AP under which no link fails waits, or traps, or writes what the read at its place returns. -/
theorem loadWord_calm {s : State} {w : Nat} {ea : Addr} (hw : w ≤ 3) (hl : s.cur.link = none) (hs : s.cur.side = .ap) (z : Bool) (d : Nat)
    (sv : Serve) :
    .next (settle (loadWord (2 ^ w) z d ea sv s) s) =
      match checkAccess s s.cur.core ea (2 ^ w) .load with
      | .error t => Safety.traps t s
      | .ok p =>
        if ldsOverlaps s p (2 ^ w) = true ∨ s.owesAt (dieOf s.cur.core) p.key (2 ^ w) = true then .next s
        else
          let r := readPlace s (dieOf s.cur.core) p (2 ^ w) sv
          let v := BitVec.ofNat (8 * 2 ^ w) (bytesNat r.2.bytes)
          if r.2.poison = true then Safety.traps ⟨.poison, some ea, true⟩ r.1
          else Safety.apPut 4 d (if z = true then v.zeroExtend 64 else v.signExtend 64) false r.1 := by
  rw [loadWord]
  cases hc : checkAccess s s.cur.core ea (2 ^ w) .load with
  | error t => rfl
  | ok p =>
    dsimp only
    have hwait : accessWaits s p (2 ^ w) = true ↔ ldsOverlaps s p (2 ^ w) = true ∨ s.owesAt (dieOf s.cur.core) p.key (2 ^ w) = true := by
      rw [accessWaits, Bool.or_eq_true]
    by_cases ho : accessWaits s p (2 ^ w) = true
    · rw [if_pos ho, if_pos (hwait.1 ho)]; rfl
    · rw [if_neg ho, if_neg (mt hwait.2 ho), hl]
      dsimp only
      rw [settle_ok]
      have hlen : (readPlace s (dieOf s.cur.core) p (2 ^ w) sv).2.bytes.length = 2 ^ w := readPlace_length hw hc s sv
      split
      · rfl
      · rw [State.put_ap_of_step (readPlace_step ..) hl hs, loadValue_eq hlen (by positivity)]; rfl

end Sys2Proof.Machine

namespace Sys2Proof

open Sys2Proof.Machine

/-- Settles O15: both loads are the shared load, for which no link fails, at their own address and served in their own way. -/
theorem apLoadsReadOrTrap : Obligations.ApLoadsReadOrTrap := by
  intro s inv z w d a sc i h hl hw n load
  obtain ⟨hs, -, hf⟩ := h
  have hsv : acquireServe sc = if 3 ≤ sc then .home else .relaxed := by
    rw [acquireServe, ← ite_not]; simp only [not_lt]
  have word : ∀ ea sv, .next (apWord [d, a] (fun s => if s.me.anyPoison [a] then .error trapPoison else loadWord (2 ^ w) z d ea sv s) s) =
      load ea sv := fun ea sv => by
    rw [apWord_poison hf, Core.anyPoison_single, loadWord_calm hw hl hs]; rfl
  constructor
  · change execLd inv z w d a i s = _
    rw [← word]; rfl
  · change execLdAcq w d a z sc s = _
    rw [← word, ← hsv]; rfl

end Sys2Proof

namespace Sys2Proof.Machine

/-! ### Outstanding loads and lost writes -/

theorem MemStep.cores {s t : State} (h : MemStep s t) : t.cores = s.cores := by rw [← h.rest]

theorem MemStep.core {s t : State} (h : MemStep s t) (c : Nat) : t.core c = s.core c := by rw [State.core, State.core, h.cores]

/-- A die to which no lost write is owed owes none at any place. -/
theorem owesAt_of_owes {s : State} {die : Nat} (h : s.owes die = false) (key n : Nat) : s.owesAt die key n = false := by
  rw [State.owes, List.any_eq_false] at h
  rw [State.owesAt, List.any_eq_false]
  intro w hw
  simp [h w hw]

theorem ldsReturn_core (c d : Nat) (v : Poi) (s : State) :
    (ldsReturn c d v s).core c = { s.core c with lds := (s.core c).lds.eraseP (fun w => w.d == d) }.setAreg d v := by
  rw [ldsReturn, State.core_modCore]

/-- A load that returns leaves the list and writes its register. -/
theorem ldsReturn_spec {c d : Nat} {v : Poi} {s u : State} (h : (u.core c) = s.core c) :
    ((ldsReturn c d v u).core c).lds = (s.core c).lds.eraseP (fun w => w.d == d) ∧
      (∀ e, e ≠ d → ((ldsReturn c d v u).core c).areg e = (s.core c).areg e) ∧
      (d ≠ 0 → ((ldsReturn c d v u).core c).areg d = v) := by
  rw [ldsReturn_core, h]
  refine ⟨by rw [Core.setAreg_lds], fun e he => Core.areg_setAreg_ne _ v he, fun hd => ?_⟩
  rw [Core.areg_setAreg]; simp [hd]

/-! ### Words that read a register that a load has still to write (R95) -/

/-- A word waits for an outstanding load of one of its registers. -/
theorem Core.ldsWaits_of_mem {k : Core} {regs : List Nat} {r : Nat} (h0 : r ≠ 0) (hr : r ∈ regs) (hw : ∃ w ∈ k.lds, w.d = r) :
    k.ldsWaits regs = true := by
  obtain ⟨w, hw, rfl⟩ := hw
  exact List.any_eq_true.2 ⟨w, hw, by simp [h0, hr]⟩

end Sys2Proof.Machine

namespace Sys2Proof

open Sys2Proof.Machine

/-- A word of the AP that reads a register that an outstanding load will write leaves the state as it is (R95). -/
theorem exec_waits_for_lds {s : State} {i : Instr} {r : Nat} (hs : s.cur.side = .ap) (h0 : r ≠ 0) (hr : r ∈ Safety.apReads i)
    (hw : ∃ w ∈ s.me.lds, w.d = r) : exec i s = .next s := by
  have word : ∀ {regs : List Nat} {body}, r ∈ regs → (.next (apWord regs body s) : Res) = .next s := fun h => by
    rw [apWord_waits _ _ _ (Core.ldsWaits_of_mem h0 h hw)]
  have sync : ∀ {fenced srcs dsts body}, r ∈ srcs → (.next (syncWord fenced srcs dsts body s) : Res) = .next s := fun h => by
    rw [syncWord, hs]; exact word (List.mem_append_left _ h)
  have first : ∀ {bad w}, (.next (w s) : Res) = .next s → (.next (xpFirst bad w s) : Res) = .next s := fun h => by
    unfold xpFirst; rw [hs]; exact h
  cases i
  case add | sub | and | or | xor | andn | shl | shr | sra | mul | mulh | mulhz | div | rem | divz | remz | min | max | minz | maxz | sel =>
    exact word (List.mem_cons_of_mem _ hr)
  case sext | zext | clz | popc | addi | andi | ori | xori | shli | shri | srai | addil | jr | ld | lds | ldAcq | cvtaTo | cvtaOf =>
    exact word (List.mem_cons_of_mem _ hr)
  case cmp | cmpiEq | cmpiNe | cmpiLt | cmpiGe | cmpiLtz | cmpiGez | csrw | loop | st | stRel | chk | isap | qput => exact word hr
  case sopen | sld | shape | sfill | ssave | srest | cmd | cengWait => exact word (List.mem_append_left _ hr)
  case fwait | fres | ffault | hand | must | unmust | hbarHeat | hbarGroup | barm | barmClr | bwait | spawnAp | spawnXp => exact sync hr
  case wait | raise | sysXpage | sysXctx | sysRlc | sysTbsync | slip | pixw => exact first (sync hr)
  all_goals cases hr

/-- Settles O16: what fails at the word or at the arrival poisons d; a word that reads d waits. -/
theorem apSpeculativeLoads : Obligations.ApSpeculativeLoads := by
  refine ⟨fun s z w d a i h hl => ?_, fun s c d w hlive hfind hlink => ?_, fun s i r hs _ h0 hr hw => exec_waits_for_lds hs h0 hr hw⟩
  · obtain ⟨-, -, hf⟩ := h
    change execLds z w d a i s = _
    rw [execLds, apWord_free _ _ _ hf, Core.anyPoison_single]
    have hea : effAddr s a i = (s.me.areg a).val + i.signExtend 64 := rfl
    dsimp only
    rw [hea, widthBytes]
    cases (s.me.areg a).bad with
    | true => rfl
    | false =>
      cases checkAccess s s.cur.core ((s.me.areg a).val + i.signExtend 64) (2 ^ w) .load with
      | error t => rfl
      | ok p =>
        have hd : (if doomed s p = true then s.cur.link else none) = none := by rw [hl, ite_self]
        dsimp only
        rw [hd]; rfl
  · intro u hbehind howes
    have hu : u.core c = s.core c := asSide_core c c .ap s
    have harrive : exec (.ldsDataArrive c d) s = .next (match checkAccess u c w.ea w.n .load with
        | .error _ => ldsReturn c d ⟨0, true⟩ u
        | .ok p => ldsReturn c d (if (readPlace u (dieOf c) p w.n .relaxed).2.poison = true then ⟨0, true⟩
            else ⟨loadValue w.z (readPlace u (dieOf c) p w.n .relaxed).2.bytes, false⟩) (readPlace u (dieOf c) p w.n .relaxed).1) := by
      change execLdsDataArrive c d s = _
      have hwaits : (w.link.isSome || ldsBehind u c d w) = false := by rw [hlink, hbehind]; rfl
      have hlds : ldsOf (u.core c) d = some w := by rw [hu]; exact hfind
      rw [execLdsDataArrive]
      dsimp only
      rw [show (asSide c .ap s).unitsLive c = true from hlive, hlds]
      dsimp only
      rw [hwaits, if_neg Bool.false_ne_true]
      cases checkAccess u c w.ea w.n .load with
      | error t => rfl
      | ok p => exact congrArg _ (if_neg (by rw [owesAt_of_owes (s := u) howes]; exact Bool.false_ne_true))
    rw [harrive]
    refine ⟨_, rfl, ?_⟩
    cases checkAccess u c w.ea w.n .load with
    | error t => exact ldsReturn_spec hu
    | ok p => exact ldsReturn_spec (((readPlace_step ..).core c).trans hu)

end Sys2Proof

namespace Sys2Proof.Machine

/-! ### States in which an address means the same

What the place of an address, its home and its checks depend on: the form, the heats' contexts and metadata, the scratchpads, the pages
with what the dies' translation caches hold of them, and the regions (R90, R91, R263-R267). -/

/-- Two states that give every address the same place, home and checks. -/
structure SameMaps (s t : State) : Prop where
  form : t.form = s.form
  ctxs : t.ctxs = s.ctxs
  pages : t.pages = s.pages
  turns : t.turns = s.turns
  tlb : ∀ d, (t.die d).tlb = (s.die d).tlb
  pad : ∀ c, (t.core c).spad = (s.core c).spad ∧ (t.core c).padBase = (s.core c).padBase
  ctxOf : ∀ c, t.ctxOf c = s.ctxOf c
  descs : ∀ c, t.descsOf c = s.descsOf c

namespace SameMaps

variable {s t u : State}

theorem trans (h : SameMaps s t) (h' : SameMaps t u) : SameMaps s u where
  form := h'.form.trans h.form
  ctxs := h'.ctxs.trans h.ctxs
  pages := h'.pages.trans h.pages
  turns := h'.turns.trans h.turns
  tlb d := (h'.tlb d).trans (h.tlb d)
  pad c := ⟨(h'.pad c).1.trans (h.pad c).1, (h'.pad c).2.trans (h.pad c).2⟩
  ctxOf c := (h'.ctxOf c).trans (h.ctxOf c)
  descs c := (h'.descs c).trans (h.descs c)

/-- States whose heats, cores and dies agree in what an address depends on. -/
theorem of_heats
    (hr : { t with
      mem := s.mem, bad := s.bad, past := s.past, dies := s.dies, cores := s.cores, bridge := s.bridge, acted := s.acted, count := s.count
      cur := s.cur } = s)
    (hd : ∀ d, (t.die d).tlb = (s.die d).tlb)
    (hc : ∀ c, (t.core c).heat = (s.core c).heat ∧ (t.core c).spad = (s.core c).spad ∧ (t.core c).padBase = (s.core c).padBase) :
    SameMaps s t := by
  have hheat : ∀ c, t.heatOf c = s.heatOf c := fun c => by
    have hh : t.heats = s.heats := by rw [← hr]
    rw [State.heatOf, State.heatOf, (hc c).1, hh]
  exact ⟨by rw [← hr], by rw [← hr], by rw [← hr], by rw [← hr], hd, fun c => (hc c).2, fun c => by rw [State.ctxOf, State.ctxOf, hheat],
    fun c => by rw [State.descsOf, State.descsOf, hheat]⟩

section

variable (h : SameMaps s t)
include h

theorem ctx (n : Nat) : t.ctx n = s.ctx n := by rw [State.ctx, State.ctx, h.ctxs]

theorem region (n va : Nat) : t.region n va = s.region n va := by rw [State.region, State.region, h.ctx]

theorem wsh (n die : Nat) : t.wsh n die = s.wsh n die := by rw [State.wsh, State.wsh, h.ctx]

theorem translation (die n va : Nat) : t.translation die n va = s.translation die n va := by
  rw [State.translation, State.translation, State.page, State.page, h.pages, h.turns, h.tlb]

theorem unitMeta (c va : Nat) : t.unitMeta c va = s.unitMeta c va := by rw [State.unitMeta, State.unitMeta, h.descs]

theorem place (c : Nat) (ea : Addr) : t.place c ea = s.place c ea := by
  simp only [State.place, h.wsh, h.form, h.pad, h.ctxOf]

theorem homeDie (p : Place) : t.homeDie p = s.homeDie p := by
  cases p with
  | glob n va => simp only [State.homeDie, State.channelOf, State.spreadOf, h.form, h.region]
  | sram => rfl
  | pool => rfl

theorem cacheable (p : Place) : t.cacheable p = s.cacheable p := by
  cases p with
  | glob n va => simp only [State.cacheable, h.region]
  | sram => rfl
  | pool => rfl

theorem checkGlobal (c n va : Nat) (acc : Acc) : Machine.checkGlobal t c n va acc = Machine.checkGlobal s c n va acc := by
  simp only [Machine.checkGlobal, h.translation, h.unitMeta, h.region]

theorem checkAddr (c : Nat) (ea : Addr) (acc : Acc) : Machine.checkAddr t c ea acc = Machine.checkAddr s c ea acc := by
  simp only [Machine.checkAddr, h.place, h.checkGlobal]

theorem checkAccess (c : Nat) (ea : Addr) (n : Nat) (acc : Acc) : Machine.checkAccess t c ea n acc = Machine.checkAccess s c ea n acc := by
  simp only [Machine.checkAccess, h.checkAddr]

end

end SameMaps

/-- Accesses of memory leave what addresses mean. -/
theorem MemStep.sameMaps {s t : State} (h : MemStep s t) : SameMaps s t :=
  .of_heats (by rw [h.eq]) (fun d => by rw [← h.dies d]) fun c => by rw [h.core]; exact ⟨rfl, rfl, rfl⟩

/-- A word that completes leaves what addresses mean. -/
theorem finishN_sameMaps (len : Nat) (s : State) : SameMaps s (finishN len s) := by
  refine .of_heats (finishN_rest len s) (fun d => rfl) fun c => ?_
  by_cases hc : c = s.cur.core
  · subst hc
    rw [finishN_core]
    unfold movedOn
    cases s.cur.side <;> exact ⟨rfl, rfl, rfl⟩
  · rw [finishN_core_ne len s hc]; exact ⟨rfl, rfl, rfl⟩

/-! ### A place reads what was last written to it (R92, R93, R272) -/

theorem memRead_memWrite (m : List Host.Cell) (a : Nat) (l : List Byte) : memRead (memWrite m a l) a l.length = l := by
  refine List.ext_getElem (by simp [memRead]) fun i hi _ => ?_
  have hi : i < l.length := by simpa [memRead] using hi
  simp [memRead, memGet_memWrite, hi]

theorem Die.line_putLine (d : Die) (l : RlcLine) : (d.putLine l).line l.ctx l.line = some l := by
  rw [Die.line, Die.putLine]
  simp only [List.find?_append]
  rw [List.find?_eq_none.2 (fun x hx => by simpa [imp_iff_not_or] using (List.mem_filter.1 hx).2)]
  simp

theorem Die.line_key {d : Die} {ctx line : Nat} {l : RlcLine} (h : d.line ctx line = some l) : l.ctx = ctx ∧ l.line = line := by
  simpa using List.find?_some h

/-- Bytes put into a line are read back at their place in it. -/
theorem splice_read {bs l : List Byte} {k : Nat} (hb : bs.length = 64) (h : k + l.length ≤ 64) :
    ((bvBytes 64 (BitVec.ofNat 512 (bytesNat (bs.take k ++ l ++ bs.drop (k + l.length))))).drop k).take l.length = l := by
  rw [bvBytes_bytesNat (by simp [hb]; omega) rfl, List.append_assoc, List.drop_left' (by simp [hb]; omega), List.take_left]

theorem writeLines_line {fuel va : Nat} {l : List Byte} (c die ctx : Nat) (b : Bool) (sv : Serve) (s : State) (hl : l ≠ [])
    (h : va % 64 + l.length ≤ 64) : writeLines (fuel + 1) c die ctx va l b sv s = writeLine c die ctx va l b sv s := by
  have hm : inLine va l.length = l.length := Nat.min_eq_left (by omega)
  have hz : ∀ t v, writeLines fuel c die ctx v [] b sv t = t := by cases fuel <;> simp [writeLines]
  simp [writeLines, hl, hm, hz]

/-- The writer's die holds the written line, and gives the bytes written. -/
theorem writeCached_reads {s u : State} {die ctx va : Nat} {l : List Byte} {b : Bool} (hl : va % 64 + l.length ≤ 64)
    (hd : u.die die = (writeCached die ctx va l b s).die die) :
    ∃ x, (u.die die).line ctx (va / 64) = some x ∧ (x.got va l.length).bytes = l := by
  have hk : ∀ x, (s.die die).line ctx (va / 64) = some x → x.ctx = ctx ∧ x.line = va / 64 := fun x => Die.line_key
  obtain ⟨hctx, hline⟩ : (((s.die die).line ctx (va / 64)).getD (homeLine s ctx (va / 64))).ctx = ctx ∧
      (((s.die die).line ctx (va / 64)).getD (homeLine s ctx (va / 64))).line = va / 64 := by
    cases hx : (s.die die).line ctx (va / 64) with
    | none => exact ⟨rfl, rfl⟩
    | some x => exact hk x hx
  rw [hd, writeCached]
  generalize ((s.die die).line ctx (va / 64)).getD (homeLine s ctx (va / 64)) = old at hctx hline ⊢
  rw [State.die_modDie]
  refine ⟨_, by rw [← hctx, ← hline]; exact Die.line_putLine .., ?_⟩
  exact splice_read (length_bvBytes 64 old.data) hl

/-- A write at home changes memory by its bytes, after what a recall writes back. -/
theorem writeAtHome_mem (die ctx va : Nat) (l : List Byte) (b : Bool) (s : State) :
    ∃ m, (writeAtHome die ctx va l b s).mem = memWrite m (globKey ctx va) l := by
  have hk : ∀ t, (writeKey (globKey ctx va) l b t).mem = memWrite t.mem (globKey ctx va) l := fun t => markWrite_mem ..
  unfold writeAtHome
  dsimp only
  split
  exacts [⟨_, (sendInv_mem ..).trans (hk _)⟩, ⟨_, (applyInv_mem ..).trans (hk _)⟩]

/-- A place reads the bytes last written to it: in the writer's cache, or at home. -/
theorem readPlace_writePlace {s u : State} {c die n : Nat} {p : Place} {l : List Byte} {b : Bool} (hl : l.length = n) (h0 : l ≠ [])
    (hline : ∀ ctx va, p = .glob ctx va → va % 64 + n ≤ 64) (hs : s.cur.link = none) (hu : u.cur.link = none)
    (hmem : u.mem = (writePlace c die p l b .relaxed s).mem) (hdie : u.die die = (writePlace c die p l b .relaxed s).die die)
    (hhome : u.homeDie p = s.homeDie p) (hcache : u.cacheable p = s.cacheable p) :
    (readPlace u die p n .relaxed).1 = u ∧ (readPlace u die p n .relaxed).2.bytes = l := by
  subst hl
  have hw : s.wlink = none := by rw [State.wlink, hs, ite_self]
  have hul : ¬ u.cur.link.isSome = true := by rw [hu]; exact Bool.false_ne_true
  have hkey : ∀ m k, u.mem = memWrite m k l → (readKey u k l.length).bytes = l := fun m k hk => by
    rw [readKey, hk, memRead_memWrite]
  have away : ∀ q : Place, u.mem = (match s.wlink with
        | some k => if s.homeDie q ≠ die then loseWrite k die q.key l.length q.addr [c] s else writeKey q.key l b s
        | none => writeKey q.key l b s).mem →
      let r := if u.homeDie q ≠ die ∧ u.cur.link.isSome = true then (sawLost u, lostRead q.key l.length) else (u, readKey u q.key l.length)
      r.1 = u ∧ r.2.bytes = l := fun q hq => by
    rw [hw] at hq
    dsimp only
    rw [if_neg (fun h => hul h.2)]
    exact ⟨rfl, hkey s.mem q.key (hq.trans (markWrite_mem ..))⟩
  cases p with
  | sram => exact away _ hmem
  | pool => exact away _ hmem
  | glob ctx va =>
    have hva := hline ctx va rfl
    have hwrite : writePlace c die (.glob ctx va) l b .relaxed s = writeLine c die ctx va l b .relaxed s :=
      writeLines_line (fuel := l.length / 64 + 1) c die ctx b .relaxed s h0 hva
    have hread : readPlace u die (.glob ctx va) l.length .relaxed = readRelaxed u die ctx va l.length :=
      readLines_line (fuel := l.length / 64 + 1) u die ctx .relaxed (by simpa using h0) hva
    rw [hwrite, writeLine] at hmem hdie
    rw [hread]
    dsimp only at hmem hdie
    by_cases hc : s.homeDie (.glob ctx va) ≠ die ∧ s.cacheable (.glob ctx va) = true
    · have hinv : (if (s.die die).invs.contains (ctx, va / 64) then applyInv die ctx (va / 64) s else s).wlink = none := by
        split
        exacts [hw, hw]
      rw [if_pos ⟨hc.1, hc.2, rfl⟩, hinv] at hdie
      obtain ⟨x, hx, hgot⟩ := writeCached_reads hva hdie
      have hx : cachedLine u die ctx va = some x := by rw [cachedLine, if_pos (by rw [hhome, hcache]; exact hc), hx]
      rw [readRelaxed_cached hx]
      exact ⟨rfl, hgot⟩
    · rw [if_neg (fun h => hc ⟨h.1, h.2.1⟩), hw] at hmem
      have hfar : ¬ (u.homeDie (.glob ctx va) ≠ die ∧ u.cacheable (.glob ctx va) = true) := by rw [hhome, hcache]; exact hc
      rw [readRelaxed, if_neg hfar, if_neg (fun h => hul h.2)]
      obtain ⟨m, hm⟩ := writeAtHome_mem die ctx va l b s
      exact ⟨rfl, hkey m _ (hmem.trans hm)⟩

/-! ### Stores of the AP (R91, R93, R98) -/

theorem bytesNat_natBytes (n v : Nat) : bytesNat (natBytes n v) = v % 2 ^ (8 * n) := by
  induction n generalizing v with
  | zero => exact (Nat.mod_one v).symm
  | succ n ih =>
    have hb : bytesNat (natBytes (n + 1) v) = v % 256 + 256 * bytesNat (natBytes n (v / 256)) := by
      change (BitVec.ofNat 8 v).toNat + 256 * bytesNat (natBytes n (v / 256)) = _; rw [BitVec.toNat_ofNat]
    rw [hb, ih, Nat.mul_succ, Nat.add_comm (8 * n), Nat.pow_add, Nat.mod_mul]

/-- The state in which a store at a place writes: after the release that a scope asks for, if any, of a place that is not private (R98). -/
def beforeStore (scope : Option Nat) (s : State) (p : Place) : State :=
  match scope with
  | some sc => if s.isPrivate p = true ∨ sc < 3 then s else flushDie (dieOf s.cur.core) s
  | none => s

/-- A store of the AP behind no outstanding load and no lost write of its die writes after what its release waits for (R93, R98). -/
theorem storeWord_calm {s : State} {n : Nat} {v ea : Addr} {scope : Option Nat} (hlds : s.me.lds = []) (ho : s.owes (dieOf s.cur.core) = false) :
    .next (settle (storeWord n v ea scope s) s) =
      match checkAccess s s.cur.core ea n .store with
      | .error t => Safety.traps t s
      | .ok p =>
        if (beforeStore scope s p).owes (dieOf s.cur.core) = true then .next (beforeStore scope s p)
        else .next (finish (writePlace s.cur.core (dieOf s.cur.core) p (natBytes n v.toNat) false .relaxed (beforeStore scope s p))) := by
  rw [storeWord]
  cases checkAccess s s.cur.core ea n .store with
  | error t => rfl
  | ok p =>
    have hwait : accessWaits s p n = false := by
      rw [accessWaits, owesAt_of_owes ho, ldsOverlaps, hlds]; rfl
    have ho : ¬ s.owes (dieOf s.cur.core) = true := by rw [ho]; exact Bool.false_ne_true
    dsimp only
    rw [hwait, if_neg Bool.false_ne_true]
    cases scope with
    | none =>
      have hbp : beforeStore none s p = s := rfl
      rw [hbp, if_neg ho]; rfl
    | some sc =>
      dsimp only
      by_cases hp : s.isPrivate p = true
      · have hbp : beforeStore (some sc) s p = s := if_pos (.inl hp)
        rw [if_pos hp, hbp, if_neg ho]; rfl
      · rw [if_neg hp, release, if_neg (fun h => h.2 hlds), releaseAt]
        by_cases hsc : sc < 3
        · have hbp : beforeStore (some sc) s p = s := if_pos (.inr hsc)
          rw [if_pos hsc, hbp, if_neg ho, if_neg ho]; rfl
        · have hcur : (flushDie (dieOf s.cur.core) s).cur.core = s.cur.core := (flushDie_step s _).curCore
          have hbp : beforeStore (some sc) s p = flushDie (dieOf s.cur.core) s := if_neg (fun h => h.elim hp hsc)
          rw [if_neg hsc, hbp]
          split
          · rfl
          · rw [hcur]; rfl

/-! ### The next word of the core after a store -/

/-- The state in which the core takes its next word at a pc, after a word has made accesses of memory and completed. -/
def nextWordAt (pc : Addr) (q : State) : State := { finish q with cur := { (finish q).cur with addr := pc } }

section

variable {s q : State} (h : MemStep s q) (hl : s.cur.link = none) (pc : Addr)
include h

theorem nextWordAt_sameMaps : SameMaps s (nextWordAt pc q) :=
  (h.sameMaps.trans (finishN_sameMaps 4 q)).trans ⟨rfl, rfl, rfl, rfl, fun _ => rfl, fun _ => ⟨rfl, rfl⟩, fun _ => rfl, fun _ => rfl⟩

theorem nextWordAt_me : (nextWordAt pc q).me = movedOn 4 q s.me := by
  change (finishN 4 q).core q.cur.core = _
  rw [finishN_core, h.curCore, h.core]; rfl

theorem nextWordAt_areg (r : Nat) : (nextWordAt pc q).me.areg r = s.me.areg r := by
  rw [nextWordAt_me h]; simp [Core.areg, movedOn]

theorem nextWordAt_lds : (nextWordAt pc q).me.lds = s.me.lds := by
  rw [nextWordAt_me h]; simp [movedOn]

include hl

theorem nextWordAt_cur : (nextWordAt pc q).cur = { s.cur with addr := pc } := by
  change ({ q.cur with addr := pc } : Cur) = _
  rw [h.cur_eq hl]

theorem nextWordAt_owes (die : Nat) : (nextWordAt pc q).owes die = s.owes die := by
  change q.bridge.writes.any _ = _
  rw [(h.calm hl).2]; rfl

end

end Sys2Proof.Machine

namespace Sys2Proof

open Sys2Proof.Machine

/-- A clean load behind nothing, of bytes that a read finds without changing the state, returns them or takes POISON. -/
theorem load_returns {u : State} {w e a c : Nat} {i : BitVec 13} {ea : Addr} {p : Place} {l : List Byte} (h : Safety.apFree [e, a] u)
    (hl : u.cur.link = none) (hw : w ≤ 3) (hc : u.cur.core = c) (hbad : (u.me.areg a).bad = false)
    (hea : (u.me.areg a).val + i.signExtend 64 = ea) (hck : checkAccess u c ea (2 ^ w) .load = .ok p) (hlds : u.me.lds = [])
    (ho : u.owes (dieOf c) = false)
    (hback : (readPlace u (dieOf c) p (2 ^ w) .relaxed).1 = u ∧ (readPlace u (dieOf c) p (2 ^ w) .relaxed).2.bytes = l) :
    exec (.ld false true w e a i) u =
      if (readPlace u (dieOf c) p (2 ^ w) .relaxed).2.poison = true then Safety.traps ⟨.poison, some ea, true⟩ u
      else Safety.apPut 4 e ((BitVec.ofNat (8 * 2 ^ w) (bytesNat l)).zeroExtend 64) false u := by
  subst hc hea
  have hover : ldsOverlaps u p (2 ^ w) = false := by rw [ldsOverlaps, hlds]; rfl
  refine (apLoadsReadOrTrap u false true w e a 0 i h hl hw).1.trans ?_
  simp only [hbad, hck, hover, owesAt_of_owes ho, Bool.false_eq_true, or_self, if_false, if_true, hback]

/-- The next word after a store, a load of the same bytes at the same address, returns them or takes POISON. -/
theorem load_after_store {s : State} {w d e a : Nat} {i : BitVec 13} {pc : Addr} {p : Place} (hs : s.cur.side = .ap) (he : s.cur.eng = none)
    (hlds : s.me.lds = []) (ho : s.owes (dieOf s.cur.core) = false) (hw : w ≤ 3) (hga : (s.me.areg a).bad = false) (hl : s.cur.link = none)
    (hck : checkAccess s s.cur.core ((s.me.areg a).val + i.signExtend 64) (2 ^ w) .load = .ok p) :
    let u := nextWordAt pc (writePlace s.cur.core (dieOf s.cur.core) p (natBytes (2 ^ w) (s.me.areg d).val.toNat) false .relaxed s)
    exec (.ld false true w e a i) u =
      if (readPlace u (dieOf s.cur.core) p (2 ^ w) .relaxed).2.poison = true then
        Safety.traps ⟨.poison, some ((s.me.areg a).val + i.signExtend 64), true⟩ u
      else Safety.apPut 4 e (BitVec.ofNat 64 ((s.me.areg d).val.toNat % 2 ^ (8 * 2 ^ w))) false u := by
  intro u
  have hq : MemStep s _ := writePlace_step s s.cur.core (dieOf s.cur.core) p (natBytes (2 ^ w) (s.me.areg d).val.toNat) false .relaxed
  have hcur := nextWordAt_cur hq hl pc
  have hmaps := nextWordAt_sameMaps hq pc
  have hreg := nextWordAt_areg hq pc
  have hnone : u.me.lds = [] := (nextWordAt_lds hq pc).trans hlds
  have hlink : u.cur.link = none := by rw [hcur]; exact hl
  have hlen : (natBytes (2 ^ w) (s.me.areg d).val.toNat).length = 2 ^ w := length_natBytes ..
  have hback := readPlace_writePlace (s := s) (u := u) (c := s.cur.core) (die := dieOf s.cur.core) (b := false) hlen
    (List.ne_nil_of_length_pos (by rw [hlen]; positivity)) (fun ctx va hp => checkAccess_in_line hw (by rw [← hp]; exact hck)) hl hlink
    rfl rfl (hmaps.homeDie p) (hmaps.cacheable p)
  have hv : (BitVec.ofNat (8 * 2 ^ w) (bytesNat (natBytes (2 ^ w) (s.me.areg d).val.toNat))).zeroExtend 64 =
      BitVec.ofNat 64 ((s.me.areg d).val.toNat % 2 ^ (8 * 2 ^ w)) := by
    rw [bytesNat_natBytes]
    refine BitVec.eq_of_toNat_eq ?_
    simp
  rw [← hv]
  exact load_returns ⟨by rw [hcur]; exact hs, by rw [hcur]; exact he, by rw [Core.ldsWaits, hnone]; rfl⟩ hlink hw (by rw [hcur])
    (by rw [hreg]; exact hga) (by rw [hreg]) (by rw [hmaps.checkAccess]; exact hck) hnone ((nextWordAt_owes hq hl pc _).trans ho) hback

/-- Settles O17: both stores are the shared store; the load that follows reads back its bytes at the place. -/
theorem apStoresWriteOrTrap : Obligations.ApStoresWriteOrTrap := by
  intro s w d a sc i hs he hlds ho hw n c base good bytes store own
  have hf : s.me.ldsWaits [d, a] = false := by rw [Core.ldsWaits, hlds]; rfl
  have hany : s.me.anyPoison [a, d] = true ↔ (s.me.areg a).bad = true ∨ (s.me.areg d).bad = true := by
    rw [Core.anyPoison_pair, Bool.or_eq_true]
  have word : ∀ ea scope, .next (apWord [d, a] (fun s => if s.me.anyPoison [a, d] then .error trapPoison else
      storeWord n (s.me.areg d).val ea scope s) s) = store ea (beforeStore scope s) := fun ea scope => by
    rw [apWord_poison hf, storeWord_calm hlds ho]
    exact if_congr hany rfl rfl
  have hst : exec (.st w d a i) s = store (base + i.signExtend 64) (fun _ => s) := word _ none
  refine ⟨hst, word _ (some sc), fun e pc p ⟨hga, hgd⟩ hl hcs hcl => ⟨finish (writePlace c (dieOf c) p bytes false .relaxed s), ?_, ?_⟩⟩
  · have hgood : ¬ ((s.me.areg a).bad = true ∨ (s.me.areg d).bad = true) := by rw [hga, hgd]; simp
    rw [hst]
    change (if _ then _ else match checkAccess s c (base + i.signExtend 64) n .store with | .error t => _ | .ok p => _) = _
    rw [if_neg hgood, hcs]
    exact if_neg (by rw [ho]; exact Bool.false_ne_true)
  · exact load_after_store hs he hlds ho hw hga hl hcl

end Sys2Proof

namespace Sys2Proof.Machine

/-! ### What leaves the read pointer of a ring (R132)

Only the retirement of its head advances a ring: signals, which may start or wake other heads, leave RP. -/

/-- The read pointer of ring r of core c is as before. -/
def RpKept (c r : Nat) (s t : State) : Prop := ((t.core c).ring r).rp = ((s.core c).ring r).rp

section

variable {c r : Nat}

namespace RpKept

theorem refl (s : State) : RpKept c r s s := rfl

theorem trans {s t u : State} (h : RpKept c r s t) (h' : RpKept c r t u) : RpKept c r s u := Eq.trans h' h

theorem of_cores {s t : State} (h : t.cores = s.cores) : RpKept c r s t := by rw [RpKept, State.core, State.core, h]

theorem extend {s t u : State} {p : Prop} [Decidable p] (h : RpKept c r s t) (h' : RpKept c r t u) : RpKept c r s (if p then u else t) := by
  split
  exacts [h.trans h', h]

theorem act (d : Nat) (s : State) : RpKept c r s (s.act d) := rfl

theorem modCore (s : State) (d : Nat) {f : Core → Core} (hf : ∀ k, ((f k).ring r).rp = (k.ring r).rp) : RpKept c r s (s.modCore d f) := by
  rw [RpKept]
  by_cases hd : c = d
  · subst hd; rw [State.core_modCore]; exact hf _
  · rw [State.core_modCore_ne _ _ _ _ hd]

theorem modRing (s : State) (d q : Nat) {f : Ring → Ring} (hf : ∀ g, (f g).rp = g.rp) : RpKept c r s (s.modRing d q f) := by
  refine modCore s d fun k => ?_
  rw [Core.ring, tget_tset]
  split
  next h => subst h; exact hf _
  next => rfl

theorem foldl {α : Type} {f : State → α → State} (hf : ∀ s x, RpKept c r s (f s x)) (l : List α) (s : State) :
    RpKept c r s (l.foldl f s) := by
  induction l generalizing s with
  | nil => exact refl s
  | cons x l ih => exact (hf s x).trans (ih _)

end RpKept

theorem wake_rp (d i : Nat) (v : Addr) (s : State) : RpKept c r s (wake d i v s) := by
  unfold wake
  refine RpKept.trans (RpKept.modCore s d fun k => ?_) (RpKept.act ..)
  split
  · rw [Core.ring, Core.modSide_rings]; rfl
  · rfl

theorem satisfyHead_rp (d q : Nat) (fault : Option Nat) (s : State) : RpKept c r s (satisfyHead d q fault s) :=
  RpKept.modRing s d q fun g => by split <;> rfl

theorem modSema_rp (d n : Nat) (f : Sema → Sema) (s : State) : RpKept c r s (s.modSema d n f) := RpKept.modCore s d fun _ => rfl

theorem modBar_rp (d n : Nat) (f : StageBar → StageBar) (s : State) : RpKept c r s (s.modBar d n f) := RpKept.modCore s d fun _ => rfl

theorem serveHead_rp (d n q : Nat) (s : State) : RpKept c r s (serveHead d n q s) := by
  unfold serveHead
  split
  · exact (modSema_rp ..).trans (satisfyHead_rp ..)
  · exact .refl s

theorem serveTask_rp (d n i : Nat) (s : State) : RpKept c r s (serveTask d n i s) := (modSema_rp ..).trans (wake_rp ..)

theorem serveSema_rp (fuel d n : Nat) (s : State) : RpKept c r s (serveSema fuel d n s) := by
  induction fuel generalizing s with
  | zero => exact .refl s
  | succ fuel ih =>
    unfold serveSema
    dsimp only
    split
    · exact .refl s
    · exact (serveTask_rp ..).trans (ih _)
    · exact (serveHead_rp ..).trans (ih _)
    · refine RpKept.trans ?_ (ih _)
      split
      · exact (RpKept.of_cores rfl).trans (serveTask_rp ..)
      · exact (RpKept.of_cores rfl).trans (serveHead_rp ..)

theorem raiseSema_rp (d n cnt : Nat) (faulted : Bool) (s : State) : RpKept c r s (raiseSema d n cnt faulted s) :=
  ((modSema_rp d n _ s).trans (serveSema_rp ..)).trans (.of_cores rfl)

theorem wakeList_rp (fuel : Nat) (v : Addr) (d i : Nat) (s : State) : RpKept c r s (wakeList fuel v d i s) := by
  induction fuel generalizing d i s with
  | zero => exact .refl s
  | succ fuel ih =>
    unfold wakeList
    split
    · dsimp only
      split
      · exact (wake_rp ..).trans (ih ..)
      · exact wake_rp ..
    · exact .refl s

theorem resolveFuture_rp (p : Place) (w : Nat) (s : State) : RpKept c r s (resolveFuture p w s) := by
  have hw : RpKept c r s (setFuture p w s) := .of_cores rfl
  unfold resolveFuture
  dsimp only
  split
  exacts [hw.trans (wakeList_rp ..), hw]

theorem releasePhase_rp (d b : Nat) (ph : Bool) (s : State) : RpKept c r s (releasePhase d b ph s) := by
  unfold releasePhase
  dsimp only
  refine ((modBar_rp ..).trans (RpKept.foldl (fun _ _ => wake_rp ..) _ _)).trans (RpKept.foldl (fun t j => ?_) _ _)
  split
  · split
    exacts [satisfyHead_rp .., .refl t]
  · exact .refl t

theorem testBar_rp (d b : Nat) (s : State) : RpKept c r s (testBar d b s) := by
  unfold testBar
  extract_lets x n
  split
  · exact .refl s
  next s1 s2 s3 _ =>
    have h1 : RpKept c r s s1 := modBar_rp ..
    have h2 : RpKept c r s s2 := h1.trans ((modBar_rp ..).trans (releasePhase_rp ..))
    have h3 : RpKept c r s s3 := h2.extend ((modBar_rp ..).trans (releasePhase_rp ..))
    exact h3.extend (modBar_rp ..)

theorem raiseBar_rp (d b bytes : Nat) (faulted : Bool) (s : State) : RpKept c r s (raiseBar d b bytes faulted s) := by
  unfold raiseBar
  split
  exacts [(modBar_rp ..).trans (releasePhase_rp ..), (modBar_rp ..).trans (testBar_rp ..)]

theorem raiseRecord_rp (d : Nat) (b : BitVec 512) (value bytes : Nat) (fault : Option Nat) (s : State) :
    RpKept c r s (raiseRecord d b value bytes fault s) := by
  unfold raiseRecord
  split
  · exact (raiseSema_rp ..).trans (.act ..)
  · split
    exacts [(resolveFuture_rp ..).trans (.act ..), .refl s]
  · exact (raiseBar_rp ..).trans (.act ..)
  · exact .refl s

theorem dropNet_cores (d q : Nat) (s : State) : (dropNet d q s).cores = s.cores := by
  unfold dropNet; dsimp only; split <;> rfl

theorem endRequests_rp (d q : Nat) (b : BitVec 512) (s : State) : RpKept c r s (endRequests d q b s) := by
  unfold endRequests
  extract_lets mine s1 s2
  have h2 : RpKept c r s s2 := RpKept.extend (RpKept.of_cores rfl : RpKept c r s s1) (.of_cores rfl)
  split
  · exact h2.trans (RpKept.modCore _ _ fun _ => rfl)
  · split
    exacts [h2.trans (.of_cores (dropNet_cores ..)), h2]

theorem postDelivery_rp (d : Nat) (x : Delivery) (s : State) : RpKept c r s (postDelivery d x s) :=
  RpKept.modCore s d fun k => by split <;> rfl

theorem ringFault_rp (d q code cause : Nat) (deferred stopped : Bool) (index : Nat) (a : Addr) (k : Nat) (s : State) :
    RpKept c r s (ringFault d q code cause deferred stopped index a k s) := by
  unfold ringFault
  extract_lets g b port tb t
  have ht : RpKept c r s t := RpKept.modRing s d q fun _ => rfl
  split
  exacts [ht, ht.trans (postDelivery_rp ..)]

/-- A head that leaves its ring advances RP by one. -/
theorem endRetire_rp (b : BitVec 512) (s : State) : (((endRetire c r b s).core c).ring r).rp = ((s.core c).ring r).rp + 1 := by
  have hold : RpKept c r s ((endRequests c r b s).modCore c (fun k =>
      if k.holdRing = some r then { k with holdRing := none, hold := [], holdBad := none } else k)) :=
    (endRequests_rp ..).trans (RpKept.modCore _ _ fun k => by split <;> rfl)
  rw [endRetire, State.modRing, State.core_modCore, Core.ring, tget_tset_same]
  exact congrArg (· + 1) hold

end

end Sys2Proof.Machine

namespace Sys2Proof.Machine

/-! ### A head that retires or faults (R140, R143, R317) -/

/-- A raise that resolves no future leaves memory. -/
theorem raiseRecord_mem {b : BitVec 512} (h : rkRaiseKind b ≠ 2) (c value bytes : Nat) (fault : Option Nat) (s : State) :
    (raiseRecord c b value bytes fault s).mem = s.mem := by
  unfold raiseRecord
  split
  · exact (State.act_mem ..).trans (raiseSema_mem ..)
  · next hb => exact absurd hb h
  · exact (State.act_mem ..).trans (raiseBar_mem ..)
  · rfl

theorem dropNet_bridge (c r : Nat) (s : State) : (dropNet c r s).bridge = s.bridge := by
  unfold dropNet; dsimp only; split <;> rfl

/-- The state in which a retiring head makes its raise: after its release, and with its seats given up (R133, R356). -/
def headReleased (c r : Nat) (b : BitVec 512) (s : State) : State :=
  let t := if rkDevrel b then flushDie (dieOf c) s else s
  if rkKind b = 9 then dropNet c r t else t

theorem headReleased_cores (c r : Nat) (b : BitVec 512) (s : State) : (headReleased c r b s).cores = s.cores := by
  have ht : (if rkDevrel b then flushDie (dieOf c) s else s).cores = s.cores := by
    split
    exacts [(flushDie_step ..).cores, rfl]
  unfold headReleased
  dsimp only
  split
  exacts [(dropNet_cores ..).trans ht, ht]

theorem headReleased_bridge (c r : Nat) (b : BitVec 512) {s : State} (hl : s.cur.link = none) : (headReleased c r b s).bridge = s.bridge := by
  have ht : (if rkDevrel b then flushDie (dieOf c) s else s).bridge = s.bridge := by
    split
    exacts [((flushDie_step ..).calm hl).2, rfl]
  unfold headReleased
  dsimp only
  split
  exacts [(dropNet_bridge ..).trans ht, ht]

theorem headReleased_mem (c r : Nat) {b : BitVec 512} (s : State) (h : rkDevrel b = false) : (headReleased c r b s).mem = s.mem := by
  unfold headReleased
  rw [h, if_neg Bool.false_ne_true]
  split
  exacts [dropNet_mem .., rfl]

/-- What a head comes to that owes no lost write and has room for a delivery: its raise is made, or found double. -/
theorem retire_eq {c r : Nat} {fault : Option Nat} {s : State} {e : RecEntry} (hh : ((s.core c).ring r).head = some e)
    (hl : s.cur.link = none) (ho : s.owes (dieOf c) = false) (hp : (s.core c).pending.length < 64) :
    retire c r fault s = endRetire c r e.bytes (match raiseDoubled (headReleased c r e.bytes s) c e.bytes with
      | none => raiseRecord c e.bytes (headValue ((s.core c).ring r)) ((s.core c).ring r).bytes fault (headReleased c r e.bytes s)
      | some a => ringFault c r Code.doubleResolve.num 0 false false noIndex a ((s.core c).ring r).chunk (headReleased c r e.bytes s)) := by
  have howes : ¬ (headReleased c r e.bytes s).owes (dieOf c) = true := by
    rw [State.owes, headReleased_bridge _ _ _ hl]; exact ne_of_eq_of_ne ho Bool.false_ne_true
  have hfull : listFull (headReleased c r e.bytes s) c = false := by
    rw [listFull, State.core, headReleased_cores]; exact decide_eq_false (not_le.2 hp)
  rw [retire, hh]
  refine (if_neg howes).trans ?_
  cases hd : raiseDoubled (headReleased c r e.bytes s) c e.bytes with
  | none =>
    change (match raiseDoubled (headReleased c r e.bytes s) c e.bytes with | none => _ | some a => _) = _
    rw [hd]; rfl
  | some a =>
    change (match raiseDoubled (headReleased c r e.bytes s) c e.bytes with | none => _ | some a => _) = _
    rw [hd]
    change (if listFull (headReleased c r e.bytes s) c = true then _ else endRetire c r e.bytes (ringFault c r _ 0 false
      (listFull (headReleased c r e.bytes s) c) noIndex a _ (headReleased c r e.bytes s))) = _
    rw [hfull]; rfl

/-- A head that owes no lost write and has room for a delivery retires: RP advances, and memory changes only by a future or a release. -/
theorem retire_spec {c r : Nat} {fault : Option Nat} {s : State} {e : RecEntry} (hh : ((s.core c).ring r).head = some e)
    (hl : s.cur.link = none) (ho : s.owes (dieOf c) = false) (hp : (s.core c).pending.length < 64) :
    (((retire c r fault s).core c).ring r).rp = ((s.core c).ring r).rp + 1 ∧
      (rkRaiseKind e.bytes ≠ 2 → rkDevrel e.bytes = false → (retire c r fault s).mem = s.mem) := by
  have hr : RpKept c r s (headReleased c r e.bytes s) := .of_cores (headReleased_cores ..)
  rw [retire_eq hh hl ho hp, endRetire_rp, endRetire_mem]
  constructor
  · refine congrArg (· + 1) (show RpKept c r s _ from ?_)
    split
    exacts [hr.trans (raiseRecord_rp ..), hr.trans (ringFault_rp ..)]
  · intro hk hd
    refine Eq.trans ?_ (headReleased_mem c r s hd)
    split
    exacts [raiseRecord_mem hk .., ringFault_mem ..]

/-! ### A chunk's fault (R143) -/

/-- The head of a ring and its progress are as before in two states. -/
structure HeadKept (c r : Nat) (s t : State) : Prop where
  mem : t.mem = s.mem
  bridge : t.bridge = s.bridge
  link : t.cur.link = s.cur.link
  pending : (t.core c).pending = (s.core c).pending
  head : ((t.core c).ring r).head = ((s.core c).ring r).head
  rp : ((t.core c).ring r).rp = ((s.core c).ring r).rp
  chunk : ((t.core c).ring r).chunk = ((s.core c).ring r).chunk
  marks : ((t.core c).ring r).marks = ((s.core c).ring r).marks

/-- A repairable fault stopped the ring of a chunk: memory, RP, CHUNK and MARKS kept, a delivery waiting (R143, R317). -/
def RingStopped (c r : Nat) (f : CFault) (s t : State) : Prop :=
  let g := (s.core c).ring r
  let h := (t.core c).ring r
  t.mem = s.mem ∧ h.st = .stop ∧ h.fcode = BitVec.ofNat 8 f.code.num ∧ h.rp = g.rp ∧ h.chunk = g.chunk ∧ h.marks = g.marks ∧
    ∃ d ∈ (t.core c).pending ++ (t.core c).held, d.w1.toNat % 256 = f.code.num ∧ d.w2 = f.addr

/-- The head of a ring retired; memory is kept unless it raises a future or releases its die (R140, R143). -/
def HeadRetired (c r : Nat) (b : BitVec 512) (s t : State) : Prop :=
  ((t.core c).ring r).rp = ((s.core c).ring r).rp + 1 ∧ (rkRaiseKind b ≠ 2 → rkDevrel b = false → t.mem = s.mem)

/-- What a chunk's fault leaves, by its class (R143). -/
def ChunkFails (c r : Nat) (b : BitVec 512) (f : CFault) (s t : State) : Prop :=
  (f.code ∈ [Code.xlate, .perm, .owner] → rkNostop b = false → RingStopped c r f s t) ∧
    ((f.code ∉ [Code.xlate, .perm, .owner] ∨ rkNostop b = true) → (s.core c).pending.length < 63 → s.owes (dieOf c) = false →
      HeadRetired c r b s t)

/-- CODE of a delivery word (R318). -/
theorem deliveryWord_code {code : Nat} (h : code < 256) (deferred : Bool) (source ring : Nat) (stopped : Bool) (port : Option Nat) (core : Nat) :
    (deliveryWord code deferred source ring stopped port core).toNat % 256 = code := by
  unfold deliveryWord
  rw [BitVec.toNat_ofNat]
  cases port with
  | some p => dsimp only; omega
  | none => dsimp only; split <;> omega

theorem Code.num_lt (x : Code) : x.num < 256 := by cases x <;> decide

/-- A core whose ring has taken a fault record and which has been posted a delivery. -/
def faulted (k : Core) (r : Nat) (x : BitVec 512) (d : Delivery) : Core :=
  let k' := { k with rings := tset k.rings r { k.ring r with fault := x } }
  if k.pending.length < 64 then { k' with pending := k.pending ++ [d] } else { k' with held := k.held ++ [d] }

theorem faulted_ring (k : Core) (r : Nat) (x : BitVec 512) (d : Delivery) : (faulted k r x d).ring r = { k.ring r with fault := x } := by
  unfold faulted
  dsimp only
  split <;> exact tget_tset_same ..

theorem mem_faulted (k : Core) (r : Nat) (x : BitVec 512) (d : Delivery) : d ∈ (faulted k r x d).pending ++ (faulted k r x d).held := by
  unfold faulted
  dsimp only
  split <;> simp

theorem faulted_pending_le (k : Core) (r : Nat) (x : BitVec 512) (d : Delivery) : (faulted k r x d).pending.length ≤ k.pending.length + 1 := by
  unfold faulted
  dsimp only
  split <;> simp

/-- A ring's fault record is written and its delivery posted. -/
theorem ringFault_core {code : Nat} (hc : code < 256) (c r : Nat) (deferred stopped : Bool) (index : Nat) (a : Addr) (k : Nat) (s : State) :
    ∃ x d, (ringFault c r code 0 deferred stopped index a k s).core c = faulted (s.core c) r x d ∧ d.w1.toNat % 256 = code ∧ d.w2 = a := by
  let g := (s.core c).ring r
  let b := headBytes g
  have hf : (ringFault c r code 0 deferred stopped index a k s).core c = faulted (s.core c) r
      (faultRec code 0 r (rkKind b) c (if rkKind b = 8 then recFld b 0x16 1 else 0xFF) stopped g.rp.toNat index a k (s.die (dieOf c)).tb.toNat)
      ⟨deliveryWord code deferred 5 r stopped none c, a, BitVec.ofNat 64 (g.rp.toNat + index * 2 ^ 32), BitVec.ofNat 64 k⟩ := by
    unfold ringFault
    refine (congrArg (fun t : State => t.core c) (if_neg (by decide))).trans ?_
    rw [postDelivery, State.modRing, State.core_modCore, State.core_modCore]
    rfl
  exact ⟨_, _, hf, deliveryWord_code hc .., rfl⟩

theorem ringFault_rest (c r code cause : Nat) (deferred stopped : Bool) (index : Nat) (a : Addr) (k : Nat) (s : State) :
    { ringFault c r code cause deferred stopped index a k s with cores := s.cores } = s := by
  unfold ringFault
  dsimp only
  split <;> rfl

theorem repairable_iff (x : Code) : x.repairable = true ↔ x ∈ [Code.xlate, .perm, .owner] := by cases x <;> decide

theorem headBytes_of_head {g : Ring} {e : RecEntry} (h : g.head = some e) : headBytes g = e.bytes := by rw [headBytes, h]

/-- A repairable fault without NOSTOP stops the ring. -/
theorem faultHead_stops (c r k : Nat) (f : CFault) (s : State) : RingStopped c r f s (faultHead c r k f true s) := by
  have hc : ∀ t : State, (t.modRing c r (stopRing f.code.num none)).core c =
      { t.core c with rings := tset (t.core c).rings r (stopRing f.code.num none ((t.core c).ring r)) } := fun t => by
    rw [State.modRing, State.core_modCore]
  have hring : ∀ t : State, ((t.modRing c r (stopRing f.code.num none)).core c).ring r = stopRing f.code.num none ((t.core c).ring r) :=
    fun t => by rw [hc]; exact tget_tset_same ..
  obtain ⟨x, d, hcore, hcode, haddr⟩ := ringFault_core f.code.num_lt c r f.deferred (true || listFull s c) f.index f.addr k s
  have hf : faultHead c r k f true s =
      (ringFault c r f.code.num 0 f.deferred (true || listFull s c) f.index f.addr k s).modRing c r (stopRing f.code.num none) := rfl
  have hmem := ringFault_mem c r f.code.num 0 f.deferred (true || listFull s c) f.index f.addr k s
  rw [hf, RingStopped]
  rw [hring, hc, hcore, faulted_ring]
  exact ⟨hmem, rfl, rfl, rfl, rfl, rfl, d, mem_faulted .., hcode, haddr⟩

/-- A fault that ends its record retires the head where its delivery has room. -/
theorem faultHead_retires {c r k : Nat} {f : CFault} {s : State} {e : RecEntry} (hh : ((s.core c).ring r).head = some e)
    (hl : s.cur.link = none) (hp : (s.core c).pending.length < 63) (ho : s.owes (dieOf c) = false) :
    HeadRetired c r e.bytes s (faultHead c r k f false s) := by
  have hfull : listFull s c = false := decide_eq_false (by omega)
  obtain ⟨x, d, hcore, -, -⟩ := ringFault_core f.code.num_lt c r f.deferred false f.index f.addr k s
  have hrest := ringFault_rest c r f.code.num 0 f.deferred false f.index f.addr k s
  have hf : faultHead c r k f false s = retire c r (some f.code.num) (ringFault c r f.code.num 0 f.deferred false f.index f.addr k s) := by
    unfold faultHead
    rw [hfull]; rfl
  have hrp := ringFault_rp (c := c) (r := r) c r f.code.num 0 f.deferred false f.index f.addr k s
  have hmem := ringFault_mem c r f.code.num 0 f.deferred false f.index f.addr k s
  rw [hf]
  generalize ringFault c r f.code.num 0 f.deferred false f.index f.addr k s = t at *
  have hpend := faulted_pending_le (s.core c) r x d
  obtain ⟨hr, hm⟩ := retire_spec (c := c) (r := r) (fault := some f.code.num) (s := t) (e := e) (by rw [hcore, faulted_ring]; exact hh)
    (by rw [← hl, ← hrest]) (by rw [← ho, ← hrest]; rfl) (by rw [hcore]; omega)
  exact ⟨hr.trans (congrArg (· + 1) hrp), fun hk hd => (hm hk hd).trans hmem⟩

/-- What a chunk's fault leaves, after reads that kept the head and its progress. -/
theorem chunkFault_fails {c r k : Nat} {f : CFault} {s v : State} {e : RecEntry} (h : HeadKept c r s v)
    (hh : ((s.core c).ring r).head = some e) (hl : s.cur.link = none) : ChunkFails c r e.bytes f s (chunkFault c r k f v) := by
  have hv : ((v.core c).ring r).head = some e := h.head.trans hh
  rw [chunkFault, headBytes_of_head hv]
  refine ⟨fun hc hn => ?_, fun hc hp ho => ?_⟩
  · rw [(repairable_iff _).2 hc, hn]
    obtain ⟨h1, h2, h3, h4, h5, h6, h7⟩ := faultHead_stops c r k f v
    exact ⟨h1.trans h.mem, h2, h3, h4.trans h.rp, h5.trans h.chunk, h6.trans h.marks, h7⟩
  · have hrep : (f.code.repairable && !rkNostop e.bytes) = false := by
      rw [← Bool.not_eq_true, Bool.and_eq_true, repairable_iff, Bool.not_eq_true', not_and_or]
      exact hc.imp id fun h => by rw [h]; exact Bool.noConfusion
    rw [hrep]
    obtain ⟨h1, h2⟩ := faultHead_retires (k := k) (f := f) hv (h.link.trans hl) (by rw [h.pending]; exact hp) (by rw [State.owes, h.bridge]; exact ho)
    exact ⟨h1.trans (congrArg (· + 1) h.rp), fun hk hd => (h2 hk hd).trans h.mem⟩

end Sys2Proof.Machine

namespace Sys2Proof.Machine

/-! ### Relaxed reads write no memory -/

/-- Relaxed reads: only the dies' caches change, and whether a failing link has lost a read. -/
structure ReadStep (s t : State) : Prop extends MemStep s t where
  kept : { t with dies := s.dies, cur := s.cur } = s

namespace ReadStep

theorem refl (s : State) : ReadStep s s := ⟨.refl s, rfl⟩

theorem trans {s t u : State} (h : ReadStep s t) (h' : ReadStep t u) : ReadStep s u := 
  ⟨h.toMemStep.trans h'.toMemStep, (congrArg (fun x : State => { x with dies := s.dies, cur := s.cur }) h'.kept).trans h.kept⟩

theorem mem {s t : State} (h : ReadStep s t) : t.mem = s.mem := by rw [← h.kept]

theorem of_pair {α : Type} {s t : State} {p : State × α} {x : α} (h : p = (t, x)) (hp : ReadStep s p.1) : ReadStep s t := by
  rw [h] at hp; exact hp

/-- Reads that no failing link meets keep the head of every ring and its progress. -/
theorem headKept {s t : State} (h : ReadStep s t) (hl : s.cur.link = none) (c r : Nat) : HeadKept c r s t :=
  have hc := h.core c
  ⟨h.mem, (h.calm hl).2, h.link, by rw [hc], by rw [hc], by rw [hc], by rw [hc], by rw [hc]⟩

end ReadStep

theorem HeadKept.trans {c r : Nat} {s t u : State} (h : HeadKept c r s t) (h' : HeadKept c r t u) : HeadKept c r s u :=
  ⟨h'.mem.trans h.mem, h'.bridge.trans h.bridge, h'.link.trans h.link, h'.pending.trans h.pending, h'.head.trans h.head, h'.rp.trans h.rp,
    h'.chunk.trans h.chunk, h'.marks.trans h.marks⟩

/-- A change of a ring that leaves its records, pointers and marks. -/
theorem modRing_kept {c r : Nat} {s : State} {f : Ring → Ring}
    (hf : ∀ g, (f g).head = g.head ∧ (f g).rp = g.rp ∧ (f g).chunk = g.chunk ∧ (f g).marks = g.marks) : HeadKept c r s (s.modRing c r f) := by
  have hc : (s.modRing c r f).core c = { s.core c with rings := tset (s.core c).rings r (f ((s.core c).ring r)) } := by
    rw [State.modRing, State.core_modCore]
  have hr : ((s.modRing c r f).core c).ring r = f ((s.core c).ring r) := by rw [hc]; exact tget_tset_same ..
  obtain ⟨h1, h2, h3, h4⟩ := hf ((s.core c).ring r)
  exact ⟨rfl, rfl, rfl, by rw [hc], by rw [hr, h1], by rw [hr, h2], by rw [hr, h3], by rw [hr, h4]⟩

section

variable (s : State)

theorem readRelaxed_reads (die ctx va n : Nat) : ReadStep s (readRelaxed s die ctx va n).1 := by
  refine ⟨readRelaxed_step .., ?_⟩
  unfold readRelaxed
  dsimp only
  split
  · split
    · rfl
    · split <;> rfl
  · split <;> rfl

theorem readLines_reads (fuel die ctx va n : Nat) : ReadStep s (readLines fuel s die ctx va n .relaxed).1 := by
  induction fuel generalizing s va n with
  | zero => exact .refl s
  | succ fuel ih =>
    rw [readLines]
    split
    · exact .refl s
    · exact (readRelaxed_reads ..).trans (ih ..)

theorem readPlace_reads (die : Nat) (p : Place) (n : Nat) : ReadStep s (readPlace s die p n .relaxed).1 := by
  refine ⟨readPlace_step .., ?_⟩
  cases p with
  | glob ctx va => exact (readLines_reads ..).kept
  | sram => unfold readPlace; dsimp only; split <;> rfl
  | pool => unfold readPlace; dsimp only; split <;> rfl

theorem readAt_reads (c : Nat) (ea : Addr) (n : Nat) : ReadStep s (readAt s c ea n .relaxed).1 := by
  unfold readAt
  split
  exacts [readPlace_reads .., .refl s]

theorem readPieces_reads (fuel c : Nat) (ea : Addr) (n : Nat) : ReadStep s (readPieces fuel c ea n s).1 := by
  induction fuel generalizing s ea n with
  | zero => exact .refl s
  | succ fuel ih =>
    rw [readPieces]
    split
    · exact .refl s
    · exact (readAt_reads ..).trans (ih ..)

theorem readIdx_reads (c : Nat) (ea : Addr) : ReadStep s (readIdx c ea s).1 := by
  unfold readIdx
  split
  exacts [.refl s, readAt_reads ..]

theorem raggedOfs_reads (c : Nat) (b : BitVec 512) (k : Nat) : ReadStep s (raggedOfs c b k s).1 := by
  unfold raggedOfs
  dsimp only
  split
  next t f h => exact .of_pair h (readIdx_reads ..)
  next t o0 p0 h =>
    have ht := ReadStep.of_pair h (readIdx_reads ..)
    split
    next u f h' => exact ht.trans (.of_pair h' (readIdx_reads ..))
    next u o1 p1 h' =>
      have hu := ht.trans (.of_pair h' (readIdx_reads ..))
      split
      · exact hu
      · split
        exacts [hu, hu]

theorem elemsOf_reads (c : Nat) (b : BitVec 512) (ks : List Nat) : ReadStep s (elemsOf c b s ks).1 := by
  induction ks generalizing s with
  | nil => exact .refl s
  | cons k ks ih =>
    have hx : ReadStep s (if recFld b 0x30 8 = 0 then (s, Except.ok (k * accwDe b, none))
        else readIdx c (BitVec.ofNat 64 (recFld b 0x30 8 + 4 * k)) s : State × Except CFault (Nat × Option Addr)).1 := by
      split
      exacts [.refl s, readIdx_reads ..]
    rw [elemsOf]
    split
    next t f h => exact .of_pair h hx
    next t o bad h =>
      have ht := ReadStep.of_pair h hx
      split
      · exact ht
      · split
        next u f h' => exact ht.trans (.of_pair h' (ih t))
        next u l h' => exact ht.trans (.of_pair h' (ih t))

theorem unitBytes_reads (c : Nat) (src : Addr) : ReadStep s (unitBytes c src s).1 := by
  unfold unitBytes
  extract_lets m
  split
  · exact readPieces_reads ..
  · split
    · exact .refl s
    · dsimp only
      split
      · exact readPieces_reads ..
      · split <;> exact readPieces_reads ..

theorem gatBytes_reads (c : Nat) (ea : Addr) (n : Nat) : ReadStep s (gatBytes c ea n s).1 := by
  unfold gatBytes
  split
  exacts [.refl s, readPieces_reads ..]

end

theorem readRecord_reads {s t : State} {ea : Addr} {n : Nat} {l : List Byte} (h : readRecord ea n s = .ok (t, l)) : ReadStep s t := by
  unfold readRecord at h
  split at h
  · cases h
  · dsimp only at h
    split at h
    · cases h
    · cases h; exact readAt_reads ..

/-- Reading a head's descriptor keeps the head. -/
theorem headDesc_kept {s v : State} {c r : Nat} {b : BitVec 512} {x : Except CFault (List Byte)} (hl : s.cur.link = none)
    (h : headDesc c r b s = (v, x)) : HeadKept c r s v := by
  unfold headDesc at h
  split at h
  · cases h; exact (ReadStep.refl s).headKept hl c r
  · cases h; exact (ReadStep.refl s).headKept hl c r
  · split at h
    · cases h; exact (ReadStep.refl s).headKept hl c r
    next t l hr =>
      cases h
      exact ((readRecord_reads hr).headKept hl c r).trans (modRing_kept fun _ => ⟨rfl, rfl, rfl, rfl⟩)

end Sys2Proof.Machine

namespace Sys2Proof.Machine

/-! ### The step of a chunk that is due (R132, R141) -/

theorem chunkHead_eq_some {s : State} {c r kind k : Nat} {x : Ring × BitVec 512} (h : chunkHead s c r kind k = some x) :
    x.1 = (s.core c).ring r ∧ (∃ e, x.1.head = some e ∧ e.bytes = x.2) ∧ s.unitsLive c = true ∧ x.1.st = .run ∧ x.1.due = none ∧ x.1.chunk ≤ k := by
  unfold chunkHead at h
  dsimp only at h
  split at h
  next e he =>
    split at h
    next hc =>
      obtain ⟨hlive, hst, -, hdue, -, -, hk, -⟩ := hc
      cases h
      exact ⟨rfl, ⟨e, he, rfl⟩, hlive, hst, hdue, hk⟩
    next => cases h
  next => cases h

theorem asSide_kept (c r : Nat) (s : State) : HeadKept c r s (asSide c .ap s) := ⟨rfl, rfl, rfl, rfl, rfl, rfl, rfl, rfl⟩

/-- An instruction fails as a chunk of the head of ring r does. -/
def StepFails (i : Instr) (c r : Nat) (b : BitVec 512) (f : CFault) (s : State) : Prop := ∃ t, exec i s = .next t ∧ ChunkFails c r b f s t

section

variable {s : State} {c r kind k : Nat} {b : BitVec 512} (h : Safety.chunkDue c r kind k b s)
include h

theorem chunkDue_head : chunkHead (asSide c .ap s) c r kind k = some ((s.core c).ring r, b) := by
  obtain ⟨-, -, -, hb⟩ := h
  obtain ⟨x, hx, rfl⟩ := Option.map_eq_some_iff.1 hb
  obtain ⟨hg, -⟩ := chunkHead_eq_some hx
  rw [← hg]; exact hx

theorem chunkDue_record : ∃ e, ((s.core c).ring r).head = some e ∧ e.bytes = b := (chunkHead_eq_some (chunkDue_head h)).2.1

theorem chunkDue_window : ((s.core c).ring r).chunk ≤ k := (chunkHead_eq_some (chunkDue_head h)).2.2.2.2.2

theorem chunkStep_due (f : State → State) : chunkStep f c r k s = f (asSide c .ap s) := by
  obtain ⟨hlive, hl, hreads, -⟩ := h
  have hr : ((asSide c .ap s).bridge.reads.any (fun q => q.who == .chunk c r k)) = false := hreads
  rw [chunkStep, if_pos hlive, overLink, hr, if_neg Bool.false_ne_true]
  change (match (f (asSide c .ap s)).cur.lost, s.cur.link with | true, some l => _ | _, _ => _) = _
  rw [hl]
  split
  next heq => cases heq
  next => rfl

/-- A step that ends in a fault of the chunk, after reads that keep the head, leaves what a chunk's fault leaves. -/
theorem fails_of_chunkFault {i : Instr} {f : CFault} {j : Nat} {v : State} (hi : exec i s = .next (chunkFault c r j f v))
    (hv : HeadKept c r (asSide c .ap s) v) : StepFails i c r b f s := by
  obtain ⟨e, he, rfl⟩ := chunkDue_record h
  exact ⟨_, hi, chunkFault_fails ((asSide_kept c r s).trans hv) he h.2.1⟩

end

/-! ### Chunks whose spans fail (R142, R143, R146-R149) -/

theorem moveBytes_dst {s : State} {c n : Nat} {src dst : Addr} {pad : List Byte} {forced : Bool} {f : CFault}
    (h : spanFault s c dst (n + pad.length) .store = some f) : moveBytes c src dst n pad forced s = (s, .error f) := by
  rw [moveBytes, h]

theorem moveBytes_src {s : State} {c n : Nat} {src dst : Addr} {pad : List Byte} {forced : Bool} {f : CFault}
    (hd : spanFault s c dst (n + pad.length) .store = none) (h : spanFault s c src n .load = some f) :
    moveBytes c src dst n pad forced s = (s, .error f) := by
  rw [moveBytes, hd, h]

/-- The destination span of a move fails, or, that passing, its source span does. -/
def MoveFails (s : State) (c : Nat) (dst : Addr) (m : Nat) (src : Addr) (n : Nat) (f : CFault) : Prop :=
  spanFault s c dst m .store = some f ∨ (spanFault s c dst m .store = none ∧ spanFault s c src n .load = some f)

/-- A move that fails changes nothing. -/
theorem moveBytes_fails {s : State} {c n m : Nat} {src dst : Addr} {pad : List Byte} {forced : Bool} {f : CFault} (hm : n + pad.length = m)
    (h : MoveFails s c dst m src n f) : moveBytes c src dst n pad forced s = (s, .error f) := by
  subst hm
  exact h.elim moveBytes_dst fun h => moveBytes_src h.1 h.2

theorem nestChunk_error {c r k len : Nat} {b : BitVec 512} {s v : State} {run : Nest → State → State × Except CFault (Option Addr)} {f : CFault}
    (h : headDesc c r b s = (v, .error f)) : nestChunk c r k b s run len = chunkFault c r k f v := by
  rw [nestChunk, h]

/-- The nest that a head's descriptor gives. -/
def nestIn (l : List Byte) : Nest := if l = [] then Nest.one else nestOf l

/-- A run of a nest that fails. -/
theorem nestChunk_run {c r k len : Nat} {b : BitVec 512} {s v : State} {l : List Byte}
    {run : Nest → State → State × Except CFault (Option Addr)} {f : CFault} (h : headDesc c r b s = (v, .ok l)) (hk : k < (nestIn l).runs)
    (hw : ((v.core c).ring r).chunk ≤ k) (hr : run (nestIn l) v = (v, .error f)) : nestChunk c r k b s run len = chunkFault c r k f v := by
  rw [nestChunk, h]
  refine (if_neg (not_le.2 (hw.trans_lt hk))).trans ((if_neg (not_le.2 hk)).trans ?_)
  change endChunk c r k _ len len (oneBad (run (nestIn l) v)) = _
  rw [hr]; rfl

theorem patBytes_length (pat n : Nat) : (patBytes pat n).length = n := by simp [patBytes]

section

variable {s : State} {c r k : Nat} {b : BitVec 512}

theorem copy_due (h : Safety.chunkDue c r 1 k b s) (hd : rkDecode b = false) :
    exec (.copy c r k) s = .next (nestChunk c r k b (asSide c .ap s) (fun n s => moveBytes c
      (addrPlus (recFld b 0x10 8) (runOfs k n.counts n.ss)) (addrPlus (recFld b 0x18 8) (runOfs k n.counts n.ds)) (recFld b 0x28 4) [] false s)
      (recFld b 0x28 4)) := by
  change execCopy c r k s = _
  rw [execCopy, chunkStep_due h, copyChunk, chunkDue_head h]
  dsimp only
  rw [hd]; rfl

theorem fill_due (h : Safety.chunkDue c r 6 k b s) :
    exec (.fill c r k) s = .next (nestChunk c r k b (asSide c .ap s) (fun n s => moveBytes c 0
      (addrPlus (recFld b 0x10 8) (runOfs k n.counts n.ds)) 0 (patBytes (recFld b 0x28 8) (recFld b 0x20 4)) false s) (recFld b 0x20 4)) := by
  change execFill c r k s = _
  rw [execFill, chunkStep_due h, fillChunk, chunkDue_head h]

/-- A RAGGED row whose offsets cannot be read, or a span of which fails. -/
theorem ragged_fails {f : CFault} {v : State} {x} (h : Safety.chunkDue c r 2 k b s) (hk : k < recFld b 0x28 4)
    (hx : raggedOfs c b k (asSide c .ap s) = (v, x))
    (hf : x = .error f ∨ ∃ o0 o1 bad, x = .ok (o0, o1, bad) ∧ MoveFails v c (BitVec.ofNat 64 (recFld b 0x18 8 + k * recFld b 0x38 4))
      (recFld b 0x2C 4) (BitVec.ofNat 64 (recFld b 0x10 8 + o0)) (Nat.min (o1 - o0) (recFld b 0x2C 4)) f) :
    StepFails (.ragged c r k) c r b f s := by
  have hkept : HeadKept c r (asSide c .ap s) v := (ReadStep.of_pair hx (raggedOfs_reads ..)).headKept h.2.1 c r
  refine fails_of_chunkFault (j := k) h ?_ hkept
  change execRagged c r k s = _
  rw [execRagged, chunkStep_due h, raggedChunk, chunkDue_head h]
  refine congrArg _ ((if_neg (not_le.2 ((chunkDue_window h).trans_lt hk))).trans ((if_neg (not_le.2 hk)).trans ?_))
  rw [hx]
  rcases hf with rfl | ⟨o0, o1, bad, rfl, hf⟩
  · rfl
  · dsimp only
    rw [moveBytes_fails (by simp [patBytes_length]) hf]; rfl

/-- Distance of the rows on the side that a GATHER or SCATTER walks (R149). -/
def rowPitch (b : BitVec 512) : Nat := if recFld b 0x30 4 = 0 then recFld b 0x2C 4 else recFld b 0x30 4

/-- A row of a GATHER or SCATTER whose index cannot be read or is misaligned, or a span of which fails. -/
theorem row_fails {gather : Bool} {i : Instr} {f : CFault} {v : State} {x} (hi : exec i s = .next (chunkStep (rowChunk gather c r k) c r k s))
    (h : Safety.chunkDue c r (if gather = true then 3 else 4) k b s) (hk : k < recFld b 0x28 4)
    (hlow : lowerRowsOk (asSide c .ap s) c b ((s.core c).ring r) k = true)
    (hx : readIdx c (BitVec.ofNat 64 (recFld b 0x20 8 + 4 * k)) (asSide c .ap s) = (v, x))
    (hf : x = .error f ∨ ∃ o bad, x = .ok (o, bad) ∧
      ((o % rkEs b ≠ 0 ∧ k = ((s.core c).ring r).chunk ∧ f = ⟨.alignAccess, BitVec.ofNat 64 (recFld b 0x20 8 + 4 * k), k, false⟩) ∨
        (o % rkEs b = 0 ∧
          MoveFails v c (BitVec.ofNat 64 (recFld b 0x18 8 + (if gather = true then k * rowPitch b else o))) (recFld b 0x2C 4)
            (BitVec.ofNat 64 (recFld b 0x10 8 + (if gather = true then o else k * rowPitch b))) (recFld b 0x2C 4) f))) :
    StepFails i c r b f s := by
  have hkept : HeadKept c r (asSide c .ap s) v := (ReadStep.of_pair hx (readIdx_reads ..)).headKept h.2.1 c r
  refine fails_of_chunkFault (j := k) h (hi.trans ?_) hkept
  rw [chunkStep_due h, rowChunk, chunkDue_head h]
  refine congrArg _ ((if_neg (not_le.2 ((chunkDue_window h).trans_lt hk))).trans ((if_neg ?_).trans ?_))
  · rw [hlow]; simpa using hk
  · rw [hx]
    rcases hf with rfl | ⟨o, bad, rfl, ⟨ho, hg, rfl⟩ | ⟨ho, hf⟩⟩
    · rfl
    · exact (if_pos ho).trans (if_pos hg)
    · have hm := moveBytes_fails (n := recFld b 0x2C 4) (pad := []) (forced := bad.isSome) rfl hf
      unfold rowPitch at hm
      refine (if_neg (not_not.2 ho)).trans ?_
      dsimp only
      rw [hm]; rfl

/-- An ACCW chunk an index of which cannot be read or is misaligned, or a span of which fails. -/
theorem accw_fails {op : Nat} {i : Instr} {f : CFault} {v : State} {x} (hi : exec i s = .next (accwStep op c r k s))
    (h : Safety.chunkDue c r 5 k b s) (hop : recFld b 0x2C 1 = op) (hk : 16 * k < recFld b 0x28 4)
    (hx : elemsOf c b (asSide c .ap s) ((List.range (Nat.min 16 (recFld b 0x28 4 - 16 * k))).map (fun i => 16 * k + i)) = (v, x))
    (hf : x = .error f ∨ ∃ l, x = .ok l ∧ firstSpan v c (accwSpans b (l.map (fun q => q.1))) = some f) : StepFails i c r b f s := by
  have hkept : HeadKept c r (asSide c .ap s) v := (ReadStep.of_pair hx (elemsOf_reads ..)).headKept h.2.1 c r
  have hn : ¬ (recFld b 0x28 4 + 15) / 16 ≤ k := by omega
  refine fails_of_chunkFault (j := k) h (hi.trans ?_) hkept
  rw [accwStep, chunkStep_due h, accwChunk, chunkDue_head h]
  refine congrArg _ ((if_neg (not_not.2 hop)).trans ((if_neg (fun hc => hn (hc.trans (chunkDue_window h)))).trans ((if_neg hn).trans ?_)))
  rw [hx]
  rcases hf with rfl | ⟨l, rfl, hf⟩
  · rfl
  · dsimp only
    rw [hf]

end

end Sys2Proof.Machine

namespace Sys2Proof.Machine

/-! ### Reads that a lane's taking of a request leaves alone (R345, R346) -/

namespace SameMaps

variable {s t : State}

theorem symm (h : SameMaps s t) : SameMaps t s where
  form := h.form.symm
  ctxs := h.ctxs.symm
  pages := h.pages.symm
  turns := h.turns.symm
  tlb d := (h.tlb d).symm
  pad c := ⟨(h.pad c).1.symm, (h.pad c).2.symm⟩
  ctxOf c := (h.ctxOf c).symm
  descs c := (h.descs c).symm

theorem firstBad (h : SameMaps s t) (c : Nat) (acc : Acc) (l : List Nat) : Machine.firstBad t c acc l = Machine.firstBad s c acc l := by
  induction l with
  | nil => rfl
  | cons a l ih => rw [Machine.firstBad, Machine.firstBad, h.checkAddr, ih]

theorem spanFault (h : SameMaps s t) (c : Nat) (ea : Addr) (n : Nat) (acc : Acc) : Machine.spanFault t c ea n acc = Machine.spanFault s c ea n acc := by
  rw [Machine.spanFault, Machine.spanFault, checkRange, checkRange, h.firstBad]

theorem granuleAt (h : SameMaps s t) (c : Nat) (ea : Addr) : Machine.granuleAt t c ea = Machine.granuleAt s c ea := by
  rw [Machine.granuleAt, Machine.granuleAt, h.place]

end SameMaps

/-- Two states from which every relaxed read returns the same. -/
structure SameReads (s t : State) : Prop where
  maps : SameMaps s t
  mem : t.mem = s.mem
  bad : t.bad = s.bad
  dies : t.dies = s.dies
  cur : t.cur = s.cur

/-- A read returns the same from two states, and leaves states that read the same. -/
def AlikeReads {α : Type} (x y : State × α) : Prop := SameReads x.1 y.1 ∧ y.2 = x.2

section

variable {s t : State} (h : SameReads s t)
include h

theorem SameReads.die (n : Nat) : t.die n = s.die n := by rw [State.die, State.die, h.dies]

theorem SameReads.readKey (key n : Nat) : Machine.readKey t key n = Machine.readKey s key n := by
  simp only [Machine.readKey, State.badAt, h.mem, h.bad]

theorem SameReads.homeLine (ctx line : Nat) : Machine.homeLine t ctx line = Machine.homeLine s ctx line := by
  simp only [Machine.homeLine, State.badAt, h.mem, h.bad]

theorem SameReads.sawLost : SameReads (sawLost s) (sawLost t) :=
  ⟨(show SameMaps (Machine.sawLost s) s from ⟨rfl, rfl, rfl, rfl, fun _ => rfl, fun _ => ⟨rfl, rfl⟩, fun _ => rfl, fun _ => rfl⟩).trans
    (h.maps.trans ⟨rfl, rfl, rfl, rfl, fun _ => rfl, fun _ => ⟨rfl, rfl⟩, fun _ => rfl, fun _ => rfl⟩), h.mem, h.bad, h.dies,
    by rw [Machine.sawLost, Machine.sawLost, h.cur]⟩

theorem SameReads.putLine (n : Nat) (l : RlcLine) : SameReads (s.modDie n (fun d => d.putLine l)) (t.modDie n (fun d => d.putLine l)) :=
  ⟨(putLine_step s n l).sameMaps.symm.trans (h.maps.trans (putLine_step t n l).sameMaps), h.mem, h.bad,
    by rw [State.modDie, State.modDie, h.die, h.dies], h.cur⟩

theorem SameReads.readRelaxed (die ctx va n : Nat) : AlikeReads (readRelaxed s die ctx va n) (readRelaxed t die ctx va n) := by
  rw [Machine.readRelaxed, Machine.readRelaxed, h.maps.homeDie, h.maps.cacheable, h.die, h.cur, h.homeLine, h.readKey]
  split
  · split
    · exact ⟨h, rfl⟩
    · split
      exacts [⟨h.sawLost, rfl⟩, ⟨h.putLine .., rfl⟩]
  · split
    exacts [⟨h.sawLost, rfl⟩, ⟨h, rfl⟩]

end

theorem SameReads.readLines (fuel : Nat) {s t : State} (h : SameReads s t) (die ctx va n : Nat) :
    AlikeReads (readLines fuel s die ctx va n .relaxed) (readLines fuel t die ctx va n .relaxed) := by
  induction fuel generalizing s t va n with
  | zero => exact ⟨h, rfl⟩
  | succ fuel ih =>
    rw [Machine.readLines, Machine.readLines]
    split
    · exact ⟨h, rfl⟩
    · obtain ⟨h1, e1⟩ := h.readRelaxed die ctx va (inLine va n)
      obtain ⟨h2, e2⟩ := ih h1 (va + inLine va n) (n - inLine va n)
      exact ⟨h2, by dsimp only [readLine]; rw [e1, e2]⟩

section

variable {s t : State} (h : SameReads s t)
include h

theorem SameReads.readPlace (die : Nat) (p : Place) (n : Nat) : AlikeReads (readPlace s die p n .relaxed) (readPlace t die p n .relaxed) := by
  have hk : ∀ p : Place, AlikeReads
      (if s.homeDie p ≠ die ∧ s.cur.link.isSome = true then (Machine.sawLost s, lostRead p.key n) else (s, Machine.readKey s p.key n))
      (if t.homeDie p ≠ die ∧ t.cur.link.isSome = true then (Machine.sawLost t, lostRead p.key n) else (t, Machine.readKey t p.key n)) :=
    fun p => by
      rw [h.maps.homeDie, h.cur, h.readKey]
      split
      exacts [⟨h.sawLost, rfl⟩, ⟨h, rfl⟩]
  cases p with
  | glob ctx va => exact h.readLines ..
  | sram => exact hk _
  | pool => exact hk _

theorem SameReads.readAt (c : Nat) (ea : Addr) (n : Nat) : AlikeReads (readAt s c ea n .relaxed) (readAt t c ea n .relaxed) := by
  rw [Machine.readAt, Machine.readAt, h.maps.place]
  split
  exacts [h.readPlace .., ⟨h, rfl⟩]

end

theorem SameReads.readPieces (fuel c : Nat) (ea : Addr) (n : Nat) {s t : State} (h : SameReads s t) :
    AlikeReads (readPieces fuel c ea n s) (readPieces fuel c ea n t) := by
  induction fuel generalizing s t ea n with
  | zero => exact ⟨h, rfl⟩
  | succ fuel ih =>
    rw [Machine.readPieces, Machine.readPieces, h.maps.granuleAt]
    split
    · exact ⟨h, rfl⟩
    · extract_lets g m
      obtain ⟨h1, e1⟩ := h.readAt c ea m
      obtain ⟨h2, e2⟩ := ih (ea + BitVec.ofNat 64 m) (n - m) h1
      exact ⟨h2, by dsimp only; rw [e1, e2]⟩

/-- A change of heats that keeps their records, states and metadata leaves what addresses mean. -/
theorem modHeat_sameMaps (s : State) (n : Nat) {f : Heat → Heat} (hf : ∀ x, (f x).hr = x.hr ∧ (f x).st = x.st ∧ (f x).descs = x.descs) :
    SameMaps s (s.modHeat n f) := by
  have hg : ∀ x : Heat, (if x.hr.number = n then f x else x).hr = x.hr ∧ (if x.hr.number = n then f x else x).st = x.st ∧
      (if x.hr.number = n then f x else x).descs = x.descs := fun x => by
    split
    exacts [hf x, ⟨rfl, rfl, rfl⟩]
  have hheat : ∀ c, (s.modHeat n f).heatOf c = (s.heatOf c).map (fun x => if x.hr.number = n then f x else x) := fun c => by
    rw [State.heatOf, State.heatOf]
    change (if (s.core c).heat = 0 then none else (s.heats.map _).find? _) = _
    split
    · rfl
    · rw [List.find?_map]
      refine congrArg (Option.map _) (congrArg (fun p => List.find? p s.heats) (funext fun x => ?_))
      obtain ⟨h1, h2, -⟩ := hg x
      simp only [Function.comp, h1, h2]
      rfl
  refine ⟨rfl, rfl, rfl, rfl, fun _ => rfl, fun _ => ⟨rfl, rfl⟩, fun c => ?_, fun c => ?_⟩
  · rw [State.ctxOf, State.ctxOf, hheat]
    cases s.heatOf c with
    | none => rfl
    | some x => exact congrArg HeatRec.ctx (hg x).1
  · rw [State.descsOf, State.descsOf, hheat]
    cases s.heatOf c with
    | none => rfl
    | some x => exact congrArg (fun o => o.getD []) (hg x).2.2

/-- A lane that takes a request leaves what relaxed reads return. -/
theorem laneTake1_reads (lane c r : Nat) (s : State) : SameReads s (laneTake1 lane c r s) := by
  refine ⟨?_, rfl, rfl, rfl, rfl⟩
  exact (show SameMaps s (s.modLane lane _) from ⟨rfl, rfl, rfl, rfl, fun _ => rfl, fun _ => ⟨rfl, rfl⟩, fun _ => rfl, fun _ => rfl⟩).trans
    (modHeat_sameMaps _ _ fun x => by split <;> exact ⟨rfl, rfl, rfl⟩)

theorem passLane_reads (lane ctx : Nat) (s : State) : SameReads s (passLane lane ctx s) :=
  ⟨⟨rfl, rfl, rfl, rfl, fun _ => rfl, fun _ => ⟨rfl, rfl⟩, fun _ => rfl, fun _ => rfl⟩, rfl, rfl, rfl, rfl⟩

theorem SameReads.trans {s t u : State} (h : SameReads s t) (h' : SameReads t u) : SameReads s u :=
  ⟨h.maps.trans h'.maps, h'.mem.trans h.mem, h'.bad.trans h.bad, h'.dies.trans h.dies, h'.cur.trans h.cur⟩

theorem laneTake1_kept (lane c r : Nat) (s : State) : HeadKept c r s (laneTake1 lane c r s) := ⟨rfl, rfl, rfl, rfl, rfl, rfl, rfl, rfl⟩

theorem passLane_kept (lane ctx c r : Nat) (s : State) : HeadKept c r s (passLane lane ctx s) := ⟨rfl, rfl, rfl, rfl, rfl, rfl, rfl, rfl⟩

/-! ### LANE.LOAD and COPY with DECODE (R144, R146, R153, R354) -/

section

variable {s : State} {c r k : Nat} {b : BitVec 512}

/-- A LANE.LOAD chunk whose source fails its checks or is read poisoned. -/
theorem laneLoad_fails {f : CFault} (h : Safety.chunkDue c r 7 k b s) (hk : 4096 * k < recFld b 0x20 4)
    (ht : laneTurn (asSide c .ap s) (recFld b 0x10 1) c r = true)
    (hf : let n := Nat.min 4096 (recFld b 0x20 4 - 4096 * k)
      let src := BitVec.ofNat 64 (recFld b 0x18 8 + 4096 * k)
      spanFault (asSide c .ap s) c src n .load = some f ∨ (spanFault (asSide c .ap s) c src n .load = none ∧
        ∃ a, firstPoison src (readPieces (n / 16 + 2) c src n (asSide c .ap s)).2 = some a ∧ f = ⟨.poison, a, noIndex, true⟩)) :
    StepFails (.laneLoad c r k) c r b f s := by
  have hn : ¬ (recFld b 0x20 4 + 4095) / 4096 ≤ k := by omega
  obtain ⟨w, hwd⟩ : ∃ w, w = passLane (recFld b 0x10 1) ((asSide c .ap s).ctxOf c) (laneTake1 (recFld b 0x10 1) c r (asSide c .ap s)) :=
    ⟨_, rfl⟩
  have hw : SameReads (asSide c .ap s) w := by rw [hwd]; exact (laneTake1_reads ..).trans (passLane_reads ..)
  have hkept : HeadKept c r (asSide c .ap s) w := by rw [hwd]; exact (laneTake1_kept ..).trans (passLane_kept ..)
  have hi : ∀ {j v}, laneLoadChunk c r k (asSide c .ap s) = chunkFault c r j f v → exec (.laneLoad c r k) s = .next (chunkFault c r j f v) :=
    fun hv => congrArg _ ((chunkStep_due h _).trans hv)
  have hturn : ¬ laneTurn (asSide c .ap s) (recFld b 0x10 1) c r = false := by rw [ht]; exact Bool.noConfusion
  rcases hf with hf | ⟨hf, a, ha, rfl⟩
  · refine fails_of_chunkFault (j := k) h (hi ?_) hkept
    rw [laneLoadChunk, chunkDue_head h]
    refine (if_neg (fun hc => hn (hc.trans (chunkDue_window h)))).trans ((if_neg hn).trans ((if_neg hturn).trans ?_))
    rw [← hwd]
    dsimp only
    rw [hw.maps.spanFault, hf]
  · have hread := readPieces_reads w (Nat.min 4096 (recFld b 0x20 4 - 4096 * k) / 16 + 2) c (BitVec.ofNat 64 (recFld b 0x18 8 + 4096 * k))
      (Nat.min 4096 (recFld b 0x20 4 - 4096 * k))
    refine fails_of_chunkFault (j := k) h (hi ?_) (hkept.trans (hread.headKept (hkept.link.trans h.2.1) c r))
    rw [laneLoadChunk, chunkDue_head h]
    refine (if_neg (fun hc => hn (hc.trans (chunkDue_window h)))).trans ((if_neg hn).trans ((if_neg hturn).trans ?_))
    rw [← hwd]
    dsimp only
    rw [hw.maps.spanFault, hf]
    dsimp only
    rw [(hw.readPieces ..).2, ha]

/-- A DECODE chunk at the front of its record whose destination or source unit fails its checks, or whose unit does not decode. -/
theorem copyDecode_fails {f : CFault} {w v : State} (h : Safety.chunkDue c r 1 k b s) (hd : rkDecode b = true)
    (hk : 4096 * (k + 1) ≤ recFld b 0x28 4) (hheld : ((s.core c).ring r).held = false) (hfront : k = ((s.core c).ring r).chunk)
    (ht : ∀ x, unitLane (asSide c .ap s) c (BitVec.ofNat 64 (recFld b 0x10 8 + 4096 * k)) = some x → laneTurn (asSide c .ap s) x c r = true)
    (hw : w = match unitLane (asSide c .ap s) c (BitVec.ofNat 64 (recFld b 0x10 8 + 4096 * k)) with
      | some x => laneTake1 x c r (asSide c .ap s)
      | none => asSide c .ap s)
    (hf : let src := BitVec.ofNat 64 (recFld b 0x10 8 + 4096 * k)
      let dst := BitVec.ofNat 64 (recFld b 0x18 8 + 4096 * k)
      spanFault w c dst 4096 .store = some f ∨ (spanFault w c dst 4096 .store = none ∧
        (unitFault91 w c src = some f ∨ (unitFault91 w c src = none ∧ unitBytes c src w = (v, .error f))))) :
    StepFails (.copyDecode c r k) c r b f s := by
  have hn : ¬ recFld b 0x28 4 / 4096 ≤ k := by omega
  have hkept : HeadKept c r (asSide c .ap s) w := by
    rw [hw]
    split
    exacts [laneTake1_kept .., ⟨rfl, rfl, rfl, rfl, rfl, rfl, rfl, rfl⟩]
  have hunit : decodeChunk c r k (asSide c .ap s) = decodeUnit c r k (recFld b 0x28 4 / 4096) ((s.core c).ring r)
      (BitVec.ofNat 64 (recFld b 0x10 8 + 4096 * k)) (BitVec.ofNat 64 (recFld b 0x18 8 + 4096 * k)) w := by
    rw [decodeChunk, chunkDue_head h]
    refine (if_neg (by rw [hd]; exact Bool.noConfusion)).trans ((if_neg (fun hc => hn (hc.trans (chunkDue_window h)))).trans ((if_neg hn).trans
      ((if_neg (by rw [hheld]; exact Bool.noConfusion)).trans ?_)))
    rw [hw]
    split
    next hx => rw [hx]
    next x hx => rw [hx]; exact if_pos (ht x hx)
  have hi : ∀ {j v}, decodeUnit c r k (recFld b 0x28 4 / 4096) ((s.core c).ring r)
      (BitVec.ofNat 64 (recFld b 0x10 8 + 4096 * k)) (BitVec.ofNat 64 (recFld b 0x18 8 + 4096 * k)) w = chunkFault c r j f v →
      exec (.copyDecode c r k) s = .next (chunkFault c r j f v) :=
    fun hv => congrArg _ ((chunkStep_due h _).trans (hunit.trans hv))
  rcases hf with hf | ⟨hf, hu | ⟨hu, hb⟩⟩
  · refine fails_of_chunkFault (j := k) h (hi ?_) hkept
    rw [decodeUnit, hf]; exact if_pos hfront
  · refine fails_of_chunkFault (j := k) h (hi ?_) hkept
    rw [decodeUnit, hf, hu]; exact if_pos hfront
  · refine fails_of_chunkFault (j := unitOut w c (BitVec.ofNat 64 (recFld b 0x10 8 + 4096 * k))) h (hi ?_)
      (hkept.trans ((ReadStep.of_pair hb (unitBytes_reads ..)).headKept (hkept.link.trans h.2.1) c r))
    rw [decodeUnit, hf, hu, hb]; exact if_pos hfront

end

end Sys2Proof.Machine

namespace Sys2Proof.Machine

/-! ### A step of a LANE.RUN (R154, R344, R355) -/

theorem putStream_kept (c r d n : Nat) (st : Stream) (s : State) : HeadKept c r s (putStream d n st s) := by
  have hc : ((putStream d n st s).core c).rings = (s.core c).rings ∧ ((putStream d n st s).core c).pending = (s.core c).pending := by
    by_cases h : c = d
    · subst h; rw [putStream, State.core_modCore]; exact ⟨rfl, rfl⟩
    · rw [putStream, State.core_modCore_ne _ _ _ _ h]; exact ⟨rfl, rfl⟩
  have hr : ((putStream d n st s).core c).ring r = (s.core c).ring r := by rw [Core.ring, Core.ring, hc.1]
  exact ⟨rfl, rfl, rfl, hc.2, by rw [hr], by rw [hr], by rw [hr], by rw [hr]⟩

theorem HeadKept.refl (c r : Nat) (s : State) : HeadKept c r s s := ⟨rfl, rfl, rfl, rfl, rfl, rfl, rfl, rfl⟩

theorem endLaneStream_kept (c r : Nat) (y : LaneRun) (code : Code) (lane : Nat) (s : State) : HeadKept c r s (endLaneStream y code lane s) := by
  unfold endLaneStream
  split
  exacts [putStream_kept .., .refl ..]

/-- The last input byte, exclusive, that a step of a run meets: of the bits it reads or peeks, or of the bytes it copies. -/
def laneReach (s : State) (lane : Nat) (st : Stream) (y : LaneRun) : Nat :=
  let z := laneStepOn (fun w => (tget (s.lane lane).table w 0).toNat) (laneInput s lane y) y
  let hi := Nat.min z.hi (8 * y.inlen)
  let m := Nat.min (Nat.min (if y.copy = .input then 16 else Nat.min 16 y.dist.toNat) (laneRoom st y)) y.len.toNat
  if y.copy = .none then (if hi ≤ y.pos then 0 else (hi + 7) / 8) else y.pos / 8 + if y.copy = .input then m else 0

/-- A step of a run that meets input it cannot use fails. -/
theorem laneMoves_fail {s : State} {lane n : Nat} {st : Stream} {y : LaneRun} {f : CFault}
    (h : inputFault s lane y (y.pos / 8) (laneReach s lane st y) = some f) :
    (if y.copy = .none then laneMove lane n st y s else laneBurst lane n st y s) = failRun lane y f s := by
  unfold laneReach at h
  by_cases hc : y.copy = .none
  · rw [if_pos hc] at h ⊢
    rw [laneMove]
    dsimp only at h ⊢
    rw [h]
  · rw [if_neg hc] at h ⊢
    rw [laneBurst]
    simp only [beq_iff_eq]
    rw [h]

/-- A step of a run that meets input it cannot use fails as its record's chunk. -/
theorem laneStep_fails {s : State} {lane n : Nat} {st : Stream} {y : LaneRun} {f : CFault} {b : BitVec 512}
    (hrun : (s.lane lane).run = some y) (h : Safety.chunkDue y.core y.ring 8 ((s.core y.core).ring y.ring).chunk b s) (hq : y.quiet < 1024)
    (hst : laneStream (asSide y.core .ap s) y.dcore y.dport lane = some (n, st)) (hholder : st.holder = some (y.core, y.ring))
    (hf : inputFault (asSide y.core .ap s) lane y (y.pos / 8) (laneReach (asSide y.core .ap s) lane st y) = some f) :
    StepFails (.laneStep lane) y.core y.ring b f s := by
  obtain ⟨-, -, hlive, hrunning, hdue, -⟩ := chunkHead_eq_some (chunkDue_head h)
  have hserved : runServed s y = true := by
    rw [runServed]
    dsimp only at hrunning hdue ⊢
    rw [hrunning, hdue, show s.unitsLive y.core = true from hlive]; rfl
  have hheld : heldStream (asSide y.core .ap s) lane y = some (n, st) := by
    rw [heldStream, hst, Option.filter_some, hholder]; simp
  refine fails_of_chunkFault (j := y.out)
    (v := if f.code == .decode || f.code == .poison then endLaneStream y f.code lane (asSide y.core .ap s) else asSide y.core .ap s) h ?_ ?_
  · change execLaneStep lane s = _
    rw [execLaneStep, laneCycle, hrun]
    dsimp only
    rw [if_neg (by rw [hserved]; simpa using hq), hheld]
    exact congrArg _ (laneMoves_fail hf)
  · split
    exacts [endLaneStream_kept .., .refl ..]

/-! ### A receiver of NET (R356, R363, R365, R367) -/

/-- Array words of a netting engine: its job stays the same record's, and nothing changes but the dies, the crews and the draw. -/
structure NetStep (die : Nat) (s t : State) : Prop where
  rest : { t with dies := s.dies, crews := s.crews, count := s.count, cur := s.cur } = s
  tlb : ∀ d, (t.die d).tlb = (s.die d).tlb
  job : (t.die die).net.map (fun j => (j.core, j.ring)) = (s.die die).net.map (fun j => (j.core, j.ring))
  link : t.cur.link = s.cur.link

namespace NetStep

variable {die : Nat} {s t u : State}

theorem refl (s : State) : NetStep die s s := ⟨rfl, fun _ => rfl, rfl, rfl⟩

theorem trans (h : NetStep die s t) (h' : NetStep die t u) : NetStep die s u :=
  ⟨(congrArg (fun x : State => { x with dies := s.dies, crews := s.crews, count := s.count, cur := s.cur }) h'.rest).trans h.rest,
    fun d => (h'.tlb d).trans (h.tlb d), h'.job.trans h.job, h'.link.trans h.link⟩

theorem foldl {α : Type} {f : State → α → State} (hf : ∀ s x, NetStep die s (f s x)) (l : List α) (s : State) :
    NetStep die s (l.foldl f s) := by
  induction l generalizing s with
  | nil => exact refl s
  | cons x r ih => exact (hf s x).trans (ih _)

theorem of_pair {α : Type} {p : State × α} {x : α} (h : p = (t, x)) (hp : NetStep die s p.1) : NetStep die s t := by
  rw [h] at hp; exact hp

theorem of_read (h : ReadStep s t) : NetStep die s t :=
  ⟨by rw [← h.kept], fun d => by rw [← h.dies d], by rw [← h.dies die], h.link⟩

theorem cores (h : NetStep die s t) : t.cores = s.cores := by rw [← h.rest]

theorem core (h : NetStep die s t) (c : Nat) : t.core c = s.core c := by rw [State.core, State.core, h.cores]

theorem headKept (h : NetStep die s t) (c r : Nat) : HeadKept c r s t :=
  ⟨by rw [← h.rest], by rw [← h.rest], h.link, by rw [h.core], by rw [h.core], by rw [h.core], by rw [h.core], by rw [h.core]⟩

/-- A head that serves a chunk serves it still. -/
theorem chunkHead (h : NetStep die s t) (c r kind k : Nat) : Machine.chunkHead t c r kind k = Machine.chunkHead s c r kind k := by
  have hlive : t.unitsLive c = s.unitsLive c := by
    have hh : t.heats = s.heats := by rw [← h.rest]
    simp only [State.unitsLive, State.heatOf, h.core, hh]
  simp only [Machine.chunkHead, h.core, hlive]

end NetStep

section

variable (die crew : Nat) (s : State)

theorem count_netStep (n : Nat) : NetStep die s { s with count := n } := ⟨rfl, fun _ => rfl, rfl, rfl⟩

theorem asSide_netStep (c : Nat) (sd : Side) : NetStep die s (asSide c sd s) := ⟨rfl, fun _ => rfl, rfl, rfl⟩

theorem modCrew_netStep (f : Crew → Crew) : NetStep die s (s.modCrew crew f) := ⟨rfl, fun _ => rfl, rfl, rfl⟩

theorem modNet_netStep {f : NetJob → NetJob} (hf : ∀ j, (f j).core = j.core ∧ (f j).ring = j.ring) : NetStep die s (modNet die f s) := by
  refine ⟨rfl, fun d => ?_, ?_, rfl⟩
  · by_cases h : d = die
    · subst h; rw [modNet, State.die_modDie]
    · rw [modNet, State.die_modDie_ne _ _ _ _ h]
  · rw [modNet, State.die_modDie, Option.map_map]
    exact congrArg (fun g => (s.die die).net.map g) (funext fun j => by rw [Function.comp, (hf j).1, (hf j).2])

theorem netPlane_netStep (c : Nat) (d : Desc) (h : Nat) (g : Nat × Nat × Nat) : NetStep die s (netPlane c d h g s).1 := by
  unfold netPlane
  extract_lets es
  split
  · exact .refl s
  · split
    next t l x hg => exact .of_read (ReadStep.of_pair hg (gatBytes_reads ..))
    next t f hg => exact .of_read (ReadStep.of_pair hg (gatBytes_reads ..))

theorem netPass_netStep (j : NetJob) (g : Nat × Nat × Nat) : NetStep die s (netPass die crew j g s) :=
  (count_netStep die s _).trans (modNet_netStep _ _ fun _ => ⟨rfl, rfl⟩)

theorem netWord_netStep : NetStep die s (netWord die crew s) := by
  unfold netWord
  extract_lets x
  split
  · exact .refl s
  next j _ =>
    extract_lets goals
    split
    · exact .refl s
    next count _ _ s1 _ =>
      split
      next s2 n hn =>
      extract_lets g s3
      have h2 : NetStep die s1 s2 := NetStep.of_pair hn (count_netStep die s1 _)
      have h3 : NetStep die s s3 := ((asSide_netStep die s j.core .ap).trans h2).trans (modNet_netStep die _ fun _ => ⟨rfl, rfl⟩)
      have hcount : ∀ t, NetStep die t (count t) := fun t => modCrew_netStep ..
      split
      · exact (h3.trans (netPass_netStep ..)).trans (hcount _)
      · split
        · exact (h3.trans (modCrew_netStep ..)).trans (hcount _)
        · split
          next t w hp => exact (h3.trans (.of_pair hp (netPlane_netStep ..))).trans ((modCrew_netStep ..).trans (hcount _))
          next t hp => exact h3.trans (.of_pair hp (netPlane_netStep ..))

theorem netWords_netStep (n : Nat) : NetStep die s (netWords n die crew s) := by
  induction n generalizing s with
  | zero => exact .refl s
  | succ n ih => exact (netWord_netStep die crew s).trans (ih _)

theorem netTurn_netStep : NetStep die s (netTurn die crew s) := (count_netStep die s _).trans (netWords_netStep die crew _ _)

end

theorem askSeats_cores (die : Nat) (s : State) : (askSeats die s).cores = s.cores := by
  unfold askSeats
  split
  next j _ =>
    have keep : ∀ l : List Nat, ∀ t : State, (l.foldl (fun s crew =>
        if (s.crew crew).holder = 4 ∨ (s.crew crew).reqs.contains 4 = true then s else requestSeat crew 4 s) t).cores = t.cores := fun l => by
      induction l with
      | nil => exact fun _ => rfl
      | cons x l ih =>
        intro t
        refine (ih _).trans ?_
        dsimp only
        split <;> rfl
    exact keep _ s
  next => rfl

theorem netFault_cores (c r k : Nat) (f : CFault) (s : State) : (netFault c r k f s).cores = (chunkFault c r k f s).cores := by
  unfold netFault
  dsimp only
  split
  exacts [dropNet_cores .., rfl]

theorem netFault_mem (c r k : Nat) (f : CFault) (s : State) : (netFault c r k f s).mem = (chunkFault c r k f s).mem := by
  unfold netFault
  dsimp only
  split
  exacts [dropNet_mem .., rfl]

/-- What a chunk's fault leaves is said of memory and of the cores alone. -/
theorem ChunkFails.of_cores {c r : Nat} {b : BitVec 512} {f : CFault} {s t u : State} (h : ChunkFails c r b f s t) (hm : u.mem = t.mem)
    (hc : u.cores = t.cores) : ChunkFails c r b f s u := by
  have hcore : u.core c = t.core c := by rw [State.core, State.core, hc]
  rw [ChunkFails, RingStopped, HeadRetired, hcore, hm]; exact h

/-- A receiver of a job whose row lies at an address that cannot be written. -/
theorem receiver_faults {die k : Nat} {s : State} {j : NetJob} {f : CFault} {g : Ring} {b : BitVec 512} (hj : (s.die die).net = some j)
    (hh : chunkHead s j.core j.ring 9 k = some (g, b)) (hk : k < recFld b 0x1C 4) (ha : fieldAt (j.desc s) 0x30 8 ≠ 0)
    (hf : spanFault s j.core (BitVec.ofNat 64 (fieldAt (j.desc s) 0x30 8 + fieldAt (j.desc s) 0x40 4 * (recFld b 0x18 4 + k)))
      (4 * netOut (j.desc s)) .store = some f) : receiver die k s = netFault j.core j.ring k f s := by
  rw [receiver, hj]
  dsimp only
  rw [hh]
  refine (if_neg (not_le.2 hk)).trans ?_
  rw [if_neg ha, hf]

/-- The crews' array words of a job that a receiver's step makes first (R255, R365). -/
def netTurns (die : Nat) (d : Desc) (s : State) : State :=
  ((netCrews d).filter (fun x => (s.crew x).holder == 4)).foldl (fun z x => netTurn die x z) s

theorem netTurns_netStep (die : Nat) (d : Desc) (s : State) : NetStep die s (netTurns die d s) :=
  NetStep.foldl (fun _ _ => netTurn_netStep ..) _ _

/-- A receiver of NET whose row lies at an address that cannot be written fails as its record's chunk. -/
theorem netReceiver_fails {die k : Nat} {s : State} {j : NetJob} {f : CFault} {b : BitVec 512} (hj : (s.die die).net = some j)
    (h : Safety.chunkDue j.core j.ring 9 k b s) (hk : k < recFld b 0x1C 4) (ha : fieldAt (j.desc s) 0x30 8 ≠ 0)
    (hf : spanFault (netTurns die (j.desc s) (asSide j.core .ap s)) j.core
      (BitVec.ofNat 64 (fieldAt (j.desc s) 0x30 8 + fieldAt (j.desc s) 0x40 4 * (recFld b 0x18 4 + k))) (4 * netOut (j.desc s)) .store = some f) :
    StepFails (.netReceiverDone die k) j.core j.ring b f s := by
  have hstep : NetStep die s (netTurns die (j.desc s) (asSide j.core .ap s)) := (asSide_netStep ..).trans (netTurns_netStep ..)
  have hexec : exec (.netReceiverDone die k) s = .next (askSeats die (receiver die k (netTurns die (j.desc s) (asSide j.core .ap s)))) := by
    change execNetReceiverDone die k s = _
    rw [execNetReceiverDone, hj]
    exact congrArg _ (if_pos h.1)
  generalize netTurns die (j.desc s) (asSide j.core .ap s) = w at hstep hf hexec
  obtain ⟨j', hj', hjob⟩ : ∃ j', (w.die die).net = some j' ∧ (j'.core, j'.ring) = (j.core, j.ring) := by
    have hmap := hstep.job
    rw [hj] at hmap
    exact Option.map_eq_some_iff.1 hmap
  obtain ⟨hjc, hjr⟩ : j'.core = j.core ∧ j'.ring = j.ring := by simpa using hjob
  have hdesc : j'.desc w = j.desc s := by rw [NetJob.desc, NetJob.desc, NetJob.head, NetJob.head, hjc, hjr, hstep.core]
  have hhead : chunkHead w j'.core j'.ring 9 k = some ((s.core j.core).ring j.ring, b) := by
    rw [hjc, hjr, hstep.chunkHead]; exact chunkDue_head h
  have hrecv := receiver_faults hj' hhead hk (by rw [hdesc]; exact ha) (by rw [hdesc, hjc]; exact hf)
  obtain ⟨e, he, rfl⟩ := chunkDue_record h
  refine ⟨_, hexec, (chunkFault_fails (k := k) (f := f) (hstep.headKept j.core j.ring) he h.2.1).of_cores ?_ ?_⟩
  · rw [askSeats_mem, hrecv, netFault_mem, hjc, hjr]
  · rw [askSeats_cores, hrecv, netFault_cores, hjc, hjr]

end Sys2Proof.Machine

namespace Sys2Proof

open Sys2Proof.Machine

/-- Settles O43: each chunk that fails ends in `chunkFault` after reads that keep the head of its ring. -/
theorem chunksStopOnRepairableFaults : Obligations.ChunksStopOnRepairableFaults := by
  intro s c r k b u g fails spans ops
  have hops : ∀ p ∈ ops, exec p.1 s = .next (accwStep p.2 c r k s) := by
    simp only [ops, List.forall_mem_cons]
    exact ⟨rfl, rfl, rfl, rfl, rfl, rfl, rfl, rfl, rfl, rfl, rfl, rfl, rfl, by simp⟩
  refine ⟨fun h hd => ⟨fun v f hv => ?_, ?_⟩, fun h => ⟨fun v f hv => ?_, ?_⟩, fun h hk => ⟨fun v f hv => ?_, fun v o0 o1 bad hv f hf => ?_⟩,
    ?_, ?_, ?_, ?_, ?_, ?_⟩
  · exact fails_of_chunkFault h ((copy_due h hd).trans (congrArg _ (nestChunk_error hv))) (headDesc_kept h.2.1 hv)
  · intro v l hv n hk f hf
    have hkept : HeadKept c r u v := headDesc_kept (s := u) h.2.1 hv
    exact fails_of_chunkFault h ((copy_due h hd).trans (congrArg _ (nestChunk_run hv hk (by rw [hkept.chunk]; exact chunkDue_window h)
      (moveBytes_fails rfl hf)))) hkept
  · exact fails_of_chunkFault h ((fill_due h).trans (congrArg _ (nestChunk_error hv))) (headDesc_kept h.2.1 hv)
  · intro v l hv n hk f hf
    have hkept : HeadKept c r u v := headDesc_kept (s := u) h.2.1 hv
    exact fails_of_chunkFault h ((fill_due h).trans (congrArg _ (nestChunk_run hv hk (by rw [hkept.chunk]; exact chunkDue_window h)
      (moveBytes_fails (by rw [patBytes_length, Nat.zero_add]) (.inl hf))))) hkept
  · exact ragged_fails h hk hv (.inl rfl)
  · exact ragged_fails h hk hv (.inr ⟨o0, o1, bad, rfl, hf⟩)
  · intro gather h hk hlow i ia row pitch
    have hi : exec i s = .next (chunkStep (rowChunk gather c r k) c r k s) := by cases gather <;> rfl
    refine ⟨fun v f hv => row_fails hi h hk hlow hv (.inl rfl), fun v o bad hv => ⟨fun ho hg => ?_, fun ho f hf => ?_⟩⟩
    · exact row_fails hi h hk hlow hv (.inr ⟨o, bad, rfl, .inl ⟨ho, hg, rfl⟩⟩)
    · exact row_fails hi h hk hlow hv (.inr ⟨o, bad, rfl, .inr ⟨ho, hf⟩⟩)
  · intro p hp h hop hk ks
    have hi := hops p hp
    exact ⟨fun v f hv => accw_fails hi h hop hk hv (.inl rfl), fun v l hv f hf => accw_fails hi h hop hk hv (.inr ⟨l, rfl, hf⟩)⟩
  · intro h hk ht n src
    exact ⟨fun f hf => laneLoad_fails h hk ht (.inl hf), fun hs a ha => laneLoad_fails h hk ht (.inr ⟨hs, a, ha, rfl⟩)⟩
  · intro h hd hk hheld hfront src dst ht w
    refine ⟨fun f hf => ?_, fun hs hu v f hb => copyDecode_fails h hd hk hheld hfront ht rfl (.inr ⟨hs, .inr ⟨hu, hb⟩⟩)⟩
    exact copyDecode_fails (v := w) h hd hk hheld hfront ht rfl (hf.imp id fun hf => ⟨hf.1, .inl hf.2⟩)
  · intro lane y hrun hc hr h hq n st hst hholder z hi m last f hf
    subst hc hr
    exact laneStep_fails hrun h hq hst hholder hf
  · intro die j hj hc hr h hk d w ha f hf
    subst hc hr
    exact netReceiver_fails hj h hk ha hf

end Sys2Proof

namespace Sys2Proof.Machine

/-! ### Stream words of the AP (R112-R126) -/

/-- A stream word that waits for no load takes POISON at a poisoned source, else does what its body says (R112). -/
theorem streamWord_free {srcs dsts : List Nat} {body : State → Except Trap State} {s : State}
    (h : s.me.ldsWaits (srcs ++ dsts) = false) :
    (.next (streamWord srcs dsts body s) : Res) =
      if s.me.anyPoison srcs = true then Safety.traps trapPoison s else .next (settle (body s) s) := apWord_poison h

/-- A stream word that reads no a register does what its body says. -/
theorem streamWord_bare {dsts : List Nat} {body : State → Except Trap State} {s : State} (h : s.me.ldsWaits dsts = false) :
    (.next (streamWord [] dsts body s) : Res) = .next (settle (body s) s) := streamWord_free h

end Sys2Proof.Machine

namespace Sys2Proof
open Sys2Proof.Machine

/-- Settles O19: each word is a stream word, and its outcome is the choice that its body makes. -/
theorem streamsOpenAndStart : Obligations.StreamsOpenAndStart := by
  intro s k m a b w sf t ⟨_, _, hfree⟩ c ea o sum poison no put
  have ha : s.me.ldsWaits [a] = false := Core.ldsWaits_mono hfree (by simp)
  have hnil : s.me.ldsWaits [] = false := Core.ldsWaits_nil _
  refine ⟨?_, ?_, fun n j st sh hk hsh => ⟨?_, ?_⟩, fun hk hpa hpb => ⟨?_, ?_⟩, ?_, ?_⟩
  · change execShape k a s = _
    rw [execShape, streamWord_free ha, Core.anyPoison_single, next_settle_ite]
    cases readRecord (s.me.areg a).val 64 s with
    | error t => rfl
    | ok p => simp only [next_settle_ite]; rfl
  · change execSopen k a b s = _
    rw [execSopen, streamWord_free hfree, Core.anyPoison_pair]
    simp only [next_settle_ite, Bool.or_eq_true]
    rfl
  · change execSld k a b s = _
    rw [execSld, streamWord_free hfree, Core.anyPoison_pair]
    simp only [hk, hsh, next_settle_ite, Bool.or_eq_true]
    cases checkRange s s.cur.core ((s.me.areg a).val + (s.me.areg b).val) (shLen sh) .load with
    | some p => rfl
    | none => simp only [next_settle_ite]; rfl
  · change execSfill k a s = _
    rw [execSfill, streamWord_free ha, Core.anyPoison_single]
    simp only [hk, hsh, next_settle_ite]
    rfl
  · change execSld k a b s = _
    rw [execSld, streamWord_free hfree, Core.anyPoison_pair, hpa, hpb]
    obtain hk | hk := hk <;> simp only [hk] <;> cases s.me.bound k <;> rfl
  · change execSfill k a s = _
    rw [execSfill, streamWord_free ha, Core.anyPoison_single, hpa]
    obtain hk | hk := hk <;> simp only [hk] <;> cases s.me.bound k <;> rfl
  · change execSfillRes k s = _
    rw [execSfillRes, streamWord_bare hnil]
    cases s.me.bound k with
    | none => rfl
    | some p => simp only [next_settle_ite, ite_not]; rfl
  · change execSfork k m sf t w s = _
    rw [execSfork, streamWord_bare hnil]
    cases s.me.bound m with
    | none => rfl
    | some p =>
      dsimp only
      cases freeEntry p.2.2 <;> cases tfind p.2.2.readers p.2.1
      case some.some => simp only [next_settle_ite]; rfl
      all_goals rfl

end Sys2Proof

namespace Sys2Proof.Machine

/-- A port that is bound to a reader entry: what a mark word comes to (R121). -/
theorem markWord_bound {k n j : Nat} {st : Stream} {r : Reader} {s : State} (hk : s.me.bound k = some (n, j, st))
    (hr : tfind st.readers j = some r) (f : Reader → Option Reader) :
    (.next (markWord k f s) : Res) = if opSink st.openw = true then Safety.traps (trapAt .stream) s
      else match f r with
        | some r' => .next (finish (putStream s.cur.core n (st.setReader j r') s))
        | none => Safety.traps (trapAt .stream) s := by
  rw [markWord, streamWord_bare (Core.ldsWaits_nil _)]
  simp only [hk, hr, next_settle_ite]
  cases f r <;> rfl

theorem tget_of_tfind {α : Type} {t : Tbl α} {k : Nat} {v : α} (d : α) (h : tfind t k = some v) : tget t k d = v := by
  induction t with
  | nil => cases h
  | cons p r ih =>
    rw [tfind] at h
    rw [tget]
    split at h <;> simp_all

@[simp] theorem ringClean_cur (c : Nat) (st : Stream) (swz p n : Nat) (s : State) : (ringClean c st swz p n s).cur = s.cur := by
  rw [ringClean]
  generalize ringGranules p n = l
  induction l generalizing s with
  | nil => rfl
  | cons q l ih =>
    rw [List.foldl_cons, ih]
    split <;> rfl

@[simp] theorem ringWrite_cur (c : Nat) (st : Stream) (swz p : Nat) (l : List Byte) (s : State) :
    (ringWrite c st swz p l s).cur = s.cur := ringClean_cur ..

end Sys2Proof.Machine

namespace Sys2Proof
open Sys2Proof.Machine

/-- Settles O20: each word is a stream word, and its outcome is the choice that its body makes. -/
theorem streamsMarkCloseAndReport : Obligations.StreamsMarkCloseAndReport := by
  intro s k d a ⟨hside, _, hfree⟩ c ea no put
  have hnil : s.me.ldsWaits [] = false := Core.ldsWaits_nil _
  have hd : s.me.ldsWaits [d] = false := Core.ldsWaits_mono hfree (by simp)
  have ha : s.me.ldsWaits [a] = false := Core.ldsWaits_mono hfree (by simp)
  have sound : ∀ {body}, (s.me.areg a).bad = false → (.next (streamWord [a] [] body s) : Res) = .next (settle (body s) s) :=
    fun hp => by rw [streamWord_free ha, Core.anyPoison_single, hp]; rfl
  refine ⟨fun hk => ?_, fun n j st r hk hr => ⟨?_, ?_, ?_, ?_, ?_, ?_, ?_, fun hp hal hs => ?_, fun hp hal => ?_⟩, fun hp hal => ?_,
    fun hp hal => ?_⟩
  · have mark : ∀ f, (.next (markWord k f s) : Res) = no := fun f => by
      rw [markWord, streamWord_bare hnil]; simp only [hk]; rfl
    refine ⟨mark _, mark _, mark _, ?_, ?_, ?_, ?_⟩
    · change execSclose k s = _
      rw [execSclose, streamWord_bare hnil]; simp only [hk]; rfl
    · change execScloseFin k s = _
      rw [execScloseFin, streamWord_bare hnil]; simp only [hk]; rfl
    · change execSdrain d k s = _
      rw [execSdrain, streamWord_bare hd]; simp only [hk]; rfl
    · change execSstat d k s = _
      rw [execSstat, streamWord_bare hd]; simp only [hk]; rfl
  · exact markWord_bound hk hr _
  · exact markWord_bound hk hr _
  · refine (markWord_bound hk hr _).trans ?_
    cases r.mark with
    | none => exact ite_self _
    | some p => rfl
  · change execSclose k s = _
    rw [execSclose, streamWord_bare hnil]; simp only [hk]; rfl
  · change execScloseFin k s = _
    rw [execScloseFin, streamWord_bare hnil]; simp only [hk, next_settle_ite]; rfl
  · change execSdrain d k s = _
    rw [execSdrain, streamWord_bare hd]
    simp only [hk, next_settle_ite, State.put_ap hside]
    rfl
  · change execSstat d k s = _
    rw [execSstat, streamWord_bare hd]
    simp only [hk, tget_of_tfind _ hr]
    rw [State.put_ap (by exact hside)]
    rfl
  · change execSsave k a s = _
    rw [execSsave, sound hp]
    simp only [hk]
    rw [if_neg (not_not.2 hal)]
    cases checkRange s c ea (1024 + opRb st.openw) .store with
    | some p => rfl
    | none => dsimp only; rw [if_neg (not_not.2 hs)]; rfl
  · change execSsave k a s = _
    rw [execSsave, sound hp]
    simp only [hk]
    rw [if_pos hal]; rfl
  · change execSrest a s = _
    rw [execSrest, sound hp, if_neg (not_not.2 hal)]
    cases readRecord ea 1024 s with
    | error t => rfl
    | ok p =>
      dsimp only
      rw [next_settle_ite]
      refine if_congr Iff.rfl rfl ?_
      cases readRecord (ea + 1024) (opRb (imageStream p.2).openw) p.1 with
      | error t => rfl
      | ok q => dsimp only; rw [ringWrite_cur]; rfl
  · change execSrest a s = _
    rw [execSrest, sound hp, if_pos hal]; rfl

end Sys2Proof

namespace Sys2Proof.Machine

/-! ### Words that wait or trap at their ports (R127, R129, R172) -/

/-- A word that comes to what its ports are checked for: it waits unchanged, or takes the port's fault in its queue. -/
def PortMet (i : Instr) (p : PortCheck) (s : State) : Prop :=
  (p = .wait → exec i s = .next s) ∧ (∀ t, p = .trap t → exec i s = .next (queueTrap t s))

/-- A word with source and sink codes whose work starts once their ports are ready. -/
def AsksPorts (srcs dsts : List Nat) (s : State) (i : Instr) : Prop :=
  ∃ l go, portsOf l = portsOf srcs ∧ exec i s = .next (withPorts l dsts go s)

theorem AsksPorts.met {srcs dsts : List Nat} {s : State} {i : Instr} (h : AsksPorts srcs dsts s i) :
    PortMet i (portsCheck s (portsOf srcs) (portsOf dsts)) s := by
  obtain ⟨l, go, hl, hi⟩ := h
  rw [← hl]
  refine ⟨fun hp => ?_, fun t hp => ?_⟩ <;> rw [hi, withPorts, hp]

/-- An elementwise word asks the ports of its codes, each once. -/
theorem AsksPorts.of_elemWord {d a b : Nat} {srcs : List Nat} {m : Bool} {f : Nat → Nat → Nat → Nat → FRes} {s : State} {i : Instr}
    (h : exec i s = .next (elemWord d a b m f s)) (hp : portsOf [a, b] = portsOf srcs) : AsksPorts srcs [d] s i :=
  ⟨[a, b], _, hp, by rw [h, elemWord, vecWord]⟩

end Sys2Proof.Machine

namespace Sys2Proof
open Sys2Proof.Machine

/-- Settles O31: each word asks its ports before anything else. -/
theorem engineWordsWaitOrTrapAtPorts : Obligations.EngineWordsWaitOrTrapAtPorts := by
  intro s d a b r c i10 x m two one met
  have htwo : ∀ i ∈ two, AsksPorts [a, b] [d] s i := by
    have elem : ∀ {i} f, exec i s = .next (elemWord d a b m f s) → AsksPorts [a, b] [d] s i := fun f h => .of_elemWord h rfl
    simp only [two, List.forall_mem_cons]
    exact ⟨elem _ rfl, elem _ rfl, elem _ rfl, elem _ rfl, elem _ rfl, elem _ rfl, elem _ rfl, elem _ rfl, elem _ rfl, elem _ rfl,
      elem _ rfl, elem _ rfl, elem _ rfl, ⟨_, _, rfl, rfl⟩, elem _ rfl, elem _ rfl, elem _ rfl, elem _ rfl, elem _ rfl, elem _ rfl,
      elem _ rfl, List.forall_mem_nil _⟩
  have hone : ∀ i ∈ one, AsksPorts [a] [d] s i := by
    have elem : ∀ {i} f, exec i s = .next (elemWord d a a m f s) → AsksPorts [a] [d] s i := fun f h => .of_elemWord h (portsOf_pair a)
    simp only [one, List.forall_mem_cons]
    exact ⟨elem _ rfl, elem _ rfl, ⟨_, _, rfl, rfl⟩, ⟨_, _, rfl, rfl⟩, ⟨_, _, rfl, rfl⟩, ⟨_, _, rfl, rfl⟩, ⟨_, _, rfl, rfl⟩,
      ⟨_, _, rfl, rfl⟩, elem _ rfl, elem _ rfl, elem _ rfl, elem _ rfl, elem _ rfl, elem _ rfl, elem _ rfl, elem _ rfl, List.forall_mem_nil _⟩
  have hcmp : ∀ i ∈ [Instr.vcmp d a b c, Instr.vfcmp d a b c], AsksPorts [a, b] [] s i := by
    simp only [List.forall_mem_cons]
    exact ⟨⟨_, _, rfl, rfl⟩, ⟨_, _, rfl, rfl⟩, List.forall_mem_nil _⟩
  exact ⟨fun i hi => (htwo i hi).met, fun i hi => (hone i hi).met, fun i hi => (hcmp i hi).met⟩

end Sys2Proof

namespace Sys2Proof.Machine

/-! ### Addresses that follow one another (R90, R91) -/

theorem Place.plus_plus (p : Place) (i j : Nat) : (p.plus i).plus j = p.plus (i + j) := by
  cases p <;> simp [Place.plus, Nat.add_assoc]

theorem Place.plus_zero (p : Place) : p.plus 0 = p := by cases p <;> rfl

theorem Place.key_plus (p : Place) (i : Nat) : (p.plus i).key = p.key + i := by
  cases p <;> simp [Place.plus, Place.key, globKey, sramKey, poolKey, Nat.add_assoc]

/-- The place of a number as an address. -/
def placeNo (s : State) (c x : Nat) : Option Place := s.place c (BitVec.ofNat 64 x)

theorem place_add (s : State) (c : Nat) (ea : Addr) (i : Nat) : s.place c (ea + BitVec.ofNat 64 i) = placeNo s c (ea.toNat + i) := by
  rw [placeNo, BitVec.ofNat_add, BitVec.ofNat_toNat, BitVec.setWidth_eq]

theorem place_eq (s : State) (c : Nat) (ea : Addr) : s.place c ea = placeNo s c ea.toNat := by
  rw [placeNo, BitVec.ofNat_toNat, BitVec.setWidth_eq]

theorem Core.spad_le (k : Core) : k.spad ≤ 2 ^ 20 - 2 ^ 15 := by unfold Core.spad; omega

/-- The apertures, by the number of an address: the place p of the number x (R90). -/
def PlacedAt (s : State) (c x : Nat) (p : Place) : Prop :=
  (x < 2 ^ 48 ∧ p = .glob (s.ctxOf c) x) ∨
  (∃ die o, x = 0xF0 * 2 ^ 56 + die * 2 ^ 32 + o ∧ die < 2 ∧ o < 2 ^ 24 ∧ o < s.wsh (s.ctxOf c) die ∧ s.form.hasDie die = true ∧
    p = .sram die (s.ctxOf c) o) ∨
  (∃ j o, x = 0xF8 * 2 ^ 56 + j * 2 ^ 20 + o ∧ j < 4 ∧ o < 2 ^ 20 ∧ o < (s.core (coreAt (crewOf c) j)).spad ∧
    p = .pool (coreAt (crewOf c) j) ((s.core (coreAt (crewOf c) j)).padBase + o)) ∨
  (∃ o, x = 0xFC * 2 ^ 56 + o ∧ o < 2 ^ 20 ∧ o < (s.core c).spad ∧ p = .pool c ((s.core c).padBase + o))

theorem placeNo_eq_some {s : State} {c x : Nat} {p : Place} (hx : x < 2 ^ 64) : placeNo s c x = some p ↔ PlacedAt s c x p := by
  have hn : (BitVec.ofNat 64 x).toNat = x := by rw [BitVec.toNat_ofNat, Nat.mod_eq_of_lt hx]
  have htag : nfld x 56 8 = x / 2 ^ 56 := by unfold nfld; omega
  have hoff : nfld x 0 56 = x % 2 ^ 56 := by unfold nfld; omega
  constructor
  · intro h
    simp only [placeNo, State.place, hn, htag, hoff] at h
    split at h
    next ht =>
      split at h <;> cases h
      exact .inl ⟨by omega, by congr 1; omega⟩
    next =>
    split at h
    next ht =>
      split at h <;> cases h
      next hc =>
      obtain ⟨h33, h24, hdie, hw⟩ := hc
      refine .inr (.inl ⟨_, _, ?_, ?_, ?_, hw, hdie, rfl⟩) <;> unfold nfld at * <;> omega
    next =>
    split at h
    next ht =>
      split at h <;> cases h
      next hc =>
      refine .inr (.inr (.inl ⟨_, _, ?_, ?_, ?_, hc.2, rfl⟩)) <;> unfold nfld at * <;> omega
    next =>
    split at h
    next ht =>
      split at h <;> cases h
      next hc =>
      have := (s.core c).spad_le
      exact .inr (.inr (.inr ⟨_, by omega, by omega, hc, rfl⟩))
    next => cases h
  · rintro (⟨hlt, rfl⟩ | ⟨die, o, rfl, hd, ho, hw, hdie, rfl⟩ | ⟨j, o, rfl, hj, ho, hs, rfl⟩ | ⟨o, rfl, ho, hs, rfl⟩) <;>
      simp only [placeNo, State.place, hn, htag, hoff]
    · rw [if_pos (by omega), if_pos (by omega), Nat.mod_eq_of_lt (by omega)]
    · have e32 : nfld ((0xF0 * 2 ^ 56 + die * 2 ^ 32 + o) % 2 ^ 56) 32 1 = die := by unfold nfld; omega
      have e0 : nfld ((0xF0 * 2 ^ 56 + die * 2 ^ 32 + o) % 2 ^ 56) 0 24 = o := by unfold nfld; omega
      have e33 : nfld ((0xF0 * 2 ^ 56 + die * 2 ^ 32 + o) % 2 ^ 56) 33 23 = 0 := by unfold nfld; omega
      have e24 : nfld ((0xF0 * 2 ^ 56 + die * 2 ^ 32 + o) % 2 ^ 56) 24 8 = 0 := by unfold nfld; omega
      rw [if_neg (by omega), if_pos (by omega), e32, e0, e33, e24, if_pos ⟨rfl, rfl, hdie, hw⟩]
    · have e20 : nfld ((0xF8 * 2 ^ 56 + j * 2 ^ 20 + o) % 2 ^ 56) 20 2 = j := by unfold nfld; omega
      have e0 : nfld ((0xF8 * 2 ^ 56 + j * 2 ^ 20 + o) % 2 ^ 56) 0 20 = o := by unfold nfld; omega
      rw [if_neg (by omega), if_neg (by omega), if_pos (by omega), e20, e0, if_pos ⟨by omega, hs⟩]
    · have e0 : (0xFC * 2 ^ 56 + o) % 2 ^ 56 = o := by omega
      rw [if_neg (by omega), if_neg (by omega), if_neg (by omega), if_pos (by omega), e0, if_pos hs]

theorem PlacedAt.lt {s : State} {c x : Nat} {p : Place} (h : PlacedAt s c x p) : x + 2 ^ 48 < 2 ^ 64 := by
  rcases h with ⟨_, -⟩ | ⟨die, o, rfl, hd, ho, -⟩ | ⟨j, o, rfl, hj, ho, -⟩ | ⟨o, rfl, ho, -⟩ <;> omega

/-- Between two placed addresses that are no more than a page apart every address is placed, at its distance from the first. -/
theorem PlacedAt.between {s : State} {c x y z : Nat} {p q : Place} (hp : PlacedAt s c x p) (hq : PlacedAt s c z q) (hxy : x ≤ y)
    (hyz : y ≤ z) (hz : z ≤ x + 4096) : PlacedAt s c y (p.plus (y - x)) := by
  have hspad : ∀ k : Core, k.spad ≤ 2 ^ 20 - 2 ^ 15 := Core.spad_le
  rcases hp with ⟨hx, rfl⟩ | ⟨die, o, rfl, hd, ho, hw, hf, rfl⟩ | ⟨j, o, rfl, hj, ho, hs, rfl⟩ | ⟨o, rfl, ho, hs, rfl⟩
  · rcases hq with ⟨hx', -⟩ | ⟨die', o', rfl, -⟩ | ⟨j', o', rfl, -⟩ | ⟨o', rfl, -⟩
    · exact .inl ⟨by omega, by rw [Place.plus]; congr 1; omega⟩
    all_goals omega
  · rcases hq with ⟨hx', -⟩ | ⟨die', o', rfl, hd', ho', hw', -⟩ | ⟨j', o', rfl, -⟩ | ⟨o', rfl, -⟩
    · omega
    · obtain rfl : die' = die := by omega
      exact .inr (.inl ⟨die', o + (y - (0xF0 * 2 ^ 56 + die' * 2 ^ 32 + o)), by omega, hd, by omega, by omega, hf, rfl⟩)
    all_goals omega
  · have := hspad (s.core (coreAt (crewOf c) j))
    rcases hq with ⟨hx', -⟩ | ⟨die', o', rfl, hd', ho', -⟩ | ⟨j', o', rfl, hj', ho', hs', -⟩ | ⟨o', rfl, -⟩
    · omega
    · omega
    · obtain rfl : j' = j := by omega
      exact .inr (.inr (.inl ⟨j', o + (y - (0xF8 * 2 ^ 56 + j' * 2 ^ 20 + o)), by omega, hj, by omega, by omega, by
        rw [Place.plus, Nat.add_assoc]⟩))
    · omega
  · rcases hq with ⟨hx', -⟩ | ⟨die', o', rfl, hd', ho', -⟩ | ⟨j', o', rfl, hj', ho', -⟩ | ⟨o', rfl, ho', hs', -⟩
    · omega
    · omega
    · omega
    · exact .inr (.inr (.inr ⟨o + (y - (0xFC * 2 ^ 56 + o)), by omega, by omega, by omega, by rw [Place.plus, Nat.add_assoc]⟩))

/-! ### A run that passes its checks (R91) -/

theorem placed_of_checkAddr {s : State} {c : Nat} {ea : Addr} {acc : Acc} {p : Place} (h : checkAddr s c ea acc = .ok p) :
    ∃ q, s.place c ea = some q := by
  cases hp : s.place c ea with
  | none => rw [checkAddr_none hp] at h; cases h
  | some q => exact ⟨q, rfl⟩

theorem placed_of_firstBad {s : State} {c : Nat} {acc : Acc} {l : List Nat} (h : firstBad s c acc l = none) :
    ∀ x ∈ l, ∃ q, placeNo s c x = some q := by
  induction l with
  | nil => simp
  | cons a l ih =>
    rw [firstBad] at h
    cases ha : checkAddr s c (BitVec.ofNat 64 a) acc with
    | error e => rw [ha] at h; cases h
    | ok p =>
      rw [ha] at h
      exact List.forall_mem_cons.2 ⟨placed_of_checkAddr ha, ih h⟩

/-- The first address at which a run of bytes from x on meets its page number k. -/
def pageStart (x k : Nat) : Nat := if k = 0 then x else (x / 4096 + k) * 4096

theorem pageStart_mem {x n k : Nat} (hn : n ≠ 0) (hk : k ≤ (x % 4096 + n - 1) / 4096) : pageStart x k ∈ unitStarts x n := by
  rw [unitStarts, if_neg hn, pageStart]
  split
  · exact List.mem_cons_self
  next h0 => exact List.mem_cons_of_mem _ (List.mem_map.2 ⟨k - 1, List.mem_range.2 (by omega), by congr 1; omega⟩)

/-- The bytes of a run whose checks pass lie at places that follow one another, up to every byte that has a place. -/
def Contiguous (s : State) (c : Nat) (ea : Addr) (n : Nat) : Prop :=
  ∀ i q, i < n → s.place c (ea + BitVec.ofNat 64 i) = some q →
    ∃ p, s.place c ea = some p ∧ ∀ j ≤ i, s.place c (ea + BitVec.ofNat 64 j) = some (p.plus j)

theorem contiguous_of_checkRange {s : State} {c n : Nat} {ea : Addr} {acc : Acc} (h : checkRange s c ea n acc = none) :
    Contiguous s c ea n := by
  intro i q hi hq
  have hn : n ≠ 0 := by omega
  have hea := ea.isLt
  have starts : ∀ k ≤ (ea.toNat % 4096 + n - 1) / 4096, ∃ q, placeNo s c (pageStart ea.toNat k) = some q :=
    fun k hk => placed_of_firstBad h _ (pageStart_mem hn hk)
  obtain ⟨p, hp⟩ := starts 0 (Nat.zero_le _)
  have hp0 : PlacedAt s c ea.toNat p := (placeNo_eq_some hea).1 hp
  have upto : ∀ k ≤ (ea.toNat % 4096 + n - 1) / 4096, ∀ y, ea.toNat ≤ y → y ≤ pageStart ea.toNat k →
      PlacedAt s c y (p.plus (y - ea.toNat)) := by
    intro k
    induction k with
    | zero =>
      intro _ y h1 h2
      obtain rfl : y = ea.toNat := Nat.le_antisymm h2 h1
      rwa [Nat.sub_self, Place.plus_zero]
    | succ k ih =>
      intro hk y h1 h2
      have hle : ea.toNat ≤ pageStart ea.toNat k := by unfold pageStart; split <;> omega
      have hstep : pageStart ea.toNat (k + 1) ≤ pageStart ea.toNat k + 4096 := by unfold pageStart; split <;> split <;> omega
      have hlast := ih (by omega) (pageStart ea.toNat k) hle (le_refl _)
      by_cases hy : y ≤ pageStart ea.toNat k
      · exact ih (by omega) y h1 hy
      · obtain ⟨q, hq⟩ := starts (k + 1) hk
        have hq : PlacedAt s c (pageStart ea.toNat (k + 1)) q := (placeNo_eq_some (by have := hlast.lt; omega)).1 hq
        have := hlast.between hq (y := y) (by omega) h2 hstep
        rwa [Place.plus_plus, show pageStart ea.toNat k - ea.toNat + (y - pageStart ea.toNat k) = y - ea.toNat by omega] at this
  refine ⟨p, by rw [place_eq]; exact hp, fun j hj => ?_⟩
  rw [place_add] at hq ⊢
  -- the page in which the last byte lies
  have hk : (ea.toNat + i) / 4096 - ea.toNat / 4096 ≤ (ea.toNat % 4096 + n - 1) / 4096 := by omega
  generalize hkk : (ea.toNat + i) / 4096 - ea.toNat / 4096 = k at hk
  have hle : ea.toNat ≤ pageStart ea.toNat k := by unfold pageStart; split <;> omega
  have hin : pageStart ea.toNat k ≤ ea.toNat + i ∧ ea.toNat + i ≤ pageStart ea.toNat k + 4096 := by unfold pageStart; split <;> omega
  have hlast := upto k hk _ hle (le_refl _)
  have hq : PlacedAt s c (ea.toNat + i) q := (placeNo_eq_some (by have := hlast.lt; omega)).1 hq
  have hj : PlacedAt s c (ea.toNat + j) (p.plus (ea.toNat + j - ea.toNat)) := by
    by_cases hy : ea.toNat + j ≤ pageStart ea.toNat k
    · exact upto k hk _ (by omega) hy
    · have := hlast.between hq (y := ea.toNat + j) (by omega) (by omega) hin.2
      rwa [Place.plus_plus, show pageStart ea.toNat k - ea.toNat + (ea.toNat + j - pageStart ea.toNat k) = ea.toNat + j - ea.toNat by omega]
        at this
  rw [Nat.add_sub_cancel_left] at hj
  exact (placeNo_eq_some (by have := hj.lt; omega)).2 hj

theorem Contiguous.tail {s : State} {c n m : Nat} {ea : Addr} (h : Contiguous s c ea n) (hm : m ≤ n) :
    Contiguous s c (ea + BitVec.ofNat 64 m) (n - m) := by
  intro i q hi hq
  have hadd : ∀ j, ea + BitVec.ofNat 64 m + BitVec.ofNat 64 j = ea + BitVec.ofNat 64 (m + j) := fun j => by
    rw [BitVec.add_assoc, ← BitVec.ofNat_add]
  rw [hadd] at hq
  obtain ⟨p, -, hp⟩ := h (m + i) q (by omega) hq
  refine ⟨p.plus m, hp m (by omega), fun j hj => ?_⟩
  rw [hadd, hp (m + j) (by omega), Place.plus_plus]

end Sys2Proof.Machine

namespace Sys2Proof.Machine

/-! ### A line of global memory has one home (R264, R265, R272) -/

section

variable {va vb : Nat} (h : va / 64 = vb / 64)
include h

theorem homeDie_in_line (s : State) (ctx : Nat) : s.homeDie (.glob ctx va) = s.homeDie (.glob ctx vb) := by
  simp only [State.homeDie, State.channelOf, State.spreadOf, State.region, homeChannel, show va / 2 ^ 21 = vb / 2 ^ 21 by omega,
    show va % 2 ^ 21 / 2 ^ 12 = vb % 2 ^ 21 / 2 ^ 12 by omega]

theorem cacheable_in_line (s : State) (ctx : Nat) : s.cacheable (.glob ctx va) = s.cacheable (.glob ctx vb) := by
  simp only [State.cacheable, State.region, show va / 2 ^ 21 = vb / 2 ^ 21 by omega, show (va < 2 ^ 48) = (vb < 2 ^ 48) from propext (by omega)]

theorem cachedLine_in_line (s : State) (die ctx : Nat) : cachedLine s die ctx va = cachedLine s die ctx vb := by
  simp only [cachedLine, homeDie_in_line h, cacheable_in_line h, h]

end

theorem not_crossesLost {s : State} (hl : s.cur.link = none) (die ctx va : Nat) : ¬ crossesLost s die ctx va := fun h => by
  have := h.2; rw [hl] at this; cases this

/-- With no link failing, a die sees a byte of global memory in its copy of the line, or at home. -/
theorem peek_glob {s : State} (hl : s.cur.link = none) (die ctx va : Nat) :
    peek s die (.glob ctx va) = (cachedLine s die ctx va).elim (memGet s.mem (globKey ctx va)) (fun l => l.byte (va % 64)) := by
  cases hc : cachedLine s die ctx va with
  | some l => exact peek_cached hc
  | none => exact peek_home hc (not_crossesLost hl die ctx va)

/-- With no link failing, a die sees a byte of die SRAM or of a pool where it stands. -/
theorem peek_local {s : State} {p : Place} (hl : s.cur.link = none) (hp : ∀ ctx va, p ≠ .glob ctx va) (die : Nat) :
    peek s die p = memGet s.mem p.key := by
  have hk : ∀ q : Place, (if s.homeDie q ≠ die ∧ s.cur.link.isSome = true then (sawLost s, lostRead q.key 1) else (s, readKey s q.key 1)) =
      (s, readKey s q.key 1) := fun q => if_neg (by simp [hl])
  cases p with
  | glob ctx va => exact absurd rfl (hp ctx va)
  | sram => simp only [peek, readPlace, hk]; rfl
  | pool => simp only [peek, readPlace, hk]; rfl

/-- The n bytes that a die sees from a place on. -/
def seenFrom (s : State) (die : Nat) (p : Place) (n : Nat) : List Byte := (List.range n).map (fun i => peek s die (p.plus i))

theorem seenFrom_length (s : State) (die : Nat) (p : Place) (n : Nat) : (seenFrom s die p n).length = n := by simp [seenFrom]

theorem seenFrom_append (s : State) (die : Nat) (p : Place) (m n : Nat) :
    seenFrom s die p m ++ seenFrom s die (p.plus m) n = seenFrom s die p (m + n) := by
  simp only [seenFrom, List.range_add, List.map_append, List.map_map, Function.comp_def, Place.plus_plus]

theorem seenFrom_local {s : State} {p : Place} (hl : s.cur.link = none) (hp : ∀ ctx va, p ≠ .glob ctx va) (die n : Nat) :
    seenFrom s die p n = memRead s.mem p.key n := by
  refine List.map_congr_left fun i _ => ?_
  rw [peek_local hl (fun ctx va h => ?_), Place.key_plus]
  cases p with
  | glob ctx va => exact hp _ _ rfl
  | sram => cases h
  | pool => cases h

theorem seenFrom_congr {s t : State} {die : Nat} (h : ∀ q, peek t die q = peek s die q) (p : Place) (n : Nat) :
    seenFrom t die p n = seenFrom s die p n := List.map_congr_left fun _ _ => h _

/-! ### A relaxed read gives the bytes that its die sees, and changes none of them (R272) -/

/-- Reads by a party of a die after which it sees every byte as before. -/
def SeenKept (die : Nat) (s t : State) : Prop := ReadStep s t ∧ ∀ q, peek t die q = peek s die q

theorem SeenKept.refl (die : Nat) (s : State) : SeenKept die s s := ⟨.refl s, fun _ => rfl⟩

theorem SeenKept.trans {die : Nat} {s t u : State} (h : SeenKept die s t) (h' : SeenKept die t u) : SeenKept die s u :=
  ⟨h.1.trans h'.1, fun q => (h'.2 q).trans (h.2 q)⟩

theorem Die.line_putLine_ne {d : Die} {l : RlcLine} {ctx line : Nat} (h : ¬ (l.ctx = ctx ∧ l.line = line)) :
    (d.putLine l).line ctx line = d.line ctx line := by
  have hl : (l.ctx == ctx && l.line == line) = false := by simpa using h
  rw [Die.line, Die.putLine, Die.line]
  simp only [List.find?_append, List.find?_cons, hl, List.find?_nil, Option.or_none, List.find?_filter]
  refine congrArg (fun f => List.find? f d.rlc) (funext fun x => ?_)
  by_cases hx : (x.ctx == ctx && x.line == line) = true
  · have hne : (x.ctx == l.ctx && x.line == l.line) = false := Bool.eq_false_iff.2 fun hy => by
      simp only [Bool.and_eq_true, beq_iff_eq] at hx hy
      exact h ⟨hy.1.symm.trans hx.1, hy.2.symm.trans hx.2⟩
    simp [hx, hne]
  · simp [hx]

section

variable {s : State} {die ctx va n : Nat} (hl : s.cur.link = none)
include hl

/-- A line fetched from home into the reader's cache is seen there as it stands at home. -/
theorem putHomeLine_kept (hc : cachedLine s die ctx va = none) (hfar : s.homeDie (.glob ctx va) ≠ die)
    (hcan : s.cacheable (.glob ctx va) = true) :
    ∀ q, peek (s.modDie die (fun d => d.putLine (homeLine s ctx (va / 64)))) die q = peek s die q := by
  have hm := (putLine_step s die (homeLine s ctx (va / 64))).sameMaps
  generalize ht : s.modDie die (fun d => d.putLine (homeLine s ctx (va / 64))) = t at hm
  have htl : t.cur.link = none := by rw [← ht]; exact hl
  have hmem : t.mem = s.mem := by rw [← ht]; rfl
  have hdie : t.die die = (s.die die).putLine (homeLine s ctx (va / 64)) := by rw [← ht, State.die_modDie]
  intro q
  by_cases hq : ∃ x v, q = .glob x v
  · obtain ⟨x, v, rfl⟩ := hq
    rw [peek_glob hl, peek_glob htl, hmem]
    by_cases hv : x = ctx ∧ v / 64 = va / 64
    · obtain ⟨rfl, hv⟩ := hv
      have hnow : cachedLine t die x v = some (homeLine s x (va / 64)) := by
        rw [cachedLine_in_line hv, cachedLine, hm.homeDie, hm.cacheable, if_pos ⟨hfar, hcan⟩, hdie]
        exact Die.line_putLine ..
      rw [hnow, cachedLine_in_line hv, hc]
      change (homeLine s x (va / 64)).byte (v % 64) = memGet s.mem (globKey x v)
      rw [homeLine_byte _ _ _ (Nat.mod_lt _ (by decide)), ← hv, globKey_line]
    · have hsame : cachedLine t die x v = cachedLine s die x v := by
        rw [cachedLine, cachedLine, hm.homeDie, hm.cacheable, hdie, Die.line_putLine_ne]
        rintro ⟨h1, h2⟩
        exact hv ⟨h1.symm, h2.symm⟩
      rw [hsame]
  · have hq : ∀ x v, q ≠ .glob x v := fun x v h => hq ⟨x, v, h⟩
    rw [peek_local hl hq, peek_local htl hq, hmem]

theorem readRelaxed_seen (hn : va % 64 + n ≤ 64) :
    (readRelaxed s die ctx va n).2.bytes = seenFrom s die (.glob ctx va) n ∧ SeenKept die s (readRelaxed s die ctx va n).1 := by
  have inl : ∀ i < n, (va + i) / 64 = va / 64 := fun i hi => by omega
  cases hc : cachedLine s die ctx va with
  | some l =>
    rw [readRelaxed_cached hc]
    refine ⟨(l.got_bytes hn).trans (List.map_congr_left fun i hi => ?_), .refl ..⟩
    have hi := List.mem_range.1 hi
    rw [Place.plus, peek_cached ((cachedLine_in_line (inl i hi) ..).trans hc), show (va + i) % 64 = va % 64 + i by omega]
  | none =>
    have hx := not_crossesLost hl die ctx va
    refine ⟨(readRelaxed_home hc hx hn).trans (List.map_congr_left fun i hi => ?_), readRelaxed_reads .., ?_⟩
    · have hi := List.mem_range.1 hi
      rw [Place.plus, peek_home ((cachedLine_in_line (inl i hi) ..).trans hc) (not_crossesLost hl die ctx (va + i)),
        globKey, globKey, Nat.add_assoc]
    · by_cases hf : s.homeDie (.glob ctx va) ≠ die ∧ s.cacheable (.glob ctx va) = true
      · have hline : (s.die die).line ctx (va / 64) = none := by rw [← hc, cachedLine, if_pos hf]
        simp only [readRelaxed, if_pos hf, hline, hl]
        exact putHomeLine_kept hl hc hf.1 hf.2
      · simp only [readRelaxed, if_neg hf, hl]
        intro q; simp

end

/-- The bytes of an access in its first line, and what is left of it. -/
theorem inLine_spec (va n : Nat) : inLine va n ≤ n ∧ va % 64 + inLine va n ≤ 64 ∧
    ∀ fuel, (n ≠ 0 → va % 64 + n ≤ 64 * (fuel + 1)) → n - inLine va n ≠ 0 →
      (va + inLine va n) % 64 + (n - inLine va n) ≤ 64 * fuel := by
  have h : inLine va n = min n (64 - va % 64) := rfl
  refine ⟨by omega, by omega, fun fuel hf h0 => ?_⟩
  have := hf (by omega)
  omega

theorem readLines_seen {fuel : Nat} {s : State} {die ctx va n : Nat} (hl : s.cur.link = none) (hf : n ≠ 0 → va % 64 + n ≤ 64 * fuel) :
    (readLines fuel s die ctx va n .relaxed).2.bytes = seenFrom s die (.glob ctx va) n ∧
      SeenKept die s (readLines fuel s die ctx va n .relaxed).1 := by
  induction fuel generalizing s va n with
  | zero =>
    obtain rfl : n = 0 := by omega
    exact ⟨rfl, .refl ..⟩
  | succ fuel ih =>
    rw [readLines]
    split
    next h0 => subst h0; exact ⟨rfl, .refl ..⟩
    next h0 =>
      obtain ⟨hm, hline, hrest⟩ := inLine_spec va n
      obtain ⟨hb, hk⟩ := readRelaxed_seen (die := die) (ctx := ctx) hl hline
      obtain ⟨hb', hk'⟩ := ih (s := (readRelaxed s die ctx va (inLine va n)).1) (va := va + inLine va n) (n := n - inLine va n)
        (hk.1.link.trans hl) (hrest fuel hf)
      refine ⟨?_, hk.trans hk'⟩
      change (readRelaxed s die ctx va (inLine va n)).2.bytes ++
        (readLines fuel (readRelaxed s die ctx va (inLine va n)).1 die ctx _ _ .relaxed).2.bytes = _
      rw [hb, hb', seenFrom_congr hk.2, show Place.glob ctx (va + inLine va n) = (Place.glob ctx va).plus (inLine va n) from rfl,
        seenFrom_append, Nat.add_sub_cancel' hm]

/-- A relaxed read at a place, no link failing. -/
theorem readPlace_seen {s : State} (hl : s.cur.link = none) (die : Nat) (p : Place) (n : Nat) :
    (readPlace s die p n .relaxed).2.bytes = seenFrom s die p n ∧ SeenKept die s (readPlace s die p n .relaxed).1 := by
  have hk : ∀ q : Place, (if s.homeDie q ≠ die ∧ s.cur.link.isSome = true then (sawLost s, lostRead q.key n) else (s, readKey s q.key n)) =
      (s, readKey s q.key n) := fun q => if_neg (by simp [hl])
  cases p with
  | glob ctx va => exact readLines_seen hl (by omega)
  | sram => simp only [readPlace, hk]; exact ⟨(seenFrom_local hl (by simp) ..).symm, .refl ..⟩
  | pool => simp only [readPlace, hk]; exact ⟨(seenFrom_local hl (by simp) ..).symm, .refl ..⟩

theorem readAt_seen {s : State} {c n : Nat} {ea : Addr} (hl : s.cur.link = none) :
    (∀ p, s.place c ea = some p → (readAt s c ea n .relaxed).2.bytes = seenFrom s (dieOf c) p n) ∧
      SeenKept (dieOf c) s (readAt s c ea n .relaxed).1 := by
  cases hp : s.place c ea with
  | none => simp only [readAt, hp]; exact ⟨fun p h => (nomatch h), .refl ..⟩
  | some p =>
    simp only [readAt, hp]
    obtain ⟨hb, hk⟩ := readPlace_seen hl (dieOf c) p n
    exact ⟨fun q hq => by rw [← Option.some.inj hq]; exact hb, hk⟩

/-- A read returns as many bytes as it asks for, however it is served. -/
theorem readLines_length {fuel : Nat} {s : State} {die ctx va n : Nat} {sv : Serve} (hf : n ≠ 0 → va % 64 + n ≤ 64 * fuel) :
    (readLines fuel s die ctx va n sv).2.bytes.length = n := by
  induction fuel generalizing s va n with
  | zero => simp only [readLines]; change 0 = n; omega
  | succ fuel ih =>
    rw [readLines]
    split
    next h0 => exact h0.symm
    next h0 =>
      obtain ⟨hm, hline, hrest⟩ := inLine_spec va n
      change List.length (_ ++ _) = n
      rw [List.length_append, readLine_length hline, ih (hrest fuel hf)]
      omega

theorem readAt_length (s : State) (c : Nat) (ea : Addr) (n : Nat) (sv : Serve) : (readAt s c ea n sv).2.bytes.length = n := by
  have hk : ∀ (p : Place), (if s.homeDie p ≠ dieOf c ∧ s.cur.link.isSome = true then (sawLost s, lostRead p.key n)
      else (s, readKey s p.key n)).2.bytes.length = n := fun p => by
    split
    exacts [lostRead_length .., readKey_length ..]
  unfold readAt
  split
  next p hp =>
    cases p with
    | glob ctx va => exact readLines_length (by omega)
    | sram => exact hk _
    | pool => exact hk _
  next => exact List.length_replicate

end Sys2Proof.Machine

namespace Sys2Proof.Machine

/-! ### A write of bytes of one line leaves what a die sees of the other lines (R272) -/

/-- Accesses that change memory and caches of a context in one line alone. -/
structure LineStep (ctx line : Nat) (s t : State) : Prop extends MemStep s t where
  copies : ∀ die x, x ≠ line → (t.die die).line ctx x = (s.die die).line ctx x
  bytes : ∀ va, va / 64 ≠ line → memGet t.mem (globKey ctx va) = memGet s.mem (globKey ctx va)

section

variable {ctx line : Nat} {s t u : State}

theorem LineStep.trans (h : LineStep ctx line s t) (h' : LineStep ctx line t u) : LineStep ctx line s u :=
  ⟨h.toMemStep.trans h'.toMemStep, fun d x hx => (h'.copies d x hx).trans (h.copies d x hx),
    fun va hv => (h'.bytes va hv).trans (h.bytes va hv)⟩

/-- Accesses that change neither memory nor the caches. -/
theorem LineStep.of_same (h : MemStep s t) (hm : t.mem = s.mem) (hd : t.dies = s.dies) : LineStep ctx line s t :=
  ⟨h, fun d x _ => by rw [State.die, State.die, hd], fun va _ => by rw [hm]⟩

theorem LineStep.refl (s : State) : LineStep ctx line s s := .of_same (.refl s) rfl rfl

/-- Accesses that change one line of one cache. -/
theorem LineStep.of_die {n : Nat} {f : Die → Die} (h : MemStep s (s.modDie n f))
    (hf : ∀ x ≠ line, (f (s.die n)).line ctx x = (s.die n).line ctx x) :
    LineStep ctx line s (s.modDie n f) :=
  ⟨h, fun d x hx => by
    by_cases hd : d = n
    · subst hd; rw [State.die_modDie, hf x hx]
    · rw [State.die_modDie_ne _ _ _ _ hd], fun _ _ => rfl⟩

/-- Bytes of the line written in memory. -/
theorem LineStep.of_write {a : Nat} {l : List Byte} (hl : a % 64 + l.length ≤ 64) (hline : a / 64 = line) :
    LineStep ctx line s { s with mem := memWrite s.mem (globKey ctx a) l } :=
  ⟨writeMem_step .., fun _ _ _ => rfl, fun va hv => by
    change memGet (memWrite s.mem (globKey ctx a) l) _ = _
    rw [memGet_memWrite, dif_neg (by unfold globKey; omega)]⟩

/-- With no link failing, a die sees the bytes of other lines as before. -/
theorem LineStep.peek (h : LineStep ctx line s t) (hl : s.cur.link = none) {va : Nat} (hv : va / 64 ≠ line) (die : Nat) :
    Machine.peek t die (.glob ctx va) = Machine.peek s die (.glob ctx va) := by
  rw [peek_glob hl, peek_glob (h.link.trans hl), h.bytes va hv, cachedLine, cachedLine, h.sameMaps.homeDie, h.sameMaps.cacheable,
    h.copies die _ hv]

end

section

variable {ctx line : Nat} (s : State)

theorem keepPast_lineStep (l : RlcLine) : LineStep ctx line s (keepPast l s) :=
  .of_same (keepPast_step ..) (keepPast_mem ..) (by unfold keepPast; dsimp only; split <;> rfl)

theorem poisonKey_lineStep (k : Nat) : LineStep ctx line s (poisonKey k s) :=
  .of_same (poisonKey_step ..) (poisonKey_mem ..) (by unfold poisonKey; split <;> rfl)

theorem cleanKey_lineStep (k : Nat) : LineStep ctx line s (cleanKey k s) := .of_same (cleanKey_step ..) rfl rfl

theorem putLine_lineStep (die : Nat) {l : RlcLine} (h : l.line = line) : LineStep ctx line s (s.modDie die (fun d => d.putLine l)) :=
  .of_die (putLine_step ..) fun _ hx => Die.line_putLine_ne fun hl => hx (hl.2.symm.trans h)

theorem writeHome_lineStep {l : RlcLine} (hc : l.ctx = ctx) (hl : l.line = line) : LineStep ctx line s (writeHome l s) := by
  subst hc hl
  have h : LineStep l.ctx l.line s { keepPast (homeLine s l.ctx l.line) s with
      mem := memWrite (keepPast (homeLine s l.ctx l.line) s).mem (globKey l.ctx (l.line * 64)) (bvBytes 64 l.data) } :=
    (keepPast_lineStep s _).trans (.of_write (by rw [length_bvBytes]; omega) (by omega))
  unfold writeHome
  dsimp only
  split
  exacts [h.trans (poisonKey_lineStep ..), h.trans (cleanKey_lineStep ..)]

variable (hw : s.cur.link = none)
include hw

theorem wlink_none : s.wlink = none := by rw [State.wlink, hw, ite_self]

theorem recallLine_lineStep (die : Nat) : LineStep ctx line s (recallLine die ctx line s) := by
  unfold recallLine
  split
  next l hl =>
    obtain ⟨hc, hline⟩ := Die.line_key hl
    unfold writeBack
    split
    · rw [wlink_none s hw]
      exact (writeHome_lineStep s hc hline).trans (putLine_lineStep _ die hline)
    · exact .refl s
  next => exact .refl s

omit hw

theorem Die.line_dropLine_ne {d : Die} {x : Nat} (h : x ≠ line) : (d.dropLine ctx line).line ctx x = d.line ctx x := by
  rw [Die.line, Die.line, Die.dropLine, List.find?_filter]
  refine congrArg (fun f => List.find? f d.rlc) (funext fun l => ?_)
  by_cases hl : l.line = line
  · simp [hl, Ne.symm h]
  · simp only [beq_eq_false_iff_ne.2 hl, Bool.and_false, Bool.not_false, true_and, Bool.decide_eq_true]

theorem applyInv_lineStep (die : Nat) : LineStep ctx line s (applyInv die ctx line s) :=
  .of_die (applyInv_step ..) fun x hx => by
    dsimp only
    split
    · split
      · rfl
      · exact Die.line_dropLine_ne hx
    · rfl

theorem sendInv_lineStep (die : Nat) : LineStep ctx line s (sendInv die ctx line s) := by
  unfold sendInv
  split
  · exact .of_die (by have := sendInv_step s die ctx line; simpa only [sendInv, *] using this) fun _ _ => rfl
  · exact .refl s

theorem markWrite_lineStep (key n : Nat) (b : Bool) : LineStep ctx line s (markWrite key n b s) := by
  refine .of_same (markWrite_step ..) (markWrite_mem ..) ?_
  unfold markWrite
  generalize granules key n = l
  induction l generalizing s with
  | nil => rfl
  | cons g r ih => rw [List.foldl_cons, ih]; unfold poisonKey; (repeat' split) <;> rfl

variable {va : Nat} {l : List Byte} (hl : va % 64 + l.length ≤ 64)
include hl

theorem writeKey_lineStep (b : Bool) : LineStep ctx (va / 64) s (writeKey (globKey ctx va) l b s) :=
  (LineStep.of_write hl rfl).trans (markWrite_lineStep ..)

include hw

theorem writeAtHome_lineStep (die : Nat) (b : Bool) : LineStep ctx (va / 64) s (writeAtHome die ctx va l b s) := by
  have hr := recallLine_lineStep (ctx := ctx) (line := va / 64) s hw (1 - s.homeDie (.glob ctx va))
  unfold writeAtHome
  dsimp only
  have hk : ∀ t, LineStep ctx (va / 64) s t → LineStep ctx (va / 64) s (writeKey (globKey ctx va) l b t) := fun t h =>
    h.trans (writeKey_lineStep t hl b)
  split <;> split
  exacts [(hk _ (hr.trans (keepPast_lineStep ..))).trans (sendInv_lineStep ..), (hk _ hr).trans (sendInv_lineStep ..),
    (hk _ (hr.trans (keepPast_lineStep ..))).trans (applyInv_lineStep ..), (hk _ hr).trans (applyInv_lineStep ..)]

omit hw hl in
theorem writeCached_lineStep (die : Nat) (b : Bool) : LineStep ctx (va / 64) s (writeCached die ctx va l b s) := by
  have hline : (((s.die die).line ctx (va / 64)).getD (homeLine s ctx (va / 64))).line = va / 64 := by
    cases hx : (s.die die).line ctx (va / 64) with
    | none => rfl
    | some x => exact (Die.line_key hx).2
  exact (keepPast_lineStep s _).trans (putLine_lineStep _ _ (by exact hline))

theorem writeLine_lineStep (c die : Nat) (b : Bool) : LineStep ctx (va / 64) s (writeLine c die ctx va l b .relaxed s) := by
  unfold writeLine
  dsimp only
  split
  · have hi : LineStep ctx (va / 64) s (if (s.die die).invs.contains (ctx, va / 64) then applyInv die ctx (va / 64) s else s) := by
      split
      exacts [applyInv_lineStep .., .refl s]
    generalize (if (s.die die).invs.contains (ctx, va / 64) then applyInv die ctx (va / 64) s else s) = t at hi ⊢
    rw [wlink_none t (hi.link.trans hw)]
    exact hi.trans (writeCached_lineStep t die b)
  · rw [wlink_none s hw]
    exact writeAtHome_lineStep s hw hl die b

end

/-! ### A die sees the bytes that it last wrote (R272) -/

/-- Bytes of one line, as their writer's die sees them. -/
theorem writeLine_seen {s : State} {c die ctx va : Nat} {l : List Byte} (b : Bool) (hw : s.cur.link = none) (h0 : l ≠ [])
    (hl : va % 64 + l.length ≤ 64) : seenFrom (writeLine c die ctx va l b .relaxed s) die (.glob ctx va) l.length = l := by
  have hp : writePlace c die (.glob ctx va) l b .relaxed s = writeLine c die ctx va l b .relaxed s :=
    writeLines_line (fuel := l.length / 64 + 1) c die ctx b .relaxed s h0 hl
  have hm := writePlace_step s c die (.glob ctx va) l b .relaxed
  have hlink : (writePlace c die (.glob ctx va) l b .relaxed s).cur.link = none := hm.link.trans hw
  obtain ⟨-, hread⟩ := readPlace_writePlace (s := s) (u := writePlace c die (.glob ctx va) l b .relaxed s) rfl h0
    (fun x v hv => by cases hv; exact hl) hw hlink rfl rfl (hm.sameMaps.homeDie _) (hm.sameMaps.cacheable _)
  rw [← hp, ← (readPlace_seen hlink die _ _).1, hread]

/-- A write of later lines leaves what a die sees of an earlier one. -/
theorem writeLines_keeps_before {fuel : Nat} {s : State} {c die ctx va vb : Nat} {l : List Byte} (b : Bool) (hw : s.cur.link = none)
    (hv : vb / 64 < va / 64) (d : Nat) :
    peek (writeLines fuel c die ctx va l b .relaxed s) d (.glob ctx vb) = peek s d (.glob ctx vb) := by
  induction fuel generalizing s va l with
  | zero => rfl
  | succ fuel ih =>
    rw [writeLines]
    split
    · rfl
    · obtain ⟨hm, hline, -⟩ := inLine_spec va l.length
      have hstep := writeLine_lineStep (ctx := ctx) (va := va) (l := l.take (inLine va l.length)) s hw
        (by rw [List.length_take]; omega) c die b
      rw [ih (hstep.link.trans hw) (by omega), hstep.peek hw (by omega)]

theorem writeLines_seen {fuel : Nat} {s : State} {c die ctx va : Nat} {l : List Byte} (b : Bool) (hw : s.cur.link = none)
    (hf : l.length ≠ 0 → va % 64 + l.length ≤ 64 * fuel) :
    seenFrom (writeLines fuel c die ctx va l b .relaxed s) die (.glob ctx va) l.length = l := by
  induction fuel generalizing s va l with
  | zero =>
    obtain rfl : l = [] := List.eq_nil_of_length_eq_zero (by omega)
    rfl
  | succ fuel ih =>
    rw [writeLines]
    split
    next h0 => rw [List.isEmpty_iff.1 h0]; rfl
    next h0 =>
      obtain ⟨hm, hline, hrest⟩ := inLine_spec va l.length
      have h0 : l.length ≠ 0 := fun h => h0 (by rw [List.eq_nil_of_length_eq_zero h]; rfl)
      have hpos : 0 < inLine va l.length := by
        have h : inLine va l.length = min l.length (64 - va % 64) := rfl
        omega
      generalize hmm : inLine va l.length = m at *
      have htake : (l.take m).length = m := by rw [List.length_take]; omega
      have hdrop : (l.drop m).length = l.length - m := List.length_drop
      have hstep := writeLine_lineStep (ctx := ctx) (va := va) (l := l.take m) s hw (by omega) c die b
      have hlink := hstep.link.trans hw
      have hfirst := writeLine_seen (s := s) (c := c) (die := die) (ctx := ctx) (va := va) (l := l.take m) b hw
        (List.ne_nil_of_length_pos (by omega)) (by omega)
      have hsecond := ih (s := writeLine c die ctx va (l.take m) b .relaxed s) (va := va + m) (l := l.drop m) hlink
        (by rw [hdrop]; exact hrest fuel hf)
      rw [htake] at hfirst
      rw [hdrop] at hsecond
      have hsplit := seenFrom_append (writeLines fuel c die ctx (va + m) (l.drop m) b .relaxed (writeLine c die ctx va (l.take m) b .relaxed s))
        die (.glob ctx va) m (l.length - m)
      rw [Nat.add_sub_cancel' hm] at hsplit
      rw [← hsplit]
      refine (congrArg₂ (· ++ ·) ?_ hsecond).trans (List.take_append_drop m l)
      by_cases hlast : l.drop m = []
      · rw [hlast]
        have hnil : writeLines fuel c die ctx (va + m) [] b .relaxed (writeLine c die ctx va (l.take m) b .relaxed s) =
            writeLine c die ctx va (l.take m) b .relaxed s := by cases fuel <;> simp [writeLines]
        rw [hnil, hfirst]
      · have hnext : (va + m) / 64 = va / 64 + 1 := by
          have h : inLine va l.length = min l.length (64 - va % 64) := rfl
          have : l.length - m ≠ 0 := fun h => hlast (List.eq_nil_of_length_eq_zero (hdrop.trans h))
          omega
        refine Eq.trans (List.map_congr_left fun i hi => ?_) hfirst
        have hi := List.mem_range.1 hi
        exact writeLines_keeps_before b hlink (by omega) die

/-- A die sees at a place the bytes that one of its parties wrote there. -/
theorem writePlace_seen {s : State} {c die : Nat} {p : Place} {l : List Byte} (b : Bool) (hw : s.cur.link = none) :
    seenFrom (writePlace c die p l b .relaxed s) die p l.length = l := by
  have hlink : (writePlace c die p l b .relaxed s).cur.link = none := (writePlace_step ..).link.trans hw
  have hk : ∀ q : Place, memRead (match s.wlink with
      | some k => if s.homeDie q ≠ die then loseWrite k die q.key l.length q.addr [c] s else writeKey q.key l b s
      | none => writeKey q.key l b s).mem q.key l.length = l := fun q => by
    rw [wlink_none s hw]
    exact (congrArg (fun m => memRead m q.key l.length) (markWrite_mem ..)).trans (memRead_memWrite ..)
  cases p with
  | glob ctx va => exact writeLines_seen b hw (by omega)
  | sram => rw [seenFrom_local hlink (by simp)]; exact hk _
  | pool => rw [seenFrom_local hlink (by simp)]; exact hk _

end Sys2Proof.Machine

namespace Sys2Proof.Machine

/-! ### Ring positions under a swizzle (R247) -/

/-- A swizzle permutes the offsets of a ring. -/
theorem phys_injective (swz : Nat) : Function.Injective (phys swz) := by
  intro o o' h
  unfold phys at h
  split at h
  · exact h
  next h0 =>
    dsimp only at h
    have hc : 32 * 2 ^ swz / 16 = 2 ^ (swz + 1) := by rw [Nat.pow_succ]; omega
    have hsp : 32 * 2 ^ swz = 16 * 2 ^ (swz + 1) := by rw [Nat.pow_succ]; omega
    rw [hc, hsp] at h
    generalize hC : 2 ^ (swz + 1) = C at h
    have hpos : 0 < C := by rw [← hC]; positivity
    have hlt : ∀ o, Nat.xor (o % (16 * C) / 16) (o / (16 * C) % C) < C := fun o => by
      rw [← hC]
      refine Nat.xor_lt_two_pow ?_ ?_ <;> rw [hC]
      exacts [Nat.div_lt_of_lt_mul (Nat.mod_lt _ (by omega)), Nat.mod_lt _ hpos]
    have hrow : ∀ o, (o / (16 * C) * (16 * C) + 16 * Nat.xor (o % (16 * C) / 16) (o / (16 * C) % C) + o % 16) / (16 * C) = o / (16 * C) :=
      fun o => by
        have := hlt o
        generalize Nat.xor (o % (16 * C) / 16) (o / (16 * C) % C) = x at *
        rw [Nat.add_assoc, Nat.mul_comm (o / (16 * C)), Nat.mul_add_div (by omega),
          Nat.div_eq_of_lt (show 16 * x + o % 16 < 16 * C by omega), Nat.add_zero]
    have hr : o / (16 * C) = o' / (16 * C) := by rw [← hrow o, h, hrow o']
    rw [hr] at h
    have h16 : o % 16 = o' % 16 := by omega
    have hx : Nat.xor (o % (16 * C) / 16) (o' / (16 * C) % C) = Nat.xor (o' % (16 * C) / 16) (o' / (16 * C) % C) := by omega
    have hcol : o % (16 * C) / 16 = o' % (16 * C) / 16 := Nat.xor_left_injective hx
    have hmod : o % (16 * C) % 16 = o % 16 ∧ o' % (16 * C) % 16 = o' % 16 := ⟨Nat.mod_mul_right_mod .., Nat.mod_mul_right_mod ..⟩
    have hd := Nat.div_add_mod o (16 * C)
    have hd' := Nat.div_add_mod o' (16 * C)
    rw [hr] at hd
    omega

/-- The positions of no more bytes than a ring holds have keys of their own. -/
theorem ringKey_injective {k : Core} {c swz p i j : Nat} {st : Stream} (hi : i < opRb st.openw) (hj : j < opRb st.openw)
    (h : ringKey k c st swz (p + i) = ringKey k c st swz (p + j)) : i = j := by
  unfold ringKey poolKey at h
  have hm : (p + i) % opRb st.openw = (p + j) % opRb st.openw := phys_injective swz (by omega)
  have : i ≡ j [MOD opRb st.openw] := Nat.ModEq.add_left_cancel' p hm
  exact this.eq_of_lt_of_lt hi hj

/-- Bytes stored one by one at keys of their own are read back. -/
theorem memGet_storeAt (key : Nat → Nat) (l : List Byte) (p : Nat) (m : List Host.Cell)
    (h : ∀ i j, i < l.length → j < l.length → key (p + i) = key (p + j) → i = j) {i : Nat} (hi : i < l.length) :
    memGet ((l.zipIdx p).foldl (fun m q => memSet m (key q.2) q.1) m) (key (p + i)) = l[i] := by
  induction l using List.reverseRecOn with
  | nil => simp at hi
  | append_singleton l b ih =>
    rw [List.zipIdx_append, List.foldl_append]
    simp only [List.zipIdx_cons, List.zipIdx_nil, List.foldl_cons, List.foldl_nil]
    rw [memGet_memSet]
    simp only [List.length_append, List.length_cons, List.length_nil] at h hi
    by_cases hb : i = l.length
    · subst hb; simp
    · have hne : key (p + i) ≠ key (p + l.length) := fun hk => hb (h _ _ hi (by omega) hk)
      rw [if_neg (by simpa [Nat.add_comm] using hne), List.getElem_append_left (by omega)]
      exact ih (fun a b ha hb => h a b (by omega) (by omega)) (by omega)

/-- What a ring read depends on. -/
theorem ringRead_congr {s t : State} {c : Nat} (hm : t.mem = s.mem) (hp : (t.core c).padBase = (s.core c).padBase) (st : Stream)
    (swz p n : Nat) : ringRead t c st swz p n = ringRead s c st swz p n := by
  simp only [ringRead, ringKey, hm, hp]

@[simp] theorem ringClean_cores (c : Nat) (st : Stream) (swz p n : Nat) (s : State) : (ringClean c st swz p n s).cores = s.cores := by
  rw [ringClean]
  generalize ringGranules p n = l
  induction l generalizing s with
  | nil => rfl
  | cons q l ih =>
    rw [List.foldl_cons, ih]
    split <;> rfl

@[simp] theorem ringWrite_core (c d : Nat) (st : Stream) (swz p : Nat) (l : List Byte) (s : State) :
    (ringWrite c st swz p l s).core d = s.core d := congrArg (fun t => tget t d Core.reset) (ringClean_cores ..)

theorem ringRead_length (s : State) (c : Nat) (st : Stream) (swz p n : Nat) : (ringRead s c st swz p n).length = n := by simp [ringRead]

/-- Bytes stored in a ring that holds them are read back under the same swizzle. -/
theorem ringRead_ringWrite {c swz p : Nat} {st : Stream} {l : List Byte} (s : State) (h : l.length ≤ opRb st.openw) :
    ringRead (ringWrite c st swz p l s) c st swz p l.length = l := by
  refine List.ext_getElem (ringRead_length ..) fun i hi hi' => ?_
  have hi : i < l.length := hi'
  simp only [ringRead, List.getElem_map, List.getElem_range, ringWrite_core]
  have hk : ∀ t : State, t.cores = s.cores → t.core c = s.core c := fun t ht => by rw [State.core, State.core, ht]
  simp only [ringWrite]
  rw [hk _ (ringClean_cores ..)]
  exact memGet_storeAt (fun q => ringKey (s.core c) c st swz q) l p _ (fun a b ha hb => ringKey_injective (by omega) (by omega)) hi

/-! ### The granules under a run of positions (R310) -/

theorem mem_ringGranules {p n q : Nat} : q ∈ ringGranules p n ↔ 0 < n ∧ q % 16 = 0 ∧ p < q + 16 ∧ q < p + n := by
  unfold ringGranules
  split
  · simp; omega
  · simp only [List.mem_map, List.mem_range]
    constructor
    · rintro ⟨i, hi, rfl⟩; omega
    · rintro ⟨-, h⟩; exact ⟨q / 16 - p / 16, by omega, by omega⟩

/-- A part of a clean run is clean. -/
theorem ringBad_part {s : State} {c swz p n a m : Nat} {st : Stream} (h : ringBad s c st swz p n = false) (ha : p ≤ a) (hm : a + m ≤ p + n) :
    ringBad s c st swz a m = false := by
  rw [ringBad, List.any_eq_false] at h ⊢
  intro q hq
  rw [mem_ringGranules] at hq
  exact h q (mem_ringGranules.2 (by omega))

/-- Intervals of numbers that follow one another make up one. -/
theorem flatMap_range' (b : Nat → Nat) (n : Nat) (h : ∀ i < n, b i ≤ b (i + 1)) :
    (List.range n).flatMap (fun i => List.range' (b i) (b (i + 1) - b i)) = List.range' (b 0) (b n - b 0) ∧ b 0 ≤ b n := by
  induction n with
  | zero => simp
  | succ n ih =>
    obtain ⟨ih, hle⟩ := ih fun i hi => h i (by omega)
    have hn := h n (by omega)
    rw [List.range_succ, List.flatMap_append, ih]
    refine ⟨?_, by omega⟩
    have := List.range'_append (s := b 0) (m := b n - b 0) (n := b (n + 1) - b n) (step := 1)
    rw [Nat.one_mul, Nat.add_sub_cancel' hle, show b n - b 0 + (b (n + 1) - b n) = b (n + 1) - b 0 by omega] at this
    simpa using this

theorem ringRead_eq_map (s : State) (c : Nat) (st : Stream) (swz p n : Nat) :
    ringRead s c st swz p n = (List.range' p n).map (fun q => memGet s.mem (ringKey (s.core c) c st swz q)) := by
  rw [ringRead, List.range'_eq_map_range, List.map_map]; rfl

/-- The pieces of a run of a ring are its bytes. -/
theorem ringPieces_bytes (s : State) (c : Nat) (st : Stream) (swz p n : Nat) :
    (ringPieces s c st swz p n).flatMap (fun x => x.1) = ringRead s c st swz p n := by
  by_cases h0 : n = 0
  · subst h0; rfl
  · rw [ringPieces, ringGranules, if_neg h0, List.flatMap_map, List.flatMap_map]
    let b := fun k => Nat.min (p + n) (Nat.max p ((p / 16 + k) * 16))
    have hb : ∀ k, b k = min (p + n) (max p ((p / 16 + k) * 16)) := fun _ => rfl
    obtain ⟨hflat, -⟩ := flatMap_range' b ((p % 16 + n - 1) / 16 + 1) fun i _ => by simp only [hb]; omega
    rw [show b 0 = p by rw [hb]; omega, show b ((p % 16 + n - 1) / 16 + 1) - p = n by rw [hb]; omega] at hflat
    rw [ringRead_eq_map, ← hflat, List.map_flatMap]
    refine List.flatMap_congr fun k hk => ?_
    have hk := List.mem_range.1 hk
    have e1 : Nat.max p ((p / 16 + k) * 16) = b k := by
      rw [hb, show Nat.max p ((p / 16 + k) * 16) = max p ((p / 16 + k) * 16) from rfl]; omega
    have e2 : Nat.min (p + n) ((p / 16 + k) * 16 + 16) = b (k + 1) := by
      rw [hb, show Nat.min (p + n) ((p / 16 + k) * 16 + 16) = min (p + n) ((p / 16 + k) * 16 + 16) from rfl]; omega
    dsimp only
    rw [e1, e2, ringRead_eq_map]

/-- The pieces of a clean run from clean slots are clean. -/
theorem ringPieces_clean {s : State} {c swz p n : Nat} {st : Stream} (hs : ∀ i, i < n → (st.slot (st.slotOf (p + i))).poison = false)
    (hb : ringBad s c st swz p n = false) : ∀ x ∈ ringPieces s c st swz p n, x.2 = false := by
  intro x hx
  obtain ⟨q, hq, rfl⟩ := List.mem_map.1 hx
  rw [mem_ringGranules] at hq
  have e1 : Nat.max p q = max p q := rfl
  have e2 : Nat.min (p + n) (q + 16) = min (p + n) (q + 16) := rfl
  dsimp only
  rw [e1, e2, ringBad_part hb (by omega) (by omega), Bool.or_false, show max p q = p + (max p q - p) by omega]
  exact hs _ (by omega)

/-- Clean pieces mark nothing. -/
theorem markPieces_clean {c : Nat} {ea : Addr} {s : State} {l : List (List Byte × Bool)} (h : ∀ x ∈ l, x.2 = false) :
    markPieces c ea s l = s := by
  induction l generalizing ea with
  | nil => rfl
  | cons x l ih =>
    obtain ⟨hx, hl⟩ := List.forall_mem_cons.1 h
    rw [markPieces, hx]
    exact ih hl

/-! ### The slots that a commit touches (R104-R106) -/

/-- The bits of slots written one after another. -/
theorem tget_foldl_tset {α β : Type} {P : β → Prop} (l : List α) (g : α → Nat) (v : Tbl β → α → β) {k : Nat} (d : β)
    (hk : ∃ x ∈ l, g x = k) (hv : ∀ x ∈ l, g x = k → ∀ t, P (v t x)) (t : Tbl β) : P (tget (l.foldl (fun t x => tset t (g x) (v t x)) t) k d) := by
  induction l using List.reverseRecOn with
  | nil => simp at hk
  | append_singleton l x ih =>
    rw [List.foldl_append, List.foldl_cons, List.foldl_nil, tget_tset]
    split
    next h => exact hv x (by simp) (by omega) _
    next h =>
      obtain ⟨y, hy, hyk⟩ := hk
      refine ih ⟨y, ?_, hyk⟩ fun z hz => hv z (by simp [hz])
      rcases List.mem_append.1 hy with hy | hy
      · exact hy
      · simp only [List.mem_singleton] at hy; subst hy; omega

theorem mem_slotSpan {st : Stream} {p n m : Nat} (hn : n ≠ 0) :
    m ∈ slotSpan st p n ↔ p / opSlot st.openw ≤ m ∧ m ≤ (p + n - 1) / opSlot st.openw := by
  have hle : p / opSlot st.openw ≤ (p + n - 1) / opSlot st.openw := Nat.div_le_div_right (by omega)
  rw [slotSpan, if_neg hn]
  simp only [List.mem_map, List.mem_range]
  constructor
  · rintro ⟨i, hi, rfl⟩; omega
  · rintro h; exact ⟨m - p / opSlot st.openw, by omega, by omega⟩

theorem opSlot_pos (o : BitVec 64) : 0 < opSlot o := by unfold opSlot; positivity

theorem slotSpan_of_byte {st : Stream} {p n i : Nat} (hi : i < n) : (p + i) / opSlot st.openw ∈ slotSpan st p n :=
  (mem_slotSpan (by omega)).2 ⟨Nat.div_le_div_right (by omega), Nat.div_le_div_right (by omega)⟩

/-- Bytes that no more than fill the ring touch no slot twice. -/
theorem slotSpan_distinct {st : Stream} {p n a b : Nat} (hn : n ≠ 0) (h : p % opSlot st.openw + n ≤ opRb st.openw)
    (ha : a ∈ slotSpan st p n) (hb : b ∈ slotSpan st p n) (hab : a % opNslot st.openw = b % opNslot st.openw) : a = b := by
  rw [mem_slotSpan hn] at ha hb
  have hpos := opSlot_pos st.openw
  have hlast : (p + n - 1) / opSlot st.openw < p / opSlot st.openw + opNslot st.openw := by
    rw [Nat.div_lt_iff_lt_mul hpos, Nat.add_mul]
    have := Nat.div_add_mod p (opSlot st.openw)
    rw [Nat.mul_comm] at this
    have hrb : opRb st.openw = opNslot st.openw * opSlot st.openw := rfl
    omega
  generalize p / opSlot st.openw = lo at *
  have : a - lo ≡ b - lo [MOD opNslot st.openw] := by
    refine Nat.ModEq.add_left_cancel' lo ?_
    rw [Nat.add_sub_cancel' ha.1, Nat.add_sub_cancel' hb.1]
    exact hab
  have := this.eq_of_lt_of_lt (by omega) (by omega)
  omega

/-- TAG and FULL of the slots that a commit touches. -/
theorem commitSlots_bits {st : Stream} {n tag i : Nat} {bad : Nat → Bool} (h : st.head % opSlot st.openw + n ≤ opRb st.openw) (hi : i < n) :
    let b := tget (commitSlots st n tag bad) (st.slotOf (st.head + i)) ⟨false, false, 0⟩
    b.tag = tag ∧ b.full = decide (((st.head + i) / opSlot st.openw + 1) * opSlot st.openw ≤ st.head + n) := by
  have hmem := slotSpan_of_byte (st := st) (p := st.head) hi
  refine tget_foldl_tset (P := fun b : SlotBits => b.tag = tag ∧
      b.full = decide (((st.head + i) / opSlot st.openw + 1) * opSlot st.openw ≤ st.head + n))
    _ (fun m => m % opNslot st.openw) _ _ ⟨_, hmem, rfl⟩ (fun m hm hmi t => ?_) _
  rw [slotSpan_distinct (by omega) h hm hmem hmi]
  exact ⟨rfl, rfl⟩

/-- A commit that poisons every slot poisons those that it touches. -/
theorem commitSlots_poison {st : Stream} {n tag i : Nat} (hi : i < n) :
    (tget (commitSlots st n tag (fun _ => true)) (st.slotOf (st.head + i)) ⟨false, false, 0⟩).poison = true :=
  tget_foldl_tset (P := fun b : SlotBits => b.poison = true) _ (fun m => m % opNslot st.openw) _ _
    ⟨_, slotSpan_of_byte hi, rfl⟩ (fun _ _ _ _ => Bool.or_true _) _

end Sys2Proof.Machine

namespace Sys2Proof.Machine

/-! ### A run is fetched in pieces (R117) -/

theorem Contiguous.congr {s t : State} {c n : Nat} {ea : Addr} (h : Contiguous s c ea n) (hp : ∀ x, t.place c x = s.place c x) :
    Contiguous t c ea n := by
  simpa only [Contiguous, hp] using h

/-- The part of n bytes from a position that lies in its slot. -/
theorem inSlot_spec {slot : Nat} (hs : 0 < slot) (pos n : Nat) : Nat.min n (slot - pos % slot) ≤ n ∧
    ∀ fuel, (n ≠ 0 → pos % slot + n ≤ slot * (fuel + 1)) → n - Nat.min n (slot - pos % slot) ≠ 0 →
      (pos + Nat.min n (slot - pos % slot)) % slot + (n - Nat.min n (slot - pos % slot)) ≤ slot * fuel := by
  have h : Nat.min n (slot - pos % slot) = min n (slot - pos % slot) := rfl
  have hlt := Nat.mod_lt pos hs
  rw [h]
  refine ⟨by omega, fun fuel hf h0 => ?_⟩
  have hf := hf (by omega)
  rw [Nat.mul_succ] at hf
  have hm : min n (slot - pos % slot) = slot - pos % slot := by omega
  have hd := Nat.div_add_mod pos slot
  have hend : pos + (slot - pos % slot) = slot * (pos / slot + 1) := by rw [Nat.mul_succ]; omega
  rw [hm, hend, Nat.mul_mod_right]
  omega

/-- The slots of a run, with the two that it may touch in part, are fuel enough to fetch it. -/
theorem fetch_fuel {slot : Nat} (hs : 0 < slot) (pos n : Nat) : pos % slot + n ≤ slot * (n / slot + 2) := by
  have hp := Nat.mod_lt pos hs
  have hn := Nat.lt_mul_div_succ n hs
  rw [Nat.mul_succ] at hn ⊢
  rw [Nat.mul_succ]
  omega

theorem fetchPieces_length {inv : Bool} {fuel c pos n slot : Nat} {ea : Addr} {s : State} (hs : 0 < slot)
    (hf : n ≠ 0 → pos % slot + n ≤ slot * fuel) :
    ((fetchPieces inv fuel c ea pos n slot s).2.flatMap (fun p => p.2.1)).length = n := by
  induction fuel generalizing s ea pos n with
  | zero => change 0 = n; omega
  | succ fuel ih =>
    rw [fetchPieces]
    split
    next h0 => exact h0.symm
    next h0 =>
      obtain ⟨hle, hrest⟩ := inSlot_spec hs pos n
      dsimp only
      rw [List.flatMap_cons, List.length_append, readAt_length, ih (hrest fuel hf)]
      omega

/-- With no link failing, the pieces of a run that passes its checks are the bytes that its die sees. -/
theorem fetchPieces_seen {fuel c pos n slot : Nat} {ea : Addr} {s : State} (hs : 0 < slot) (hf : n ≠ 0 → pos % slot + n ≤ slot * fuel)
    (hl : s.cur.link = none) (hc : Contiguous s c ea n) :
    Safety.readsAs s c ea n ((fetchPieces false fuel c ea pos n slot s).2.flatMap (fun p => p.2.1)) := by
  refine ⟨fetchPieces_length hs hf, ?_⟩
  induction fuel generalizing s ea pos n with
  | zero => intro i p hi; omega
  | succ fuel ih =>
    intro i p hi hp
    rw [fetchPieces, if_neg (by omega)]
    obtain ⟨hle, hrest⟩ := inSlot_spec hs pos n
    generalize Nat.min n (slot - pos % slot) = m at hle hrest
    obtain ⟨hbytes, hkept, hpeek⟩ := readAt_seen (s := s) (c := c) (n := m) (ea := ea) hl
    have hlen := readAt_length s c ea m .relaxed
    have hplace := hkept.sameMaps.place c
    have hlink := hkept.link.trans hl
    dsimp only
    rw [List.flatMap_cons, if_neg Bool.false_ne_true]
    dsimp only
    by_cases him : i < m
    · obtain ⟨q, hq, hall⟩ := hc i p hi hp
      rw [hall i (Nat.le_refl i), Option.some.injEq] at hp
      rw [List.getElem?_append_left (by omega), hbytes q hq, seenFrom, List.getElem?_map, List.getElem?_range him, ← hp]
      rfl
    · have hadd : ea + BitVec.ofNat 64 m + BitVec.ofNat 64 (i - m) = ea + BitVec.ofNat 64 i := by
        rw [BitVec.add_assoc, ← BitVec.ofNat_add, Nat.add_sub_cancel' (by omega)]
      rw [List.getElem?_append_right (by omega), hlen, ← hpeek]
      exact ih (hrest fuel hf) hlink ((hc.tail hle).congr hplace) (i - m) p (by omega) (by rw [hadd, hplace, hp])

/-! ### A run commits whole at HEAD (R105, R106, R117) -/

theorem putStream_find (c n : Nat) (st : Stream) (s : State) : tfind ((putStream c n st s).core c).streams n = some st := by
  rw [putStream, State.core_modCore, tfind_tset, if_pos rfl]

@[simp] theorem putStream_padBase (c n d : Nat) (st : Stream) (s : State) : ((putStream c n st s).core d).padBase = (s.core d).padBase := by
  by_cases h : d = c
  · subst h; rw [putStream, State.core_modCore]; rfl
  · rw [putStream, State.core_modCore_ne _ _ _ _ h]

theorem commitBytes_mem (c n tag : Nat) (st : Stream) (l : List Byte) (bad : Nat → Bool) (s : State) :
    (commitBytes c n st l tag bad s).mem = (ringWrite c st tag st.head l s).mem := by
  rw [commitBytes, State.act_mem]; rfl

theorem commitBytes_padBase (c n tag : Nat) (st : Stream) (l : List Byte) (bad : Nat → Bool) (s : State) :
    ((commitBytes c n st l tag bad s).core c).padBase = ((ringWrite c st tag st.head l s).core c).padBase := by
  unfold commitBytes
  dsimp only
  rw [State.core, State.act_cores]
  exact putStream_padBase ..

/-- Bytes that the ring holds stand there once they are committed. -/
theorem ringRead_commitBytes {c n tag : Nat} {st : Stream} {l : List Byte} (bad : Nat → Bool) (s : State) (h : l.length ≤ opRb st.openw) :
    ringRead (commitBytes c n st l tag bad s) c st tag st.head l.length = l :=
  (ringRead_congr (commitBytes_mem ..) (commitBytes_padBase ..) ..).trans (ringRead_ringWrite s h)

theorem commitBytes_find (c n tag : Nat) (st : Stream) (l : List Byte) (bad : Nat → Bool) (s : State) :
    tfind ((commitBytes c n st l tag bad s).core c).streams n =
      some { st with slots := commitSlots st l.length tag bad, head := st.head + l.length } := putStream_find ..

/-- The stream x that the fetch of m bytes at an address a, from a state u, has made of a stream st, in a state t. -/
def Takes (u : State) (c : Nat) (st : Stream) (t : State) (inv : Bool) (a : Addr) (m : Nat) (x : Stream) : Prop :=
  x.head = st.head + m ∧
    (m ≤ opRb st.openw → inv = false → Safety.settled u c a m →
      Safety.readsAs u c a m (ringRead t c st (opSwz st.openw) st.head m)) ∧
    (st.head % opSlot st.openw + m ≤ opRb st.openw → ∀ i, i < m →
      (x.slot (x.slotOf (st.head + i))).tag = opSwz st.openw ∧
      (x.slot (x.slotOf (st.head + i))).full = decide (((st.head + i) / opSlot st.openw + 1) * opSlot st.openw ≤ st.head + m))

/-- A run under which no element of a moving sink lies meets none of them. -/
theorem run_settled {s : State} {c m : Nat} {a : Addr} (h : Safety.settled s c a m) :
    (s.place c a).elim s (fun p => meetSinks p.key m s) = s := by
  cases hp : s.place c a with
  | none => rfl
  | some p => exact meetSinks_settled p.key m s (h p hp)

theorem commitRun_takes {s : State} {c n m : Nat} {st : Stream} {a : Addr} (inv : Bool) (hl : s.cur.link = none) (hc : Contiguous s c a m) :
    Safety.streamIs (commitRun inv c n st a m false s) c n (fun x =>
      Takes s c st (commitRun inv c n st a m false s) inv a m x ∧ x.slds = st.slds ∧ x.walkRun = st.walkRun ∧ x.fill = st.fill) := by
  have hpos := opSlot_pos st.openw
  have hf : m ≠ 0 → st.head % opSlot st.openw + m ≤ opSlot st.openw * (m / opSlot st.openw + 2) := fun _ => fetch_fuel hpos ..
  have hlen := fun s' => fetchPieces_length (inv := inv) (c := c) (ea := a) (s := s') hpos hf
  unfold commitRun
  dsimp only
  refine ⟨_, commitBytes_find .., ⟨by rw [hlen], fun hm hinv hset => ?_, fun hm i hi => ?_⟩, rfl, rfl, rfl⟩
  · subst hinv
    rw [run_settled hset]
    have hring := fun bad t => ringRead_commitBytes (c := c) (n := n) (tag := opSwz st.openw) (st := st) bad t ((hlen s).le.trans hm)
    rw [hlen] at hring
    rw [hring]
    exact fetchPieces_seen hpos hf hl hc
  · rw [hlen]
    exact commitSlots_bits hm hi

/-- The steps of a filler of a heat whose units move, with every link in service. -/
theorem fillerCommit_live {s : State} {c n : Nat} (hlive : s.unitsLive c = true) (hl : s.cur.link = none)
    (hr : s.bridge.reads.any (fun q => q.who == .filler c n) = false) :
    exec (.fillerCommit c n) s = .next (fillerCommit c n (asSide c .ap s)) := by
  change Host.Outcome.next (if s.unitsLive c then overLink (.filler c n) (fillerCommit c n) (asSide c .ap s) else s) = _
  have hr' : ((asSide c .ap s).bridge.reads.any (fun q => q.who == .filler c n)) = false := hr
  rw [if_pos hlive, overLink, hr', if_neg Bool.false_ne_true]
  change Host.Outcome.next (match (fillerCommit c n (asSide c .ap s)).cur.lost, s.cur.link with | true, some l => _ | _, _ => _) = _
  rw [hl]
  split
  next heq => cases heq
  next => rfl

/-- A stream fault leaves the streams and posts its delivery (R119, R317). -/
theorem streamFault_posts (c : Nat) (port : Option Nat) (code : Code) (a : Addr) (stopped : Bool) (run : Nat) (s : State) :
    ((streamFault c port code a stopped run s).core c).streams = (s.core c).streams ∧
      ∃ d ∈ ((streamFault c port code a stopped run s).core c).pending ++ ((streamFault c port code a stopped run s).core c).held,
        d.w1.toNat % 256 = code.num ∧ d.w2 = a := by
  unfold streamFault postDelivery
  dsimp only
  rw [State.core_modCore, State.core_modCore]
  refine ⟨by split <;> rfl, ⟨deliveryWord code.num (code == .poison) 6 0 stopped port c, a, BitVec.ofNat 64 run, 0⟩, ?_,
    deliveryWord_code code.num_lt .., rfl⟩
  split <;> simp

/-- A walk that stops on a fault (R119). -/
theorem stopWalk_stream (c n : Nat) (st : Stream) (code : Code) (a : Addr) (s : State) :
    tfind ((stopWalk c n st code a s).core c).streams n = some { st with fill := .stop, err := BitVec.ofNat 8 code.num } := by
  obtain ⟨hstreams, -⟩ := streamFault_posts c st.port0 code a true st.walkRun
    (putStream c n { st with fill := .stop, err := BitVec.ofNat 8 code.num } s)
  rw [stopWalk, hstreams]
  exact putStream_find ..

theorem lostRun_length (a : Addr) (n : Nat) : (lostRun a n).length = n := by simp [lostRun]

/-- What a filler's step does to the oldest `sld` run (R115, R117, R119). -/
theorem fillerCommit_sld {u : State} {c n m : Nat} {st : Stream} {a : Addr} {inv : Bool} {q : List (Addr × Nat × Bool)}
    (hst : tfind (u.core c).streams n = some st) (hq : st.slds = (a, m, inv) :: q) :
    (checkRange u c a m .load = none → fillerCommit c n u = commitRun inv c n { st with slds := q } a m false u) ∧
    (∀ e x, checkRange u c a m .load = some (e, x) → fillerCommit c n u =
      streamFault c st.port0 e x false 0 (commitBytes c n { st with slds := q } (lostRun a m) (opSwz st.openw) (fun _ => true) u)) := by
  refine ⟨fun hck => ?_, fun e x hck => ?_⟩ <;> simp only [fillerCommit, hst, hq, hck]; rfl

/-- What a filler's step does to a walk whose window has room (R117-R119). -/
theorem fillerCommit_walk {u : State} {c n : Nat} {st : Stream} (hst : tfind (u.core c).streams n = some st) (hq : st.slds = [])
    (hk : opKind st.openw = 0) (hf : st.fill = .run) (hroom : st.head + shLen st.shape ≤ st.low + opRb st.openw) :
    let a := runAddr st.shape st.walkBase st.walkRun
    let l := shLen st.shape
    (checkRange u c a l .load = none → fillerCommit c n u = commitRun (shInv st.shape) c n { st with
      walkRun := st.walkRun + 1, fill := if st.walkRun + 1 = shRuns st.shape then .done else .run } a l false u) ∧
    (∀ e x, checkRange u c a l .load = some (e, x) → fillerCommit c n u = stopWalk c n st e x u) := by
  have hgo : ¬ (opKind st.openw ≠ 0 ∨ st.fill ≠ .run) := by rw [hk, hf]; simp
  refine ⟨fun hck => ?_, fun e x hck => ?_⟩ <;>
    simp only [fillerCommit, hst, hq, if_neg hgo, if_neg (Nat.not_lt.2 hroom), hck]

end Sys2Proof.Machine

namespace Sys2Proof.Machine

/-! ### A drainer writes a piece of its ring (R118) -/

theorem writeAt_memStep (s : State) (c : Nat) (ea : Addr) (l : List Byte) (b : Bool) (sv : Serve) : MemStep s (writeAt c ea l b sv s) := by
  unfold writeAt
  split
  exacts [writePlace_step .., .refl s]

/-- A piece with nothing poisoned, of which no reader has met an element, is one write of the ring's bytes. -/
theorem drainPiece_clean {s : State} {c p m : Nat} {st : Stream} (ea : Addr) (he : st.early = [])
    (hs : ∀ i, i < m → (st.slot (st.slotOf (p + i))).poison = false) (hb : ringBad s c st (opSwz st.openw) p m = false) :
    drainPiece c st p m ea s = writeAt c ea (ringRead s c st (opSwz st.openw) p m) false .relaxed s := by
  rw [drainPiece, he, if_pos List.any_nil, sinkBytes, markPieces_clean (ringPieces_clean hs hb), ringPieces_bytes]

/-- What a die sees is what its relaxed reads return. -/
theorem SameReads.peek {s t : State} (h : SameReads s t) (die : Nat) (p : Place) : Machine.peek t die p = Machine.peek s die p := by
  rw [Machine.peek, Machine.peek, (h.readPlace die p 1).2]

theorem SameReads.seen {s t : State} (h : SameReads s t) (c : Nat) (ea : Addr) (n : Nat) : Safety.seen t c ea n = Safety.seen s c ea n := by
  rw [Safety.seen, Safety.seen, h.maps.place]
  simp only [h.peek]

/-- With no link failing, a die sees at a place what it has written there. -/
theorem seen_writeAt {s : State} {c : Nat} {ea : Addr} {l : List Byte} (b : Bool) (hl : s.cur.link = none) (hp : (s.place c ea).isSome = true) :
    Safety.seen (writeAt c ea l b .relaxed s) c ea l.length = l := by
  obtain ⟨p, hp⟩ := Option.isSome_iff_exists.1 hp
  rw [Safety.seen, (writeAt_memStep ..).sameMaps.place, hp]
  simp only [writeAt, hp]
  exact writePlace_seen b hl

@[simp] theorem act_core (c d : Nat) (s : State) : (s.act c).core d = s.core d := by rw [State.core, State.act_cores, State.core]

theorem putStream_core (c n : Nat) (st : Stream) (s : State) :
    (putStream c n st s).core c = { s.core c with streams := tset (s.core c).streams n st } := by rw [putStream, State.core_modCore]

theorem putStream_core_ne {c d : Nat} (h : d ≠ c) (n : Nat) (st : Stream) (s : State) : (putStream c n st s).core d = s.core d :=
  State.core_modCore_ne _ _ _ _ h

/-- A stream replaced changes no byte that a read returns. -/
theorem putStream_reads (c n : Nat) (st : Stream) (s : State) : SameReads s ((putStream c n st s).act c) where
  maps := .of_heats rfl (fun _ => rfl) fun d => by
    rw [act_core]
    by_cases h : d = c
    · subst h
      rw [putStream_core]
      exact ⟨rfl, rfl, rfl⟩
    · rw [putStream_core_ne h]
      exact ⟨rfl, rfl, rfl⟩
  mem := rfl
  bad := rfl
  dies := rfl
  cur := rfl

/-- A sink that is not closed does not end. -/
theorem endClosedSink_open {s : State} {c n : Nat} {st : Stream} (hst : tfind (s.core c).streams n = some st) (hc : st.closed = false) :
    endClosedSink c n s = s := by
  rw [endClosedSink, hst]
  exact if_neg (by simp [hc])

/-- A stream whose reader entry 0 has moved on by n bytes. -/
def Stream.readOn (st : Stream) (r : Reader) (n : Nat) : Stream := st.setReader 0 { r with rdpos := r.rdpos + n }

@[simp] theorem Stream.readOn_rdpos (st : Stream) (r : Reader) (n : Nat) :
    (tfind (st.readOn r n).readers 0).map (fun y => y.rdpos) = some (r.rdpos + n) :=
  congrArg (Option.map _) ((tfind_tset ..).trans (if_pos rfl))

/-- The stream of a drainer that has written m bytes of its run. -/
def drained (st : Stream) (r : Reader) (m : Nat) : Stream :=
  let full := decide (st.walkOfs + m = shLen st.shape)
  let run := if full then st.walkRun + 1 else st.walkRun
  Stream.readOn { st with
    walkRun := run, walkOfs := if full then 0 else st.walkOfs + m
    fill := if full && run == shRuns st.shape then .done else .run
    early := st.early.filter (fun q => decide (r.rdpos + m ≤ q)) } r m

theorem drained_walk (st : Stream) (r : Reader) (m : Nat) :
    (tfind (drained st r m).readers 0).map (fun y => y.rdpos) = some (r.rdpos + m) ∧ (drained st r m).head = st.head ∧
      (st.walkOfs + m = shLen st.shape → (drained st r m).walkRun = st.walkRun + 1 ∧ (drained st r m).walkOfs = 0 ∧
        (drained st r m).fill = (if st.walkRun + 1 = shRuns st.shape then .done else .run)) ∧
      (st.walkOfs + m ≠ shLen st.shape →
        (drained st r m).walkRun = st.walkRun ∧ (drained st r m).walkOfs = st.walkOfs + m ∧ (drained st r m).fill = .run) := by
  refine ⟨Stream.readOn_rdpos .., rfl, fun h => ?_, fun h => ?_⟩ <;> simp [drained, Stream.readOn, Stream.setReader, freeSlots, h]

/-- What a drainer's step does (R118, R119): a piece of its run is written, or the walk stops. -/
theorem drainerWrite_run {u : State} {c n len : Nat} {st : Stream} {r : Reader} (hst : tfind (u.core c).streams n = some st)
    (hr : tfind st.readers 0 = some r) (hk : opKind st.openw = 8) (hf : st.fill = .run) (hc : st.closed = false) :
    let m := Nat.min len (Nat.min (st.head - r.rdpos) (shLen st.shape - st.walkOfs)) / 2 ^ shElem st.shape * 2 ^ shElem st.shape
    let a := runAddr st.shape st.walkBase st.walkRun + BitVec.ofNat 64 st.walkOfs
    0 < m →
      (checkRange u c a m .store = none →
        drainerWrite c n len u = (putStream c n (drained st r m) (drainPiece c st r.rdpos m a u)).act c) ∧
      (∀ e x, checkRange u c a m .store = some (e, x) → drainerWrite c n len u = stopWalk c n st e x u) := by
  intro m a hm
  have hgo : ¬ (opKind st.openw ≠ 8 ∨ st.fill ≠ .run ∨ m = 0) := by rw [hk, hf]; simp; omega
  refine ⟨fun hck => ?_, fun e x hck => ?_⟩
  · simp only [drainerWrite, hst, hr]
    rw [if_neg hgo, hck]
    exact congrArg (State.act c) (endClosedSink_open (putStream_find c n (drained st r m) _) hc)
  · simp only [drainerWrite, hst, hr]
    rw [if_neg hgo, hck]

/-! ### A slot moves to the peer of a CORE sink (R116) -/

theorem corePeer_eq {s : State} {c n : Nat} {st t : Stream} (ht : tfind (s.core (opPeer st.openw)).streams (opPeerPort st.openw) = some t)
    (hk : opKind st.openw = 9) (hk' : opKind t.openw = 1) (hp : opPeer t.openw = c) (hp' : opPeerPort t.openw = n) :
    corePeer s c n st = some t := by
  rw [corePeer, ht, hk, Option.filter_some, hk', hp, hp']
  simp

/-- The bits of the slot that a CORE sink sends. -/
def sentBits (s : State) (c : Nat) (st : Stream) (r : Reader) : SlotBits :=
  let b := st.slot (st.slotOf r.rdpos)
  ⟨true, b.poison || ringBad s c st 0 r.rdpos (opSlot st.openw), b.tag⟩

/-- A CORE source that has taken a slot of n bytes. -/
def Stream.tookSlot (t : Stream) (n : Nat) (b : SlotBits) : Stream :=
  { t with slots := tset t.slots (t.slotOf t.head) b, head := t.head + n }

/-- The part once the slot at RDPOS of a sink has moved to its peer. -/
def slotMoved (u : State) (c n : Nat) (st t : Stream) (r : Reader) : State :=
  let peer := opPeer st.openw
  let slot := opSlot st.openw
  ((putStream c n (st.readOn r slot) (putStream peer (opPeerPort st.openw) (t.tookSlot slot (sentBits u c st r))
    (ringWrite peer t 0 t.head (ringRead u c st 0 r.rdpos slot) u))).act c).act peer

section

variable (u : State) (c n : Nat) (st t : Stream) (r : Reader)

theorem slotMoved_ring (h : opSlot st.openw ≤ opRb t.openw) :
    ringRead (slotMoved u c n st t r) (opPeer st.openw) t 0 t.head (opSlot st.openw) = ringRead u c st 0 r.rdpos (opSlot st.openw) := by
  have hpad : ((slotMoved u c n st t r).core (opPeer st.openw)).padBase = (u.core (opPeer st.openw)).padBase := by
    rw [slotMoved, act_core, act_core, putStream_padBase, putStream_padBase, ringWrite_core]
  have hback := ringRead_ringWrite (c := opPeer st.openw) (swz := 0) (p := t.head) (st := t)
    (l := ringRead u c st 0 r.rdpos (opSlot st.openw)) u (by rwa [ringRead_length])
  rw [ringRead_length] at hback
  have hmem : (slotMoved u c n st t r).mem = (ringWrite (opPeer st.openw) t 0 t.head (ringRead u c st 0 r.rdpos (opSlot st.openw)) u).mem := by
    rw [slotMoved, State.act_mem, State.act_mem]
    rfl
  exact (ringRead_congr hmem (by rw [hpad, ringWrite_core]) ..).trans hback

theorem slotMoved_peer (h : opPeer st.openw ≠ c) :
    tfind ((slotMoved u c n st t r).core (opPeer st.openw)).streams (opPeerPort st.openw) =
      some (t.tookSlot (opSlot st.openw) (sentBits u c st r)) := by
  rw [slotMoved, act_core, act_core, putStream_core_ne h]
  exact putStream_find ..

theorem slotMoved_sink : tfind ((slotMoved u c n st t r).core c).streams n = some (st.readOn r (opSlot st.openw)) := by
  rw [slotMoved, act_core, act_core]
  exact putStream_find ..

end

/-- What the transfer of a full slot does. -/
theorem coreSlotTransfer_moves {u : State} {c n : Nat} {st t : Stream} {r : Reader} (hst : tfind (u.core c).streams n = some st)
    (hr : tfind st.readers 0 = some r) (hpeer : corePeer u c n st = some t) (hc : st.closed = false) (herr : st.err = 0)
    (hfin : t.fin = false) (hne : st.head ≠ r.rdpos) (hfull : (st.slot (st.slotOf r.rdpos)).full = true)
    (hslot : opSlot t.openw = opSlot st.openw) (hroom : t.head + opSlot st.openw ≤ t.low + opRb t.openw) :
    coreSlotTransfer c n u = slotMoved u c n st t r := by
  have hgo : ¬ (st.err ≠ 0 ∨ t.fin = true ∨ st.head = r.rdpos ∨ (st.slot (st.slotOf r.rdpos)).full = false) := by
    simp [herr, hfin, hne, hfull]
  simp only [coreSlotTransfer, hst, hr, hpeer]
  rw [if_neg hgo, if_neg (not_not.2 hslot), if_neg (Nat.not_lt.2 hroom)]
  exact congrArg (fun v : State => (v.act c).act (opPeer st.openw)) (endClosedSink_open (putStream_find ..) hc)

end Sys2Proof.Machine

namespace Sys2Proof

open Sys2Proof.Machine

/-- Settles O40: the steps of `fillerCommit`, `drainerWrite` and `coreSlotTransfer` are those of the units, one clause each; a run that
is fetched or written passes its checks, hence lies at one place, and an access that no failing link meets returns or leaves what its die
sees. -/
theorem streamUnitsMove : Obligations.StreamUnitsMove := by
  unfold Obligations.StreamUnitsMove
  intro s c n len st hlive hlink hreads hst u ea l rb slot swz step takes
  have hfill := fillerCommit_live hlive hlink hreads
  have hdrain : exec (.drainerWrite c n len) s = .next (drainerWrite c n len u) := by
    change Host.Outcome.next (if s.unitsLive c then _ else _) = _
    rw [if_pos hlive]
  have hcore : exec (.coreSlotTransfer c n) s = .next (coreSlotTransfer c n u) := by
    change Host.Outcome.next (if s.unitsLive c then _ else _) = _
    rw [if_pos hlive]
  have hu : tfind (u.core c).streams n = some st := hst
  have hul : u.cur.link = none := hlink
  refine ⟨fun a m inv q hq => ?_, fun hq hk hf hroom => ?_, fun r hr hk hf hc => ?_, ?_⟩
  · obtain ⟨hpass, hfail⟩ := fillerCommit_sld hu hq
    refine ⟨fun hck => ?_, fun e x hck => ?_⟩
    · obtain ⟨x, hx, htakes, hslds, hrun, hfl⟩ := commitRun_takes (n := n) (st := { st with slds := q }) inv hul (contiguous_of_checkRange hck)
      exact ⟨_, hfill.trans (congrArg _ (hpass hck)), x, hx, htakes, hslds, hrun, hfl⟩
    · obtain ⟨hstreams, hpost⟩ := streamFault_posts c st.port0 e x false 0
        (commitBytes c n { st with slds := q } (lostRun a m) (opSwz st.openw) (fun _ => true) u)
      refine ⟨_, hfill.trans (congrArg _ (hfail e x hck)), ⟨_, (congrArg (fun t => tfind t n) hstreams).trans (commitBytes_find ..),
        ?_, rfl, rfl, rfl, fun i hi => ?_⟩, hpost⟩
      · rw [lostRun_length]
      · exact commitSlots_poison (st := st) (by rwa [lostRun_length])
  · obtain ⟨hpass, hfail⟩ := fillerCommit_walk hu hq hk hf hroom
    refine ⟨fun hck => ?_, fun e a hck => ?_⟩
    · obtain ⟨x, hx, htakes, -, hrun, hfl⟩ := commitRun_takes (n := n) (st := { st with
        walkRun := st.walkRun + 1, fill := if st.walkRun + 1 = shRuns st.shape then .done else .run }) (shInv st.shape) hul
        (contiguous_of_checkRange hck)
      exact ⟨_, hfill.trans (congrArg _ (hpass hck)), x, hx, htakes, hrun, hfl⟩
    · exact ⟨_, hfill.trans (congrArg _ (hfail e a hck)), stopWalk_mem .., _, stopWalk_stream .., rfl, rfl, rfl, rfl⟩
  · intro m at' bytes w hm
    obtain ⟨hpass, hfail⟩ := drainerWrite_run hu hr hk hf hc hm
    refine ⟨fun hck => ?_, fun e a hck => ?_⟩
    · have hstep : drainerWrite c n len u = (putStream c n (drained st r m) (drainPiece c st r.rdpos m at' u)).act c := hpass hck
      refine ⟨_, hdrain.trans (congrArg _ hstep), fun he hs hb => ?_, _, putStream_find .., drained_walk ..⟩
      have hpiece : drainPiece c st r.rdpos m at' u = w := drainPiece_clean at' he hs hb
      rw [hpiece]
      refine ⟨rfl, rfl, rfl, fun hp => ?_⟩
      have hseen := seen_writeAt (l := bytes) (ea := at') (c := c) false hul hp
      rw [ringRead_length] at hseen
      exact ((putStream_reads ..).seen ..).trans hseen
    · exact ⟨_, hdrain.trans (congrArg _ (hfail e a hck)), stopWalk_mem .., _, stopWalk_stream .., rfl, rfl, rfl, rfl⟩
  · intro peer r t hr ht hc hk hk' hp hp' hne herr hfin hhead b hfull hslot hle hroom
    have hpeer : corePeer u c n st = some t := corePeer_eq ht hk hk' hp hp'
    have hmoves := coreSlotTransfer_moves hu hr hpeer hc herr hfin hhead hfull hslot hroom
    exact ⟨_, hcore.trans (congrArg _ hmoves), slotMoved_ring u c n st t r hle, ⟨_, slotMoved_peer u c n st t r hne, rfl, tget_tset_same ..⟩,
      _, slotMoved_sink .., Stream.readOn_rdpos ..⟩

end Sys2Proof

namespace Sys2Proof.Machine

/-! ### The words of a command ring (R134, R135) -/

theorem MemStep.curSide {s t : State} (h : MemStep s t) : t.cur.side = s.cur.side := by
  have hc := congrArg Cur.side h.cur
  exact hc

/-- Reading and checking a record's descriptor leaves which side moves. -/
theorem descCheck_side {s t : State} {c : Nat} {r : BitVec 512} (h : descCheck c r s = .ok t) : t.cur.side = s.cur.side := by
  rw [descCheck] at h
  split at h
  · cases h; rfl
  · dsimp only at h
    split at h
    · cases h
    · split at h
      · cases h
      next hr =>
        generalize (if rkKind r = 9 then _ else _ : Bool) = ok at h
        cases ok <;> cases h
        exact (readRecord_reads hr).curSide

/-- The checks of a record leave which side moves. -/
theorem recordCheck_side {s t : State} {c : Nat} {a : Addr} {r : BitVec 512} (h : recordCheck c a r s = .ok t) :
    t.cur.side = s.cur.side := by
  rw [recordCheck] at h
  split at h
  · cases h
  · split at h
    · cases h
    · split at h
      · cases h
      next hd =>
        split at h <;> cases h
        exact descCheck_side hd

/-- A `ceng` word that waits for no load writes d after its effect. -/
theorem cengWord_free {d r : Nat} {f : State → State} {v : Ring → Addr} {s : State} (h : s.me.ldsWaits [d] = false) :
    (.next (cengWord d r f v s) : Res) = .next (finish ((f s).put d (v ((f s).me.ring r)))) := streamWord_bare h

/-- A stopped head is dropped by its retirement, or leaves its ring where its raise has been made (R135, R317). -/
theorem dropHead_eq (c r : Nat) (s : State) :
    dropHead c r s =
      if ((s.core c).ring r).st ≠ .stop then s
      else if ((s.core c).ring r).due = some .raised then endRetire c r (headBytes ((s.core c).ring r)) s
      else retire c r (some ((s.core c).ring r).fcode.toNat) s := by
  rw [dropHead]
  refine if_congr Iff.rfl rfl ?_
  split <;> rfl

/-- What enqueuing a checked record comes to: nothing at a full ring, else a release before the record is stored (R134). -/
def cmdEnqueues (d r : Nat) (v : BitVec 512) (s u : State) : Res :=
  if 64 ≤ ((u.me.ring r).wp - (u.me.ring r).rp).toNat then .next s
  else if u.me.lds ≠ [] ∨ u.owes (dieOf u.cur.core) = true then .next u
  else .next (finish ((enqueue r v u).put d ((u.me.ring r).wp.zeroExtend 64)))

theorem cmdEnqueues_eq {d r : Nat} {v : BitVec 512} {s u : State} (hu : u.cur.side = .ap) :
    (.next (settle (if 64 ≤ (u.me.ring r).depth then .ok s
      else release id (fun s => .ok (finish ((enqueue r v s).put d ((u.me.ring r).wp.setWidth 64)))) u) s) : Res) = cmdEnqueues d r v s u := by
  rw [next_settle_ite, cmdEnqueues]
  refine if_congr Iff.rfl rfl ?_
  unfold release
  by_cases hl : u.me.lds = []
  · simp only [hl, ne_eq, not_true_eq_false, and_false, false_or, if_false, next_settle_ite]; rfl
  · simp [hl, hu]

end Sys2Proof.Machine

namespace Sys2Proof
open Sys2Proof.Machine

/-- Settles O21: cmd and ceng.wait are stream words, the other four words are their effect and a write of d. -/
theorem engineWords : Obligations.EngineWords := by
  intro s d a r ⟨hside, _, hfree⟩ c ea g n status
  have hd : s.me.ldsWaits [d] = false := Core.ldsWaits_mono hfree (by simp)
  have had : s.me.ldsWaits ([a] ++ [d]) = false := Core.ldsWaits_mono hfree (by simp)
  have put : ∀ v, s.put d v = putA d ⟨v, false⟩ s := State.put_ap hside d
  refine ⟨?_, ?_, ?_, fun hp => ?_, fun hp => ?_, ?_, ?_⟩
  · change execCmd d a r s = _
    rw [execCmd, streamWord_free had, Core.anyPoison_single, next_settle_ite]
    refine if_congr Iff.rfl rfl (if_congr Iff.rfl rfl ?_)
    change _ = (match readRecord (s.me.areg a).val 64 s with | .error t => _ | .ok (u, l) => _)
    cases hr : readRecord (s.me.areg a).val 64 s with
    | error t => rfl
    | ok p =>
      dsimp only [ea]
      cases hc : recordCheck p.1.cur.core (s.me.areg a).val (BitVec.ofNat 512 (bytesNat p.2)) p.1 with
      | error t => rfl
      | ok u => exact cmdEnqueues_eq ((recordCheck_side hc).trans ((readRecord_reads hr).curSide.trans hside))
  · exact (cengWord_free hd).trans (by rw [put]; rfl)
  · exact (cengWord_free hd).trans (by rw [put]; rfl)
  · change execCengWait d a r s = _
    rw [execCengWait, streamWord_free had, Core.anyPoison_single, hp, next_settle_ite, settle_ok, put]; rfl
  · change execCengWait d a r s = _
    rw [execCengWait, streamWord_free had, Core.anyPoison_single, hp]; rfl
  · refine (cengWord_free hd).trans ?_
    rw [State.put_ap (by exact hside)]; rfl
  · refine (cengWord_free hd).trans ?_
    rw [dropHead_eq]; rfl

end Sys2Proof

namespace Sys2Proof.Machine

/-! ### A chunk that is done (R132, R140) -/

/-- The leading complete chunks of a window, one by one. -/
theorem lt_leadMarks {m : BitVec 64} {i : Nat} : i < leadMarks m ↔ ∀ j ≤ i, m.getLsbD j = true := by
  rw [leadMarks, List.takeWhile_eq_take_findIdx_not, List.length_take, Nat.min_eq_left List.findIdx_le_length, List.lt_findIdx_iff]
  simp only [List.length_range, List.getElem_range, Bool.not_eq_false']
  exact ⟨fun ⟨_, h⟩ => h, fun h => ⟨BitVec.lt_of_getLsbD (h i le_rfl), h⟩⟩

theorem one_shiftLeft_getLsbD {i j : Nat} (h : i < 64) : (1#64 <<< i).getLsbD j = decide (j = i) := by
  simp only [BitVec.getLsbD_shiftLeft, BitVec.getLsbD_one]
  by_cases hj : j = i
  · subst hj; simp [h]
  · by_cases hlt : j < i
    · simp [hlt, hj]
    · have : j - i ≠ 0 := by omega
      simp [hlt, hj, this]

/-- Every other chunk of a record of `total` is complete where its ring stands (R132). -/
def OthersDone (g : Ring) (k total : Nat) : Prop :=
  ∀ j, j < total → j ≠ k → j < g.chunk ∨ (g.chunk ≤ j ∧ g.marks.getLsbD (j - g.chunk) = true)

section

variable {g : Ring} {k total : Nat} (hk : g.chunk ≤ k) (hw : k < g.chunk + 64)
include hk hw

/-- The marks of a ring once chunk k is marked. -/
theorem markBits_getLsbD (j : Nat) :
    (g.marks ||| (1#64 <<< (k - g.chunk))).getLsbD j = (g.marks.getLsbD j || decide (j = k - g.chunk)) := by
  rw [BitVec.getLsbD_or, one_shiftLeft_getLsbD (by omega)]

/-- CHUNK passes the last chunk of a record when its last open chunk is marked, and then alone. -/
theorem setMark_total : total ≤ (setMark k g).chunk ∨ ¬ OthersDone g k total := by
  by_contra hc
  obtain ⟨hlt, hrest⟩ := not_or.1 hc
  rw [not_not] at hrest
  have hlead : ¬ total - 1 - g.chunk < leadMarks (g.marks ||| (1#64 <<< (k - g.chunk))) := fun h => hlt (by
    change total ≤ g.chunk + leadMarks _
    omega)
  refine hlead (lt_leadMarks.2 fun j hj => ?_)
  have hchunk : (setMark k g).chunk = g.chunk + leadMarks (g.marks ||| (1#64 <<< (k - g.chunk))) := rfl
  rw [markBits_getLsbD hk hw]
  by_cases hjk : g.chunk + j = k
  · simp [show j = k - g.chunk by omega]
  · rcases hrest (g.chunk + j) (by omega) hjk with h | ⟨-, h⟩
    · omega
    · rw [Nat.add_sub_cancel_left] at h; simp [h]

theorem setMark_open (h : ¬ OthersDone g k total) : ¬ total ≤ (setMark k g).chunk := by
  unfold OthersDone at h
  push Not at h
  obtain ⟨j, hj, hjk, hge, hm⟩ := h
  have hlead : ¬ j - g.chunk < leadMarks (g.marks ||| (1#64 <<< (k - g.chunk))) := fun hlt => by
    have := lt_leadMarks.1 hlt (j - g.chunk) le_rfl
    rw [markBits_getLsbD hk hw] at this
    rcases Bool.or_eq_true_iff.1 this with h | h
    · exact hm hge h
    · have := of_decide_eq_true h; omega
  change ¬ total ≤ g.chunk + leadMarks _
  omega

/-- A marked chunk lies below CHUNK or is marked in the window. -/
theorem setMark_marked : k < (setMark k g).chunk ∨ (setMark k g).marks.getLsbD (k - (setMark k g).chunk) = true := by
  change k < g.chunk + leadMarks _ ∨ (BitVec.ushiftRight _ _).getLsbD (k - (g.chunk + leadMarks _)) = true
  by_cases hlt : k < g.chunk + leadMarks (g.marks ||| (1#64 <<< (k - g.chunk)))
  · exact .inl hlt
  · refine .inr ?_
    change ((g.marks ||| (1#64 <<< (k - g.chunk))) >>> leadMarks (g.marks ||| (1#64 <<< (k - g.chunk)))).getLsbD _ = true
    rw [BitVec.getLsbD_ushiftRight, markBits_getLsbD hk hw]
    simp; right; omega

end

theorem State.ring_modRing (s : State) (c r : Nat) (f : Ring → Ring) : ((s.modRing c r f).core c).ring r = f ((s.core c).ring r) := by
  rw [State.modRing, State.core_modCore]; exact tget_tset_same ..

/-- What a chunk's work leaves of its ring until it is done: the head and all of its progress but VALUE, EXC and the descriptor. -/
structure ProgressKept (c r : Nat) (s t : State) : Prop where
  bridge : t.bridge = s.bridge
  link : t.cur.link = s.cur.link
  pending : (t.core c).pending = (s.core c).pending
  ring : let g := (s.core c).ring r
    { (t.core c).ring r with st := g.st, skip := g.skip, desc := g.desc, value := g.value, exc := g.exc } = g

namespace ProgressKept

variable {c r : Nat} {s t u : State}

theorem refl (c r : Nat) (s : State) : ProgressKept c r s s := ⟨rfl, rfl, rfl, rfl⟩

theorem trans (h : ProgressKept c r s t) (h' : ProgressKept c r t u) : ProgressKept c r s u where
  bridge := h'.bridge.trans h.bridge
  link := h'.link.trans h.link
  pending := h'.pending.trans h.pending
  ring := by
    have e := h.ring
    have e' := congrArg (fun x : Ring => { x with
      st := ((s.core c).ring r).st, skip := ((s.core c).ring r).skip, desc := ((s.core c).ring r).desc, value := ((s.core c).ring r).value
      exc := ((s.core c).ring r).exc }) h'.ring
    exact e'.trans e

/-- Accesses of memory that no failing link meets. -/
theorem of_mem (h : MemStep s t) (hl : s.cur.link = none) (c r : Nat) : ProgressKept c r s t :=
  ⟨(h.calm hl).2, h.link, by rw [h.core], by rw [h.core]⟩

theorem modRing {f : Ring → Ring}
    (hf : ∀ g : Ring, { f g with st := g.st, skip := g.skip, desc := g.desc, value := g.value, exc := g.exc } = g) :
    ProgressKept c r s (s.modRing c r f) :=
  ⟨rfl, rfl, by rw [State.modRing, State.core_modCore], by rw [State.ring_modRing]; exact hf _⟩

theorem owes (h : ProgressKept c r s t) (die : Nat) : t.owes die = s.owes die := by rw [State.owes, State.owes, h.bridge]

end ProgressKept

/-- A chunk's bytes are counted and its mark set (R132, R158). -/
def chunkMarked (c r k n : Nat) (s : State) : State := (s.modRing c r (fun g => setMark k { g with bytes := g.bytes + n })).act c

theorem finishChunk_eq (c r k total n : Nat) (s : State) : finishChunk c r k total n s =
    if total ≤ (((chunkMarked c r k n s).core c).ring r).chunk then completeRecord c r (chunkMarked c r k n s) else chunkMarked c r k n s := rfl

theorem chunkMarked_ring (c r k n : Nat) (s : State) :
    ((chunkMarked c r k n s).core c).ring r = setMark k { (s.core c).ring r with bytes := ((s.core c).ring r).bytes + n } := by
  rw [chunkMarked, act_core]; exact State.ring_modRing ..

/-- A chunk that ends after work that kept its ring's progress is done. -/
theorem finishChunk_done {c r k total n : Nat} {s t : State} {e : RecEntry} (h : ProgressKept c r s t)
    (hh : ((s.core c).ring r).head = some e) (hl : s.cur.link = none) (hk : ((s.core c).ring r).chunk ≤ k)
    (hw : k < ((s.core c).ring r).chunk + 64) : Safety.chunkDone (finishChunk c r k total n t) s c r k total n := by
  obtain ⟨hchunk, hmarks, hbytes, hrp, hhead, hcar, hlost⟩ : ((t.core c).ring r).chunk = ((s.core c).ring r).chunk ∧
      ((t.core c).ring r).marks = ((s.core c).ring r).marks ∧ ((t.core c).ring r).bytes = ((s.core c).ring r).bytes ∧
      ((t.core c).ring r).rp = ((s.core c).ring r).rp ∧ ((t.core c).ring r).head = ((s.core c).ring r).head ∧
      ((t.core c).ring r).carried = ((s.core c).ring r).carried ∧ ((t.core c).ring r).lost = ((s.core c).ring r).lost := by
    have e := h.ring
    refine ⟨?_, ?_, ?_, ?_, ?_, ?_, ?_⟩ <;> rw [← e]; rfl
  have hring := chunkMarked_ring c r k n t
  have hpend : ((chunkMarked c r k n t).core c).pending = (s.core c).pending := by
    rw [← h.pending, chunkMarked, act_core, State.modRing, State.core_modCore]
  rw [finishChunk_eq]
  generalize hg : ({ (t.core c).ring r with bytes := ((t.core c).ring r).bytes + n } : Ring) = g at hring
  have hgc : g.chunk = ((s.core c).ring r).chunk := by rw [← hg, ← hchunk]
  have hothers : OthersDone g k total ↔ OthersDone ((s.core c).ring r) k total := by
    unfold OthersDone; rw [hgc, show g.marks = ((s.core c).ring r).marks by rw [← hg, ← hmarks]]
  have hgk : g.chunk ≤ k := by omega
  have hgw : k < g.chunk + 64 := by omega
  rw [hring]
  refine ⟨fun hrest hnone hlostf hp ho => ?_, fun hrest => ?_⟩
  · rw [if_pos ((setMark_total hgk hgw).resolve_right (not_not.2 (hothers.2 hrest))), completeRecord, hring,
      show (setMark k g).lost = false by rw [← hlostf, ← hlost, ← hg]; rfl,
      show (setMark k g).carried = none by rw [← hnone, ← hcar, ← hg]; rfl]
    have hret := (retire_spec (c := c) (r := r) (fault := none) (s := chunkMarked c r k n t) (e := e)
      (by rw [hring, ← hg]; exact hhead.trans hh) (h.link.trans hl) ((h.owes _).trans ho) (by rw [hpend]; omega)).1
    rw [hring, show (setMark k g).rp = ((s.core c).ring r).rp by rw [← hg, ← hrp]; rfl] at hret
    exact hret
  · rw [if_neg (setMark_open hgk hgw (fun h' => hrest (hothers.1 h'))), hring]
    exact ⟨by rw [← hg, ← hrp]; rfl, by rw [← hg, ← hbytes]; rfl, setMark_marked hgk hgw⟩

end Sys2Proof.Machine

namespace Sys2Proof.Machine

/-! ### What a signal changes (R139, R214, R221)

A signal wakes tasks and satisfies heads: it changes pools, task queues, semaphores and barriers, and of the rings whether their heads
wait or are to be skipped. -/

/-- Two states of the part of which the later comes from the earlier by signals that resolve no future. -/
structure Signalled (s t : State) : Prop where
  rest : { t with cores := s.cores, count := s.count, acted := s.acted } = s
  core : ∀ d, { t.core d with
    ap := (s.core d).ap, xp := (s.core d).xp, pool := (s.core d).pool, semas := (s.core d).semas, bars := (s.core d).bars
    rings := (s.core d).rings } = s.core d
  ring : ∀ d q, { (t.core d).ring q with st := ((s.core d).ring q).st, skip := ((s.core d).ring q).skip } = (s.core d).ring q

namespace Signalled

variable {s t u : State}

theorem refl (s : State) : Signalled s s := ⟨rfl, fun _ => rfl, fun _ _ => rfl⟩

theorem trans (h : Signalled s t) (h' : Signalled t u) : Signalled s u where
  rest := (congrArg (fun x : State => { x with cores := s.cores, count := s.count, acted := s.acted }) h'.rest).trans h.rest
  core d := (congrArg (fun x : Core => { x with
    ap := (s.core d).ap, xp := (s.core d).xp, pool := (s.core d).pool, semas := (s.core d).semas, bars := (s.core d).bars
    rings := (s.core d).rings }) (h'.core d)).trans (h.core d)
  ring d q := (congrArg (fun x : Ring => { x with st := ((s.core d).ring q).st, skip := ((s.core d).ring q).skip }) (h'.ring d q)).trans
    (h.ring d q)

theorem of_cores (h : { t with count := s.count, acted := s.acted } = s) : Signalled s t := by
  have hc : t.cores = s.cores := by rw [← h]
  have hcore : ∀ d, t.core d = s.core d := fun d => by rw [State.core, State.core, hc]
  exact ⟨by rw [← hc]; exact h, fun d => by rw [hcore], fun d q => by rw [hcore]⟩

theorem foldl {α : Type} {f : State → α → State} (hf : ∀ s x, Signalled s (f s x)) (l : List α) (s : State) :
    Signalled s (l.foldl f s) := by
  induction l generalizing s with
  | nil => exact refl s
  | cons x l ih => exact (hf s x).trans (ih _)

/-- A change of one core by signals. -/
theorem modCore (s : State) (d : Nat) {f : Core → Core}
    (hf : ∀ k : Core, { f k with ap := k.ap, xp := k.xp, pool := k.pool, semas := k.semas, bars := k.bars, rings := k.rings } = k)
    (hr : ∀ (k : Core) q, { (f k).ring q with st := (k.ring q).st, skip := (k.ring q).skip } = k.ring q) : Signalled s (s.modCore d f) := by
  refine ⟨rfl, fun e => ?_, fun e q => ?_⟩ <;> by_cases he : e = d
  · subst he; rw [State.core_modCore]; exact hf _
  · rw [State.core_modCore_ne _ _ _ _ he]
  · subst he; rw [State.core_modCore]; exact hr _ q
  · rw [State.core_modCore_ne _ _ _ _ he]

theorem modRing (s : State) (d q : Nat) {f : Ring → Ring} (hf : ∀ g : Ring, { f g with st := g.st, skip := g.skip } = g) :
    Signalled s (s.modRing d q f) := by
  refine modCore s d (f := fun k => { k with rings := tset k.rings q (f (k.ring q)) }) (fun _ => rfl) fun k j => ?_
  rw [Core.ring, tget_tset]
  split
  · next h => subst h; exact hf _
  · rfl

theorem ite {p : Prop} [Decidable p] (h : Signalled s t) (h' : Signalled s u) : Signalled s (if p then t else u) := by
  split
  exacts [h, h']

end Signalled

section

variable (s : State)

theorem act_signalled (d : Nat) : Signalled s (s.act d) := .of_cores rfl

theorem wake_signalled (d i : Nat) (v : Addr) : Signalled s (wake d i v s) := by
  unfold wake
  refine Signalled.trans (Signalled.modCore s d (fun k => ?_) fun k q => ?_) (act_signalled ..)
  · split
    · next r _ => cases r.side <;> rfl
    · rfl
  · split
    · rw [Core.ring, Core.modSide_rings]; rfl
    · rfl

theorem modSema_signalled (d n : Nat) (f : Sema → Sema) : Signalled s (s.modSema d n f) :=
  .modCore s d (fun _ => rfl) fun _ _ => rfl

theorem modBar_signalled (d n : Nat) (f : StageBar → StageBar) : Signalled s (s.modBar d n f) :=
  .modCore s d (fun _ => rfl) fun _ _ => rfl

theorem satisfyHead_signalled (d q : Nat) (fault : Option Nat) : Signalled s (satisfyHead d q fault s) :=
  .modRing s d q fun g => by split <;> rfl

theorem serveHead_signalled (d n q : Nat) : Signalled s (serveHead d n q s) := by
  unfold serveHead
  split
  · exact (modSema_signalled ..).trans (satisfyHead_signalled ..)
  · exact .refl s

theorem serveTask_signalled (d n i : Nat) : Signalled s (serveTask d n i s) := (modSema_signalled ..).trans (wake_signalled ..)

theorem serveSema_signalled (fuel d n : Nat) : Signalled s (serveSema fuel d n s) := by
  induction fuel generalizing s with
  | zero => exact .refl s
  | succ fuel ih =>
    unfold serveSema
    dsimp only
    split
    · exact .refl s
    · exact (serveTask_signalled ..).trans (ih _)
    · exact (serveHead_signalled ..).trans (ih _)
    · have hcount : Signalled s { s with count := s.count + 1 } := .of_cores rfl
      exact (hcount.trans (.ite (serveTask_signalled ..) (serveHead_signalled ..))).trans (ih _)

theorem raiseSema_signalled (d n cnt : Nat) (faulted : Bool) : Signalled s (raiseSema d n cnt faulted s) :=
  ((modSema_signalled ..).trans (serveSema_signalled ..)).trans (act_signalled ..)

theorem releasePhase_signalled (d b : Nat) (ph : Bool) : Signalled s (releasePhase d b ph s) := by
  unfold releasePhase
  dsimp only
  refine ((modBar_signalled ..).trans (.foldl (fun _ _ => wake_signalled ..) _ _)).trans (.foldl (fun t j => ?_) _ _)
  split
  · exact .ite (satisfyHead_signalled ..) (.refl t)
  · exact .refl t

theorem testBar_signalled (d b : Nat) : Signalled s (testBar d b s) := by
  have flip : ∀ (t : State) f ph, Signalled t (releasePhase d b ph (t.modBar d b f)) := fun t f ph =>
    (modBar_signalled ..).trans (releasePhase_signalled ..)
  unfold testBar
  extract_lets x n
  split
  · exact .refl s
  next s1 s2 s3 _ =>
    have h2 : Signalled s s2 := (modBar_signalled ..).trans (flip ..)
    have h3 : Signalled s s3 := .ite (h2.trans (flip ..)) h2
    exact .ite (h3.trans (modBar_signalled ..)) h3

theorem raiseBar_signalled (d b bytes : Nat) (faulted : Bool) : Signalled s (raiseBar d b bytes faulted s) := by
  unfold raiseBar
  exact .ite ((modBar_signalled ..).trans (releasePhase_signalled ..)) ((modBar_signalled ..).trans (testBar_signalled ..))

/-- A raise that resolves no future is a signal (R140). -/
theorem raiseRecord_signalled {b : BitVec 512} (h : rkRaiseKind b ≠ 2) (d value bytes : Nat) (fault : Option Nat) :
    Signalled s (raiseRecord d b value bytes fault s) := by
  unfold raiseRecord
  split
  · exact (raiseSema_signalled ..).trans (act_signalled ..)
  · next hb => exact absurd hb h
  · exact (raiseBar_signalled ..).trans (act_signalled ..)
  · exact .refl s

end

/-! ### What retirement leaves of the bytes that a die sees (R133, R140) -/

/-- States whose memory, poison, caches and maps agree read the same. -/
theorem sameReads_of_parts {s t : State} (hmem : t.mem = s.mem) (hbad : t.bad = s.bad) (hdies : t.dies = s.dies) (hcur : t.cur = s.cur)
    (hform : t.form = s.form) (hctxs : t.ctxs = s.ctxs) (hpages : t.pages = s.pages) (hturns : t.turns = s.turns) (hheats : t.heats = s.heats)
    (hc : ∀ c, (t.core c).heat = (s.core c).heat ∧ (t.core c).spad = (s.core c).spad ∧ (t.core c).padBase = (s.core c).padBase) :
    SameReads s t where
  maps := by
    have hheat : ∀ c, t.heatOf c = s.heatOf c := fun c => by rw [State.heatOf, State.heatOf, (hc c).1, hheats]
    exact ⟨hform, hctxs, hpages, hturns, fun d => by rw [State.die, State.die, hdies], fun c => (hc c).2,
      fun c => by rw [State.ctxOf, State.ctxOf, hheat], fun c => by rw [State.descsOf, State.descsOf, hheat]⟩
  mem := hmem
  bad := hbad
  dies := hdies
  cur := hcur

theorem SameReads.refl (s : State) : SameReads s s := sameReads_of_parts rfl rfl rfl rfl rfl rfl rfl rfl rfl fun _ => ⟨rfl, rfl, rfl⟩

/-- A change of a core outside its heat and the parts of its pool. -/
theorem modCore_sameReads (s : State) (d : Nat) {f : Core → Core}
    (hf : ∀ k, (f k).heat = k.heat ∧ (f k).spad = k.spad ∧ (f k).padBase = k.padBase) : SameReads s (s.modCore d f) :=
  sameReads_of_parts rfl rfl rfl rfl rfl rfl rfl rfl rfl fun c => by
    by_cases h : c = d
    · subst h; rw [State.core_modCore]; exact hf _
    · rw [State.core_modCore_ne _ _ _ _ h]; exact ⟨rfl, rfl, rfl⟩

theorem modRing_sameReads (s : State) (c r : Nat) (f : Ring → Ring) : SameReads s (s.modRing c r f) :=
  modCore_sameReads s c fun _ => ⟨rfl, rfl, rfl⟩

theorem Signalled.sameReads {s t : State} (h : Signalled s t) : SameReads s t := by
  refine sameReads_of_parts (by rw [← h.rest]) (by rw [← h.rest]) (by rw [← h.rest]) (by rw [← h.rest]) (by rw [← h.rest])
    (by rw [← h.rest]) (by rw [← h.rest]) (by rw [← h.rest]) (by rw [← h.rest]) fun c => ?_
  rw [← h.core c]; exact ⟨rfl, rfl, rfl⟩

theorem ringFault_sameReads (c r code cause : Nat) (deferred stopped : Bool) (index : Nat) (a : Addr) (k : Nat) (s : State) :
    SameReads s (ringFault c r code cause deferred stopped index a k s) := by
  unfold ringFault
  dsimp only
  split
  · exact modRing_sameReads ..
  · exact (modRing_sameReads ..).trans (modCore_sameReads _ _ fun k => by split <;> exact ⟨rfl, rfl, rfl⟩)

/-- What retires but a record of NET leaves what a read returns. -/
theorem endRetire_sameReads {b : BitVec 512} (h : rkKind b ≠ 9) (c r : Nat) (s : State) : SameReads s (endRetire c r b s) := by
  have hreq : SameReads s (endRequests c r b s) := by
    unfold endRequests
    extract_lets mine s1 s2
    have h2 : SameReads s s2 := by
      unfold s2 s1
      split <;> exact sameReads_of_parts rfl rfl rfl rfl rfl rfl rfl rfl rfl fun _ => ⟨rfl, rfl, rfl⟩
    split
    · exact h2.trans (modCore_sameReads _ _ fun _ => ⟨rfl, rfl, rfl⟩)
    · exact h2
  exact (hreq.trans (modCore_sameReads _ _ fun k => by split <;> exact ⟨rfl, rfl, rfl⟩)).trans (modRing_sameReads ..)

/-- States that read the same, or do after a release of the core's die when the record asks for one (R133). -/
def ReadsAfter (c : Nat) (b : BitVec 512) (s t : State) : Prop :=
  ∃ w, SameReads s w ∧ (SameReads w t ∨ (rkDevrel b = true ∧ SameReads (flushDie (dieOf c) w) t))

theorem ReadsAfter.of_same {c : Nat} {b : BitVec 512} {s t : State} (h : SameReads s t) : ReadsAfter c b s t := ⟨t, h, .inl (.refl t)⟩

theorem ReadsAfter.after {c : Nat} {b : BitVec 512} {s t u : State} (h : SameReads s t) (h' : ReadsAfter c b t u) : ReadsAfter c b s u := by
  obtain ⟨w, hw, ht⟩ := h'
  exact ⟨w, h.trans hw, ht⟩

section

variable {c r : Nat} {s : State} {e : RecEntry} (hh : ((s.core c).ring r).head = some e) (h9 : rkKind e.bytes ≠ 9)
  (h2 : rkRaiseKind e.bytes ≠ 2)
include hh h9 h2

theorem retire_readsAfter (fault : Option Nat) : ReadsAfter c e.bytes s (retire c r fault s) := by
  have key : ∀ t : State, SameReads t (if t.owes (dieOf c) then t.modRing c r (fun g => { g with due := some (fault.elim .done .fault) })
      else endRetire c r e.bytes (raiseRecord c e.bytes (headValue ((s.core c).ring r)) ((s.core c).ring r).bytes fault t)) := fun t => by
    split
    · exact modRing_sameReads ..
    · exact (raiseRecord_signalled t h2 ..).sameReads.trans (endRetire_sameReads h9 ..)
  have hnone : ∀ t, raiseDoubled t c e.bytes = none := fun t => if_pos h2
  rw [retire, hh]
  dsimp only
  rw [if_neg h9, hnone]
  cases hd : rkDevrel e.bytes with
  | false => exact ⟨s, .refl s, .inl (key s)⟩
  | true => exact ⟨s, .refl s, .inr ⟨hd, key _⟩⟩

theorem faultHead_readsAfter (k : Nat) (f : CFault) (rep : Bool) : ReadsAfter c e.bytes s (faultHead c r k f rep s) := by
  have hhead : ∀ stopped, (((ringFault c r f.code.num 0 f.deferred stopped f.index f.addr k s).core c).ring r).head = some e := fun stopped => by
    obtain ⟨x, d, hcore, -⟩ := ringFault_core f.code.num_lt c r f.deferred stopped f.index f.addr k s
    rw [hcore, faulted_ring]; exact hh
  unfold faultHead
  extract_lets full t
  have ht : SameReads s t := ringFault_sameReads ..
  split
  · exact .of_same (ht.trans (modRing_sameReads ..))
  · split
    · exact .of_same (ht.trans (modRing_sameReads ..))
    · exact .after ht (retire_readsAfter (hhead _) h9 h2 _)

theorem completeRecord_readsAfter : ReadsAfter c e.bytes s (completeRecord c r s) := by
  unfold completeRecord
  dsimp only
  split
  · exact retire_readsAfter hh h9 h2 _
  · split
    exacts [retire_readsAfter hh h9 h2 _, faultHead_readsAfter hh h9 h2 ..]

end

end Sys2Proof.Machine

namespace Sys2Proof.Machine

/-! ### What a release leaves of the bytes that its die sees (R133, R272, R275) -/

theorem Die.mem_putLine {d : Die} {l x : RlcLine} (h : x ∈ (d.putLine l).rlc) :
    x = l ∨ (x ∈ d.rlc ∧ ¬ (x.ctx = l.ctx ∧ x.line = l.line)) := by
  rw [Die.putLine] at h
  rcases List.mem_append.1 h with h | h
  · obtain ⟨hx, hne⟩ := List.mem_filter.1 h
    exact .inr ⟨hx, by simpa [imp_iff_not_or] using hne⟩
  · exact .inl (List.mem_singleton.1 h)

theorem Die.mem_of_line {d : Die} {ctx line : Nat} {l : RlcLine} (h : d.line ctx line = some l) : l ∈ d.rlc :=
  List.mem_of_find?_eq_some h

theorem dieOf_lt (c : Nat) : dieOf c < 2 := by unfold dieOf; split <;> decide

theorem homeDie_glob_lt (s : State) (ctx va : Nat) : s.homeDie (.glob ctx va) < 2 := by
  have h : ∀ f sp va, homeChannel f sp va < 128 := fun f sp va => by
    unfold homeChannel
    cases sp <;> dsimp only
    · split <;> omega
    · omega
    · omega
  have := h s.form (s.spreadOf ctx va) va
  change homeChannel _ _ _ / 64 < 2
  omega

theorem cacheable_bounds {s : State} {ctx va : Nat} (h : s.cacheable (.glob ctx va) = true) : ctx < 16 ∧ va < 2 ^ 48 := by
  unfold State.cacheable at h
  dsimp only at h
  split at h
  · simp only [Bool.and_eq_true, decide_eq_true_eq] at h
    exact h.1
  · cases h

/-- A line that a die may cache from afar keeps its cache to far lines. -/
theorem farLine_of_cacheable {s : State} {die ctx va : Nat} (hfar : s.homeDie (.glob ctx va) ≠ die) (hc : s.cacheable (.glob ctx va) = true) :
    s.homeDie (.glob ctx (va / 64 * 64)) ≠ die ∧ ctx < 16 ∧ va / 64 < 2 ^ 42 := by
  obtain ⟨h16, h48⟩ := cacheable_bounds hc
  exact ⟨by rwa [homeDie_in_line (vb := va) (by omega)], h16, by omega⟩

/-- A cache whose lines keep the home and key of far ones holds far lines. -/
theorem farLines_mono {die : Nat} {s t : State} (hm : SameMaps s t) (h : Safety.farLines die s)
    (hx : ∀ x ∈ (t.die die).rlc, (∃ y ∈ (s.die die).rlc, x.ctx = y.ctx ∧ x.line = y.line) ∨
      (s.homeDie (.glob x.ctx (x.line * 64)) ≠ die ∧ x.ctx < 16 ∧ x.line < 2 ^ 42)) : Safety.farLines die t := by
  intro x hxt
  rw [hm.homeDie]
  rcases hx x hxt with ⟨y, hy, hc, hl⟩ | hx
  · rw [hc, hl]; exact h y hy
  · exact hx

/-- Reads by a party of a die that keep its cache to far lines. -/
def FarRead (die : Nat) (s t : State) : Prop := ReadStep s t ∧ (Safety.farLines die s → Safety.farLines die t)

namespace FarRead

variable {die : Nat} {s t u : State}

theorem refl (s : State) : FarRead die s s := ⟨.refl s, id⟩

theorem trans (h : FarRead die s t) (h' : FarRead die t u) : FarRead die s u := ⟨h.1.trans h'.1, fun hs => h'.2 (h.2 hs)⟩

theorem of_pair {α : Type} {p : State × α} {x : α} (h : p = (t, x)) (hp : FarRead die s p.1) : FarRead die s t := by
  rw [h] at hp; exact hp

end FarRead

section

variable (s : State)

theorem readRelaxed_far (die ctx va n : Nat) : FarRead die s (readRelaxed s die ctx va n).1 := by
  refine ⟨readRelaxed_reads .., fun h => ?_⟩
  have hm := (readRelaxed_step s die ctx va n).sameMaps
  refine farLines_mono hm h fun x hx => ?_
  have same : x ∈ (s.die die).rlc → (∃ y ∈ (s.die die).rlc, x.ctx = y.ctx ∧ x.line = y.line) ∨
      (s.homeDie (.glob x.ctx (x.line * 64)) ≠ die ∧ x.ctx < 16 ∧ x.line < 2 ^ 42) := fun hx => .inl ⟨x, hx, rfl, rfl⟩
  unfold readRelaxed at hx
  dsimp only at hx
  split at hx
  next hc =>
    split at hx
    · exact same hx
    · split at hx
      · exact same hx
      · rw [State.die_modDie] at hx
        rcases Die.mem_putLine hx with rfl | ⟨hx, -⟩
        · exact .inr (farLine_of_cacheable hc.1 hc.2)
        · exact same hx
  next => split at hx <;> exact same hx

theorem readLines_far (fuel die ctx va n : Nat) : FarRead die s (readLines fuel s die ctx va n .relaxed).1 := by
  induction fuel generalizing s va n with
  | zero => exact .refl s
  | succ fuel ih =>
    rw [readLines]
    split
    · exact .refl s
    · exact (readRelaxed_far ..).trans (ih ..)

theorem readAt_far (c : Nat) (ea : Addr) (n : Nat) : FarRead (dieOf c) s (readAt s c ea n .relaxed).1 := by
  unfold readAt
  split
  next p _ =>
    cases p with
    | glob ctx va => exact readLines_far ..
    | sram => exact ⟨readPlace_reads .., by unfold readPlace; dsimp only; split <;> exact id⟩
    | pool => exact ⟨readPlace_reads .., by unfold readPlace; dsimp only; split <;> exact id⟩
  next => exact .refl s

theorem readPieces_far (fuel c : Nat) (ea : Addr) (n : Nat) : FarRead (dieOf c) s (readPieces fuel c ea n s).1 := by
  induction fuel generalizing s ea n with
  | zero => exact .refl s
  | succ fuel ih =>
    rw [readPieces]
    split
    · exact .refl s
    · exact (readAt_far ..).trans (ih ..)

theorem readIdx_far (c : Nat) (ea : Addr) : FarRead (dieOf c) s (readIdx c ea s).1 := by
  unfold readIdx
  split
  exacts [.refl s, readAt_far ..]

theorem raggedOfs_far (c : Nat) (b : BitVec 512) (k : Nat) : FarRead (dieOf c) s (raggedOfs c b k s).1 := by
  unfold raggedOfs
  dsimp only
  split
  next t f h => exact .of_pair h (readIdx_far ..)
  next t o0 p0 h =>
    have ht := FarRead.of_pair h (readIdx_far ..)
    split
    next u f h' => exact ht.trans (.of_pair h' (readIdx_far ..))
    next u o1 p1 h' =>
      have hu := ht.trans (.of_pair h' (readIdx_far ..))
      split
      · exact hu
      · split
        exacts [hu, hu]

theorem unitBytes_far (c : Nat) (src : Addr) : FarRead (dieOf c) s (unitBytes c src s).1 := by
  unfold unitBytes
  extract_lets m
  split
  · exact readPieces_far ..
  · split
    · exact .refl s
    · dsimp only
      split
      · exact readPieces_far ..
      · split <;> exact readPieces_far ..

end

/-- A head's descriptor is read by a party of its core's die. -/
theorem headDesc_far {s v : State} {c r : Nat} {b : BitVec 512} {x : Except CFault (List Byte)} (hc : s.cur.core = c)
    (h : headDesc c r b s = (v, x)) (hs : Safety.farLines (dieOf c) s) : Safety.farLines (dieOf c) v := by
  unfold headDesc at h
  split at h
  · cases h; exact hs
  · cases h; exact hs
  · split at h
    · cases h; exact hs
    next t l hr =>
      cases h
      have ht : FarRead (dieOf c) s t := by
        unfold readRecord at hr
        split at hr
        · cases hr
        · dsimp only at hr
          split at hr <;> cases hr
          rw [hc]; exact readAt_far ..
      have hmaps := (modRing_sameReads t c r (fun g => { g with desc := some l })).maps
      exact farLines_mono hmaps (ht.2 hs) fun x hx => .inl ⟨x, hx, rfl, rfl⟩

/-- The copies that a die's cache holds of the line of a place are none but the one that its parties read it from. -/
def Unburied (die : Nat) (q : Place) (t : State) : Prop :=
  ∀ x ∈ (t.die die).rlc, ∀ ctx va, q = .glob ctx va → x.ctx = ctx → x.line = va / 64 → cachedLine t die ctx va = some x

/-- What a party's write of bytes of a line does to its die's cache: copies of that line alone come and go, of far lines, and none is
left but the one that the die's parties read it from. -/
structure LineWritten (die ctx line : Nat) (s t : State) : Prop extends LineStep ctx line s t where
  others : ∀ x ∈ (t.die die).rlc, ¬ (x.ctx = ctx ∧ x.line = line) → x ∈ (s.die die).rlc
  far : Safety.farLines die s → Safety.farLines die t
  own : Safety.farLines die s → ∀ va, va / 64 = line → Unburied die (.glob ctx va) t

/-- A write of another line leaves the copies of a place's line. -/
theorem LineWritten.unburied {die ctx line va : Nat} {s t : State} (h : LineWritten die ctx line s t) (hv : va / 64 ≠ line)
    (hu : Unburied die (.glob ctx va) s) : Unburied die (.glob ctx va) t := by
  intro x hx ctx' va' hq hc hl
  cases hq
  have hs := hu x (h.others x hx fun hk => hv (hl.symm.trans hk.2)) ctx va rfl hc hl
  rw [← hs, cachedLine, cachedLine, h.sameMaps.homeDie, h.sameMaps.cacheable, h.copies die _ hv]

section

variable {die ctx va : Nat} {s t : State}

/-- A write that leaves no copy of its line in the writer's cache. -/
theorem LineWritten.of_none (h : LineStep ctx (va / 64) s t)
    (hx : ∀ x ∈ (t.die die).rlc, (∃ y ∈ (s.die die).rlc, x.ctx = y.ctx ∧ x.line = y.line) ∧
      (¬ (x.ctx = ctx ∧ x.line = va / 64) → x ∈ (s.die die).rlc))
    (hown : Safety.farLines die s → ∀ x ∈ (t.die die).rlc, ¬ (x.ctx = ctx ∧ x.line = va / 64)) :
    LineWritten die ctx (va / 64) s t where
  toLineStep := h
  others x hm := (hx x hm).2
  far hs := farLines_mono h.sameMaps hs fun x hm => .inl (hx x hm).1
  own hs vb hvb x hm ctx' va' hq hc hl := by
    cases hq
    exact absurd ⟨hc, hl.trans hvb⟩ (hown hs x hm)

theorem applyInv_rlc (d : Nat) {x : RlcLine} (h : x ∈ ((applyInv d ctx (va / 64) s).die d).rlc) : x ∈ (s.die d).rlc := by
  rw [applyInv, State.die_modDie] at h
  dsimp only at h
  split at h
  · split at h
    · exact h
    · exact List.mem_of_mem_filter h
  · exact h

theorem applyInv_die_ne {d e line : Nat} (h : d ≠ e) : (applyInv e ctx line s).die d = s.die d := State.die_modDie_ne _ _ _ _ h

theorem writeCached_written {l : List Byte} (b : Bool) (hfar : s.homeDie (.glob ctx va) ≠ die) (hcan : s.cacheable (.glob ctx va) = true) :
    LineWritten die ctx (va / 64) s (writeCached die ctx va l b s) := by
  have hstep := writeCached_lineStep (ctx := ctx) (va := va) (l := l) s die b
  obtain ⟨new, hc, hl, hdie⟩ : ∃ new : RlcLine, new.ctx = ctx ∧ new.line = va / 64 ∧
      (writeCached die ctx va l b s).die die = ((keepPast (((s.die die).line ctx (va / 64)).getD (homeLine s ctx (va / 64))) s).die die).putLine new := by
    refine ⟨_, ?_, ?_, State.die_modDie ..⟩
    · dsimp only
      cases hx : (s.die die).line ctx (va / 64) with
      | none => rfl
      | some x => exact (Die.line_key hx).1
    · dsimp only
      cases hx : (s.die die).line ctx (va / 64) with
      | none => rfl
      | some x => exact (Die.line_key hx).2
  have hkeep : ∀ y, ((keepPast y s).die die) = s.die die := fun y => by unfold keepPast; dsimp only; split <;> rfl
  rw [hkeep] at hdie
  refine ⟨hstep, fun x hx hne => ?_, fun hs => farLines_mono hstep.sameMaps hs fun x hx => ?_, fun _ vb hvb x hx ctx' va' hq hxc hxl => ?_⟩ <;>
    rw [hdie] at hx <;> rcases Die.mem_putLine hx with rfl | ⟨hx, hne'⟩
  · exact absurd ⟨hc, hl⟩ hne
  · exact hx
  · rw [hc, hl]; exact .inr (farLine_of_cacheable hfar hcan)
  · exact .inl ⟨x, hx, rfl, rfl⟩
  · cases hq
    rw [cachedLine_in_line hvb, cachedLine, hstep.sameMaps.homeDie, hstep.sameMaps.cacheable, if_pos ⟨hfar, hcan⟩, hdie, ← hc, ← hl]
    exact Die.line_putLine ..
  · cases hq
    exact absurd ⟨hxc.trans hc.symm, hxl.trans (hvb.trans hl.symm)⟩ hne'

/-- A recall of a line leaves its die no copy of it that is not clean. -/
theorem recallLine_rlc (hw : s.cur.link = none) (d line : Nat) :
    (∀ x ∈ ((recallLine d ctx line s).die d).rlc, (∃ y ∈ (s.die d).rlc, x.ctx = y.ctx ∧ x.line = y.line) ∧
      (¬ (x.ctx = ctx ∧ x.line = line) → x ∈ (s.die d).rlc)) ∧
      ∀ x, ((recallLine d ctx line s).die d).line ctx line = some x → x.dirty = false := by
  have same : ∀ x ∈ (s.die d).rlc, (∃ y ∈ (s.die d).rlc, x.ctx = y.ctx ∧ x.line = y.line) ∧
      (¬ (x.ctx = ctx ∧ x.line = line) → x ∈ (s.die d).rlc) := fun x hx => ⟨⟨x, hx, rfl, rfl⟩, fun _ => hx⟩
  unfold recallLine
  split
  next l hl =>
    obtain ⟨rfl, rfl⟩ := Die.line_key hl
    unfold writeBack
    split
    next hd =>
      rw [wlink_none s hw]
      dsimp only
      have hdie : (writeHome l s).die d = s.die d := by
        unfold writeHome poisonKey cleanKey keepPast
        dsimp only
        (repeat' split) <;> rfl
      rw [State.die_modDie, hdie]
      refine ⟨fun x hx => ?_, fun x hx => ?_⟩
      · rcases Die.mem_putLine hx with rfl | ⟨hx, -⟩
        · exact ⟨⟨l, Die.mem_of_line hl, rfl, rfl⟩, fun hne => absurd ⟨rfl, rfl⟩ hne⟩
        · exact same x hx
      · obtain rfl : ({ l with dirty := false } : RlcLine) = x := Option.some.inj ((Die.line_putLine (s.die d) { l with dirty := false }).symm.trans hx)
        rfl
    next hd => exact ⟨same, fun x hx => by rw [hl] at hx; cases hx; exact Bool.eq_false_iff.2 hd⟩
  next hl => exact ⟨same, fun x hx => by rw [hl] at hx; cases hx⟩

end

end Sys2Proof.Machine

namespace Sys2Proof.Machine

section

variable {die ctx va : Nat} {s : State}

theorem writeHome_dies (l : RlcLine) (s : State) : (writeHome l s).dies = s.dies := by
  unfold writeHome poisonKey cleanKey keepPast
  dsimp only
  (repeat' split) <;> rfl

theorem writeHome_mem (l : RlcLine) (s : State) :
    (writeHome l s).mem = memWrite s.mem (globKey l.ctx (l.line * 64)) (bvBytes 64 l.data) := by
  unfold writeHome poisonKey cleanKey keepPast
  dsimp only
  (repeat' split) <;> rfl

theorem keepPast_dies (l : RlcLine) (s : State) : (keepPast l s).dies = s.dies := by
  unfold keepPast
  dsimp only
  split <;> rfl

theorem writeKey_dies (key : Nat) (l : List Byte) (b : Bool) (s : State) : (writeKey key l b s).dies = s.dies := by
  have mark : ∀ (gs : List Nat) (t : State), (gs.foldl (fun u g => if b then poisonKey g u
      else if key ≤ g ∧ g + granuleSize key ≤ key + l.length then cleanKey g u else u) t).dies = t.dies := fun gs => by
    induction gs with
    | nil => exact fun _ => rfl
    | cons g r ih => intro t; rw [List.foldl_cons, ih]; unfold poisonKey; (repeat' split) <;> rfl
  exact mark ..

theorem recallLine_die_ne {d e line : Nat} (hw : s.cur.link = none) (h : d ≠ e) : (recallLine e ctx line s).die d = s.die d := by
  unfold recallLine writeBack
  split
  · split
    · rw [wlink_none s hw, State.die_modDie_ne _ _ _ _ h, State.die, writeHome_dies]; rfl
    · rfl
  · rfl

theorem sendInv_die_ne {d e line : Nat} (h : d ≠ e) : (sendInv e ctx line s).die d = s.die d := by
  unfold sendInv
  split
  · exact State.die_modDie_ne _ _ _ _ h
  · rfl

/-- A clean copy is gone once its invalidation has arrived. -/
theorem applyInv_drops {d : Nat} (h : ∀ x, (s.die d).line ctx (va / 64) = some x → x.dirty = false) :
    ∀ x ∈ ((applyInv d ctx (va / 64) s).die d).rlc, ¬ (x.ctx = ctx ∧ x.line = va / 64) := by
  intro x hx
  rw [applyInv, State.die_modDie] at hx
  dsimp only at hx
  split at hx
  next l hl =>
    rw [h l hl] at hx
    have := (List.mem_filter.1 hx).2
    simpa [imp_iff_not_or] using this
  next hl =>
    have := List.find?_eq_none.1 (show (s.die d).rlc.find? _ = none from hl) x hx
    simpa [imp_iff_not_or] using this

theorem writeAtHome_written {l : List Byte} (b : Bool) (hw : s.cur.link = none) (hd : die < 2) (hl : va % 64 + l.length ≤ 64) :
    LineWritten die ctx (va / 64) s (writeAtHome die ctx va l b s) := by
  have hstep := writeAtHome_lineStep (ctx := ctx) s hw hl die b
  have hh := homeDie_glob_lt s ctx va
  obtain ⟨w, hdies, hw'⟩ : ∃ w : State, w.dies = (recallLine (1 - s.homeDie (.glob ctx va)) ctx (va / 64) s).dies ∧
      writeAtHome die ctx va l b s = if s.homeDie (.glob ctx va) = die then sendInv (1 - s.homeDie (.glob ctx va)) ctx (va / 64) w
        else applyInv (1 - s.homeDie (.glob ctx va)) ctx (va / 64) w := by
    refine ⟨_, ?_, rfl⟩
    rw [writeKey_dies]
    split
    exacts [keepPast_dies .., rfl]
  have hdie : ∀ d, w.die d = (recallLine (1 - s.homeDie (.glob ctx va)) ctx (va / 64) s).die d := fun d => by rw [State.die, hdies]; rfl
  by_cases hhome : s.homeDie (.glob ctx va) = die
  · have hne : die ≠ 1 - s.homeDie (.glob ctx va) := by omega
    have hsame : (writeAtHome die ctx va l b s).die die = s.die die := by
      rw [hw', if_pos hhome, sendInv_die_ne hne, hdie, recallLine_die_ne hw hne]
    refine .of_none hstep (fun x hx => ?_) fun hs x hx hk => ?_ <;> rw [hsame] at hx
    · exact ⟨⟨x, hx, rfl, rfl⟩, fun _ => hx⟩
    · refine (hs x hx).1 ?_
      rw [hk.1, hk.2, homeDie_in_line (vb := va) (by omega), hhome]
  · have heq : 1 - s.homeDie (.glob ctx va) = die := by omega
    have hrec := recallLine_rlc (ctx := ctx) hw die (va / 64)
    rw [hw', if_neg hhome, heq] at hstep ⊢
    rw [heq] at hdie
    refine .of_none hstep (fun x hx => ?_) fun _ => applyInv_drops ?_
    · have := applyInv_rlc _ hx
      rw [hdie] at this
      exact hrec.1 x this
    · rw [hdie]; exact hrec.2

theorem writeLine_written {l : List Byte} (c : Nat) (b : Bool) (hw : s.cur.link = none) (hd : die < 2) (hl : va % 64 + l.length ≤ 64) :
    LineWritten die ctx (va / 64) s (writeLine c die ctx va l b .relaxed s) := by
  unfold writeLine
  dsimp only
  split
  next hc =>
    obtain ⟨hfar, hcan, -⟩ := hc
    obtain ⟨t, ht⟩ : ∃ t, t = if (s.die die).invs.contains (ctx, va / 64) then applyInv die ctx (va / 64) s else s := ⟨_, rfl⟩
    have hi : LineStep ctx (va / 64) s t ∧ ∀ x ∈ (t.die die).rlc, x ∈ (s.die die).rlc := by
      rw [ht]
      split
      exacts [⟨applyInv_lineStep .., fun x => applyInv_rlc die⟩, ⟨.refl s, fun _ => id⟩]
    rw [← ht, wlink_none t (hi.1.link.trans hw)]
    have hc := writeCached_written (s := t) (l := l) b (by rwa [hi.1.sameMaps.homeDie]) (by rwa [hi.1.sameMaps.cacheable])
    have hfars : Safety.farLines die s → Safety.farLines die t := fun hs =>
      farLines_mono hi.1.sameMaps hs fun x hx => .inl ⟨x, hi.2 x hx, rfl, rfl⟩
    exact ⟨hi.1.trans hc.toLineStep, fun x hx hne => hi.2 x (hc.others x hx hne), fun hs => hc.far (hfars hs), fun hs => hc.own (hfars hs)⟩
  next => rw [wlink_none s hw]; exact writeAtHome_written b hw hd hl

end

/-- A write of global memory by a party of a die, no link failing: its cache keeps to far lines, and no other copy of a written byte's
line is left in it. -/
theorem writeLines_written {fuel c die ctx va : Nat} {l : List Byte} {s : State} (b : Bool) (hw : s.cur.link = none) (hd : die < 2)
    (hf : l.length ≠ 0 → va % 64 + l.length ≤ 64 * fuel) (hs : Safety.farLines die s) :
    let t := writeLines fuel c die ctx va l b .relaxed s
    Safety.farLines die t ∧ (∀ v, v / 64 < va / 64 → Unburied die (.glob ctx v) s → Unburied die (.glob ctx v) t) ∧
      ∀ i < l.length, Unburied die (.glob ctx (va + i)) t := by
  induction fuel generalizing s va l with
  | zero => exact ⟨hs, fun _ _ => id, fun i hi => by omega⟩
  | succ fuel ih =>
    intro t
    simp only [t, writeLines]
    split
    next h0 =>
      rw [List.isEmpty_iff.1 h0]
      exact ⟨hs, fun _ _ => id, fun i hi => absurd hi (Nat.not_lt_zero i)⟩
    next h0 =>
      obtain ⟨hm, hline, hrest⟩ := inLine_spec va l.length
      have hdef : inLine va l.length = min l.length (64 - va % 64) := rfl
      generalize inLine va l.length = m at *
      have hstep := writeLine_written (ctx := ctx) (va := va) (l := l.take m) c b hw hd (by rw [List.length_take]; omega)
      have hdrop : (l.drop m).length = l.length - m := List.length_drop
      obtain ⟨hfar, hkeep, hown⟩ := ih (s := writeLine c die ctx va (l.take m) b .relaxed s) (va := va + m) (l := l.drop m)
        (hstep.link.trans hw) (by rw [hdrop]; exact hrest fuel hf) (hstep.far hs)
      refine ⟨hfar, fun v hv hu => hkeep v (by omega) (hstep.unburied (by omega) hu), fun i hi => ?_⟩
      by_cases him : m ≤ i
      · have := hown (i - m) (by omega)
        rwa [show va + m + (i - m) = va + i by omega] at this
      · have hfirst := hstep.own hs (va + i) (by omega)
        by_cases hlast : l.length = m
        · have hnil : l.drop m = [] := List.eq_nil_of_length_eq_zero (by omega)
          rw [hnil]
          cases fuel <;> simpa [writeLines] using hfirst
        · exact hkeep (va + i) (by omega) hfirst

/-- A write at a place by a party of a die, no link failing. -/
theorem writePlace_written {c die : Nat} {p : Place} {l : List Byte} {s : State} (b : Bool) (hw : s.cur.link = none) (hd : die < 2)
    (hs : Safety.farLines die s) : Safety.farLines die (writePlace c die p l b .relaxed s) ∧
      ∀ i < l.length, Unburied die (p.plus i) (writePlace c die p l b .relaxed s) := by
  have hk : ∀ q : Place, Safety.farLines die (match s.wlink with
      | some k => if s.homeDie q ≠ die then loseWrite k die q.key l.length q.addr [c] s else writeKey q.key l b s
      | none => writeKey q.key l b s) := fun q => by
    rw [wlink_none s hw]
    refine farLines_mono (writeKey_step ..).sameMaps hs fun x hx => .inl ⟨x, ?_, rfl, rfl⟩
    rwa [State.die, writeKey_dies] at hx
  cases p with
  | glob ctx va =>
    obtain ⟨hf, -, ho⟩ := writeLines_written (c := c) (ctx := ctx) (va := va) (l := l) (fuel := l.length / 64 + 2) b hw hd (by omega) hs
    exact ⟨hf, ho⟩
  | sram => exact ⟨hk _, fun i hi x hx ctx va hq => by cases hq⟩
  | pool => exact ⟨hk _, fun i hi x hx ctx va hq => by cases hq⟩

/-! ### A release leaves what its die sees -/

/-- What a die's parties read a place from, its copy's bytes or home, agrees. -/
structure SeesSame (die : Nat) (q : Place) (s t : State) : Prop extends MemStep s t where
  peek : Machine.peek t die q = Machine.peek s die q
  data : ∀ ctx va, q = .glob ctx va → (cachedLine t die ctx va).map (fun x => x.data) = (cachedLine s die ctx va).map (fun x => x.data)

theorem SeesSame.refl (die : Nat) (q : Place) (s : State) : SeesSame die q s s := ⟨.refl s, rfl, fun _ _ _ => rfl⟩

theorem SeesSame.trans {die : Nat} {q : Place} {s t u : State} (h : SeesSame die q s t) (h' : SeesSame die q t u) : SeesSame die q s u :=
  ⟨h.toMemStep.trans h'.toMemStep, h'.peek.trans h.peek, fun c v hq => (h'.data c v hq).trans (h.data c v hq)⟩

/-- A line that is written back leaves what its die sees at a place, when its bytes are those that the place is read from. -/
theorem writeBack_seesSame {die : Nat} {q : Place} {l : RlcLine} {s : State} (hw : s.cur.link = none) (hctx : l.ctx < 16)
    (hline : l.line < 2 ^ 42) (hq : ∀ ctx va, q = .glob ctx va → va < 2 ^ 48)
    (hu : ∀ ctx va, q = .glob ctx va → l.ctx = ctx → l.line = va / 64 → (cachedLine s die ctx va).map (fun x => x.data) = some l.data) :
    SeesSame die q s (writeBack die l s) := by
  have hstep := writeBack_step s die l
  have hmaps := hstep.sameMaps
  suffices h : peek (writeBack die l s) die q = peek s die q ∧ ∀ ctx va, q = .glob ctx va →
      (cachedLine (writeBack die l s) die ctx va).map (fun x => x.data) = (cachedLine s die ctx va).map (fun x => x.data) from
    ⟨hstep, h.1, h.2⟩
  by_cases hd : l.dirty = true
  case neg =>
    have : writeBack die l s = s := if_neg hd
    rw [this]; exact ⟨rfl, fun _ _ _ => rfl⟩
  have heq : writeBack die l s = (writeHome l s).modDie die (fun d => d.putLine { l with dirty := false }) := by
    rw [writeBack, if_pos hd, wlink_none s hw]
  have hlink : (writeBack die l s).cur.link = none := hstep.link.trans hw
  have hmem : (writeBack die l s).mem = memWrite s.mem (globKey l.ctx (l.line * 64)) (bvBytes 64 l.data) := by
    rw [heq]; exact writeHome_mem l s
  have hdie : (writeBack die l s).die die = (s.die die).putLine { l with dirty := false } := by
    rw [heq, State.die_modDie, State.die, writeHome_dies]; rfl
  have hget : ∀ key, ¬ (globKey l.ctx (l.line * 64) ≤ key ∧ key < globKey l.ctx (l.line * 64) + 64) →
      memGet (writeBack die l s).mem key = memGet s.mem key := fun key hk => by
    rw [hmem, memGet_memWrite, dif_neg (by rwa [length_bvBytes])]
  by_cases hglob : ∃ ctx va, q = .glob ctx va
  · obtain ⟨ctx, va, rfl⟩ := hglob
    have hva := hq ctx va rfl
    by_cases hk : l.ctx = ctx ∧ l.line = va / 64
    · obtain ⟨hc, hl⟩ := hk
      obtain ⟨x, hx, hdata⟩ := Option.map_eq_some_iff.1 (hu ctx va rfl hc hl)
      have hcond : s.homeDie (.glob ctx va) ≠ die ∧ s.cacheable (.glob ctx va) = true := by
        by_contra hn; rw [cachedLine, if_neg hn] at hx; cases hx
      have hnow : cachedLine (writeBack die l s) die ctx va = some { l with dirty := false } := by
        rw [cachedLine, hmaps.homeDie, hmaps.cacheable, if_pos hcond, hdie, ← hc, ← hl]
        exact Die.line_putLine ..
      refine ⟨?_, fun c v hcv => ?_⟩
      · rw [peek_cached hnow, peek_cached hx, RlcLine.byte, RlcLine.byte, hdata]
      · cases hcv; rw [hnow, hx]; exact congrArg some hdata.symm
    · have hsame : cachedLine (writeBack die l s) die ctx va = cachedLine s die ctx va := by
        rw [cachedLine, cachedLine, hmaps.homeDie, hmaps.cacheable, hdie, Die.line_putLine_ne (l := { l with dirty := false }) hk]
      refine ⟨?_, fun c v hcv => by cases hcv; rw [hsame]⟩
      rw [peek_glob hw, peek_glob hlink, hsame, hget _ (by unfold globKey; omega)]
  · have hloc : ∀ ctx va, q ≠ .glob ctx va := fun ctx va h => hglob ⟨ctx, va, h⟩
    refine ⟨?_, fun c v hcv => absurd hcv (hloc c v)⟩
    rw [peek_local hw hloc, peek_local hlink hloc, hget]
    cases q with
    | glob ctx va => exact absurd rfl (hloc ctx va)
    | sram => simp only [Place.key, sramKey, globKey]; omega
    | pool => simp only [Place.key, poolKey, globKey]; omega

theorem applyInv_seesSame {die e : Nat} (h : die ≠ e) (q : Place) (ctx line : Nat) (s : State) (hw : s.cur.link = none) :
    SeesSame die q s (applyInv e ctx line s) := by
  have hstep := applyInv_step s e ctx line
  have hdie : (applyInv e ctx line s).die die = s.die die := applyInv_die_ne h
  have hsame : ∀ c v, cachedLine (applyInv e ctx line s) die c v = cachedLine s die c v := fun c v => by
    rw [cachedLine, cachedLine, hstep.sameMaps.homeDie, hstep.sameMaps.cacheable, hdie]
  refine ⟨hstep, ?_, fun c v _ => by rw [hsame]⟩
  by_cases hglob : ∃ c v, q = .glob c v
  · obtain ⟨c, v, rfl⟩ := hglob
    rw [peek_glob hw, peek_glob (hstep.link.trans hw), hsame]; rfl
  · have hloc : ∀ c v, q ≠ .glob c v := fun c v h => hglob ⟨c, v, h⟩
    rw [peek_local hw hloc, peek_local (hstep.link.trans hw) hloc]; rfl

/-- A release of a die leaves what it sees at a place of which its cache holds no second copy (R275). -/
theorem flushDie_peek {die : Nat} {q : Place} {s : State} (hw : s.cur.link = none) (hd : die < 2) (hs : Safety.farLines die s)
    (hq : ∀ ctx va, q = .glob ctx va → va < 2 ^ 48) (hu : Unburied die q s) : peek (flushDie die s) die q = peek s die q := by
  have hback : ∀ (ls : List RlcLine), (∀ x ∈ ls, x ∈ (s.die die).rlc) → ∀ t, SeesSame die q s t →
      SeesSame die q s (ls.foldl (fun t l => writeBack die l t) t) := fun ls => by
    induction ls with
    | nil => exact fun _ _ h => h
    | cons l ls ih =>
      intro hls t ht
      obtain ⟨hl, hls⟩ := List.forall_mem_cons.1 hls
      obtain ⟨-, hctx, hline⟩ := hs l hl
      refine ih hls _ (ht.trans (writeBack_seesSame (ht.link.trans hw) hctx hline hq fun ctx va hqv hc hlv => ?_))
      rw [ht.data ctx va hqv, hu l hl ctx va hqv hc hlv]; rfl
  have hinv : ∀ (ps : List (Nat × Nat)) t, SeesSame die q s t →
      SeesSame die q s (ps.foldl (fun t p => applyInv (1 - die) p.1 p.2 t) t) := fun ps => by
    induction ps with
    | nil => exact fun _ h => h
    | cons p ps ih => exact fun t ht => ih _ (ht.trans (applyInv_seesSame (by omega) q p.1 p.2 t (ht.link.trans hw)))
  exact (hinv _ _ (hback _ (fun _ => id) s (.refl ..))).peek

end Sys2Proof.Machine

namespace Sys2Proof.Machine

/-! ### The bytes that a chunk reads (R142) -/

theorem granuleAt_cases (s : State) (c : Nat) (ea : Addr) : granuleAt s c ea = 16 ∨ granuleAt s c ea = 64 := by
  unfold granuleAt
  split
  exacts [.inr rfl, .inl rfl]

/-- A piece of a run of n bytes from a number on, and what is left of the run. -/
theorem inGranule_spec {g : Nat} (hg : g = 16 ∨ g = 64) (x n : Nat) :
    Nat.min n (g - x % g) ≤ n ∧ ∀ fuel, (n ≠ 0 → x % 16 + n ≤ 16 * (fuel + 1)) → n - Nat.min n (g - x % g) ≠ 0 →
      (x + Nat.min n (g - x % g)) % 16 + (n - Nat.min n (g - x % g)) ≤ 16 * fuel := by
  have h : Nat.min n (g - x % g) = min n (g - x % g) := rfl
  rw [h]
  refine ⟨by omega, fun fuel hf h0 => ?_⟩
  have := hf (by omega)
  rcases hg with rfl | rfl <;> omega

theorem toNat_add_mod16 (ea : Addr) (m : Nat) : (ea + BitVec.ofNat 64 m).toNat % 16 = (ea.toNat + m) % 16 := by
  rw [BitVec.toNat_add, BitVec.toNat_ofNat]; omega

theorem readPieces_length {fuel c n : Nat} {ea : Addr} {s : State} (hf : n ≠ 0 → ea.toNat % 16 + n ≤ 16 * fuel) :
    ((readPieces fuel c ea n s).2.flatMap (fun p => p.1)).length = n := by
  induction fuel generalizing s ea n with
  | zero => change 0 = n; omega
  | succ fuel ih =>
    rw [readPieces]
    split
    next h0 => exact h0.symm
    next h0 =>
      obtain ⟨hle, hrest⟩ := inGranule_spec (granuleAt_cases s c ea) ea.toNat n
      dsimp only
      rw [List.flatMap_cons, List.length_append, readAt_length, ih (by rw [toNat_add_mod16]; exact hrest fuel hf)]
      omega

/-- With no link failing, the pieces of a run that passes its checks are the bytes that its die sees. -/
theorem readPieces_seen {fuel c n : Nat} {ea : Addr} {s : State} (hf : n ≠ 0 → ea.toNat % 16 + n ≤ 16 * fuel)
    (hl : s.cur.link = none) (hc : Contiguous s c ea n) : Safety.readsAs s c ea n ((readPieces fuel c ea n s).2.flatMap (fun p => p.1)) := by
  refine ⟨readPieces_length hf, ?_⟩
  induction fuel generalizing s ea n with
  | zero => intro i p hi; omega
  | succ fuel ih =>
    intro i p hi hp
    rw [readPieces, if_neg (by omega)]
    obtain ⟨hle, hrest⟩ := inGranule_spec (granuleAt_cases s c ea) ea.toNat n
    dsimp only
    generalize Nat.min n (granuleAt s c ea - ea.toNat % granuleAt s c ea) = m at hle hrest
    obtain ⟨hbytes, hkept, hpeek⟩ := readAt_seen (s := s) (c := c) (n := m) (ea := ea) hl
    have hlen := readAt_length s c ea m .relaxed
    have hplace := hkept.sameMaps.place c
    rw [List.flatMap_cons]
    dsimp only
    by_cases him : i < m
    · obtain ⟨q, hq, hall⟩ := hc i p hi hp
      rw [hall i (Nat.le_refl i), Option.some.injEq] at hp
      rw [List.getElem?_append_left (by omega), hbytes q hq, seenFrom, List.getElem?_map, List.getElem?_range him, ← hp]
      rfl
    · have hadd : ea + BitVec.ofNat 64 m + BitVec.ofNat 64 (i - m) = ea + BitVec.ofNat 64 i := by
        rw [BitVec.add_assoc, ← BitVec.ofNat_add, Nat.add_sub_cancel' (by omega)]
      rw [List.getElem?_append_right (by omega), hlen, ← hpeek]
      exact ih (by rw [toNat_add_mod16]; exact hrest fuel hf) (hkept.link.trans hl) ((hc.tail hle).congr hplace) (i - m) p (by omega)
        (by rw [hadd, hplace, hp])

theorem spanFault_none {s : State} {c n : Nat} {ea : Addr} {acc : Acc} : spanFault s c ea n acc = none ↔ checkRange s c ea n acc = none :=
  Option.map_eq_none_iff

/-- What a chunk reads of a span that passes its checks is what its die sees there. -/
theorem chunkRead_readsAs {s : State} {c n : Nat} {ea : Addr} (hl : s.cur.link = none) (h : spanFault s c ea n .load = none) :
    Safety.readsAs s c ea n (Safety.chunkRead s c ea n) :=
  readPieces_seen (by omega) hl (contiguous_of_checkRange (spanFault_none.1 h))

theorem clean_of_firstPoison {ea : Addr} {l : List (List Byte × Bool)} (h : firstPoison ea l = none) : ∀ x ∈ l, x.2 = false := by
  induction l generalizing ea with
  | nil => exact List.forall_mem_nil _
  | cons x l ih =>
    obtain ⟨y, bad⟩ := x
    cases bad with
    | true => cases h
    | false => exact List.forall_mem_cons.2 ⟨rfl, ih h⟩

/-- A move whose spans pass and whose source is not poisoned. -/
theorem moveBytes_clean {s : State} {c n : Nat} {src dst : Addr} {pad : List Byte} (hd : spanFault s c dst (n + pad.length) .store = none)
    (hs : spanFault s c src n .load = none) (hp : firstPoison src (readPieces (n / 16 + 2) c src n s).2 = none) :
    moveBytes c src dst n pad false s =
      (writeAt c dst (Safety.chunkRead s c src n ++ pad) false .relaxed (readPieces (n / 16 + 2) c src n s).1, .ok none) := by
  rw [moveBytes, hd, hs]
  dsimp only
  rw [hp, markPieces_clean (clean_of_firstPoison hp)]; rfl

/-! ### A chunk lands (R132, R140, R142) -/

/-- Every byte of a span that passes its checks is below 2^48 when it is global (R90). -/
theorem checkRange_glob_lt {s : State} {c n : Nat} {ea : Addr} {acc : Acc} (h : checkRange s c ea n acc = none) {p : Place}
    (hp : s.place c ea = some p) {i : Nat} (hi : i < n) : ∀ ctx va, p.plus i = .glob ctx va → va < 2 ^ 48 := by
  intro ctx va hq
  cases p with
  | sram => cases hq
  | pool => cases hq
  | glob c0 v0 =>
    cases hq
    rw [place_eq] at hp
    obtain ⟨hlt, heq⟩ | ⟨_, _, _, _, _, _, _, heq⟩ | ⟨_, _, _, _, _, _, heq⟩ | ⟨_, _, _, _, heq⟩ := (placeNo_eq_some ea.isLt).1 hp <;> cases heq
    by_contra hge
    -- the run would meet the page at 2^48, where nothing is placed
    obtain ⟨q, hq⟩ := placed_of_firstBad h _ (pageStart_mem (x := ea.toNat) (n := n) (k := 2 ^ 36 - ea.toNat / 4096) (by omega) (by omega))
    rw [show pageStart ea.toNat (2 ^ 36 - ea.toNat / 4096) = 2 ^ 48 by unfold pageStart; split <;> omega] at hq
    rcases (placeNo_eq_some (by decide)).1 hq with ⟨hx, -⟩ | ⟨die, o, hx, -⟩ | ⟨j, o, hx, -⟩ | ⟨o, hx, -⟩ <;> omega

/-- A step that ends with the n bytes of a list written at a span that passes its checks, its die's cache still holding far lines, and the
record's chunk finished: the die sees the list there. -/
theorem finishChunk_seen {c r k total n : Nat} {dst : Addr} {l : List Byte} {v x : State} {e : RecEntry} (hl : v.cur.link = none)
    (hck : spanFault v c dst l.length .store = none) (hfar : rkDevrel e.bytes = true → Safety.farLines (dieOf c) v)
    (hx : SameReads (writeAt c dst l false .relaxed v) x) (hh : ((x.core c).ring r).head = some e) (h9 : rkKind e.bytes ≠ 9)
    (h2 : rkRaiseKind e.bytes ≠ 2) : Safety.seen (finishChunk c r k total n x) c dst l.length = l := by
  have hw := writeAt_memStep v c dst l false .relaxed
  generalize hwd : writeAt c dst l false .relaxed v = w at hx hw
  have hmark : SameReads x (chunkMarked c r k n x) := (modRing_sameReads ..).trans (act_signalled ..).sameReads
  have hhead : (((chunkMarked c r k n x).core c).ring r).head = some e := by rw [chunkMarked_ring]; exact hh
  have hafter : ReadsAfter c e.bytes w (finishChunk c r k total n x) := by
    rw [finishChunk_eq]
    split
    exacts [.after (hx.trans hmark) (completeRecord_readsAfter hhead h9 h2), .of_same (hx.trans hmark)]
  cases hp : v.place c dst with
  | none =>
    obtain rfl : l = [] := by
      by_contra hne
      obtain ⟨q, hq⟩ := placed_of_firstBad (spanFault_none.1 hck) _ (pageStart_mem (mt List.eq_nil_of_length_eq_zero hne) (Nat.zero_le _))
      rw [pageStart, if_pos rfl, ← place_eq, hp] at hq
      cases hq
    unfold Safety.seen
    split <;> rfl
  | some p =>
    have hseen : Safety.seen w c dst l.length = l := by rw [← hwd]; exact seen_writeAt false hl (by rw [hp]; rfl)
    obtain ⟨z, hz, hzt | ⟨hrel, hzt⟩⟩ := hafter
    · rw [hzt.seen, hz.seen, hseen]
    · obtain ⟨hwfar, hwun⟩ := writePlace_written (c := c) (p := p) (l := l) false hl (dieOf_lt c) (hfar hrel)
      have hwp : w = writePlace c (dieOf c) p l false .relaxed v := by rw [← hwd, writeAt, hp]
      rw [← hwp] at hwfar hwun
      have hzl : z.cur.link = none := by rw [hz.cur]; exact hw.link.trans hl
      have hzfar : Safety.farLines (dieOf c) z := farLines_mono hz.maps hwfar fun y hy => .inl ⟨y, by rwa [hz.die] at hy, rfl, rfl⟩
      have hplace : ∀ u, SameMaps z u → u.place c dst = some p := fun u hu => by
        rw [hu.place, hz.maps.place, hw.sameMaps.place, hp]
      refine Eq.trans ?_ hseen
      rw [hzt.seen, Safety.seen, Safety.seen, hplace _ (flushDie_step ..).sameMaps, hw.sameMaps.place, hp]
      refine List.map_congr_left fun i hi => ?_
      have hi := List.mem_range.1 hi
      rw [flushDie_peek hzl (dieOf_lt c) hzfar (checkRange_glob_lt (spanFault_none.1 hck) hp hi), hz.peek]
      intro y hy ctx va hq hc hy'
      rw [hz.die] at hy
      rw [← hwun i hi y hy ctx va hq hc hy', cachedLine, cachedLine, hz.maps.homeDie, hz.maps.cacheable, hz.die]

end Sys2Proof.Machine

namespace Sys2Proof.Machine

/-! ### Chunks that move bytes (R142, R146-R149) -/

section

variable {s v : State} {c r kind k : Nat} {b : BitVec 512}

/-- What `chunkHead` asks of a head beside what its other lemma says. -/
theorem chunkHead_open {x : Ring × BitVec 512} (h : chunkHead s c r kind k = some x) :
    rkKind x.2 = kind ∧ x.1.skip = none ∧ k < x.1.chunk + 64 := by
  unfold chunkHead at h
  dsimp only at h
  split at h
  next e he =>
    split at h
    next hc =>
      obtain ⟨-, -, hskip, -, -, hkind, -, hk, -⟩ := hc
      cases h
      exact ⟨hkind, hskip, hk⟩
    next => cases h
  next => cases h

theorem chunkDue_kind (h : Safety.chunkDue c r kind k b s) : rkKind b = kind := (chunkHead_open (chunkDue_head h)).1

theorem chunkDue_open (h : Safety.chunkDue c r kind k b s) : k < ((s.core c).ring r).chunk + 64 := (chunkHead_open (chunkDue_head h)).2.2

theorem asSide_progress (c r : Nat) (sd : Side) (s : State) : ProgressKept c r s (asSide c sd s) := ⟨rfl, rfl, rfl, rfl⟩

/-- Reads from where a core's units move keep the progress of its rings. -/
theorem reads_progress (hl : s.cur.link = none) (h : ReadStep (asSide c .ap s) v) (r : Nat) : ProgressKept c r s v :=
  (asSide_progress c r .ap s).trans (.of_mem h.toMemStep hl c r)

theorem headDesc_progress {x : Except CFault (List Byte)} (hl : s.cur.link = none) (h : headDesc c r b (asSide c .ap s) = (v, x)) :
    ProgressKept c r s v := by
  unfold headDesc at h
  split at h
  · cases h; exact asSide_progress ..
  · cases h; exact asSide_progress ..
  · split at h
    · cases h; exact asSide_progress ..
    next t l hr =>
      cases h
      exact (reads_progress hl (readRecord_reads hr) r).trans (.modRing fun _ => rfl)

variable (h : Safety.chunkDue c r kind k b s) (h9 : kind ≠ 9) (hv : ProgressKept c r s v)
include h h9 hv

/-- A chunk that writes a list where its checks pass, and ends without poison, is done, and its die sees the list. -/
theorem writes_land {total q : Nat} {dst : Addr} {l : List Byte} (hd : spanFault v c dst l.length .store = none)
    (hfar : Safety.devrelOk c b s → rkDevrel b = true → Safety.farLines (dieOf c) v) :
    let t := finishChunk c r k total l.length ((writeAt c dst l false .relaxed v).modRing c r (fun g =>
      { g with value := g.value + BitVec.ofNat 32 q }))
    Safety.chunkDone t s c r k total l.length ∧
      (rkRaiseKind b ≠ 2 → Safety.devrelOk c b s → Safety.seen t c dst l.length = l) := by
  obtain ⟨e, he, hb⟩ := chunkDue_record h
  have hkind := chunkDue_kind h
  have hl : v.cur.link = none := hv.link.trans h.2.1
  have hw := writeAt_memStep v c dst l false .relaxed
  have hp : ProgressKept c r s ((writeAt c dst l false .relaxed v).modRing c r (fun g => { g with value := g.value + BitVec.ofNat 32 q })) :=
    (hv.trans (.of_mem hw hl c r)).trans (.modRing fun _ => rfl)
  refine ⟨finishChunk_done hp he h.2.1 (chunkDue_window h) (chunkDue_open h), fun h2 hrel => ?_⟩
  have hhead : ((((writeAt c dst l false .relaxed v).modRing c r (fun g =>
      { g with value := g.value + BitVec.ofNat 32 q })).core c).ring r).head = some e := by
    have := congrArg Ring.head hp.ring
    exact (show _ from this).trans he
  subst hb
  exact finishChunk_seen hl hd (hfar hrel) (modRing_sameReads ..) hhead (by rw [hkind]; exact h9) h2

/-- A chunk that is one move of bytes whose spans pass and whose source is clean. -/
theorem moves_land {i : Instr} {total q n : Nat} {src dst : Addr} {pad : List Byte} {bads : Option Addr → List (Option Addr)}
    (hi : exec i s = .next (endChunk c r k total q (n + pad.length)
      ((moveBytes c src dst n pad false v).1, (moveBytes c src dst n pad false v).2.map bads)))
    (hbads : ∀ g, noteAll k (bads none) g = g) (hfar : Safety.devrelOk c b s → rkDevrel b = true → Safety.farLines (dieOf c) v)
    (hd : spanFault v c dst (n + pad.length) .store = none) (hs : spanFault v c src n .load = none)
    (hp : firstPoison src (readPieces (n / 16 + 2) c src n v).2 = none) :
    let l := Safety.chunkRead v c src n
    Safety.readsAs v c src n l ∧ ∃ t, exec i s = .next t ∧ Safety.chunkDone t s c r k total (n + pad.length) ∧
      (rkRaiseKind b ≠ 2 → Safety.devrelOk c b s → Safety.seen t c dst (n + pad.length) = l ++ pad) := by
  intro l
  have hl : v.cur.link = none := hv.link.trans h.2.1
  have hread := chunkRead_readsAs hl hs
  have hlen : (l ++ pad).length = n + pad.length := by rw [List.length_append, hread.1]
  have hrd := readPieces_reads v (n / 16 + 2) c src n
  have hland := writes_land (v := (readPieces (n / 16 + 2) c src n v).1) (total := total) (q := q) (dst := dst) (l := l ++ pad) h h9
    (hv.trans (.of_mem hrd.toMemStep hl c r)) (by rw [hlen, hrd.sameMaps.spanFault, hd])
    (fun h1 h2 => (readPieces_far v (n / 16 + 2) c src n).2 (hfar h1 h2))
  rw [hlen] at hland
  refine ⟨hread, _, hi.trans ?_, hland⟩
  rw [moveBytes_clean hd hs hp]
  exact congrArg (fun f => Host.Outcome.next (finishChunk c r k total (n + pad.length) (State.modRing _ c r f))) (funext fun g => hbads _)

end

/-- A chunk of a nest whose descriptor is at hand makes its run. -/
theorem nestChunk_ends {c r k len : Nat} {b : BitVec 512} {s v : State} {l : List Byte}
    {run : Nest → State → State × Except CFault (Option Addr)} (h : headDesc c r b s = (v, .ok l)) (hk : k < (nestIn l).runs)
    (hw : ((v.core c).ring r).chunk ≤ k) :
    nestChunk c r k b s run len = endChunk c r k (nestIn l).runs len len (oneBad (run (nestIn l) v)) := by
  rw [nestChunk, h]
  exact (if_neg (not_le.2 (hw.trans_lt hk))).trans (if_neg (not_le.2 hk))

theorem ProgressKept.chunk {c r : Nat} {s t : State} (h : ProgressKept c r s t) : ((t.core c).ring r).chunk = ((s.core c).ring r).chunk := by
  have := congrArg Ring.chunk h.ring
  exact this

theorem patBytes_eq (v n : Nat) : patBytes v n = (List.range n).map (fun j => BitVec.ofNat 8 (v / 2 ^ (8 * (j % 8)))) := by
  simp only [patBytes, show (256 : Nat) = 2 ^ 8 from rfl, ← Nat.pow_mul]

theorem rowChunk_due {gather : Bool} {s v : State} {c r k o : Nat} {b : BitVec 512} {bad : Option Addr}
    (h : Safety.chunkDue c r (if gather = true then 3 else 4) k b s) (hk : k < recFld b 0x28 4)
    (hlow : lowerRowsOk (asSide c .ap s) c b ((s.core c).ring r) k = true)
    (hx : readIdx c (BitVec.ofNat 64 (recFld b 0x20 8 + 4 * k)) (asSide c .ap s) = (v, .ok (o, bad))) (ho : o % rkEs b = 0) :
    let x := moveBytes c (BitVec.ofNat 64 (recFld b 0x10 8 + (if gather = true then o else k * rowPitch b)))
      (BitVec.ofNat 64 (recFld b 0x18 8 + (if gather = true then k * rowPitch b else o))) (recFld b 0x2C 4) [] bad.isSome v
    chunkStep (rowChunk gather c r k) c r k s =
      endChunk c r k (recFld b 0x28 4) (recFld b 0x2C 4) (recFld b 0x2C 4) (x.1, x.2.map (fun p => [bad, p])) := by
  rw [chunkStep_due h, rowChunk, chunkDue_head h]
  refine (if_neg (not_le.2 ((chunkDue_window h).trans_lt hk))).trans ((if_neg ?_).trans ?_)
  · rw [hlow]; simpa using hk
  · rw [hx]
    exact if_neg (not_not.2 ho)

theorem raggedChunk_due {s v : State} {c r k o0 o1 : Nat} {b : BitVec 512} {bad : List (Option Addr)} (h : Safety.chunkDue c r 2 k b s)
    (hk : k < recFld b 0x28 4) (hx : raggedOfs c b k (asSide c .ap s) = (v, .ok (o0, o1, bad))) :
    let m := Nat.min (o1 - o0) (recFld b 0x2C 4)
    let x := moveBytes c (BitVec.ofNat 64 (recFld b 0x10 8 + o0)) (BitVec.ofNat 64 (recFld b 0x18 8 + k * recFld b 0x38 4)) m
      ((patBytes (recFld b 0x30 8) (recFld b 0x2C 4)).drop m) (bad.any (fun o => o.isSome)) v
    chunkStep (raggedChunk c r k) c r k s = endChunk c r k (recFld b 0x28 4) (if o1 < o0 ∨ o1 - o0 > recFld b 0x2C 4 then 1 else 0)
      (recFld b 0x2C 4) (x.1, x.2.map (fun o => bad ++ [o])) := by
  rw [chunkStep_due h, raggedChunk, chunkDue_head h]
  refine (if_neg (not_le.2 ((chunkDue_window h).trans_lt hk))).trans ((if_neg (not_le.2 hk)).trans ?_)
  rw [hx]

end Sys2Proof.Machine

namespace Sys2Proof

open Sys2Proof.Machine

/-- Settles O42: every chunk is one move of bytes, which lands whole once its spans pass and its source is clean; a release at its
record's end leaves what its die sees. -/
theorem recordsMoveBytes : Obligations.RecordsMoveBytes := by
  unfold Obligations.RecordsMoveBytes
  intro s c r k b u moves src dst pat
  refine ⟨?_, ?_, ?_, ?_⟩
  · intro h hd v l hv n hk h1 h2 h3
    have hp := headDesc_progress h.2.1 hv
    exact moves_land (bads := fun o => [o]) h (by decide) hp
      ((copy_due h hd).trans (congrArg _ (nestChunk_ends hv hk (by rw [hp.chunk]; exact chunkDue_window h)))) (fun _ => rfl)
      (fun h1 h2 => headDesc_far rfl hv (h1 h2)) h1 h2 h3
  · intro h v l hv n hk a hck
    have hp := headDesc_progress h.2.1 hv
    have hlen : (patBytes (recFld b 0x28 8) (recFld b 0x20 4)).length = recFld b 0x20 4 := patBytes_length ..
    have hi := (fill_due h).trans (congrArg _ (nestChunk_ends hv hk (by rw [hp.chunk]; exact chunkDue_window h)))
    obtain ⟨-, t, ht, hdone, hseen⟩ := moves_land (bads := fun o => [o]) (total := (nestIn l).runs) (q := recFld b 0x20 4) (n := 0) (src := 0)
      (dst := a) (pad := patBytes (recFld b 0x28 8) (recFld b 0x20 4)) h (by decide) hp (by rw [hlen, Nat.zero_add]; exact hi) (fun _ => rfl)
      (fun h1 h2 => headDesc_far rfl hv (h1 h2)) (by rw [hlen, Nat.zero_add]; exact hck) rfl rfl
    rw [hlen, Nat.zero_add] at hdone hseen
    exact ⟨t, ht, hdone, fun h1 h2 => (hseen h1 h2).trans (patBytes_eq ..)⟩
  · intro h hk v o0 o1 hx width n h1 h2 h3
    have hw : n + ((pat (recFld b 0x30 8) width).drop n).length = width := by
      have : n ≤ width := Nat.min_le_right ..
      simp only [pat, List.length_drop, List.length_map, List.length_range]; omega
    have hpat : pat (recFld b 0x30 8) width = patBytes (recFld b 0x30 8) width := (patBytes_eq ..).symm
    refine moves_land (bads := fun o => [none, none] ++ [o]) (q := if o1 < o0 ∨ o1 - o0 > recFld b 0x2C 4 then 1 else 0) h (by decide)
      (reads_progress h.2.1 (.of_pair hx (raggedOfs_reads ..)) r) ?_ (fun _ => rfl)
      (fun h1 h2 => (FarRead.of_pair hx (raggedOfs_far ..)).2 (h1 h2)) h1 h2 h3
    rw [hw, hpat]
    exact congrArg _ (raggedChunk_due h hk hx)
  · intro gather h hk hlow v o hx ho row pitch h1 h2 h3
    have hi : exec (if gather = true then Instr.gather c r k else .scatter c r k) s = .next (chunkStep (rowChunk gather c r k) c r k s) := by
      cases gather <;> rfl
    have hes : rkEs b = 2 ^ rkElem b := rfl
    have hpitch : pitch = rowPitch b := rfl
    have hstep := rowChunk_due h hk hlow hx (hes ▸ ho)
    rw [hpitch] at h1 h2 h3 ⊢
    exact moves_land (bads := fun p => [none, p]) (q := row) (pad := []) h (by cases gather <;> decide)
      (reads_progress h.2.1 (.of_pair hx (readIdx_reads ..)) r) (hi.trans (congrArg _ hstep)) (fun _ => rfl)
      (fun h1 h2 => (FarRead.of_pair hx (readIdx_far ..)).2 (h1 h2)) h1 h2 h3

end Sys2Proof

namespace Sys2Proof.Machine

/-- A signal keeps the progress of every ring. -/
theorem Signalled.progress {s t : State} (h : Signalled s t) (c r : Nat) : ProgressKept c r s t where
  bridge := by rw [← h.rest]
  link := by rw [← h.rest]
  pending := by rw [← h.core c]
  ring := by
    have e := h.ring c r
    exact congrArg (fun x : Ring => { x with
      desc := ((s.core c).ring r).desc, value := ((s.core c).ring r).value, exc := ((s.core c).ring r).exc }) e

/-! ### What holds of every part of a completion (R140, R143, R317) -/

/-- A relation that the parts of a record's completion keep: its release, its raise, its fault record, changes of its ring, and its
leaving the ring. -/
structure CompletionKeeps (c r : Nat) (b : BitVec 512) (R : State → State → Prop) : Prop where
  refl : ∀ s, R s s
  trans : ∀ {s t u}, R s t → R t u → R s u
  flush : ∀ s, R s (flushDie (dieOf c) s)
  net : ∀ s, R s (dropNet c r s)
  raise : ∀ value bytes fault s, R s (raiseRecord c b value bytes fault s)
  fault : ∀ code cause deferred stopped index a k s, R s (ringFault c r code cause deferred stopped index a k s)
  ring : ∀ f s, R s (s.modRing c r f)
  leave : ∀ s, R s (endRetire c r b s)

section

variable {c r : Nat} {R : State → State → Prop} {s : State} {e : RecEntry}

theorem CompletionKeeps.retire (h : CompletionKeeps c r e.bytes R) (hh : ((s.core c).ring r).head = some e) (fault : Option Nat) :
    R s (retire c r fault s) := by
  unfold Machine.retire
  extract_lets g
  split
  next hn => exact absurd (hn.symm.trans hh) (by simp)
  next e' he =>
  obtain rfl : e' = e := Option.some.inj (he.symm.trans hh)
  extract_lets t1 t2
  have h1 : R s t1 := by
    unfold t1
    split
    exacts [h.flush s, h.refl s]
  have h2 : R s t2 := by
    unfold t2
    split
    exacts [h.trans h1 (h.net _), h1]
  split
  · exact h.trans h2 (h.ring ..)
  · split
    · exact h.trans h2 (h.trans (h.raise ..) (h.leave _))
    · extract_lets t3
      have h3 : R s t3 := h.trans h2 (h.fault ..)
      split
      exacts [h.trans h3 (h.ring ..), h.trans h3 (h.leave _)]

theorem ringFault_head {code : Code} (hh : ((s.core c).ring r).head = some e) (deferred stopped : Bool) (index : Nat) (a : Addr) (k : Nat) :
    (((ringFault c r code.num 0 deferred stopped index a k s).core c).ring r).head = some e := by
  obtain ⟨x, d, hcore, -⟩ := ringFault_core code.num_lt c r deferred stopped index a k s
  rw [hcore, faulted_ring]
  exact hh

theorem CompletionKeeps.faultHead (h : CompletionKeeps c r e.bytes R) (hh : ((s.core c).ring r).head = some e) (k : Nat) (f : CFault)
    (rep : Bool) : R s (faultHead c r k f rep s) := by
  unfold Machine.faultHead
  extract_lets full t
  have ht : R s t := h.fault ..
  split
  · exact h.trans ht (h.ring ..)
  · split
    exacts [h.trans ht (h.ring ..), h.trans ht (h.retire (ringFault_head hh ..) _)]

theorem CompletionKeeps.completeRecord (h : CompletionKeeps c r e.bytes R) (hh : ((s.core c).ring r).head = some e) :
    R s (completeRecord c r s) := by
  unfold Machine.completeRecord
  dsimp only
  split
  · exact h.retire hh _
  · split
    exacts [h.retire hh _, h.faultHead hh ..]

theorem CompletionKeeps.finishChunk {k total n : Nat} (h : CompletionKeeps c r e.bytes R) (hh : ((s.core c).ring r).head = some e)
    (hm : R s (chunkMarked c r k n s)) : R s (finishChunk c r k total n s) := by
  rw [finishChunk_eq]
  split
  · exact h.trans hm (h.completeRecord (by rw [chunkMarked_ring]; exact hh))
  · exact hm

end

/-- A core's semaphores are as before. -/
def SemasKept (c : Nat) (s t : State) : Prop := (t.core c).semas = (s.core c).semas

theorem SemasKept.of_cores {c : Nat} {s t : State} (h : t.cores = s.cores) : SemasKept c s t := by rw [SemasKept, State.core, State.core, h]

theorem SemasKept.trans {c : Nat} {s t u : State} (h : SemasKept c s t) (h' : SemasKept c t u) : SemasKept c s u := Eq.trans h' h

theorem SemasKept.modCore {c : Nat} (s : State) (d : Nat) {f : Core → Core} (hf : ∀ k, (f k).semas = k.semas) :
    SemasKept c s (s.modCore d f) := by
  by_cases h : c = d
  · subst h; rw [SemasKept, State.core_modCore, hf]
  · rw [SemasKept, State.core_modCore_ne _ _ _ _ h]

theorem SemasKept.modRing {d : Nat} (s : State) (c r : Nat) (f : Ring → Ring) : SemasKept d s (s.modRing c r f) := .modCore s c fun _ => rfl

theorem postDelivery_semas (c d : Nat) (x : Delivery) (s : State) : SemasKept d s (postDelivery c x s) :=
  .modCore s c fun k => by split <;> rfl

theorem endRequests_semas (c r d : Nat) (b : BitVec 512) (s : State) : SemasKept d s (endRequests c r b s) := by
  unfold endRequests
  extract_lets mine s1 s2
  have h2 : SemasKept d s s2 := by
    unfold s2
    split <;> exact .of_cores rfl
  split
  · exact h2.trans (.modCore _ _ fun _ => rfl)
  · split
    exacts [h2.trans (.of_cores (dropNet_cores ..)), h2]

/-- A completion that raises nothing leaves the semaphores of its core. -/
theorem completion_semas (c r d : Nat) {b : BitVec 512} (h : rkRaiseKind b = 0) : CompletionKeeps c r b (SemasKept d) where
  refl _ := rfl
  trans := SemasKept.trans
  flush s := .of_cores (flushDie_step s _).cores
  net s := .of_cores (dropNet_cores ..)
  raise value bytes fault s := by unfold raiseRecord; rw [h]; rfl
  fault code cause deferred stopped index a k s := by
    unfold ringFault
    dsimp only
    split
    · exact .modRing s c r _
    · exact (SemasKept.modRing s c r _).trans (postDelivery_semas ..)
  ring f s := .modRing s c r f
  leave s := by
    have hhold : SemasKept d (endRequests c r b s) ((endRequests c r b s).modCore c (fun k =>
        if k.holdRing = some r then { k with holdRing := none, hold := [], holdBad := none } else k)) :=
      .modCore _ _ fun k => by split <;> rfl
    exact ((endRequests_semas c r d b s).trans hhold).trans (.modRing ..)

end Sys2Proof.Machine

namespace Sys2Proof.Machine

/-! ### The head of a ring in WAIT (R139) -/

theorem exec_headStart {s : State} {c : Nat} (r : Nat) (hlive : s.unitsLive c = true) :
    exec (.engineHeadStart c r) s = .next (headStart c r (asSide c .ap s)) := by
  change execEngineHeadStart c r s = _
  rw [execEngineHeadStart, if_pos hlive]

section

variable {s : State} {c r : Nat} {e : RecEntry} (hh : ((s.core c).ring r).head = some e)
include hh

theorem headStart_waits (hst : ((s.core c).ring r).st = .wait) (hdue : ((s.core c).ring r).due = none) (hck : e.checked = true) :
    headStart c r s = testAwait c r e.bytes s := by
  simp only [headStart, hh, hst, hdue, waitHead, hck, if_true]

theorem headStart_skips {x : Nat} (hst : ((s.core c).ring r).st = .run) (hdue : ((s.core c).ring r).due = none)
    (hskip : ((s.core c).ring r).skip = some x) : headStart c r s = skipHead c r x s := by
  simp only [headStart, hh, hst, hdue, hskip]

theorem headStart_due {d : Due} (hdue : ((s.core c).ring r).due = some d) : headStart c r s =
    if (s.core c).held.any (fun y => y.source == 5 && y.ring == r) = true ∨ s.owes (dieOf c) = true then s else takeDue c r d s := by
  simp only [headStart, hh, hdue]

/-- A head in WAIT that is satisfied begins, or is to be skipped. -/
theorem satisfyHead_ring (fault : Option Nat) : ((satisfyHead c r fault s).core c).ring r =
    { (s.core c).ring r with st := .run, skip := if rkRunf e.bytes then none else fault } := by
  rw [satisfyHead, State.ring_modRing, hh]

/-- A head that takes its count from a semaphore begins, or is to be skipped where FAULT is set. -/
theorem serveHead_takes (n : Nat) :
    ((serveHead c n r s).core c).ring r = { (s.core c).ring r with
      st := .run, skip := if rkRunf e.bytes then none else if ((s.core c).sema n).fault then some 0x19 else none } ∧
      ((serveHead c n r s).core c).sema n = { (s.core c).sema n with count := ((s.core c).sema n).count - rkAwaitN e.bytes } := by
  have hmod : ∀ f, (s.modSema c n f).core c = { s.core c with semas := tset (s.core c).semas n (f ((s.core c).sema n)) } := fun f => by
    rw [State.modSema, State.core_modCore]
  unfold serveHead
  rw [hh]
  dsimp only
  refine ⟨?_, ?_⟩
  · rw [satisfyHead_ring (e := e) (by rw [hmod]; exact hh), hmod]; rfl
  · rw [satisfyHead, State.modRing, State.core_modCore, hmod]
    exact tget_tset_same ..

omit hh in
/-- The fault record of a skipped record is written without a delivery (R159). -/
theorem ringFault_skipped (code : Nat) (deferred stopped : Bool) (index : Nat) (a : Addr) (k : Nat) (s : State) :
    ringFault c r code 1 deferred stopped index a k s = s.modRing c r (fun g => { g with
      fault := faultRec code 1 r (rkKind (headBytes ((s.core c).ring r))) c
        (if rkKind (headBytes ((s.core c).ring r)) = 8 then recFld (headBytes ((s.core c).ring r)) 0x16 1 else 0xFF) stopped g.rp.toNat index a k
        (s.die (dieOf c)).tb.toNat }) := by
  unfold ringFault
  exact if_pos rfl

/-- A head to be skipped retires (R139). -/
theorem skipHead_retires {code : Nat} (hl : s.cur.link = none) (ho : s.owes (dieOf c) = false) (hp : (s.core c).pending.length < 64) :
    (((skipHead c r code s).core c).ring r).rp = ((s.core c).ring r).rp + 1 := by
  have key : ∀ (u : State) (f : Ring → BitVec 512), u.cores = s.cores → u.cur.link = none → u.owes (dieOf c) = false →
      (((retire c r (some code) (u.modRing c r (fun g => { g with fault := f g }))).core c).ring r).rp = ((s.core c).ring r).rp + 1 := by
    intro u f hc hl ho
    have hcore : u.core c = s.core c := by rw [State.core, State.core, hc]
    have hring := State.ring_modRing u c r (fun g => { g with fault := f g })
    have hpend : ((u.modRing c r (fun g => { g with fault := f g })).core c).pending = (s.core c).pending := by
      rw [State.modRing, State.core_modCore, hcore]
    have hret := retire_spec (s := u.modRing c r (fun g => { g with fault := f g })) (e := e) (fault := some code)
      (by rw [hring, hcore]; exact hh) hl ho (by rw [hpend]; exact hp)
    rw [hret.1, hring, hcore]
  unfold skipHead freshAddr
  dsimp only
  rw [ringFault_skipped]
  exact key _ _ rfl hl ho

/-- What a head waited to do retires it. -/
theorem takeDue_retires {d : Due} (hl : s.cur.link = none) (ho : s.owes (dieOf c) = false)
    (hp : d = .raised ∨ (s.core c).pending.length < 64) : (((takeDue c r d s).core c).ring r).rp = ((s.core c).ring r).rp + 1 := by
  cases d with
  | done => exact (retire_spec hh hl ho (hp.resolve_left (by simp))).1
  | fault code => exact (retire_spec hh hl ho (hp.resolve_left (by simp))).1
  | raised => exact endRetire_rp ..

end

/-- A semaphore that covers neither its first task waiter nor a head serves nobody. -/
theorem serveSema_idle (fuel : Nat) {s : State} {c n : Nat}
    (ht : (((s.core c).sema n).waiters.take 1).filter (fun i =>
      decide ((tfind (s.core c).pool i).elim 0 (fun r => r.arg) ≤ ((s.core c).sema n).count)) = [])
    (hh : headsOn (s.core c) n = []) : serveSema fuel c n s = s := by
  cases fuel with
  | zero => rfl
  | succ fuel => simp only [serveSema, ht, hh]

/-! ### Records of one chunk (R156, R157) -/

/-- Every earlier record of the other named rings has retired. -/
theorem doneBefore_iff (k : Core) (r order m : Nat) :
    ([0, 1, 2, 3].filter (fun j => j != r && m / 2 ^ j % 2 == 1)).all (fun j => doneBefore k j order) = true ↔
      ∀ j, (j < 4 ∧ j ≠ r ∧ m.testBit j = true) → ∀ p ∈ (k.ring j).recs, order ≤ p.2.order := by
  simp only [List.all_eq_true, List.mem_filter, doneBefore, Nat.testBit_eq_decide_div_mod_eq, Bool.and_eq_true, bne_iff_ne, beq_iff_eq,
    decide_eq_true_eq]
  refine ⟨fun h j ⟨h4, hr, hm⟩ => h j ⟨?_, hr, hm⟩, fun h j ⟨hj, hr, hm⟩ => h j ⟨?_, hr, hm⟩⟩
  · interval_cases j <;> decide
  · simp only [List.mem_cons, List.not_mem_nil, or_false] at hj; omega

section

variable {s : State} {c r kind : Nat} {b : BitVec 512}

theorem chunkDue_zero (h : Safety.chunkDue c r kind 0 b s) : ((s.core c).ring r).chunk = 0 := Nat.le_zero.1 (chunkDue_window h)

/-- A record of one chunk that ends after signals is done. -/
theorem oneChunk_done {t : State} (h : Safety.chunkDue c r kind 0 b s) (ht : Signalled (asSide c .ap s) t) :
    Safety.chunkDone (finishChunk c r 0 1 0 t) s c r 0 1 0 := by
  obtain ⟨e, he, -⟩ := chunkDue_record h
  exact finishChunk_done ((asSide_progress ..).trans (ht.progress c r)) he h.2.1 (chunkDue_window h) (chunkDue_open h)

theorem qfence_due {e : RecEntry} (h : Safety.chunkDue c r 10 0 b s) (hh : ((s.core c).ring r).head = some e) :
    exec (.qfence c r) s = .next (if ([0, 1, 2, 3].filter (fun j => j != r && recFld b 0x10 1 / 2 ^ j % 2 == 1)).all
      (fun j => doneBefore (s.core c) j e.order) then finishChunk c r 0 1 0 (asSide c .ap s) else asSide c .ap s) := by
  have hhead := chunkDue_head h
  rw [← chunkDue_zero h] at hhead
  have hu : (((asSide c .ap s).core c).ring r).head = some e := hh
  change execQfence c r s = _
  rw [execQfence, if_pos h.1, qfenceChunk, hu]
  change Host.Outcome.next (match chunkHead (asSide c .ap s) c r 10 ((s.core c).ring r).chunk, some e with | some (g, b), some e => _ | _, _ => _) = _
  rw [hhead]
  dsimp only
  rw [if_neg (by rw [chunkDue_zero h]; decide)]
  rfl

theorem sema_due {op : Nat} (h : Safety.chunkDue c r 11 0 b s) (hop : recFld b 0x10 1 = op) :
    semaChunk op c r (asSide c .ap s) =
      finishChunk c r 0 1 0 (if op = 1 then setSema c (recFld b 0x11 1) (recFld b 0x12 2) (asSide c .ap s) else asSide c .ap s) := by
  have hhead := chunkDue_head h
  rw [← chunkDue_zero h] at hhead
  rw [semaChunk]
  change (match chunkHead (asSide c .ap s) c r 11 ((s.core c).ring r).chunk with | some (g, b) => _ | none => _) = _
  rw [hhead]
  dsimp only
  rw [if_neg (not_not.2 hop), if_neg (by rw [chunkDue_zero h]; decide)]

theorem setSema_signalled (c n v : Nat) (s : State) : Signalled s (setSema c n v s) := (modSema_signalled ..).trans (serveSema_signalled ..)

/-- A semaphore on whose waiters and heads nothing waits is as it was set. -/
theorem setSema_alone {n v : Nat} (hw : ((s.core c).sema n).waiters = [])
    (hon : headsOn ((s.modSema c n (fun x => { x with count := v })).core c) n = []) :
    ((setSema c n v s).core c).sema n = ⟨v, false, false, []⟩ := by
  have hmod : ∀ f, (s.modSema c n f).core c = { s.core c with semas := tset (s.core c).semas n (f ((s.core c).sema n)) } := fun f => by
    rw [State.modSema, State.core_modCore]
  have hsema : ∀ f, ((s.modSema c n f).core c).sema n = f ((s.core c).sema n) := fun f => by rw [hmod]; exact tget_tset_same ..
  have hheads : headsOn ((s.modSema c n (fun x => { x with count := v, overBit := false, fault := false })).core c) n = [] := by
    rw [← hon]
    unfold headsOn
    rw [hsema, hsema, hmod, hmod]; rfl
  rw [setSema, serveAll, serveSema_idle _ (by rw [hsema, hw]; rfl) hheads, hsema, hw]

end

end Sys2Proof.Machine

namespace Sys2Proof

open Sys2Proof.Machine

/-- Settles O41: each await is one case of the head's test, a skipped head or one whose effect waited retires, and the records of one
chunk end by finishing it. -/
theorem ringHeadsAwaitAndFence : Obligations.RingHeadsAwaitAndFence := by
  unfold Obligations.RingHeadsAwaitAndFence
  intro s c r e hlive hh g b h step begins waits
  have hu : (((asSide c .ap s).core c).ring r).head = some e := hh
  have hexec := exec_headStart r hlive
  refine ⟨fun hst hdue hck => ?_, fun x hst hdue hskip hp ho hl => ?_, ?_, ?_, ?_⟩
  · have hwait := hexec.trans (congrArg _ (headStart_waits hu hst hdue hck))
    have hbegins : ∀ fault, testAwait c r e.bytes (asSide c .ap s) = satisfyHead c r fault (asSide c .ap s) → begins := fun fault ht => by
      refine ⟨_, hwait.trans (congrArg _ ht), ?_, ?_, rfl⟩ <;> simp only [h] <;> rw [satisfyHead_ring hu]; rfl
    have hwaits : testAwait c r e.bytes (asSide c .ap s) = asSide c .ap s → waits := fun ht => ⟨_, hwait.trans (congrArg _ ht), rfl, rfl⟩
    refine ⟨fun hk => hbegins none ?_, fun hk => ⟨fun hc => ?_, fun hc => hwaits ?_⟩, fun hk p hp => ⟨fun hw => ?_, fun hw => hwaits ?_⟩,
      fun hk => ⟨fun hph => hbegins none ?_, fun hph => hwaits ?_⟩⟩
    · rw [testAwait, hk]; rfl
    · obtain ⟨hring, hsema⟩ := serveHead_takes hu (rkAwait b)
      have ht : testAwait c r e.bytes (asSide c .ap s) = serveHead c (rkAwait b) r (asSide c .ap s) := by
        rw [testAwait, hk]; exact if_pos hc
      refine ⟨_, hwait.trans (congrArg _ ht), ?_, ?_, by rw [hsema]; rfl, ?_⟩ <;> simp only [h] <;> rw [hring]
      · rfl
      · change (if rkRunf b = true then none else if ((s.core c).sema (rkAwait b)).fault = true then some 0x19 else none) = _
        cases rkRunf b <;> simp
    · rw [testAwait, hk]; exact if_neg (not_le.2 hc)
    · refine hbegins (if futState (futureWord s p) = 3 then some (nfld (futureWord s p) 32 8) else none) ?_
      rw [testAwait, hk]
      change (match s.place c (handleAddr (rkAwaitFut b)) with | some p => _ | none => _) = _
      rw [hp]
      exact if_pos (decide_eq_true hw)
    · rw [testAwait, hk]
      change (match s.place c (handleAddr (rkAwaitFut b)) with | some p => _ | none => _) = _
      rw [hp]
      exact if_neg (mt of_decide_eq_true (not_le.2 hw))
    · rw [testAwait, hk]; exact if_pos hph
    · rw [testAwait, hk]; exact if_neg hph
  · exact ⟨_, hexec.trans (congrArg _ (headStart_skips hu hst hdue hskip)), skipHead_retires hu hl ho hp⟩
  · intro d hdue held
    refine ⟨fun hw => ⟨_, hexec.trans (congrArg _ ((headStart_due hu hdue).trans (if_pos hw))), rfl, rfl⟩, fun hn ho hl hp =>
      ⟨_, hexec.trans (congrArg _ ((headStart_due hu hdue).trans (if_neg ?_))), takeDue_retires hu hl ho hp⟩⟩
    rintro (hheld | howes)
    · exact Bool.noConfusion (hn.symm.trans hheld)
    · exact Bool.noConfusion (ho.symm.trans howes)
  · intro hc named done
    have hdone := doneBefore_iff (s.core c) r e.order (recFld b 0x10 1)
    refine ⟨fun hd => ⟨_, (qfence_due hc hh).trans (congrArg _ (if_pos (hdone.2 hd))), oneChunk_done hc (.refl _)⟩,
      fun hd => ⟨_, (qfence_due hc hh).trans (congrArg _ (if_neg (mt hdone.1 hd))), rfl, rfl⟩⟩
  · intro hc
    have hsig : exec (.semaSignal c r) s = .next (semaChunk 0 c r (asSide c .ap s)) := congrArg _ (if_pos hlive)
    have hset : exec (.semaSet c r) s = .next (semaChunk 1 c r (asSide c .ap s)) := congrArg _ (if_pos hlive)
    refine ⟨fun hop => ⟨_, hsig.trans (congrArg _ (sema_due hc hop)), oneChunk_done hc (.refl _)⟩,
      fun hop => ⟨_, hset.trans (congrArg _ (sema_due hc hop)), oneChunk_done hc (setSema_signalled ..), fun hraise hw hon => ?_⟩⟩
    have hsigd := setSema_signalled c (recFld b 0x11 1) (recFld b 0x12 2) (asSide c .ap s)
    have hhead : (((setSema c (recFld b 0x11 1) (recFld b 0x12 2) (asSide c .ap s)).core c).ring r).head = some e :=
      (congrArg Ring.head (hsigd.ring c r)).trans hu
    have hkept : SemasKept c (setSema c (recFld b 0x11 1) (recFld b 0x12 2) (asSide c .ap s)) _ :=
      (completion_semas c r c hraise).finishChunk (k := 0) (total := 1) (n := 0) hhead
        ((SemasKept.modRing ..).trans (.of_cores rfl))
    refine (congrArg (fun l => tget l (recFld b 0x11 1) Sema.reset) hkept).trans (setSema_alone (s := asSide c .ap s) hw hon)

end Sys2Proof

namespace Sys2Proof.Machine

/-! ### A record's completion leaves EXC, or takes the record off its ring (R132, R158) -/

/-- RP and EXC of a ring are as before. -/
def ExcKept (c r : Nat) (s t : State) : Prop :=
  ((t.core c).ring r).rp = ((s.core c).ring r).rp ∧ ((t.core c).ring r).exc = ((s.core c).ring r).exc

theorem ExcKept.trans {c r : Nat} {s t u : State} (h : ExcKept c r s t) (h' : ExcKept c r t u) : ExcKept c r s u :=
  ⟨h'.1.trans h.1, h'.2.trans h.2⟩

theorem ExcKept.of_cores {c r : Nat} {s t : State} (h : t.cores = s.cores) : ExcKept c r s t := by
  rw [ExcKept, State.core, State.core, h]; exact ⟨rfl, rfl⟩

theorem ExcKept.modRing {c r : Nat} {s : State} {f : Ring → Ring} (hf : ∀ g, (f g).rp = g.rp ∧ (f g).exc = g.exc) :
    ExcKept c r s (s.modRing c r f) := by rw [ExcKept, State.ring_modRing]; exact hf _

theorem ringFault_exc (c r : Nat) (code : Code) (deferred stopped : Bool) (index : Nat) (a : Addr) (k : Nat) (s : State) :
    ExcKept c r s (ringFault c r code.num 0 deferred stopped index a k s) := by
  obtain ⟨x, d, hcore, -⟩ := ringFault_core code.num_lt c r deferred stopped index a k s
  rw [ExcKept, hcore, faulted_ring]; exact ⟨rfl, rfl⟩

/-- A head has left its ring, or RP and EXC of the ring are as before. -/
def LeftOrKept (c r : Nat) (s t : State) : Prop := ((t.core c).ring r).rp = ((s.core c).ring r).rp + 1 ∨ ExcKept c r s t

theorem LeftOrKept.after {c r : Nat} {s t u : State} (h : ExcKept c r s t) (h' : LeftOrKept c r t u) : LeftOrKept c r s u :=
  h'.elim (fun h' => .inl (by rw [h', h.1])) fun h' => .inr (h.trans h')

section

variable {c r : Nat} {s : State}

theorem endRetire_left {b : BitVec 512} {t : State} (h : RpKept c r s t) : LeftOrKept c r s (endRetire c r b t) :=
  .inl (by rw [endRetire_rp, show ((t.core c).ring r).rp = _ from h])

theorem retire_leftOrKept (fault : Option Nat) : LeftOrKept c r s (retire c r fault s) := by
  unfold retire
  extract_lets g
  split
  · exact .inr ⟨rfl, rfl⟩
  next e he =>
  extract_lets t1 t2
  have h2 : t2.cores = s.cores := by
    have h1 : t1.cores = s.cores := by
      unfold t1
      split
      exacts [(flushDie_step ..).cores, rfl]
    unfold t2
    split
    exacts [(dropNet_cores ..).trans h1, h1]
  have hk : ExcKept c r s t2 := .of_cores h2
  split
  · exact .inr (hk.trans (.modRing fun _ => ⟨rfl, rfl⟩))
  · split
    · exact endRetire_left ((RpKept.of_cores h2).trans (raiseRecord_rp ..))
    · extract_lets t3
      have h3 : ExcKept c r s t3 := hk.trans (ringFault_exc ..)
      split
      · exact .inr (h3.trans (.modRing fun _ => ⟨rfl, rfl⟩))
      · exact endRetire_left ((RpKept.of_cores h2).trans (ringFault_rp ..))

theorem faultHead_leftOrKept (k : Nat) (f : CFault) (rep : Bool) : LeftOrKept c r s (faultHead c r k f rep s) := by
  unfold faultHead
  extract_lets full t
  have ht : ExcKept c r s t := ringFault_exc ..
  split
  · exact .inr (ht.trans (.modRing fun _ => ⟨rfl, rfl⟩))
  · split
    exacts [.inr (ht.trans (.modRing fun _ => ⟨rfl, rfl⟩)), .after ht (retire_leftOrKept _)]

theorem finishChunk_leftOrKept (k total n : Nat) : LeftOrKept c r s (finishChunk c r k total n s) := by
  have hm : ExcKept c r s (chunkMarked c r k n s) := 
    (ExcKept.modRing (f := fun g => setMark k { g with bytes := g.bytes + n }) fun _ => ⟨rfl, rfl⟩).trans (.of_cores rfl)
  rw [finishChunk_eq]
  split
  · refine .after hm ?_
    unfold completeRecord
    dsimp only
    split
    · exact retire_leftOrKept _
    · split
      exacts [retire_leftOrKept _, faultHead_leftOrKept ..]
  · exact .inr hm

end

/-! ### ACCW elements are accesses of memory (R150, R151, R281) -/

theorem readAt_step (s : State) (c : Nat) (ea : Addr) (n : Nat) (sv : Serve) : MemStep s (readAt s c ea n sv).1 := by
  unfold readAt
  split
  exacts [readPlace_step .., .refl s]

theorem readHome_step (s : State) (c : Nat) (ea : Addr) (n : Nat) : MemStep s (readHome s c ea n).1 := by
  have h : MemStep { s with cur := { s.cur with link := none } } (readAt { s with cur := { s.cur with link := none } } c ea n .home).1 :=
    readAt_step ..
  exact ⟨(congrArg (fun x : State => { x with cur := s.cur }) h.rest), h.dies, rfl, fun _ => ⟨rfl, (h.calm rfl).2⟩⟩

theorem elemLost_none {s : State} (hl : s.cur.link = none) (c de : Nat) (e : Elem) : elemLost s c de e = [] := if_pos (wlink_none s hl)

theorem applyElem_step {s : State} (hl : s.cur.link = none) (c r : Nat) (b : BitVec 512) (e : Elem) (ibad : Bool) :
    MemStep s (applyElem c r b e ibad s).1 := by
  have hv := readAt_step s c e.src (accwSs b) .relaxed
  have hfetch : ∀ (l : List Byte) (bad : Bool) (t : State), MemStep t (match e.fetch with
      | some a => writeAt c a l bad .relaxed t
      | none => t) := fun l bad t => by
    split
    exacts [writeAt_memStep .., .refl t]
  unfold applyElem
  extract_lets op ty de
  dsimp only
  rw [elemLost_none (hv.link.trans hl)]
  dsimp only
  have hm := hv.trans (readHome_step (readAt s c e.src (accwSs b) .relaxed).1 c e.dst de)
  cases hside : e.side with
  | none =>
    dsimp only
    split
    · exact hm.trans ((writeAt_memStep ..).trans (hfetch ..))
    · exact hm.trans ((writeAt_memStep ..).trans (hfetch ..))
  | some a =>
    dsimp only
    have hd := hm.trans (readHome_step _ c a 8)
    split
    · exact hd.trans ((writeAt_memStep ..).trans (hfetch ..))
    · exact hd.trans (((writeAt_memStep ..).trans (writeAt_memStep ..)).trans (hfetch ..))

theorem applyElems_step {s : State} (hl : s.cur.link = none) (c r : Nat) (b : BitVec 512) (l : List (Elem × Option Addr)) :
    MemStep s (applyElems c r b s l).1 := by
  induction l generalizing s with
  | nil => exact .refl s
  | cons x l ih =>
    have h := applyElem_step hl c r b x.1 x.2.isSome
    exact h.trans (ih (h.link.trans hl))

theorem noteAll_none {k : Nat} {l : List (Option Addr)} (h : ∀ o ∈ l, o = none) (g : Ring) : noteAll k l g = g := by
  induction l with
  | nil => rfl
  | cons o l ih =>
    obtain ⟨rfl, hl⟩ := List.forall_mem_cons.1 h
    exact ih hl

theorem noteAll_kept (k : Nat) (l : List (Option Addr)) (g : Ring) : { noteAll k l g with carried := g.carried } = g := by
  unfold noteAll
  suffices h : ∀ x : Ring, { x with carried := g.carried } = g → { l.foldl (fun g o => match o with
      | some a => noteCarried k a g
      | none => g) x with carried := g.carried } = g from h g rfl
  induction l with
  | nil => exact fun _ h => h
  | cons o l ih =>
    refine fun x hx => ih _ ?_
    cases o with
    | none => exact hx
    | some a =>
      dsimp only
      unfold noteCarried
      split
      · split <;> exact hx
      · exact hx

section

variable {s v : State} {c r k op : Nat} {b : BitVec 512}

/-- An ACCW chunk whose indices can be read and whose spans pass applies its elements. -/
theorem accwStep_due {l : List (Elem × Option Addr)} (h : Safety.chunkDue c r 5 k b s) (hop : recFld b 0x2C 1 = op)
    (hk : 16 * k < recFld b 0x28 4)
    (hx : elemsOf c b (asSide c .ap s) ((List.range (Nat.min 16 (recFld b 0x28 4 - 16 * k))).map (fun i => 16 * k + i)) = (v, .ok l))
    (hf : firstSpan v c (accwSpans b (l.map (fun q => q.1))) = none) :
    accwStep op c r k s = endChunk c r k ((recFld b 0x28 4 + 15) / 16) 0 0 ((applyElems c r b v l).1.modRing c r (fun g =>
      { g with exc := g.exc ||| BitVec.ofNat 6 (applyElems c r b v l).2.1 }), .ok (applyElems c r b v l).2.2) := by
  have hn : ¬ (recFld b 0x28 4 + 15) / 16 ≤ k := by omega
  rw [accwStep, chunkStep_due h, accwChunk, chunkDue_head h]
  refine (if_neg (not_not.2 hop)).trans ((if_neg (fun hc => hn (hc.trans (chunkDue_window h)))).trans ((if_neg hn).trans ?_))
  rw [hx]
  dsimp only
  rw [hf]

/-- The state in which an ACCW chunk ends: its elements applied, their flags in EXC and their poison noted (R143, R158). -/
def accwApplied (c r k : Nat) (b : BitVec 512) (l : List (Elem × Option Addr)) (v : State) : State :=
  ((applyElems c r b v l).1.modRing c r (fun g => { g with exc := g.exc ||| BitVec.ofNat 6 (applyElems c r b v l).2.1 })).modRing c r
    (fun g => noteAll k (applyElems c r b v l).2.2 { g with value := g.value + BitVec.ofNat 32 0 })

section

variable {l : List (Elem × Option Addr)} (hl : v.cur.link = none)
include hl

theorem accwApplied_ring : ((accwApplied c r k b l v).core c).ring r = noteAll k (applyElems c r b v l).2.2 { (v.core c).ring r with
    exc := ((v.core c).ring r).exc ||| BitVec.ofNat 6 (applyElems c r b v l).2.1
    value := ((v.core c).ring r).value + BitVec.ofNat 32 0 } := by
  rw [accwApplied, State.ring_modRing, State.ring_modRing, (applyElems_step hl c r b l).core]

theorem accwApplied_progress (h : ∀ o ∈ (applyElems c r b v l).2.2, o = none) : ProgressKept c r v (accwApplied c r k b l v) := by
  have hexc : ProgressKept c r v ((applyElems c r b v l).1.modRing c r (fun g =>
      { g with exc := g.exc ||| BitVec.ofNat 6 (applyElems c r b v l).2.1 })) :=
    (ProgressKept.of_mem (applyElems_step hl c r b l) hl c r).trans (.modRing fun _ => rfl)
  unfold accwApplied
  refine hexc.trans (.modRing fun g => ?_)
  rw [noteAll_none h]

theorem accwApplied_head : (((accwApplied c r k b l v).core c).ring r).head = ((v.core c).ring r).head := by
  rw [accwApplied_ring hl]
  exact (congrArg Ring.head (noteAll_kept ..) :)

/-- RP stands where it did, with the flags in EXC, until the record leaves its ring. -/
theorem accw_exc {total : Nat} (hrp : ((v.core c).ring r).rp = (((finishChunk c r k total 0 (accwApplied c r k b l v)).core c).ring r).rp) :
    (((finishChunk c r k total 0 (accwApplied c r k b l v)).core c).ring r).exc =
      ((v.core c).ring r).exc ||| BitVec.ofNat 6 (applyElems c r b v l).2.1 := by
  have hring := accwApplied_ring (c := c) (r := r) (k := k) (b := b) (l := l) hl
  have hrpk := congrArg Ring.rp (noteAll_kept k (applyElems c r b v l).2.2 { (v.core c).ring r with
    exc := ((v.core c).ring r).exc ||| BitVec.ofNat 6 (applyElems c r b v l).2.1, value := ((v.core c).ring r).value + BitVec.ofNat 32 0 })
  have hexc := congrArg Ring.exc (noteAll_kept k (applyElems c r b v l).2.2 { (v.core c).ring r with
    exc := ((v.core c).ring r).exc ||| BitVec.ofNat 6 (applyElems c r b v l).2.1, value := ((v.core c).ring r).value + BitVec.ofNat 32 0 })
  rw [← hring] at hrpk hexc
  rcases finishChunk_leftOrKept (c := c) (r := r) (s := accwApplied c r k b l v) k total 0 with h | ⟨-, h⟩
  · have : ((v.core c).ring r).rp = ((v.core c).ring r).rp + 1 := hrp.trans (h.trans (congrArg (· + 1) hrpk))
    bv_omega
  · exact h.trans hexc

theorem accw_mem {total : Nat} {e : RecEntry} (hh : ((v.core c).ring r).head = some e) (h9 : rkKind e.bytes ≠ 9)
    (h2 : rkRaiseKind e.bytes ≠ 2) (hd : rkDevrel e.bytes = false) :
    (finishChunk c r k total 0 (accwApplied c r k b l v)).mem = (applyElems c r b v l).1.mem := by
  have hhead := (accwApplied_head (c := c) (r := r) (k := k) (b := b) (l := l) hl).trans hh
  rw [finishChunk_eq]
  split
  · obtain ⟨w, hw, ht | ⟨hrel, -⟩⟩ := completeRecord_readsAfter (s := chunkMarked c r k 0 (accwApplied c r k b l v))
      (by rw [chunkMarked_ring]; exact hhead) h9 h2
    · exact ht.mem.trans hw.mem
    · rw [hd] at hrel; cases hrel
  · rfl

end

/-! ### One element writes its result at home (R151, R281) -/

theorem writeLine_home (c die ctx va : Nat) (l : List Byte) (b : Bool) (s : State) (hw : s.cur.link = none) :
    writeLine c die ctx va l b .home s = writeAtHome die ctx va l b s := by
  unfold writeLine
  dsimp only
  rw [if_neg (fun h => by cases h.2.2), wlink_none s hw]

/-- Bytes written at home line by line stand there. -/
theorem writeLines_home {fuel c die ctx va : Nat} {l : List Byte} {s : State} (b : Bool) (hw : s.cur.link = none)
    (hf : l.length ≠ 0 → va % 64 + l.length ≤ 64 * fuel) :
    (∀ vb, vb / 64 < va / 64 → memGet (writeLines fuel c die ctx va l b .home s).mem (globKey ctx vb) = memGet s.mem (globKey ctx vb)) ∧
      ∀ i (hi : i < l.length), memGet (writeLines fuel c die ctx va l b .home s).mem (globKey ctx (va + i)) = l[i] := by
  induction fuel generalizing s va l with
  | zero => exact ⟨fun _ _ => rfl, fun i hi => by omega⟩
  | succ fuel ih =>
    rw [writeLines]
    split
    next h0 => rw [List.isEmpty_iff] at h0; subst h0; exact ⟨fun _ _ => rfl, fun i hi => absurd hi (Nat.not_lt_zero i)⟩
    next h0 =>
      obtain ⟨hm, hline, hrest⟩ := inLine_spec va l.length
      have hdef : inLine va l.length = min l.length (64 - va % 64) := rfl
      generalize inLine va l.length = m at *
      have htake : (l.take m).length = m := by rw [List.length_take]; omega
      have hdrop : (l.drop m).length = l.length - m := List.length_drop
      dsimp only
      rw [writeLine_home _ _ _ _ _ _ _ hw]
      have hstep := writeAtHome_lineStep (ctx := ctx) (va := va) (l := l.take m) s hw (by omega) die b
      obtain ⟨hbefore, hafter⟩ := ih (s := writeAtHome die ctx va (l.take m) b s) (va := va + m) (l := l.drop m) (hstep.link.trans hw)
        (by rw [hdrop]; exact hrest fuel hf)
      refine ⟨fun vb hv => (hbefore vb (by omega)).trans (hstep.bytes vb (by omega)), fun i hi => ?_⟩
      by_cases him : m ≤ i
      · have := hafter (i - m) (by omega)
        rw [show va + m + (i - m) = va + i by omega] at this
        rw [this, List.getElem_drop]
        congr 1; omega
      · obtain ⟨mm, hmem⟩ := writeAtHome_mem die ctx va (l.take m) b s
        have hfirst : memGet (writeAtHome die ctx va (l.take m) b s).mem (globKey ctx (va + i)) = l[i] := by
          rw [hmem, memGet_memWrite, dif_pos (by unfold globKey; omega)]
          rw [List.getElem_take]
          congr 1; unfold globKey; omega
        by_cases hlast : l.length = m
        · have hnil : l.drop m = [] := List.eq_nil_of_length_eq_zero (by omega)
          rw [hnil]
          cases fuel <;> simpa [writeLines] using hfirst
        · exact (hbefore (va + i) (by omega)).trans hfirst

/-- Bytes written at home stand at their place. -/
theorem writeAt_home {s : State} {c : Nat} {ea : Addr} {p : Place} {l : List Byte} (b : Bool) (hw : s.cur.link = none)
    (hp : s.place c ea = some p) : memRead (writeAt c ea l b .home s).mem p.key l.length = l := by
  have hk : ∀ q : Place, memRead (match s.wlink with
      | some k => if s.homeDie q ≠ dieOf c then loseWrite k (dieOf c) q.key l.length q.addr [c] s else writeKey q.key l b s
      | none => writeKey q.key l b s).mem q.key l.length = l := fun q => by
    rw [wlink_none s hw]
    exact (congrArg (fun m => memRead m q.key l.length) (markWrite_mem ..)).trans (memRead_memWrite ..)
  rw [writeAt, hp]
  cases p with
  | glob ctx va =>
    obtain ⟨-, h⟩ := writeLines_home (c := c) (die := dieOf c) (ctx := ctx) (va := va) (l := l) (fuel := l.length / 64 + 2) b hw (by omega)
    refine List.ext_getElem (by simp [memRead]) fun i hi hi' => ?_
    simp only [memRead, List.getElem_map, List.getElem_range]
    exact (congrArg (memGet _) (by simp only [Place.key, globKey, Nat.add_assoc])).trans (h i hi')
  | sram => exact hk _
  | pool => exact hk _

/-- One element without sideband, nothing poisoned: its result is written at home, then its fetch word. -/
theorem applyElem_clean {e : Elem} (hl : s.cur.link = none) (hside : e.side = none)
    (hv : (readAt s c e.src (accwSs b) .relaxed).2.poison = false)
    (hm : (readHome (readAt s c e.src (accwSs b) .relaxed).1 c e.dst (accwDe b)).2.poison = false) :
    let x := readAt s c e.src (accwSs b) .relaxed
    let y := readHome x.1 c e.dst (accwDe b)
    let t := writeAt c e.dst (natBytes (accwDe b) (accwNew (recFld b 0x2C 1) (recFld b 0x2D 1) (bytesNat y.2.bytes) (bytesNat x.2.bytes)).v)
      false .home y.1
    (applyElem c r b e false s).1 = match e.fetch with
      | some a => writeAt c a y.2.bytes false .relaxed t
      | none => t := by
  intro x y t
  rw [applyElem]
  dsimp only
  rw [elemLost_none ((readAt_step ..).link.trans hl)]
  dsimp only
  rw [hside]
  dsimp only
  rw [hv, hm]
  rfl

end

end Sys2Proof.Machine

namespace Sys2Proof

open Sys2Proof.Machine

/-- Settles O44: a chunk's step is the fold of its elements and the end of the chunk, and an element's result is written at home. -/
theorem recordsAccumulate : Obligations.RecordsAccumulate := by
  unfold Obligations.RecordsAccumulate
  intro s c r k b ops n
  constructor
  · intro p hp h hop hk v l hx hf x
    have hexec : ∀ p ∈ ops, exec p.1 s = .next (accwStep p.2 c r k s) := by
      simp only [ops, List.forall_mem_cons]
      exact ⟨rfl, rfl, rfl, rfl, rfl, rfl, rfl, rfl, rfl, rfl, rfl, rfl, rfl, List.forall_mem_nil _⟩
    have hprog : ProgressKept c r s v := reads_progress h.2.1 (.of_pair hx (elemsOf_reads ..)) r
    have hring : (v.core c).ring r = (s.core c).ring r := by
      rw [(ReadStep.of_pair hx (elemsOf_reads ..)).core]; rfl
    have hl : v.cur.link = none := hprog.link.trans h.2.1
    obtain ⟨e, he, rfl⟩ := chunkDue_record h
    refine ⟨finishChunk c r k ((n + 15) / 16) 0 (accwApplied c r k e.bytes l v), (hexec p hp).trans (congrArg _ (accwStep_due h hop hk hx hf)),
      fun hnone => ?_, fun hrp => ?_, fun h2 hd => ?_⟩
    · exact finishChunk_done (hprog.trans (accwApplied_progress hl hnone)) he h.2.1 (chunkDue_window h) (chunkDue_open h)
    · rw [accw_exc hl (by rw [hring, hrp]), hring]
    · exact accw_mem hl (by rw [hring]; exact he) (by rw [chunkDue_kind h]; decide) h2 hd
  · intro e p hl hside hp ty w de x y m v new hv hm
    have hnew : ∀ op, (accwNew op ty m v).v = new op := fun op => by
      match op with
      | 0 | 1 | 2 | 3 | 4 | 5 | 6 | 7 | 8 | 9 | 10 | 11 | 12 => rfl
      | _ + 13 => rfl
    have hxs : MemStep s x.1 := readAt_step ..
    have hys : MemStep s y.1 := hxs.trans (readHome_step ..)
    have happ := applyElem_clean (r := r) hl hside hv hm
    have hput : ∀ l : List Byte, MemStep s (writeAt c e.dst l false .home y.1) := fun l => hys.trans (writeAt_memStep ..)
    have hlen : y.2.bytes.length = de := readAt_length ..
    refine ⟨fun hfetch => ?_, fun a hfetch ha => ?_⟩
    · have hback := writeAt_home (l := natBytes de (accwNew (recFld b 0x2C 1) ty m v).v) false (hys.link.trans hl)
        (hys.sameMaps.place c e.dst |>.trans hp)
      rw [length_natBytes, hnew] at hback
      rw [happ, hfetch]
      dsimp only
      rw [← hback]
      congr 4
      exact hnew _
    · rw [happ, hfetch, ← hlen]
      exact seen_writeAt false ((hput _).link.trans hl) (by rw [(hput _).sameMaps.place]; exact ha)

end Sys2Proof

namespace Sys2Proof.Machine

/-! ### One service of a semaphore's waiter, on its core (R139, R210, R214) -/

theorem State.core_modSema (s : State) (c n : Nat) (f : Sema → Sema) :
    (s.modSema c n f).core c = { s.core c with semas := tset (s.core c).semas n (f ((s.core c).sema n)) } := by
  rw [State.modSema, State.core_modCore]

/-- A core once its waiting record i has its value and is queued (R210). -/
def Core.woke (k : Core) (i : Nat) (v : Addr) : Core :=
  match tfind k.pool i with
  | some r => { k with pool := tset k.pool i { r with wvalue := v } }.modSide r.side (fun x => { x with tq := x.tq ++ [i] })
  | none => k

section

variable (k : Core) (i : Nat) (v : Addr)

theorem Core.woke_rings : (k.woke i v).rings = k.rings := by
  unfold Core.woke
  split
  · rw [Core.modSide_rings]
  · rfl

theorem Core.woke_semas : (k.woke i v).semas = k.semas := by
  unfold Core.woke
  split
  · rw [Core.modSide_semas]
  · rfl

theorem Core.woke_pool (j : Nat) :
    tfind (k.woke i v).pool j = if j = i then (tfind k.pool j).map (fun r => { r with wvalue := v }) else tfind k.pool j := by
  unfold Core.woke
  split
  next r hr =>
    rw [Core.modSide_pool]
    refine (tfind_tset ..).trans ?_
    split
    next h => rw [h, hr]; rfl
    next => rfl
  next hr =>
    split
    next h => rw [h, hr]; rfl
    next => rfl

theorem Core.woke_arg (j : Nat) :
    (tfind (k.woke i v).pool j).elim 0 (fun r => r.arg) = (tfind k.pool j).elim 0 (fun r => r.arg) := by
  rw [Core.woke_pool]
  split
  · cases tfind k.pool j <;> rfl
  · rfl

theorem Core.woke_tq (sd : Side) : ((k.woke i v).side sd).tq =
    (k.side sd).tq ++ if (tfind k.pool i).any (fun r => r.side == sd) then [i] else [] := by
  unfold Core.woke
  split
  next r hr =>
    rw [hr, Option.any_some]
    by_cases h : sd = r.side
    · subst h
      rw [Core.side_modSide]; simp; cases r.side <;> rfl
    · have hne : (r.side == sd) = false := beq_eq_false_iff_ne.2 (Ne.symm h)
      rw [Core.side_modSide_ne _ _ _ _ h, hne]
      cases sd <;> simp [Core.side]
  next hr => rw [hr]; simp

end

section

variable (s : State) (c n : Nat)

theorem wake_core (i : Nat) (v : Addr) : (wake c i v s).core c = (s.core c).woke i v := by
  rw [wake, act_core, State.core_modCore]; rfl

theorem wake_core_ne (i : Nat) (v : Addr) {d : Nat} (h : d ≠ c) : (wake c i v s).core d = s.core d := by
  rw [wake, act_core, State.core_modCore_ne _ _ _ _ h]

/-- A core whose semaphore n is changed. -/
def Core.withSema (k : Core) (n : Nat) (x : Sema) : Core := { k with semas := tset k.semas n x }

theorem Core.withSema_sema (k : Core) (x : Sema) : (k.withSema n x).sema n = x := tget_tset_same ..

/-- A semaphore whose first waiter has been served. -/
def Sema.servedOne (x : Sema) (need : Nat) : Sema := { x with count := x.count - need, waiters := x.waiters.drop 1 }

/-- The value that a served waiter gets (R214). -/
def Sema.value (x : Sema) : Addr := BitVec.ofNat 64 (x.fault.toNat + x.overBit.toNat * 2)

/-- The count that the record i of a core's pool waits for. -/
def Core.need (k : Core) (i : Nat) : Nat := (tfind k.pool i).elim 0 (fun r => r.arg)

theorem serveTask_core (i : Nat) : (serveTask c n i s).core c =
    ((s.core c).withSema n (((s.core c).sema n).servedOne ((s.core c).need i))).woke i ((s.core c).sema n).value := by
  rw [serveTask, wake_core, State.core_modSema]; rfl

theorem serveTask_core_ne (i : Nat) {d : Nat} (h : d ≠ c) : (serveTask c n i s).core d = s.core d := by
  rw [serveTask, wake_core_ne _ _ _ _ h, State.modSema, State.core_modCore_ne _ _ _ _ h]

theorem serveTask_sema (i : Nat) : ((serveTask c n i s).core c).sema n = ((s.core c).sema n).servedOne ((s.core c).need i) := by
  rw [serveTask_core, Core.sema, Core.woke_semas]; exact tget_tset_same ..

theorem serveTask_ring (i j : Nat) : ((serveTask c n i s).core c).ring j = (s.core c).ring j := by
  rw [serveTask_core, Core.ring, Core.woke_rings]; rfl

theorem serveTask_need (i j : Nat) : ((serveTask c n i s).core c).need j = (s.core c).need j := by
  rw [serveTask_core]
  exact Core.woke_arg ..

/-! ### Waiters that a semaphore covers (R214) -/

/-- Whether a core's ring j has a checked head that waits on semaphore n, which covers it. -/
def headCovered (k : Core) (n j : Nat) : Bool :=
  match (k.ring j).head with
  | some e => (k.ring j).st == .wait && e.checked && rkAwaitKind e.bytes == 1 && rkAwait e.bytes == n &&
      decide (rkAwaitN e.bytes ≤ (k.sema n).count)
  | none => false

theorem headsOn_eq (k : Core) (n : Nat) : headsOn k n = [0, 1, 2, 3].filter (headCovered k n) := rfl

theorem headCovered_head {k : Core} {n j : Nat} (h : headCovered k n j = true) : (k.ring j).st = .wait ∧ ∃ e, (k.ring j).head = some e := by
  unfold headCovered at h
  split at h
  next e he =>
    simp only [Bool.and_eq_true, beq_iff_eq] at h
    exact ⟨h.1.1.1.1, e, he⟩
  next => cases h

/-- A head that a smaller count covers was covered. -/
theorem headCovered_mono {k k' : Core} {n j : Nat} (hr : k'.ring j = k.ring j) (hc : (k'.sema n).count ≤ (k.sema n).count)
    (h : headCovered k' n j = true) : headCovered k n j = true := by
  unfold headCovered at h ⊢
  rw [hr] at h
  split at h
  next e he =>
    simp only [Bool.and_eq_true, decide_eq_true_eq] at h ⊢
    exact ⟨h.1, h.2.trans hc⟩
  next => cases h

theorem headsOn_filter {k k' : Core} {n : Nat} (h : ∀ j, headCovered k' n j = true → headCovered k n j = true) :
    headsOn k' n = (headsOn k n).filter (headCovered k' n) := by
  rw [headsOn_eq, headsOn_eq, List.filter_filter]
  refine List.filter_congr fun j _ => ?_
  cases hj : headCovered k' n j with
  | false => rfl
  | true => rw [h j hj]; rfl

/-- The task waiters of a semaphore that are still to be served, with the heads that it covers. -/
def toServe (k : Core) (n : Nat) : Nat := (k.sema n).waiters.length + (headsOn k n).length

/-- The first task waiter where the semaphore covers it. -/
def firstCovered (k : Core) (n : Nat) : List Nat := ((k.sema n).waiters.take 1).filter (fun i => decide (k.need i ≤ (k.sema n).count))

theorem firstCovered_cases {k : Core} {n i : Nat} {l : List Nat} (h : firstCovered k n = i :: l) :
    l = [] ∧ ∃ r, (k.sema n).waiters = i :: r ∧ k.need i ≤ (k.sema n).count := by
  unfold firstCovered at h
  cases hw : (k.sema n).waiters with
  | nil => rw [hw] at h; cases h
  | cons j r =>
    rw [hw, List.take_succ_cons, List.take_zero, List.filter_singleton] at h
    cases hj : decide (k.need j ≤ (k.sema n).count) with
    | true => rw [hj] at h; cases h; exact ⟨rfl, r, rfl, of_decide_eq_true hj⟩
    | false => rw [hj] at h; cases h

/-- An entry of a nonempty list, by a position taken modulo its length. -/
theorem getD_mod_mem {α : Type} {l : List α} (h : l ≠ []) (k : Nat) (d : α) : l.getD (k % l.length) d ∈ l := by
  have hlt := Nat.mod_lt k (List.length_pos_of_ne_nil h)
  rw [List.getD_eq_getElem?_getD, List.getElem?_eq_getElem hlt, Option.getD_some]
  exact List.getElem_mem _

variable {s c n}

theorem serveTask_toServe {i : Nat} {r : List Nat} (h : ((s.core c).sema n).waiters = i :: r) :
    toServe ((serveTask c n i s).core c) n < toServe (s.core c) n ∧
      (headsOn (s.core c) n = [] → headsOn ((serveTask c n i s).core c) n = []) := by
  have hsub : headsOn ((serveTask c n i s).core c) n = _ := headsOn_filter (k := s.core c) fun j hj =>
    headCovered_mono (serveTask_ring ..) (by rw [serveTask_sema]; exact Nat.sub_le ..) hj
  refine ⟨?_, fun h0 => by rw [hsub, h0]; rfl⟩
  have hle := List.length_filter_le (headCovered ((serveTask c n i s).core c) n) (headsOn (s.core c) n)
  rw [toServe, toServe, serveTask_sema, hsub, h]
  change (List.drop 1 ((s.core c).sema n).waiters).length + _ < _
  rw [h, List.drop_one, List.tail_cons, List.length_cons]
  omega

theorem serveHead_toServe {r : Nat} (h : r ∈ headsOn (s.core c) n) : toServe ((serveHead c n r s).core c) n < toServe (s.core c) n ∧
    (headsOn (s.core c) n = [r] → headsOn ((serveHead c n r s).core c) n = []) := by
  obtain ⟨hst, e, he⟩ := headCovered_head (List.mem_filter.1 h).2
  obtain ⟨hring, hsema⟩ := serveHead_takes he n
  have hne : ∀ j, j ≠ r → ((serveHead c n r s).core c).ring j = (s.core c).ring j := fun j hj => by
    unfold serveHead
    rw [he]
    dsimp only
    rw [satisfyHead, State.modRing, State.core_modCore, State.core_modSema, Core.ring, Core.ring]
    exact tget_tset_other _ _ _ _ _ hj
  have hrun : headCovered ((serveHead c n r s).core c) n r = false := by
    refine Bool.eq_false_iff.2 fun hc => ?_
    have := (headCovered_head hc).1
    rw [hring] at this
    cases this
  have hsub : headsOn ((serveHead c n r s).core c) n = _ := headsOn_filter (k := s.core c) fun j hj => by
    by_cases hjr : j = r
    · rw [hjr, hrun] at hj; cases hj
    · exact headCovered_mono (hne j hjr) (by rw [hsema]; exact Nat.sub_le ..) hj
  refine ⟨?_, fun h1 => by rw [hsub, h1, List.filter_singleton, hrun]; rfl⟩
  have hlt := List.length_filter_lt_length_iff_exists (p := headCovered ((serveHead c n r s).core c) n) |>.2
    ⟨r, h, by rw [hrun]; exact Bool.false_ne_true⟩
  rw [toServe, toServe, hsema, hsub]
  exact Nat.add_lt_add_left hlt _

/-- Enough services leave a semaphore that covers nobody. -/
theorem serveSema_ends {fuel : Nat} (hf : toServe (s.core c) n < fuel) :
    headsOn ((serveSema fuel c n s).core c) n = [] ∧ firstCovered ((serveSema fuel c n s).core c) n = [] := by
  induction fuel generalizing s with
  | zero => exact absurd hf (Nat.not_lt_zero _)
  | succ fuel ih =>
    have task : ∀ i r, ((s.core c).sema n).waiters = i :: r → ∀ t : State, t.core c = s.core c →
        toServe ((serveTask c n i t).core c) n < fuel := fun i r hw t ht => by
      have := (serveTask_toServe (s := t) (by rw [ht]; exact hw)).1
      rw [ht] at this; omega
    have head : ∀ r ∈ headsOn (s.core c) n, ∀ t : State, t.core c = s.core c → toServe ((serveHead c n r t).core c) n < fuel :=
      fun r hr t ht => by
        have := (serveHead_toServe (s := t) (by rw [ht]; exact hr)).1
        rw [ht] at this; omega
    unfold serveSema
    dsimp only
    split
    next h1 h2 => exact ⟨h2, h1⟩
    next i l h1 h2 =>
      obtain ⟨-, r, hw, -⟩ := firstCovered_cases h1
      exact ih (task i r hw s rfl)
    next r h1 h2 => exact ih (head r (by rw [h2]; exact List.mem_singleton_self r) s rfl)
    next h00 h10 h01 =>
      generalize ho : List.getD _ _ _ = o
      have hmem := ho ▸ getD_mod_mem (l := (firstCovered (s.core c) n).map (fun i => (true, i)) ++ (headsOn (s.core c) n).map (fun r => (false, r)))
        (fun h0 => h00 (List.map_eq_nil_iff.1 (List.append_eq_nil_iff.1 h0).1) (List.map_eq_nil_iff.1 (List.append_eq_nil_iff.1 h0).2))
        (Config.pick s.count) (true, 0)
      rcases List.mem_append.1 hmem with h | h
      · obtain ⟨i, hi, rfl⟩ := List.mem_map.1 h
        obtain ⟨a, l, htl⟩ : ∃ a l, firstCovered (s.core c) n = a :: l := List.exists_cons_of_ne_nil (List.ne_nil_of_mem hi)
        obtain ⟨rfl, r, hw, -⟩ := firstCovered_cases htl
        rw [htl, List.mem_singleton] at hi
        exact ih (task i r (by rw [hi]; exact hw) _ rfl)
      · obtain ⟨r, hr, rfl⟩ := List.mem_map.1 h
        exact ih (head r hr _ rfl)

end

end Sys2Proof.Machine

namespace Sys2Proof.Machine

/-! ### Services of task waiters alone, and of one head alone (R139, R214) -/

section

variable {s : State} {c n : Nat}

theorem serveSema_task {i : Nat} (fuel : Nat) (ht : firstCovered (s.core c) n = [i]) (hh : headsOn (s.core c) n = []) :
    serveSema (fuel + 1) c n s = serveSema fuel c n (serveTask c n i s) := by
  have ht : (((s.core c).sema n).waiters.take 1).filter (fun i =>
      decide ((tfind (s.core c).pool i).elim 0 (fun r => r.arg) ≤ ((s.core c).sema n).count)) = [i] := ht
  simp only [serveSema, ht, hh]

theorem serveSema_head {r : Nat} (fuel : Nat) (ht : firstCovered (s.core c) n = []) (hh : headsOn (s.core c) n = [r]) :
    serveSema (fuel + 1) c n s = serveSema fuel c n (serveHead c n r s) := by
  have ht : (((s.core c).sema n).waiters.take 1).filter (fun i =>
      decide ((tfind (s.core c).pool i).elim 0 (fun r => r.arg) ≤ ((s.core c).sema n).count)) = [] := ht
  simp only [serveSema, ht, hh]

end

/-- Records of one core's pool have got a value and joined their sides' task queues in order, and no other record has changed. -/
structure WokenBy (c : Nat) (v : Addr) (l : List Nat) (s t : State) : Prop where
  other : ∀ d, d ≠ c → t.core d = s.core d
  pool : ∀ j, tfind (t.core c).pool j = if j ∈ l then (tfind (s.core c).pool j).map (fun r => { r with wvalue := v }) else tfind (s.core c).pool j
  tq : ∀ sd, ((t.core c).side sd).tq =
    ((s.core c).side sd).tq ++ l.filter (fun i => (tfind (s.core c).pool i).any (fun r => r.side == sd))

namespace WokenBy

variable {c : Nat} {v : Addr} {s t u : State}

theorem refl (c : Nat) (v : Addr) (s : State) : WokenBy c v [] s s :=
  ⟨fun _ _ => rfl, fun j => by simp, fun sd => by simp⟩

/-- One more record woken before the others. -/
theorem cons {i n : Nat} {l : List Nat} (h : WokenBy c ((s.core c).sema n).value l (serveTask c n i s) u) :
    WokenBy c ((s.core c).sema n).value (i :: l) s u := by
  generalize hv : ((s.core c).sema n).value = v at h ⊢
  have hpool : ∀ j, tfind ((serveTask c n i s).core c).pool j =
      if j = i then (tfind (s.core c).pool j).map (fun r => { r with wvalue := v }) else tfind (s.core c).pool j := fun j => by
    rw [serveTask_core, hv]; exact Core.woke_pool ..
  refine ⟨fun d hd => (h.other d hd).trans (serveTask_core_ne _ _ _ _ hd), fun j => ?_, fun sd => ?_⟩
  · rw [h.pool, hpool]
    by_cases hji : j = i
    · subst hji
      cases tfind (s.core c).pool j <;> simp
    · simp [hji]
  · have hside : ∀ j, (tfind ((serveTask c n i s).core c).pool j).any (fun r => r.side == sd) =
        (tfind (s.core c).pool j).any (fun r => r.side == sd) := fun j => by
      rw [hpool]
      split
      · cases tfind (s.core c).pool j <;> rfl
      · rfl
    rw [h.tq sd]
    simp only [hside]
    rw [serveTask_core, Core.woke_tq, List.append_assoc, List.filter_cons]
    refine congrArg₂ (· ++ ·) ?_ ?_
    · cases sd <;> rfl
    · change (if (tfind (s.core c).pool i).any (fun r => r.side == sd) = true then [i] else []) ++ _ = _
      split <;> rfl

/-- Records woken from a state whose pools and task queues are those of another. -/
theorem woken {w : State} {l : List Nat} (h : WokenBy c v l s t) (hs : ∀ d, (s.core d).pool = (w.core d).pool ∧
    ∀ sd, ((s.core d).side sd).tq = ((w.core d).side sd).tq) : Safety.woken w t v (l.map (fun i => (c, i))) := by
  refine ⟨fun d i r hm hr => ?_, fun d sd => ?_⟩
  · obtain ⟨j, hj, heq⟩ := List.mem_map.1 hm
    cases heq
    rw [h.pool, if_pos hj, (hs c).1, hr]; rfl
  · by_cases hd : d = c
    · subst hd
      rw [h.tq, (hs d).2, (hs d).1]
      congr 1
      rw [List.filter_map, List.map_map]
      simp [Function.comp_def]
    · have hne : (c == d) = false := beq_eq_false_iff_ne.2 (Ne.symm hd)
      rw [h.other d hd, (hs d).2]
      simp [List.filter_map, Function.comp_def, hne]

end WokenBy

section

variable {s : State} {c n : Nat}

/-- Where no head of a ring waits, task waiters are served oldest first while COUNT covers the next. -/
theorem serveSema_tasks {fuel : Nat} (hh : headsOn (s.core c) n = []) (hf : ((s.core c).sema n).waiters.length < fuel) :
    let x := (s.core c).sema n
    let v := Safety.served (s.core c).need x.waiters x.count
    ((serveSema fuel c n s).core c).sema n = { x with count := v.2.1, waiters := v.2.2 } ∧
      WokenBy c x.value v.1 s (serveSema fuel c n s) := by
  induction fuel generalizing s with
  | zero => exact absurd hf (Nat.not_lt_zero _)
  | succ fuel ih =>
    intro x v
    have idle : ∀ h : firstCovered (s.core c) n = [], serveSema (fuel + 1) c n s = s := fun h => serveSema_idle _ h hh
    cases hw : ((s.core c).sema n).waiters with
    | nil =>
      have hv : v = ([], x.count, []) := by simp only [v, x]; rw [hw]; rfl
      rw [idle (by rw [firstCovered, hw]; rfl), hv]
      exact ⟨by simp only [x]; rw [← hw], .refl ..⟩
    | cons i r =>
      by_cases hc : (s.core c).need i ≤ ((s.core c).sema n).count
      · have hsema := serveTask_sema s c n i
        have hneed : ((serveTask c n i s).core c).need = (s.core c).need := funext (serveTask_need s c n i)
        have hleft : (((s.core c).sema n).servedOne ((s.core c).need i)).waiters = r := by
          change ((s.core c).sema n).waiters.drop 1 = r
          rw [hw]; rfl
        have hv : v = (i :: (Safety.served (s.core c).need r (x.count - (s.core c).need i)).1,
            (Safety.served (s.core c).need r (x.count - (s.core c).need i)).2) := by
          simp only [v, x]; rw [hw, Safety.served, if_pos hc]
        obtain ⟨hx, hwoken⟩ := ih (s := serveTask c n i s) ((serveTask_toServe hw).2 hh) (by
          rw [hsema, hleft]; rw [hw, List.length_cons] at hf; omega)
        rw [hsema, hneed, hleft] at hx hwoken
        rw [serveSema_task (i := i) fuel (by rw [firstCovered, hw]; simp [hc]) hh, hv]
        exact ⟨hx, .cons hwoken⟩
      · have hv : v = ([], x.count, i :: r) := by simp only [v, x]; rw [hw, Safety.served, if_neg hc]
        rw [idle (by rw [firstCovered, hw]; simp [hc]), hv]
        exact ⟨by simp only [x]; rw [← hw], .refl ..⟩

/-- Where no task waits and one head of a ring is covered, it alone is served. -/
theorem serveSema_oneHead {fuel r : Nat} (hw : ((s.core c).sema n).waiters = []) (hh : headsOn (s.core c) n = [r]) :
    serveSema (fuel + 1) c n s = serveHead c n r s := by
  have hr : r ∈ headsOn (s.core c) n := by rw [hh]; exact List.mem_singleton_self r
  obtain ⟨-, e, he⟩ := headCovered_head (List.mem_filter.1 hr).2
  rw [serveSema_head fuel (by rw [firstCovered, hw]; rfl) hh]
  refine serveSema_idle _ ?_ ((serveHead_toServe hr).2 hh)
  rw [(serveHead_takes he n).2]
  simp only [hw]
  rfl

/-- Serving a semaphore leaves the others of its core. -/
theorem serveSema_others (fuel : Nat) {k : Nat} (hk : k ≠ n) : ((serveSema fuel c n s).core c).sema k = (s.core c).sema k := by
  have task : ∀ i (t : State), ((serveTask c n i t).core c).sema k = (t.core c).sema k := fun i t => by
    rw [serveTask_core, Core.sema, Core.woke_semas]; exact tget_tset_other _ _ _ _ _ hk
  have head : ∀ r (t : State), ((serveHead c n r t).core c).sema k = (t.core c).sema k := fun r t => by
    unfold serveHead
    split
    · rw [satisfyHead, State.modRing, State.core_modCore, State.core_modSema]; exact tget_tset_other _ _ _ _ _ hk
    · rfl
  induction fuel generalizing s with
  | zero => rfl
  | succ fuel ih =>
    unfold serveSema
    dsimp only
    split
    · rfl
    · exact ih.trans (task ..)
    · exact ih.trans (head ..)
    · refine ih.trans ?_
      split
      exacts [task .., head ..]

end

/-! ### What a release at device scope leaves (R224, R275) -/

theorem writeBack_rlc (die : Nat) (l : RlcLine) (s : State) :
    ∀ x ∈ ((writeBack die l s).die die).rlc, x.dirty = true → x ∈ (s.die die).rlc ∧ x ≠ l := by
  unfold writeBack
  split
  next hd =>
    have hdies : ∀ u : State, u.dies = s.dies → ∀ x ∈ ((u.modDie die (fun d => d.putLine { l with dirty := false })).die die).rlc,
        x.dirty = true → x ∈ (s.die die).rlc ∧ x ≠ l := fun u hu x hx hxd => by
      rw [State.die_modDie, State.die, hu] at hx
      rcases Die.mem_putLine hx with rfl | ⟨hx, hne⟩
      · cases hxd
      · exact ⟨hx, fun h => hne (by rw [h]; exact ⟨rfl, rfl⟩)⟩
    dsimp only
    split
    exacts [hdies _ rfl, hdies _ (writeHome_dies l s)]
  next hd => exact fun x hx hxd => ⟨hx, fun h => hd (h ▸ hxd)⟩

theorem applyInv_invs (e ctx line : Nat) (s : State) : ((applyInv e ctx line s).die e).invs =
    (s.die e).invs.filter (fun p => !(p.1 == ctx && p.2 == line)) := by
  rw [applyInv, State.die_modDie]
  dsimp only
  split
  · split <;> rfl
  · rfl

/-- A release of a die leaves no dirty line in its cache and no invalidation on its way to the other. -/
theorem flushDie_released {die : Nat} (hd : die < 2) (s : State) : Safety.released die (flushDie die s) := by
  have hback : ∀ (ls : List RlcLine) (t : State), (∀ x ∈ (t.die die).rlc, x.dirty = true → x ∈ ls) →
      ∀ x ∈ ((ls.foldl (fun t l => writeBack die l t) t).die die).rlc, x.dirty = false := fun ls => by
    induction ls with
    | nil => exact fun t ht x hx => Bool.eq_false_iff.2 fun h => List.not_mem_nil (ht x hx h)
    | cons l ls ih =>
      refine fun t ht => ih _ fun x hx hxd => ?_
      obtain ⟨hm, hne⟩ := writeBack_rlc die l t x hx hxd
      exact (List.mem_cons.1 (ht x hm hxd)).resolve_left hne
  have hinv : ∀ (ps : List (Nat × Nat)) (t : State), (∀ p ∈ (t.die (1 - die)).invs, p ∈ ps) →
      ((ps.foldl (fun t p => applyInv (1 - die) p.1 p.2 t) t).die (1 - die)).invs = [] := fun ps => by
    induction ps with
    | nil => exact fun t ht => List.eq_nil_iff_forall_not_mem.2 fun p hp => List.not_mem_nil (ht p hp)
    | cons q ps ih =>
      refine fun t ht => ih _ fun p hp => ?_
      rw [applyInv_invs] at hp
      obtain ⟨hm, hne⟩ := List.mem_filter.1 hp
      refine (List.mem_cons.1 (ht p hm)).resolve_left fun h => ?_
      rw [h] at hne; simp at hne
  have hkeep : ∀ (ps : List (Nat × Nat)) (t : State), (ps.foldl (fun t p => applyInv (1 - die) p.1 p.2 t) t).die die = t.die die := fun ps => by
    induction ps with
    | nil => exact fun _ => rfl
    | cons q ps ih => exact fun t => (ih _).trans (applyInv_die_ne (by omega))
  refine ⟨fun l hl => ?_, hinv _ _ fun _ => id⟩
  rw [flushDie, hkeep] at hl
  exact hback _ s (fun x hx _ => hx) l hl

/-! ### SYNC words with a check of their own (R207, R208) -/

section

variable {s : State} {l : List Nat}

theorem syncFree_fenced (h : Safety.syncFree true l s) : Safety.syncFree false l s ∧ (s.cur.side = .xp → s.me.unfinished = []) := by
  obtain ⟨he, ⟨hs, hw⟩ | ⟨hs, hw, hf⟩⟩ := h
  · exact ⟨⟨he, .inl ⟨hs, hw⟩⟩, fun hx => by rw [hs] at hx; cases hx⟩
  · exact ⟨⟨he, .inr ⟨hs, hw, by simp⟩⟩, fun _ => hf rfl⟩

/-- A fenced SYNC word that nothing holds back, its sources clean, comes to its body, which makes the word's own check too. -/
theorem xpSync_free {bad : Bool} {srcs dsts : List Nat} {body : State → Except Trap State} (h : Safety.syncFree true l s)
    (hc : Safety.clean srcs s) (hl : srcs ++ dsts ⊆ l) (hb : bad = true → body s = refuseIllegal) :
    .next (xpFirst (illegalIf bad) (syncWord true srcs dsts body) s) = (.next (settle (body s) s) : Res) := by
  obtain ⟨hfree, hx⟩ := syncFree_fenced h
  have hword : .next (syncWord true srcs dsts body s) = (.next (settle (body s) s) : Res) :=
    (syncWord_free body hfree (fun _ => hx) hl).trans (if_neg fun hp => by rw [hc hp.1] at hp; cases hp.2)
  cases hside : s.cur.side with
  | ap => simpa only [xpFirst, hside] using hword
  | xp =>
    cases hbad : bad with
    | false => simpa [xpFirst, hside, illegalIf] using hword
    | true => simp only [xpFirst, hside, illegalIf, if_true, hb hbad]; rfl

end

/-- The part once a task has registered a wait on a semaphore in record i (R210, R214). -/
def registeredOn (n i : Nat) (r : ContRec) (s : State) : State :=
  (((s.modMe (fun k => { k with pool := tset k.pool i r })).modSema s.cur.core n (fun x => { x with waiters := x.waiters ++ [i] })).modMySide
    (fun x => { x with run := .idle })).act s.cur.core

theorem modSema_modSide_core (s : State) (c n : Nat) (sd : Side) (f : Sema → Sema) (g : SideSt → SideSt) :
    ((s.modSema c n f).modSide c sd g).core c = ((s.core c).withSema n (f ((s.core c).sema n))).modSide sd g := by
  rw [State.modSide, State.core_modCore, State.core_modSema]; rfl

theorem registeredOn_me (n i : Nat) (r : ContRec) (s : State) : (registeredOn n i r s).me =
    ({ s.me with pool := tset s.me.pool i r }.withSema n { s.me.sema n with waiters := (s.me.sema n).waiters ++ [i] }).modSide s.cur.side
      (fun x => { x with run := .idle }) := by
  have hme : (s.modMe (fun k => { k with pool := tset k.pool i r })).core s.cur.core = { s.me with pool := tset s.me.pool i r } :=
    State.me_modMe s (fun k => { k with pool := tset k.pool i r })
  refine (modSema_modSide_core (s.modMe (fun k => { k with pool := tset k.pool i r })) s.cur.core n s.cur.side
    (fun x => { x with waiters := x.waiters ++ [i] }) (fun x => { x with run := .idle })).trans ?_
  rw [hme]; rfl

/-- A wait on a semaphore that is not satisfied, the registers it saves having their values. -/
theorem waitOn_waits {s : State} {mask : Addr} {d arg n : Nat} :
    Safety.waits (.next (settle (waitOn .wait mask d arg none
      (fun i s => s.modSema s.cur.core n (fun x => { x with waiters := x.waiters ++ [i] })) s) s)) s .wait mask d arg
      (fun i t => t.me.sema n = { s.me.sema n with waiters := (s.me.sema n).waiters ++ [i] }) := by
  intro hloads
  have hsaves : savesWait s mask = false := by
    unfold savesWait
    split
    next hs => exact hloads hs
    next => rfl
  rw [waitOn, hsaves, if_neg Bool.false_ne_true, registerWait]
  refine ⟨fun hfr => by rw [if_pos hfr]; rfl, fun hfr hfree => ?_, fun i hfr hfree => ?_⟩
  · rw [if_neg (by rw [hfr]; exact Bool.false_ne_true), hfree]; rfl
  · rw [if_neg (by rw [hfr]; exact Bool.false_ne_true), hfree]
    have hme := registeredOn_me n i (waitRec s .wait mask d arg none) s
    have hside : (registeredOn n i (waitRec s .wait mask d arg none) s).mySide = { s.mySide with run := .idle } := by
      rw [State.mySide, hme]
      refine (Core.side_modSide ..).trans ?_
      rw [State.mySide]
      cases s.cur.side <;> rfl
    refine ⟨registeredOn n i (waitRec s .wait mask d arg none) s, rfl, ?_, by rw [hside], by rw [hside],
      waitRec s .wait mask d arg none, ?_, rfl, rfl, rfl, rfl, rfl, rfl, rfl, rfl⟩
    · dsimp only
      rw [hme, Core.sema, Core.modSide_semas]; exact tget_tset_same ..
    · rw [hme, Core.modSide_pool]
      exact (tfind_tset ..).trans (if_pos rfl)

/-! ### A raise (R215, R224) -/

theorem Signalled.dies {s t : State} (h : Signalled s t) : t.dies = s.dies := by rw [← h.rest]


/-- A core's rectangle and die are checked in this order. -/
theorem coreCheck_eq {s : State} {h : Heat} (hh : s.heatOf s.cur.core = some h) (m : Addr) : coreCheck s m =
    if m.toNat < 192 ∧ s.form.hasDie (dieOf m.toNat) = false then some (trapAt .dieAbsent)
    else if m.toNat < 192 ∧ h.hr.has m.toNat = true then none else some (trapAt .owner) := by
  rw [coreCheck, hh]

theorem flushDie_cores (die : Nat) (s : State) : (flushDie die s).cores = s.cores := (flushDie_step s die).cores

section

variable {s : State} {c n cnt : Nat}

theorem releaseTo_core (d : Nat) : (releaseTo c s).core d = s.core d := by
  unfold releaseTo
  split
  · rfl
  · rw [State.core, State.core, flushDie_cores]

theorem releaseTo_rd (a : Nat) : (releaseTo c s).rd a = s.rd a := by
  unfold releaseTo
  split
  · rfl
  · have h := flushDie_step s (dieOf s.cur.core)
    simp only [State.rd, State.me, h.curCore, h.curSide, State.core, flushDie_cores]

/-- What a raise makes of its semaphore before it serves anyone (R215). -/
def Sema.raised (x : Sema) (cnt : Nat) : Sema :=
  { x with count := Nat.min (x.count + cnt) 65535, overBit := x.overBit || decide (65535 < x.count + cnt) }

theorem raiseSema_eq : raiseSema c n cnt false s =
    (serveSema ((((s.core c).sema n).raised cnt).waiters.length + 5) c n (s.modSema c n (fun x => x.raised cnt))).act c := by
  have hf : (fun x : Sema => ({ x with
      count := Nat.min (x.count + cnt) 65535, overBit := x.overBit || decide (x.count + cnt > 65535), fault := x.fault || false } : Sema)) =
      fun x => x.raised cnt := funext fun x => by simp [Sema.raised]
  have hx : ((s.modSema c n (fun x => x.raised cnt)).core c).sema n = ((s.core c).sema n).raised cnt := by
    rw [State.core_modSema]; exact tget_tset_same ..
  rw [raiseSema, hf, serveAll, hx]

/-- A release toward a core whose loads are done goes on to what it releases. -/
theorem settle_release_done {flush : State → State} {go : State → Except Trap State} (h : Safety.loadsDone s)
    (hf : flush s = s ∨ flush s = flushDie (dieOf s.cur.core) s) : settle (release flush go s) s = settle (go (flush s)) s := by
  obtain ⟨hl, ho, hfo⟩ := h
  rw [settle_release, if_neg (fun hp => hp.2 (hl hp.1)), if_neg]
  rcases hf with hf | hf <;> rw [hf]
  · rw [ho]; exact Bool.false_ne_true
  · rw [hfo]; exact Bool.false_ne_true

/-- The state from which a raise serves the waiters. -/
def raisedState (c n cnt : Nat) (s : State) : State := (releaseTo c s).modSema c n (fun x => x.raised cnt)

theorem raisedState_core : (raisedState c n cnt s).core c = (s.core c).withSema n (((s.core c).sema n).raised cnt) := by
  rw [raisedState, State.core_modSema, releaseTo_core]; rfl

theorem raisedState_core_ne {d : Nat} (h : d ≠ c) : (raisedState c n cnt s).core d = s.core d := by
  rw [raisedState, State.modSema, State.core_modCore_ne _ _ _ _ h, releaseTo_core]

theorem raisedState_sema : ((raisedState c n cnt s).core c).sema n = ((s.core c).sema n).raised cnt := by
  rw [raisedState_core, Core.withSema_sema]

theorem raise_serves : raiseSema c n cnt false (releaseTo c s) =
    (serveSema (((s.core c).sema n).waiters.length + 5) c n (raisedState c n cnt s)).act c := by
  rw [raiseSema_eq, releaseTo_core]; rfl

theorem raise_others {k : Nat} (hk : k ≠ n) : ((raiseSema c n cnt false (releaseTo c s)).core c).sema k = (s.core c).sema k := by
  rw [raise_serves, act_core, serveSema_others _ hk, raisedState_core]
  exact tget_tset_other _ _ _ _ _ hk

/-- A raise toward another die leaves its own die released (R224). -/
theorem raise_released (h : dieOf c ≠ dieOf s.cur.core) :
    Safety.released (dieOf s.cur.core) (raiseSema c n cnt false (releaseTo c s)) := by
  have hto : releaseTo c s = flushDie (dieOf s.cur.core) s := if_neg h
  have hsig := raiseSema_signalled (releaseTo c s) c n cnt false
  rw [hto] at hsig ⊢
  have hdies := hsig.dies
  have hrel := flushDie_released (dieOf_lt s.cur.core) s
  unfold Safety.released State.die at hrel ⊢
  rw [hdies]
  exact hrel

/-- A raise leaves its semaphore covering nobody (R215). -/
theorem raise_ends : headsOn ((raiseSema c n cnt false (releaseTo c s)).core c) n = [] ∧
    firstCovered ((raiseSema c n cnt false (releaseTo c s)).core c) n = [] := by
  rw [raise_serves, act_core]
  refine serveSema_ends ?_
  have hw : (((raisedState c n cnt s).core c).sema n).waiters = ((s.core c).sema n).waiters := by rw [raisedState_sema]; rfl
  have : (headsOn ((raisedState c n cnt s).core c) n).length ≤ 4 := List.length_filter_le ..
  rw [toServe, hw]
  omega

theorem lt_need_of_firstCovered {k : Core} {i : Nat} {l : List Nat} (h : firstCovered k n = []) (hw : (k.sema n).waiters = i :: l) :
    (k.sema n).count < k.need i := by
  by_contra hle
  rw [firstCovered, hw] at h
  simp [not_lt.1 hle] at h

/-- A raise on which only tasks wait serves them oldest first (R214, R215). -/
theorem raise_tasks (h : headsOn ((s.core c).withSema n (((s.core c).sema n).raised cnt)) n = []) :
    let x := ((s.core c).sema n).raised cnt
    let v := Safety.served (s.core c).need x.waiters x.count
    ((raiseSema c n cnt false (releaseTo c s)).core c).sema n = { x with count := v.2.1, waiters := v.2.2 } ∧
      Safety.woken s (raiseSema c n cnt false (releaseTo c s)) x.value (v.1.map (fun i => (c, i))) := by
  have hsema := raisedState_sema (s := s) (c := c) (n := n) (cnt := cnt)
  have hneed : ((raisedState c n cnt s).core c).need = (s.core c).need := by rw [raisedState_core]; rfl
  have hserved := serveSema_tasks (s := raisedState c n cnt s) (c := c) (n := n) (fuel := ((s.core c).sema n).waiters.length + 5)
    (by rw [raisedState_core]; exact h) (by rw [hsema]; exact Nat.lt_add_of_pos_right (by decide))
  rw [hsema, hneed] at hserved
  obtain ⟨hx, hwoken⟩ := hserved
  have hw := hwoken.woken (w := s) fun d => by
    by_cases hd : d = c
    · subst hd; rw [raisedState_core]; exact ⟨rfl, fun sd => by cases sd <;> rfl⟩
    · rw [raisedState_core_ne hd]; exact ⟨rfl, fun _ => rfl⟩
  refine ⟨by rw [raise_serves, act_core]; exact hx, ?_⟩
  rw [raise_serves]
  unfold Safety.woken at hw ⊢
  simpa only [act_core] using hw

/-- A raise on which one head alone waits serves it (R139, R215). -/
theorem raise_head {r : Nat} {e : RecEntry} (hw : ((s.core c).sema n).waiters = [])
    (h : headsOn ((s.core c).withSema n (((s.core c).sema n).raised cnt)) n = [r]) (he : ((s.core c).ring r).head = some e) :
    let x := ((s.core c).sema n).raised cnt
    ((raiseSema c n cnt false (releaseTo c s)).core c).sema n = { x with count := x.count - rkAwaitN e.bytes } ∧
      ((raiseSema c n cnt false (releaseTo c s)).core c).ring r = { (s.core c).ring r with
        st := .run, skip := if rkRunf e.bytes then none else if x.fault then some 0x19 else none } := by
  have hsema := raisedState_sema (s := s) (c := c) (n := n) (cnt := cnt)
  have hcore := raisedState_core (s := s) (c := c) (n := n) (cnt := cnt)
  obtain ⟨hring, hx⟩ := serveHead_takes (s := raisedState c n cnt s) (c := c) (r := r) (e := e) (by rw [hcore]; exact he) n
  rw [raise_serves, act_core, serveSema_oneHead (by rw [hsema]; exact hw) (by rw [hcore]; exact h), hx, hring, hsema, hcore]
  exact ⟨rfl, rfl⟩

/-! ### The words `wait` and `raise` that nothing holds back -/

section

variable {d a : Nat} (hfree : Safety.syncFree true [a, d] s) (hclean : Safety.clean [a] s)
include hfree hclean

theorem wait_refused (h : cnt = 0 ∨ maskOk (s.rd a) = false) : exec (.wait d a cnt n) s = Safety.traps (trapAt .illegal) s := by
  have hx : exec (.wait d a cnt n) s = _ := xpSync_free (bad := cnt == 0) (srcs := [a]) (dsts := [d]) hfree hclean (by simp)
    fun hb => if_pos (.inl (beq_iff_eq.1 hb))
  rw [hx, if_pos h]; rfl

theorem wait_takes (hc : cnt ≠ 0) (hok : maskOk (s.rd a) = true) (hw : (s.me.sema n).waiters = []) (hle : cnt ≤ (s.me.sema n).count) :
    exec (.wait d a cnt n) s = .next (finish ((s.modSema s.cur.core n (fun y => { y with count := y.count - cnt })).put d (s.me.sema n).value)) := by
  have hx : exec (.wait d a cnt n) s = _ := xpSync_free (bad := cnt == 0) (srcs := [a]) (dsts := [d]) hfree hclean (by simp)
    fun hb => if_pos (.inl (beq_iff_eq.1 hb))
  rw [hx, if_neg (by rw [hok]; simp [hc]), if_pos ⟨hw, hle⟩]; rfl

theorem wait_registers (hc : cnt ≠ 0) (hok : maskOk (s.rd a) = true) (h : (s.me.sema n).waiters ≠ [] ∨ (s.me.sema n).count < cnt) :
    Safety.waits (exec (.wait d a cnt n) s) s .wait (s.rd a) d cnt (fun i t =>
      t.me.sema n = { s.me.sema n with waiters := (s.me.sema n).waiters ++ [i] }) := by
  have hx : exec (.wait d a cnt n) s = _ := xpSync_free (bad := cnt == 0) (srcs := [a]) (dsts := [d]) hfree hclean (by simp)
    fun hb => if_pos (.inl (beq_iff_eq.1 hb))
  rw [hx, if_neg (by rw [hok]; simp [hc]), if_neg fun hp => h.elim (fun h => h hp.1) fun h => absurd hp.2 (not_le.2 h)]
  exact waitOn_waits

theorem raise_zero : exec (.raise a 0 n) s = Safety.traps (trapAt .illegal) s := by
  have hx : exec (.raise a 0 n) s = _ := xpSync_free (bad := true) (srcs := [a]) (dsts := []) hfree hclean (by simp) fun _ => if_pos rfl
  rw [hx, if_pos rfl]; rfl

theorem raise_fails {t : Trap} (hc : cnt ≠ 0) (ha : a ≠ 0) (h : coreCheck s (s.rd a) = some t) :
    exec (.raise a cnt n) s = Safety.traps t s := by
  have hx : exec (.raise a cnt n) s = _ := xpSync_free (bad := cnt == 0) (srcs := [a]) (dsts := []) hfree hclean (by simp)
    fun hb => if_pos (beq_iff_eq.1 hb)
  rw [hx, if_neg hc, if_neg ha, h]; rfl

theorem raise_own (hc : cnt ≠ 0) (ha : a = 0) (hdone : Safety.loadsDone s) :
    exec (.raise a cnt n) s = .next (finish (raiseSema s.cur.core n cnt false s)) := by
  have hx : exec (.raise a cnt n) s = _ := xpSync_free (bad := cnt == 0) (srcs := [a]) (dsts := []) hfree hclean (by simp)
    fun hb => if_pos (beq_iff_eq.1 hb)
  rw [hx, if_neg hc, if_pos ha, settle_release_done hdone (.inl rfl)]; rfl

theorem raise_toward (hc : cnt ≠ 0) (ha : a ≠ 0) (h : coreCheck s (s.rd a) = none) (hdone : Safety.loadsDone s) :
    exec (.raise a cnt n) s = .next (finish (raiseSema (s.rd a).toNat n cnt false (releaseTo (s.rd a).toNat s))) := by
  have hx : exec (.raise a cnt n) s = _ := xpSync_free (bad := cnt == 0) (srcs := [a]) (dsts := []) hfree hclean (by simp)
    fun hb => if_pos (beq_iff_eq.1 hb)
  have hto : releaseTo (s.rd a).toNat s = s ∨ releaseTo (s.rd a).toNat s = flushDie (dieOf s.cur.core) s := by
    unfold releaseTo
    split
    exacts [.inl rfl, .inr rfl]
  rw [hx, if_neg hc, if_neg ha, h]
  dsimp only
  rw [settle_release_done hdone hto, releaseTo_rd]
  rfl

end

end

end Sys2Proof.Machine

namespace Sys2Proof

open Sys2Proof.Machine

/-- Settles O36: a wait is its own semaphore's test, and a raise a change of the semaphore, after which one waiter after another is served
until COUNT covers none. -/
theorem semaphoreWaitsAndRaises : Obligations.SemaphoreWaitsAndRaises := by
  unfold Obligations.SemaphoreWaitsAndRaises
  intro s d a n cnt hfree hclean h hh x m c v raised
  have hvalue : v = x.value := by rw [Sema.value, Nat.mul_comm]
  refine ⟨wait_refused hfree hclean, fun hc0 hok => ⟨fun hw hle => ?_, wait_registers hfree hclean hc0 hok⟩, fun hc0 => ?_,
    fun hc0 ha hlt hdie => ?_, fun hc0 ha hout => ?_, fun hc0 hok hdone => ?_⟩
  · rw [hvalue]; exact wait_takes hfree hclean hc0 hok hw hle
  · rw [hc0]; exact raise_zero hfree hclean
  · have hcm : c = m.toNat := if_neg ha
    rw [hcm] at hlt hdie
    exact raise_fails hfree hclean hc0 ha ((coreCheck_eq hh m).trans (if_pos ⟨hlt, hdie⟩))
  · have hcm : c = m.toNat := if_neg ha
    rw [hcm] at hout
    refine raise_fails hfree hclean hc0 ha ((coreCheck_eq hh m).trans ((if_neg ?_).trans (if_neg ?_)))
    · rintro ⟨hlt, hno⟩
      rcases hout with h' | ⟨h', -⟩
      · omega
      · rw [h'] at hno; cases hno
    · rintro ⟨hlt, hhas⟩
      rcases hout with h' | ⟨-, h'⟩
      · omega
      · rw [h'] at hhas; cases hhas
  · have hgo : exec (.raise a cnt n) s = .next (finish (raiseSema c n cnt false (releaseTo c s))) := by
      by_cases ha : a = 0
      · have hcm : c = s.cur.core := if_pos ha
        rw [raise_own hfree hclean hc0 ha hdone, hcm, releaseTo, if_pos rfl]
      · have hcm : c = m.toNat := if_neg ha
        obtain ⟨hlt, hdie, hhas⟩ := hok.resolve_left ha
        rw [hcm] at hlt hdie hhas ⊢
        exact raise_toward hfree hclean hc0 ha
          ((coreCheck_eq hh m).trans ((if_neg (by rw [hdie]; simp)).trans (if_pos ⟨hlt, hhas⟩))) hdone
    have hkept : ∀ f : Sema, (s.modSema c n (fun _ => f)).core c = (s.core c).withSema n f := fun f => State.core_modSema ..
    rw [hkept]
    refine ⟨_, hgo, fun k hk => raise_others hk, raise_released, raise_ends.1, fun i l hl => lt_need_of_firstCovered raise_ends.2 hl,
      fun hon => ?_, fun r e hempty hon he => ?_⟩
    · obtain ⟨hx, hwoken⟩ := raise_tasks hon
      refine ⟨hx, ?_⟩
      rw [Nat.mul_comm 2]
      exact hwoken
    · obtain ⟨hx, hring⟩ := raise_head hempty hon he
      refine ⟨hx, by rw [hring], ?_⟩
      rw [hring]
      change (if rkRunf e.bytes = true then none else if raised.fault = true then some 0x19 else none) = _
      cases rkRunf e.bytes <;> simp

end Sys2Proof

namespace Sys2Proof.Machine

/-! ### What a completion leaves of lanes and of streams (R140, R346) -/

theorem tget_map_snd {α β : Type} (f : α → β) (t : Tbl α) (k : Nat) (d : α) :
    tget (t.map (fun p => (p.1, f p.2))) k (f d) = f (tget t k d) := by
  induction t with
  | nil => rfl
  | cons p t ih =>
    rw [List.map_cons, tget, tget]
    split
    exacts [rfl, ih]

theorem tfind_map_snd {α β : Type} (f : α → β) (t : Tbl α) (k : Nat) :
    tfind (t.map (fun p => (p.1, f p.2))) k = (tfind t k).map f := by
  induction t with
  | nil => rfl
  | cons p t ih =>
    rw [List.map_cons, tfind, tfind]
    split
    exacts [rfl, ih]

section

variable {s t : State}

theorem Signalled.lanes (h : Signalled s t) : t.lanes = s.lanes := by rw [← h.rest]

theorem Signalled.streams (h : Signalled s t) (d : Nat) : (t.core d).streams = (s.core d).streams := by rw [← h.core d]

theorem wakeList_signalled (fuel : Nat) (v : Addr) (d i : Nat) (s : State) : Signalled s (wakeList fuel v d i s) := by
  induction fuel generalizing d i s with
  | zero => exact .refl s
  | succ fuel ih =>
    unfold wakeList
    split
    · dsimp only
      split
      exacts [(wake_signalled ..).trans (ih ..), wake_signalled ..]
    · exact .refl s

/-- A raise is signals, after at most one write of memory, that of the future it resolves. -/
theorem raiseRecord_writes (c : Nat) (b : BitVec 512) (value bytes : Nat) (fault : Option Nat) (s : State) :
    ∃ m, Signalled { s with mem := m } (raiseRecord c b value bytes fault s) := by
  by_cases h : rkRaiseKind b = 2
  · unfold raiseRecord
    rw [h]
    change ∃ m, Signalled _ (match s.place c (handleAddr (rkRaiseFut b)) with | some p => _ | none => s)
    split
    · next p _ =>
      refine ⟨(setFuture p (fault.elim (resolvedWord value) faultedWord) s).mem, Signalled.trans ?_ (act_signalled _ c)⟩
      unfold resolveFuture
      dsimp only
      split
      exacts [wakeList_signalled .., .refl _]
    · exact ⟨s.mem, .refl s⟩
  · exact ⟨s.mem, raiseRecord_signalled _ h ..⟩

theorem raiseRecord_lanes (c : Nat) (b : BitVec 512) (value bytes : Nat) (fault : Option Nat) (s : State) :
    (raiseRecord c b value bytes fault s).lanes = s.lanes := by
  obtain ⟨m, h⟩ := raiseRecord_writes c b value bytes fault s
  exact h.lanes

theorem flushDie_lanes (die : Nat) (s : State) : (flushDie die s).lanes = s.lanes := by
  have h := congrArg State.lanes (flushDie_step s die).rest
  exact h

theorem dropNet_lanes (c r : Nat) (s : State) : (dropNet c r s).lanes = s.lanes := by
  unfold dropNet
  dsimp only
  split <;> rfl

theorem ringFault_lanes (c r code cause : Nat) (deferred stopped : Bool) (index : Nat) (a : Addr) (k : Nat) (s : State) :
    (ringFault c r code cause deferred stopped index a k s).lanes = s.lanes := by
  have h := congrArg State.lanes (ringFault_rest c r code cause deferred stopped index a k s)
  exact h

/-- A lane that no longer serves a record. -/
def Lane.without (c r : Nat) (y : Lane) : Lane :=
  { y with reqs := y.reqs.filter (fun x => !(x == (c, r))), run := y.run.filter (fun x => !((x.core, x.ring) == (c, r))) }

/-- A stream that no longer serves a record. -/
def Stream.without (c r : Nat) (st : Stream) : Stream :=
  { st with holder := st.holder.filter (fun x => !(x == (c, r))), wants := st.wants.filter (fun x => !(x == (c, r))) }

theorem endRequests_lane (c r : Nat) (b : BitVec 512) (s : State) (n : Nat) :
    (endRequests c r b s).lane n =
      if rkKind b = 7 ∨ rkKind b = 8 ∨ (rkKind b = 1 ∧ rkDecode b = true) then (s.lane n).without c r else s.lane n := by
  have hlanes : (endRequests c r b s).lanes = if rkKind b = 7 ∨ rkKind b = 8 ∨ (rkKind b = 1 ∧ rkDecode b = true) then
      s.lanes.map (fun p => (p.1, p.2.without c r)) else s.lanes := by
    unfold endRequests
    extract_lets mine s1 s2
    have h2 : s2.lanes = if rkKind b = 7 ∨ rkKind b = 8 ∨ (rkKind b = 1 ∧ rkDecode b = true) then
        s.lanes.map (fun p => (p.1, p.2.without c r)) else s.lanes := by
      unfold s2
      split <;> rfl
    split
    · exact h2
    · split
      exacts [(dropNet_lanes ..).trans h2, h2]
  rw [State.lane, hlanes]
  split
  exacts [tget_map_snd (Lane.without c r) s.lanes n Lane.reset, rfl]

theorem endRetire_lane (c r : Nat) (b : BitVec 512) (s : State) (n : Nat) :
    (endRetire c r b s).lane n = (endRequests c r b s).lane n := rfl

theorem endRetire_streams (c r : Nat) (b : BitVec 512) (s : State) (d : Nat) :
    ((endRetire c r b s).core d).streams = ((endRequests c r b s).core d).streams := by
  have hmod : ∀ (t : State) {f : Core → Core}, (∀ k, (f k).streams = k.streams) → ((t.modCore c f).core d).streams = (t.core d).streams :=
    fun t f hf => by
      by_cases h : d = c
      · subst h; rw [State.core_modCore, hf]
      · rw [State.core_modCore_ne _ _ _ _ h]
  have hhold := hmod (endRequests c r b s)
    (f := fun k => if k.holdRing = some r then { k with holdRing := none, hold := [], holdBad := none } else k) fun k => by split <;> rfl
  exact (hmod _ (f := fun k => { k with rings := tset k.rings r (popHead (k.ring r)) }) fun _ => rfl).trans hhold

/-- A stream that a LANE.RUN record's retirement has left, but for its holder and who waits for it. -/
theorem endRequests_stream {c r n d : Nat} {b : BitVec 512} {s : State} {st : Stream} (h8 : rkKind b = 8)
    (h : tfind (s.core d).streams n = some st) :
    tfind ((endRequests c r b s).core d).streams n = some st ∨ tfind ((endRequests c r b s).core d).streams n = some (st.without c r) := by
  unfold endRequests
  extract_lets mine s1 s2
  have h2 : s2.cores = s.cores := by
    unfold s2
    split <;> rfl
  rw [if_pos h8]
  by_cases hd : d = recFld b 0x14 2
  · subst hd
    refine .inr ?_
    rw [State.core_modCore, State.core, h2]
    refine (tfind_map_snd (Stream.without c r) (s.core _).streams n).trans ?_
    rw [h]
    rfl
  · refine .inl ?_
    rw [State.core_modCore_ne _ _ _ _ hd, State.core, h2]
    exact h

end

/-- The tables of the lanes are as before. -/
def TablesKept (s t : State) : Prop := ∀ n, (t.lane n).table = (s.lane n).table

theorem TablesKept.of_lanes {s t : State} (h : t.lanes = s.lanes) : TablesKept s t := fun n => by rw [State.lane, State.lane, h]

theorem TablesKept.trans {s t u : State} (h : TablesKept s t) (h' : TablesKept t u) : TablesKept s u := fun n => (h' n).trans (h n)

/-- A completion leaves the tables of the lanes. -/
theorem completion_tables (c r : Nat) (b : BitVec 512) : CompletionKeeps c r b TablesKept where
  refl _ _ := rfl
  trans := TablesKept.trans
  flush s := .of_lanes (flushDie_lanes ..)
  net s := .of_lanes (dropNet_lanes ..)
  raise value bytes fault s := .of_lanes (raiseRecord_lanes ..)
  fault code cause deferred stopped index a k s := .of_lanes (ringFault_lanes ..)
  ring f s := .of_lanes rfl
  leave s n := by
    rw [endRetire_lane, endRequests_lane]
    split <;> rfl

end Sys2Proof.Machine

namespace Sys2Proof.Machine

/-! ### LANE.LOAD (R141, R153) -/

theorem tableWrite_below {n w w' : Nat} (h : w' < w) (l : List Byte) (t : Tbl (BitVec 32)) :
    tget (tableWrite n w l t) w' 0 = tget t w' 0 := by
  induction n generalizing w l t with
  | zero => rfl
  | succ n ih => rw [tableWrite, ih (by omega), tget_tset_other _ _ _ _ _ (by omega)]

/-- A word of bytes written into a table. -/
theorem tableWrite_word {n w j : Nat} (h : j < n) (l : List Byte) (t : Tbl (BitVec 32)) :
    tget (tableWrite n w l t) (w + j) 0 = BitVec.ofNat 32 (bytesNat ((l.drop (4 * j)).take 4)) := by
  induction n generalizing w j l t with
  | zero => omega
  | succ n ih =>
    rw [tableWrite]
    cases j with
    | zero =>
      change tget (tableWrite n (w + 1) _ _) w 0 = _
      rw [tableWrite_below (Nat.lt_add_one w), tget_tset_same]; rfl
    | succ j =>
      have hw : w + (j + 1) = w + 1 + j := by omega
      have hl : 4 * (j + 1) = 4 + 4 * j := by omega
      rw [hw, ih (by omega), List.drop_drop, hl]

section

variable {s : State} {c r k : Nat} {b : BitVec 512}

/-- The state after a LANE.LOAD chunk has been read and put into its lane's table. -/
def laneLoaded (c r k : Nat) (b : BitVec 512) (u : State) : State :=
  let lane := recFld b 0x10 1
  let n := Nat.min 4096 (recFld b 0x20 4 - 4096 * k)
  let x := readPieces (n / 16 + 2) c (BitVec.ofNat 64 (recFld b 0x18 8 + 4096 * k)) n (passLane lane (u.ctxOf c) (laneTake1 lane c r u))
  (x.1.modLane lane (fun y =>
    { y with table := tableWrite (n / 4) ((recFld b 0x24 4 + 4096 * k) / 4) (x.2.flatMap (fun p => p.1)) y.table })).modRing c r
      (fun g => { g with value := g.value + BitVec.ofNat 32 n })

theorem laneServed_reads (lane : Nat) (u : State) : SameReads u (passLane lane (u.ctxOf c) (laneTake1 lane c r u)) :=
  (laneTake1_reads ..).trans (passLane_reads ..)

/-- A LANE.LOAD chunk of a free lane whose source can be read and is clean. -/
theorem laneLoad_due (h : Safety.chunkDue c r 7 k b s) (hk : 4096 * k < recFld b 0x20 4)
    (ht : laneTurn (asSide c .ap s) (recFld b 0x10 1) c r = true)
    (hs : spanFault (asSide c .ap s) c (BitVec.ofNat 64 (recFld b 0x18 8 + 4096 * k)) (Nat.min 4096 (recFld b 0x20 4 - 4096 * k)) .load = none)
    (hp : firstPoison (BitVec.ofNat 64 (recFld b 0x18 8 + 4096 * k)) (readPieces (Nat.min 4096 (recFld b 0x20 4 - 4096 * k) / 16 + 2) c
      (BitVec.ofNat 64 (recFld b 0x18 8 + 4096 * k)) (Nat.min 4096 (recFld b 0x20 4 - 4096 * k)) (asSide c .ap s)).2 = none) :
    exec (.laneLoad c r k) s =
      .next (finishChunk c r k ((recFld b 0x20 4 + 4095) / 4096) 0 (laneLoaded c r k b (asSide c .ap s))) := by
  have hn : ¬ (recFld b 0x20 4 + 4095) / 4096 ≤ k := by omega
  have hturn : ¬ laneTurn (asSide c .ap s) (recFld b 0x10 1) c r = false := by rw [ht]; exact Bool.noConfusion
  have hw := laneServed_reads (c := c) (r := r) (recFld b 0x10 1) (asSide c .ap s)
  refine congrArg _ ((chunkStep_due h _).trans ?_)
  rw [laneLoadChunk, chunkDue_head h]
  refine (if_neg (fun hc => hn (hc.trans (chunkDue_window h)))).trans ((if_neg hn).trans ((if_neg hturn).trans ?_))
  dsimp only
  rw [hw.maps.spanFault, hs]
  dsimp only
  rw [(hw.readPieces ..).2, hp]
  unfold laneLoaded
  dsimp only
  rw [(hw.readPieces ..).2]

theorem laneLoaded_progress (hl : s.cur.link = none) : ProgressKept c r s (laneLoaded c r k b (asSide c .ap s)) := by
  have hlane : ProgressKept c r s (passLane (recFld b 0x10 1) ((asSide c .ap s).ctxOf c) (laneTake1 (recFld b 0x10 1) c r (asSide c .ap s))) :=
    ⟨rfl, rfl, rfl, rfl⟩
  have hread := hlane.trans (.of_mem (readPieces_reads _
    (Nat.min 4096 (recFld b 0x20 4 - 4096 * k) / 16 + 2) c (BitVec.ofNat 64 (recFld b 0x18 8 + 4096 * k))
    (Nat.min 4096 (recFld b 0x20 4 - 4096 * k))).toMemStep (hlane.link.trans hl) c r)
  have hput : ∀ {t : State} (n : Nat) (f : Lane → Lane), ProgressKept c r s t → ProgressKept c r s (t.modLane n f) :=
    fun _ _ h => ⟨h.bridge, h.link, h.pending, h.ring⟩
  exact (hput _ _ hread).trans (.modRing
    (f := fun g => { g with value := g.value + BitVec.ofNat 32 (Nat.min 4096 (recFld b 0x20 4 - 4096 * k)) }) fun _ => rfl)

/-- A word that a LANE.LOAD chunk has put into its lane's table. -/
theorem laneLoaded_word {u : State} {j : Nat} (hj : j < Nat.min 4096 (recFld b 0x20 4 - 4096 * k) / 4) :
    tget ((laneLoaded c r k b u).lane (recFld b 0x10 1)).table ((recFld b 0x24 4 + 4096 * k) / 4 + j) 0 =
      BitVec.ofNat 32 (bytesNat (((Safety.chunkRead u c (BitVec.ofNat 64 (recFld b 0x18 8 + 4096 * k))
        (Nat.min 4096 (recFld b 0x20 4 - 4096 * k))).drop (4 * j)).take 4)) := by
  have hlane : ∀ (t : State) (f : Ring → Ring) (n : Nat), (t.modRing c r f).lane n = t.lane n := fun _ _ _ => rfl
  have hw := laneServed_reads (c := c) (r := r) (recFld b 0x10 1) u
  unfold laneLoaded
  dsimp only
  rw [hlane, State.lane_modLane, tableWrite_word hj, (hw.readPieces ..).2]
  rfl

/-- A LANE.LOAD chunk lands in its lane's table and is done (R153). -/
theorem laneLoad_lands (h : Safety.chunkDue c r 7 k b s) (hk : 4096 * k < recFld b 0x20 4)
    (ht : laneTurn (asSide c .ap s) (recFld b 0x10 1) c r = true)
    (hs : spanFault (asSide c .ap s) c (BitVec.ofNat 64 (recFld b 0x18 8 + 4096 * k)) (Nat.min 4096 (recFld b 0x20 4 - 4096 * k)) .load = none)
    (hp : firstPoison (BitVec.ofNat 64 (recFld b 0x18 8 + 4096 * k)) (readPieces (Nat.min 4096 (recFld b 0x20 4 - 4096 * k) / 16 + 2) c
      (BitVec.ofNat 64 (recFld b 0x18 8 + 4096 * k)) (Nat.min 4096 (recFld b 0x20 4 - 4096 * k)) (asSide c .ap s)).2 = none) :
    ∃ t, exec (.laneLoad c r k) s = .next t ∧ Safety.chunkDone t s c r k ((recFld b 0x20 4 + 4095) / 4096) 0 ∧
      ∀ j, j < Nat.min 4096 (recFld b 0x20 4 - 4096 * k) / 4 →
        tget (t.lane (recFld b 0x10 1)).table ((recFld b 0x24 4 + 4096 * k) / 4 + j) 0 =
          BitVec.ofNat 32 (bytesNat (((Safety.chunkRead (asSide c .ap s) c (BitVec.ofNat 64 (recFld b 0x18 8 + 4096 * k))
            (Nat.min 4096 (recFld b 0x20 4 - 4096 * k))).drop (4 * j)).take 4)) := by
  obtain ⟨e, he, rfl⟩ := chunkDue_record h
  have hprog := laneLoaded_progress (c := c) (r := r) (k := k) (b := e.bytes) h.2.1
  have hhead : (((laneLoaded c r k e.bytes (asSide c .ap s)).core c).ring r).head = some e :=
    (show _ = _ from congrArg Ring.head hprog.ring).trans he
  have htables : TablesKept (laneLoaded c r k e.bytes (asSide c .ap s)) _ :=
    (completion_tables c r e.bytes).finishChunk (k := k) (total := (recFld e.bytes 0x20 4 + 4095) / 4096) (n := 0) hhead (.of_lanes rfl)
  refine ⟨_, laneLoad_due h hk ht hs hp, finishChunk_done hprog he h.2.1 (chunkDue_window h) (chunkDue_open h), fun j hj => ?_⟩
  rw [htables]
  exact laneLoaded_word hj

/-! ### LANE.RUN (R154, R335, R338, R346) -/

theorem putStream_ring (d n : Nat) (st : Stream) (s : State) (c r : Nat) :
    ((putStream d n st s).core c).ring r = (s.core c).ring r ∧ (putStream d n st s).heatOf c = s.heatOf c := by
  rw [State.heatOf, State.heatOf]
  by_cases h : c = d
  · subst h
    rw [putStream_core]
    exact ⟨rfl, rfl⟩
  · rw [putStream_core_ne h]
    exact ⟨rfl, rfl⟩

/-- A stream replaced changes no lane's turn. -/
theorem laneTurn_putStream (d n : Nat) (st : Stream) (s : State) (lane c r : Nat) :
    laneTurn (putStream d n st s) lane c r = laneTurn s lane c r := by
  have hserves : laneServes (putStream d n st s) lane = laneServes s lane := by
    funext x
    obtain ⟨hring, hheat⟩ := putStream_ring d n st s x.1 x.2
    rw [laneServes, laneServes, wantsStill, wantsStill, State.unitsLive, State.unitsLive, State.ctxOf, State.ctxOf, hring, hheat]
    rfl
  rw [laneTurn, laneTurn, hserves]
  rfl

/-- A LANE.RUN whose stream and lane are free takes both, and its run begins. -/
theorem laneRun_starts (h : Safety.chunkDue c r 8 ((s.core c).ring r).chunk b s) (hfree : (s.lane (recFld b 0x10 1)).run = none)
    (ht : laneTurn (asSide c .ap s) (recFld b 0x10 1) c r = true) {n : Nat} {st : Stream}
    (hst : laneStream (asSide c .ap s) (recFld b 0x14 2) (recFld b 0x16 1) (recFld b 0x10 1) = some (n, st))
    (hturn : streamTurn (asSide c .ap s) st c r = true) :
    ∃ t, exec (.laneRun c r) s = .next t ∧
      (t.lane (recFld b 0x10 1)).run = some (newRun c r (BitVec.ofNat 64 (recFld b 0x18 8)) (recFld b 0x20 8) (recFld b 0x14 2)
        (recFld b 0x16 1) (recFld b 0x12 2) ((s.core c).ring r).chunk) ∧
      tfind (t.core (recFld b 0x14 2)).streams n =
        some { st with holder := some (c, r), wants := st.wants.filter (fun x => x != (c, r)) } := by
  have hany : ¬ ((asSide c .ap s).lane (recFld b 0x10 1)).run.any (fun y => y.core == c && y.ring == r) = true := by
    rw [show ((asSide c .ap s).lane (recFld b 0x10 1)).run = none from hfree]; exact Bool.noConfusion
  have hstream : ¬ streamTurn (asSide c .ap s) st c r = false := by rw [hturn]; exact Bool.noConfusion
  have hlane : ¬ laneTurn (putStream (recFld b 0x14 2) n { st with holder := some (c, r), wants := st.wants.filter (fun x => x != (c, r)) }
      (asSide c .ap s)) (recFld b 0x10 1) c r = false := by
    rw [laneTurn_putStream, ht]; exact Bool.noConfusion
  have hexec : exec (.laneRun c r) s = .next (laneRunStart c r (asSide c .ap s)) := congrArg _ (if_pos h.1)
  have hhead : chunkHead (asSide c .ap s) c r 8 (((asSide c .ap s).core c).ring r).chunk = some ((s.core c).ring r, b) := chunkDue_head h
  have hrun := hexec
  rw [laneRunStart] at hrun
  dsimp only at hrun
  rw [hhead] at hrun
  dsimp only at hrun
  rw [if_neg hany, hst] at hrun
  dsimp only at hrun
  rw [if_neg hstream, if_neg hlane] at hrun
  refine ⟨_, hrun, ?_, ?_⟩
  · rw [State.lane_modLane]
    rfl
  · exact putStream_find (recFld b 0x14 2) n _ (asSide c .ap s)

end

end Sys2Proof.Machine

namespace Sys2Proof.Machine

/-! ### A step of the transducer (R342, R343) -/

/-- Two states of a run between which nothing has been emitted: the registers, the position and the copy apart, they are one. -/
def RunKept (y z : LaneRun) : Prop :=
  { z with state := y.state, pos := y.pos, val := y.val, len := y.len, dist := y.dist, cnt := y.cnt, hc0 := y.hc0, hc1 := y.hc1
           copy := y.copy } = y

theorem RunKept.trans {x y z : LaneRun} (h : RunKept x y) (h' : RunKept y z) : RunKept x z := by
  have e := congrArg (fun w : LaneRun => { w with
    state := x.state, pos := x.pos, val := x.val, len := x.len, dist := x.dist, cnt := x.cnt, hc0 := x.hc0, hc1 := x.hc1
    copy := x.copy }) h'
  exact e.trans h

theorem laneOp_kept (x : Input) (op arg : Nat) (y : LaneRun) : RunKept y (laneOp x op arg y).run := by
  unfold laneOp withRead
  (repeat' split) <;> rfl

theorem laneTake_kept (tbl : Nat → Nat) (x : Input) (mode k tbase i : Nat) (y : LaneRun) :
    RunKept y (laneTake tbl x mode k tbase i y).run := by
  unfold laneTake
  extract_lets t cons
  have hop : RunKept y (laneOp x (nfld t 23 5) (nfld t 14 9) { y with pos := y.pos + cons }).run :=
    RunKept.trans (y := { y with pos := y.pos + cons }) rfl (laneOp_kept ..)
  split
  · rfl
  · split
    · rfl
    · split
      exacts [hop, hop.trans rfl]

theorem laneStepOn_kept (tbl : Nat → Nat) (x : Input) (y : LaneRun) : RunKept y (laneStepOn tbl x y).run := by
  unfold laneStepOn
  extract_lets h k set mode sh tbase top
  split
  · rfl
  · split
    · exact laneTake_kept ..
    · split
      · split
        · rfl
        · next v p _ => exact RunKept.trans (y := { y with val := BitVec.ofNat 32 v, pos := p }) rfl (laneTake_kept ..)
      · exact laneTake_kept ..

/-- What a run keeps while bytes come out of it: whose it is, where they go, and how many a replay drops. -/
def LaneRun.seat (y : LaneRun) : Nat × Nat × Nat × Nat := (y.core, y.ring, y.dcore, y.drop)

theorem RunKept.seat {y z : LaneRun} (h : RunKept y z) : z.seat = y.seat ∧ z.out = y.out := by
  rw [← h]
  exact ⟨rfl, rfl⟩

/-- Bytes emitted one after another count in OUT, and change nothing but the window. -/
theorem emitted_eq (l : List Byte) (y : LaneRun) :
    ∃ w, l.foldl (fun y b => emitByte b y) y = { y with win := w, out := y.out + l.length } := by
  induction l generalizing y with
  | nil => exact ⟨y.win, rfl⟩
  | cons b l ih =>
    obtain ⟨w, hw⟩ := ih (emitByte b y)
    refine ⟨w, ?_⟩
    rw [List.foldl_cons, hw, List.length_cons]
    simp only [emitByte, Nat.add_assoc, Nat.add_comm 1]

/-- Byte i of a copy that a run begins: of its input, or of what it has put out. -/
def copyByte (c : LaneCopy) (x : Input) (y : LaneRun) (i : Nat) : Byte :=
  if c = .input then x.byte (y.pos / 8 + i) else y.win.getD (y.dist.toNat - 1 - i) 0

/-- A copy whose length and distance reach far enough makes its bytes in order. -/
theorem copyBytes_eq {c : LaneCopy} (x : Input) {m : Nat} {y : LaneRun} (hc : c ≠ .none) (hcopy : m ≠ 0 → y.copy = c)
    (hlen : m ≤ y.len.toNat) (hd : c = .input ∨ (m ≤ y.dist.toNat ∧ y.dist.toNat ≤ 65536)) :
    (copyBytes x m y).2 = (List.range m).map (copyByte c x y) ∧ (copyBytes x m y).1.seat = y.seat ∧
      (copyBytes x m y).1.out = y.out + m ∧ (copyBytes x m y).1.pos = if c = .input then y.pos + 8 * m else y.pos := by
  induction m generalizing y with
  | zero => exact ⟨rfl, rfl, rfl, by split <;> rfl⟩
  | succ m ih =>
    have hy : y.copy = c := hcopy (Nat.succ_ne_zero m)
    have hlen0 : y.len ≠ 0 := by bv_omega
    generalize hb : (match y.copy with
      | .input => x.byte (y.pos / 8)
      | _ => y.win.getD (y.dist.toNat - 1) 0) = b
    have hbyte : b = copyByte c x y 0 := by
      rw [← hb, hy, copyByte]
      cases c with
      | none => exact absurd rfl hc
      | input => rfl
      | window => rfl
    generalize hz : emitByte b { y with
      len := y.len - 1, pos := if y.copy = .input then y.pos + 8 else y.pos, copy := if y.len = 1 then .none else y.copy } = z
    have hlen1 : (y.len - 1).toNat = y.len.toNat - 1 := by bv_omega
    have hstep : copyBytes x (m + 1) y = ((copyBytes x m z).1, b :: (copyBytes x m z).2) := by
      rw [copyBytes, if_neg hlen0, ← hz, ← hb] <;> rfl
    have hzpos : z.pos = if c = .input then y.pos + 8 else y.pos := by rw [← hz, ← hy]; rfl
    have hzwin : z.win = (b :: y.win).take 65536 ∧ z.dist = y.dist := by rw [← hz]; exact ⟨rfl, rfl⟩
    obtain ⟨hl, hseat, hout, hpos⟩ := ih (y := z)
      (fun hm => by rw [← hz, ← hy]; exact if_neg (by bv_omega))
      (by rw [← hz]; change m ≤ (y.len - 1).toNat; omega)
      (hd.imp id fun h => by rw [hzwin.2]; omega)
    have hrest : ∀ i, i < m → copyByte c x z i = copyByte c x y (i + 1) := by
      intro i hi
      unfold copyByte
      split
      next hin => rw [hzpos, if_pos hin, Nat.add_div_right _ (by decide)]; exact congrArg x.byte (by omega)
      next hin =>
        obtain ⟨hm, hmax⟩ := hd.resolve_left hin
        obtain ⟨j, hj⟩ : ∃ j, y.dist.toNat - 1 - i = j + 1 := ⟨y.dist.toNat - 2 - i, by omega⟩
        rw [hzwin.1, hzwin.2, hj, show y.dist.toNat - 1 - (i + 1) = j by omega, List.getD_eq_getElem?_getD, List.getD_eq_getElem?_getD,
          List.getElem?_take_of_lt (by omega), List.getElem?_cons_succ]
    rw [hstep, List.range_succ_eq_map, List.map_cons, List.map_map]
    refine ⟨?_, hseat.trans (by rw [← hz]; rfl), hout.trans ?_, hpos.trans ?_⟩
    · rw [← hbyte, hl]
      exact congrArg (b :: ·) (List.map_congr_left fun i hi => hrest i (List.mem_range.1 hi))
    · rw [← hz]; change y.out + 1 + m = _; omega
    · rw [hzpos]; split <;> omega

section

variable {s : State} {lane n : Nat} {st : Stream} {y : LaneRun}

/-- What the stream of a run holds once a step has put bytes into it, those apart that a replay drops. -/
def LanePuts (t : State) (n : Nat) (st : Stream) (y : LaneRun) (l : List Byte) : Prop :=
  Safety.streamIs t y.dcore n (fun x => x.head = st.head + (l.drop (y.drop - y.out)).length ∧
    ((l.drop (y.drop - y.out)).length ≤ opRb st.openw →
      ringRead t y.dcore st (opSwz st.openw) st.head (l.drop (y.drop - y.out)).length = l.drop (y.drop - y.out)))

theorem modRing_stream (s : State) (c r d : Nat) (f : Ring → Ring) :
    ((s.modRing c r f).core d).streams = (s.core d).streams ∧ ((s.modRing c r f).core d).padBase = (s.core d).padBase := by
  by_cases h : d = c
  · subst h; rw [State.modRing, State.core_modCore]; exact ⟨rfl, rfl⟩
  · rw [State.modRing, State.core_modCore_ne _ _ _ _ h]; exact ⟨rfl, rfl⟩

/-- The bytes of a run's step commit at HEAD of its stream, and its run goes on. -/
theorem laneCommit_puts {z : LaneRun} {l : List Byte} (hseat : z.seat = y.seat) (hout : z.out = y.out + l.length) :
    ((laneCommit lane n st z l s).lane lane).run = some z ∧ LanePuts (laneCommit lane n st z l s) n st y l := by
  have hdcore : z.dcore = y.dcore := congrArg (fun p => p.2.2.1) hseat
  have hdrop : z.drop - (z.out - l.length) = y.drop - y.out := by
    rw [hout, Nat.add_sub_cancel]; exact congrArg (fun p => p.2.2.2 - y.out) hseat
  have hlane : ((laneCommit lane n st z l s).lane lane).run = some z := by rw [laneCommit, State.lane_modLane]
  refine ⟨hlane, ?_⟩
  unfold laneCommit
  dsimp only
  rw [hdrop, hdcore, LanePuts]
  generalize l.drop (y.drop - y.out) = fresh
  generalize hx : commitBytes y.dcore n st fresh (opSwz st.openw) (fun _ => false) s = x
  have hfind := commitBytes_find y.dcore n (opSwz st.openw) st fresh (fun _ => false) s
  have hread := fun h => ringRead_commitBytes (c := y.dcore) (n := n) (tag := opSwz st.openw) (st := st) (l := fresh) (fun _ => false) s h
  rw [hx] at hfind hread
  obtain ⟨hstream, hbase⟩ := modRing_stream x z.core z.ring y.dcore (fun g => { g with
    chunk := Nat.max g.chunk z.out, value := g.value + BitVec.ofNat 32 fresh.length, bytes := g.bytes + fresh.length })
  have hmem : (x.modRing z.core z.ring (fun g => { g with
    chunk := Nat.max g.chunk z.out, value := g.value + BitVec.ofNat 32 fresh.length, bytes := g.bytes + fresh.length })).mem = x.mem := rfl
  generalize x.modRing z.core z.ring _ = w at hstream hbase hmem
  refine ⟨_, (congrArg (fun k => tfind k n) hstream).trans hfind, rfl, fun hm => ?_⟩
  refine Eq.trans (ringRead_congr (s := x) ?_ ?_ ..) (hread hm)
  exacts [hmem, hbase]

/-- The record of a run is served, and the stream that its lane writes is the one it took. -/
structure LaneServed (s : State) (lane : Nat) (y : LaneRun) (n : Nat) (st : Stream) : Prop where
  run : (s.lane lane).run = some y
  served : runServed s y = true
  quiet : y.quiet < 1024
  stream : laneStream (asSide y.core .ap s) y.dcore y.dport lane = some (n, st)
  holder : st.holder = some (y.core, y.ring)

theorem LaneServed.held (h : LaneServed s lane y n st) : heldStream (asSide y.core .ap s) lane y = some (n, st) := by
  rw [heldStream, h.stream, Option.filter_some, h.holder]; simp

theorem LaneServed.exec (h : LaneServed s lane y n st) : Machine.exec (.laneStep lane) s = .next (if y.copy = .none then
    laneMove lane n st y (asSide y.core .ap s) else laneBurst lane n st y (asSide y.core .ap s)) := by
  change execLaneStep lane s = _
  have hgo : ¬ (runServed s y = false ∨ 1024 ≤ y.quiet) := by rw [h.served]; simpa using h.quiet
  rw [execLaneStep, laneCycle, h.run]
  dsimp only
  rw [if_neg hgo, h.held]

/-- A step of the transducer that meets no fault and has room commits what it emits (R342, R344). -/
theorem laneMove_puts (h : LaneServed s lane y n st) (hc : y.copy = .none) :
    let v := asSide y.core .ap s
    let z := laneStepOn (fun w => (tget (s.lane lane).table w 0).toNat) (laneInput v lane y) y
    let hi := Nat.min z.hi (8 * y.inlen)
    inputFault v lane y (y.pos / 8) (if hi ≤ y.pos then 0 else (hi + 7) / 8) = none → z.emit.length ≤ laneRoom st y → z.stop = none →
      ∃ t y', Machine.exec (.laneStep lane) s = .next t ∧ (t.lane lane).run = some y' ∧ y'.out = y.out + z.emit.length ∧
        y'.pos = z.run.pos ∧ y'.state = z.run.state ∧ LanePuts t n st y z.emit := by
  intro v z hi hf hroom hstop
  obtain ⟨hseat, hout⟩ := (laneStepOn_kept (fun w => (tget (s.lane lane).table w 0).toNat) (laneInput v lane y) y).seat
  obtain ⟨w, hw⟩ := emitted_eq z.emit z.run
  have hmove : laneMove lane n st y v = laneCommit lane n st { z.emit.foldl (fun y b => emitByte b y) z.run with
      quiet := if z.run.pos = y.pos ∧ z.emit = [] ∧ z.run.copy = .none then y.quiet + 1 else 0 } z.emit v := by
    change (match inputFault v lane y (y.pos / 8) (if hi ≤ y.pos then 0 else (hi + 7) / 8) with
      | some f => failRun lane y f v
      | none => if laneRoom st y < z.emit.length then v else match z.stop with
        | some (some sub) => errRun lane z.run sub v
        | _ => if z.stop.isSome then _ else _) = _
    rw [hf]
    dsimp only
    rw [if_neg (not_lt.2 hroom), hstop]
    rfl
  rw [hw] at hmove
  have hputs := laneCommit_puts (s := v) (lane := lane) (n := n) (st := st) (y := y) (l := z.emit) (z := { z.run with
    win := w, out := z.run.out + z.emit.length
    quiet := if z.run.pos = y.pos ∧ z.emit = [] ∧ z.run.copy = .none then y.quiet + 1 else 0 }) hseat (congrArg (· + z.emit.length) hout)
  refine ⟨_, _, (h.exec.trans (congrArg _ (if_pos hc))).trans (congrArg _ hmove), hputs.1, ?_, rfl, rfl, hputs.2⟩
  exact congrArg (· + z.emit.length) hout

/-- A burst of a copy that meets no fault commits its bytes (R343, R346). -/
theorem laneBurst_puts (h : LaneServed s lane y n st) (hc : y.copy ≠ .none) :
    let v := asSide y.core .ap s
    let m := Nat.min (Nat.min (if y.copy = .input then 16 else Nat.min 16 y.dist.toNat) (laneRoom st y)) y.len.toNat
    (y.copy = .input ∨ y.dist.toNat ≤ 65536) →
    inputFault v lane y (y.pos / 8) (y.pos / 8 + if y.copy = .input then m else 0) = none →
      ∃ t y', Machine.exec (.laneStep lane) s = .next t ∧ (t.lane lane).run = some y' ∧ y'.out = y.out + m ∧
        y'.pos = (if y.copy = .input then y.pos + 8 * m else y.pos) ∧
        LanePuts t n st y ((List.range m).map (copyByte y.copy (laneInput v lane y) y)) := by
  intro v m hd hf
  have hreach : y.copy = .input ∨ (m ≤ y.dist.toNat ∧ y.dist.toNat ≤ 65536) := by
    by_cases hin : y.copy = .input
    · exact .inl hin
    · refine .inr ⟨?_, hd.resolve_left hin⟩
      have hm : m = Nat.min (Nat.min (Nat.min 16 y.dist.toNat) (laneRoom st y)) y.len.toNat := by unfold m; rw [if_neg hin]
      rw [hm]
      exact (Nat.min_le_left ..).trans ((Nat.min_le_left ..).trans (Nat.min_le_right ..))
  obtain ⟨hl, hseat, hout, hpos⟩ := copyBytes_eq (laneInput v lane y) hc (fun _ => rfl) (Nat.min_le_right _ _ : m ≤ y.len.toNat) hreach
  generalize hp : copyBytes (laneInput v lane y) m y = p at hl hseat hout hpos
  have hburst : laneBurst lane n st y v = laneCommit lane n st { p.1 with quiet := if p.2.isEmpty then p.1.quiet else 0 } p.2 v := by
    rw [laneBurst]
    simp only [beq_iff_eq]
    rw [hf]
    dsimp only
    rw [hp]
  have hlen : p.2.length = m := by rw [hl, List.length_map, List.length_range]
  have hputs := laneCommit_puts (s := v) (lane := lane) (n := n) (st := st) (y := y) (l := p.2)
    (z := { p.1 with quiet := if p.2.isEmpty then p.1.quiet else 0 }) hseat (hout.trans (by rw [hlen]))
  refine ⟨_, _, (h.exec.trans (congrArg _ (if_neg hc))).trans (congrArg _ hburst), hputs.1, hout, hpos, ?_⟩
  rw [← hl]
  exact hputs.2

end

end Sys2Proof.Machine

namespace Sys2Proof.Machine

/-! ### Fields of a fault record (R159) -/

theorem bytesNat_append (a b : List Byte) : bytesNat (a ++ b) = bytesNat a + 2 ^ (8 * a.length) * bytesNat b := by
  induction a with
  | nil => simp [bytesNat]
  | cons x a ih =>
    have hx : ∀ l : List Byte, bytesNat (x :: l) = x.toNat + 256 * bytesNat l := fun _ => rfl
    rw [List.cons_append, hx, hx, ih, List.length_cons, Nat.mul_succ, Nat.pow_add, Nat.mul_add]
    ring

/-- A field of 64 bytes that are taken as one number. -/
theorem recFld_bytes {a b c : List Byte} (h : (a ++ (b ++ c)).length ≤ 64) :
    recFld (BitVec.ofNat 512 (bytesNat (a ++ (b ++ c)))) a.length b.length = bytesNat b := by
  have hlt : bytesNat (a ++ (b ++ c)) < 2 ^ 512 := (bytesNat_lt _).trans_le (Nat.pow_le_pow_right Nat.two_pos (by omega))
  rw [recFld, nfld, BitVec.toNat_ofNat, Nat.mod_eq_of_lt hlt, bytesNat_append, bytesNat_append,
    Nat.add_mul_div_left _ _ (Nat.two_pow_pos _), Nat.div_eq_of_lt (bytesNat_lt a), Nat.zero_add, Nat.add_mul_mod_self_left,
    Nat.mod_eq_of_lt (bytesNat_lt b)]

/-- CODE and INDEX of a fault record. -/
theorem faultRec_fields (code cause ring kind core port : Nat) (stopped : Bool) (seq index : Nat) (addr : Addr) (chunk time : Nat) :
    let x := faultRec code cause ring kind core port stopped seq index addr chunk time
    recFld x 0 1 = code % 256 ∧ recFld x 12 4 = index % 2 ^ 32 := by
  intro x
  have hlen := length_natBytes
  obtain ⟨mid, hmid⟩ : ∃ l, l = natBytes 1 cause ++ natBytes 1 ring ++ natBytes 1 kind ++ natBytes 2 core ++ natBytes 1 port ++
      natBytes 1 stopped.toNat ++ natBytes 4 seq := ⟨_, rfl⟩
  obtain ⟨tail, htail⟩ : ∃ l, l = bvBytes 8 addr ++ natBytes 8 chunk ++ natBytes 8 time := ⟨_, rfl⟩
  have hm : mid.length = 11 := by rw [hmid]; simp [hlen]
  have ht : tail.length = 24 := by rw [htail]; simp [hlen, bvBytes]
  have hx : x = BitVec.ofNat 512 (bytesNat (natBytes 1 code ++ (mid ++ (natBytes 4 index ++ tail)))) := by
    rw [hmid, htail]
    simp only [x, faultRec, List.append_assoc]
  have hcode := recFld_bytes (a := []) (b := natBytes 1 code) (c := mid ++ (natBytes 4 index ++ tail)) (by simp [hlen, hm, ht])
  have hindex := recFld_bytes (a := natBytes 1 code ++ mid) (b := natBytes 4 index) (c := tail) (by simp [hlen, hm, ht])
  rw [List.nil_append, ← hx, hlen, bytesNat_natBytes] at hcode
  rw [List.append_assoc, ← hx, List.length_append, hm, hlen, hlen, bytesNat_natBytes] at hindex
  exact ⟨hcode, hindex⟩

/-- The fault record that a ring's head leaves on a fault of its own. -/
def headFaultRec (s : State) (c r code : Nat) (stopped : Bool) (index : Nat) (a : Addr) (k : Nat) : BitVec 512 :=
  let g := (s.core c).ring r
  let b := headBytes g
  faultRec code 0 r (rkKind b) c (if rkKind b = 8 then recFld b 0x16 1 else 0xFF) stopped g.rp.toNat index a k (s.die (dieOf c)).tb.toNat

/-- The ring whose fault record is written. -/
theorem ringFault_ring (c r code : Nat) (deferred stopped : Bool) (index : Nat) (a : Addr) (k : Nat) (s : State) :
    ((ringFault c r code 0 deferred stopped index a k s).core c).ring r =
      { (s.core c).ring r with fault := headFaultRec s c r code stopped index a k } := by
  have hcore : (ringFault c r code 0 deferred stopped index a k s).core c = faulted (s.core c) r (headFaultRec s c r code stopped index a k)
      ⟨deliveryWord code deferred 5 r stopped none c, a, BitVec.ofNat 64 (((s.core c).ring r).rp.toNat + index * 2 ^ 32),
        BitVec.ofNat 64 k⟩ := by
    unfold ringFault
    refine (congrArg (fun t : State => t.core c) (if_neg (by decide))).trans ?_
    rw [postDelivery, State.modRing, State.core_modCore, State.core_modCore]
    rfl
  rw [hcore]
  exact faulted_ring ..

/-! ### A head that retires and raises no future (R133, R140) -/

section

variable {c r : Nat} {s : State} {e : RecEntry}

/-- A head that raises no future makes its raise and leaves its ring, whatever the room of the pending list. -/
theorem retire_unraised {fault : Option Nat} (hh : ((s.core c).ring r).head = some e) (hl : s.cur.link = none)
    (ho : s.owes (dieOf c) = false) (hraise : rkRaiseKind e.bytes ≠ 2) :
    retire c r fault s = endRetire c r e.bytes
      (raiseRecord c e.bytes (headValue ((s.core c).ring r)) ((s.core c).ring r).bytes fault (headReleased c r e.bytes s)) := by
  have howes : ¬ (headReleased c r e.bytes s).owes (dieOf c) = true := by
    rw [State.owes, headReleased_bridge _ _ _ hl]; exact ne_of_eq_of_ne ho Bool.false_ne_true
  have hone : raiseDoubled (headReleased c r e.bytes s) c e.bytes = none := if_pos hraise
  rw [retire, hh]
  refine (if_neg howes).trans ?_
  change (match raiseDoubled (headReleased c r e.bytes s) c e.bytes with | none => _ | some a => _) = _
  rw [hone]
  rfl

theorem headReleased_lanes (c r : Nat) (b : BitVec 512) (s : State) : (headReleased c r b s).lanes = s.lanes := by
  have ht : (if rkDevrel b then flushDie (dieOf c) s else s).lanes = s.lanes := by
    split
    exacts [flushDie_lanes .., rfl]
  unfold headReleased
  dsimp only
  split
  exacts [(dropNet_lanes ..).trans ht, ht]

theorem endRequests_rings (c r d : Nat) (b : BitVec 512) (s : State) : ((endRequests c r b s).core d).rings = (s.core d).rings := by
  unfold endRequests
  extract_lets mine s1 s2
  have h2 : s2.cores = s.cores := by
    unfold s2
    split <;> rfl
  have hcore : s2.core d = s.core d := by rw [State.core, State.core, h2]
  split
  · rw [← hcore]
    by_cases h : d = recFld b 0x14 2
    · subst h; rw [State.core_modCore]
    · rw [State.core_modCore_ne _ _ _ _ h]
  · split
    · rw [State.core, dropNet_cores]; exact congrArg Core.rings hcore
    · exact congrArg Core.rings hcore

/-- The ring that a head has left. -/
theorem endRetire_ring (c r : Nat) (b : BitVec 512) (s : State) :
    ((endRetire c r b s).core c).ring r = popHead ((s.core c).ring r) := by
  rw [endRetire, State.ring_modRing, State.core_modCore]
  refine congrArg popHead (Eq.trans ?_ (congrArg (fun x => tget x r Ring.reset) (endRequests_rings c r c b s)))
  split <;> rfl

/-- What a LANE.RUN record leaves that retires: its lane is free, its ring has gone on with the fault record it had, and its stream has
the END and ERR it had (R140, R346). -/
theorem laneRetire_leaves {fault : Option Nat} (hh : ((s.core c).ring r).head = some e) (hl : s.cur.link = none)
    (ho : s.owes (dieOf c) = false) (hraise : rkRaiseKind e.bytes ≠ 2) (h8 : rkKind e.bytes = 8) :
    (∀ lane y, (s.lane lane).run = some y → y.core = c → y.ring = r → ((retire c r fault s).lane lane).run = none) ∧
      (((retire c r fault s).core c).ring r).rp = ((s.core c).ring r).rp + 1 ∧
      (((retire c r fault s).core c).ring r).fault = ((s.core c).ring r).fault ∧
      ∀ d n st, tfind (s.core d).streams n = some st →
        Safety.streamIs (retire c r fault s) d n (fun x => x.fin = st.fin ∧ x.err = st.err) := by
  rw [retire_unraised hh hl ho hraise]
  have hcore : ∀ d, (headReleased c r e.bytes s).core d = s.core d := fun d => by rw [State.core, State.core, headReleased_cores]
  have hsig := raiseRecord_signalled (headReleased c r e.bytes s) hraise c (headValue ((s.core c).ring r)) ((s.core c).ring r).bytes fault
  generalize raiseRecord c e.bytes _ _ fault _ = x at hsig
  have hring := hsig.ring c r
  rw [hcore] at hring
  have hlane : x.lanes = s.lanes := hsig.lanes.trans (headReleased_lanes ..)
  refine ⟨fun lane y hy hc hr => ?_, ?_, ?_, fun d n st hst => ?_⟩
  · rw [endRetire_lane, endRequests_lane, if_pos (.inr (.inl h8)), State.lane, hlane]
    change ((s.lane lane).run).filter _ = none
    rw [hy]
    simp [hc, hr]
  · rw [endRetire_ring, ← hring]; rfl
  · rw [endRetire_ring, ← hring]; rfl
  · have hx : tfind (x.core d).streams n = some st := by rw [hsig.streams, hcore]; exact hst
    rw [Safety.streamIs, endRetire_streams]
    rcases endRequests_stream (c := c) (r := r) h8 hx with hf | hf
    exacts [⟨_, hf, rfl, rfl⟩, ⟨_, hf, rfl, rfl⟩]

end

end Sys2Proof.Machine

namespace Sys2Proof.Machine

/-! ### The loop limit (R342, R346, R154) -/

theorem ringFault_streams {code : Nat} (hc : code < 256) (c r : Nat) (deferred stopped : Bool) (index : Nat) (a : Addr) (k : Nat) (s : State)
    (d : Nat) : ((ringFault c r code 0 deferred stopped index a k s).core d).streams = (s.core d).streams := by
  by_cases h : d = c
  · subst h
    obtain ⟨x, y, hcore, -⟩ := ringFault_core hc d r deferred stopped index a k s
    rw [hcore, faulted]
    dsimp only
    split <;> rfl
  · unfold ringFault
    refine (congrArg (fun t : State => (t.core d).streams) (if_neg (by decide))).trans ?_
    rw [postDelivery, State.modRing, State.core_modCore_ne _ _ _ _ h, State.core_modCore_ne _ _ _ _ h]

theorem endLaneStream_lanes (y : LaneRun) (code : Code) (lane : Nat) (s : State) : (endLaneStream y code lane s).lanes = s.lanes := by
  unfold endLaneStream
  split <;> rfl

section

variable {s : State} {lane : Nat} {y : LaneRun} {e : RecEntry}

/-- A run that a decode error ends: its lane is free, its record has retired with a fault record of that error, and the stream it
holds has END with DECODE (R154, R346). -/
theorem errRun_ends {sub : Nat} (hrun : (s.lane lane).run = some y) (hh : ((s.core y.core).ring y.ring).head = some e)
    (h8 : rkKind e.bytes = 8) (hraise : rkRaiseKind e.bytes ≠ 2) (hp : (s.core y.core).pending.length < 64)
    (ho : s.owes (dieOf y.core) = false) (hl : s.cur.link = none) :
    let t := errRun lane y sub s
    let h := (t.core y.core).ring y.ring
    (t.lane lane).run = none ∧ h.rp = ((s.core y.core).ring y.ring).rp + 1 ∧ recFld h.fault 0 1 = 0x11 ∧ recFld h.fault 12 4 = sub % 2 ^ 32 ∧
      ∀ n st, heldStream s lane y = some (n, st) → Safety.streamIs t y.dcore n (fun x => x.fin = true ∧ x.err = 0x11) := by
  intro t h
  have hkept := endLaneStream_kept y.core y.ring y .decode lane s
  have hlanes := endLaneStream_lanes y .decode lane s
  have hend : ∀ n st, heldStream s lane y = some (n, st) →
      tfind ((endLaneStream y .decode lane s).core y.dcore).streams n = some { st with fin := true, err := 0x11 } := fun n st hst => by
    rw [endLaneStream, hst]
    exact putStream_find ..
  have ht : t = faultHead y.core y.ring y.out ⟨.decode, y.src + BitVec.ofNat 64 (y.pos / 8), sub, false⟩ false
    (endLaneStream y .decode lane s) := rfl
  generalize endLaneStream y .decode lane s = w at hkept hlanes hend ht
  have hfull : listFull w y.core = false := by rw [listFull, hkept.pending]; exact decide_eq_false (not_le.2 hp)
  rw [faultHead, hfull] at ht
  change t = retire y.core y.ring (some 0x11) (ringFault y.core y.ring 0x11 0 false false sub _ y.out w) at ht
  have hring := ringFault_ring y.core y.ring 0x11 false false sub (y.src + BitVec.ofNat 64 (y.pos / 8)) y.out w
  have hhead : (((ringFault y.core y.ring 0x11 0 false false sub (y.src + BitVec.ofNat 64 (y.pos / 8)) y.out w).core y.core).ring y.ring).head =
    some e := ringFault_head (code := .decode) (hkept.head.trans hh) ..
  have hrp0 := ringFault_rp (c := y.core) (r := y.ring) y.core y.ring 0x11 0 false false sub (y.src + BitVec.ofNat 64 (y.pos / 8)) y.out w
  have hstreams := ringFault_streams (by decide : 0x11 < 256) y.core y.ring false false sub (y.src + BitVec.ofNat 64 (y.pos / 8)) y.out w
  have hrest := ringFault_rest y.core y.ring 0x11 0 false false sub (y.src + BitVec.ofNat 64 (y.pos / 8)) y.out w
  have hxlanes := ringFault_lanes y.core y.ring 0x11 0 false false sub (y.src + BitVec.ofNat 64 (y.pos / 8)) y.out w
  generalize ringFault y.core y.ring 0x11 0 false false sub _ y.out w = x at ht hring hhead hrp0 hstreams hrest hxlanes
  have hxl : x.cur.link = none := by
    have := congrArg (fun u : State => u.cur.link) hrest
    exact (show x.cur.link = w.cur.link from this).trans (hkept.link.trans hl)
  have hxo : x.owes (dieOf y.core) = false := by
    have := congrArg State.bridge hrest
    rw [State.owes, show x.bridge = w.bridge from this, hkept.bridge]; exact ho
  obtain ⟨hnone, hrp, hfault, hends⟩ := laneRetire_leaves (c := y.core) (r := y.ring) (s := x) (e := e) (fault := some 0x11)
    hhead hxl hxo hraise h8
  rw [← ht] at hnone hrp hfault hends
  rw [hring] at hfault
  refine ⟨hnone lane y (by rw [State.lane, hxlanes, hlanes]; exact hrun) rfl rfl, hrp.trans (congrArg (· + 1) (Eq.trans hrp0 hkept.rp)), ?_, ?_,
    fun n st hst => ?_⟩
  · rw [hfault]
    exact (faultRec_fields ..).1
  · rw [hfault]
    exact (faultRec_fields ..).2
  · exact hends y.dcore n _ (by rw [hstreams]; exact hend n st hst)

/-- A run of 1,024 quiet steps ends with LOOP (R342). -/
theorem laneLoopLimit_exec (hrun : (s.lane lane).run = some y) (hserved : runServed s y = true) (hq : 1024 ≤ y.quiet) :
    exec (.laneLoopLimit lane) s = .next (errRun lane y eLoop (asSide y.core .ap s)) := by
  change execLaneLoopLimit lane s = _
  rw [execLaneLoopLimit, hrun]
  exact congrArg _ (if_pos ⟨hserved, hq⟩)

end

end Sys2Proof.Machine

namespace Sys2Proof.Machine

/-! ### COPY with DECODE (R144, R146, R354) -/

section

variable {s : State} {c r k : Nat} {b : BitVec 512}

/-- The state in which a DECODE chunk reads its unit: the lane that decodes it, if one does, has taken the request. -/
def unitTaken (c r : Nat) (src : Addr) (u : State) : State :=
  match unitLane u c src with
  | some x => laneTake1 x c r u
  | none => u

theorem unitTaken_reads (c r : Nat) (src : Addr) (u : State) : SameReads u (unitTaken c r src u) := by
  unfold unitTaken
  split
  exacts [laneTake1_reads .., .refl u]

theorem unitTaken_progress (c r : Nat) (src : Addr) (u : State) : ProgressKept c r u (unitTaken c r src u) := by
  unfold unitTaken
  split
  exacts [⟨rfl, rfl, rfl, rfl⟩, .refl c r u]

/-- A DECODE chunk of a ring that holds no unit, whose lane is free, decodes its unit. -/
theorem copyDecode_due (h : Safety.chunkDue c r 1 k b s) (hd : rkDecode b = true) (hk : 4096 * (k + 1) ≤ recFld b 0x28 4)
    (hheld : ((s.core c).ring r).held = false)
    (ht : ∀ x, unitLane (asSide c .ap s) c (BitVec.ofNat 64 (recFld b 0x10 8 + 4096 * k)) = some x → laneTurn (asSide c .ap s) x c r = true) :
    exec (.copyDecode c r k) s = .next (decodeUnit c r k (recFld b 0x28 4 / 4096) ((s.core c).ring r)
      (BitVec.ofNat 64 (recFld b 0x10 8 + 4096 * k)) (BitVec.ofNat 64 (recFld b 0x18 8 + 4096 * k))
      (unitTaken c r (BitVec.ofNat 64 (recFld b 0x10 8 + 4096 * k)) (asSide c .ap s))) := by
  have hn : ¬ recFld b 0x28 4 / 4096 ≤ k := by omega
  have hd' : ¬ rkDecode b = false := by rw [hd]; exact Bool.noConfusion
  have hfree : ¬ ((s.core c).ring r).held = true := by rw [hheld]; exact Bool.noConfusion
  refine congrArg _ ((chunkStep_due h _).trans ?_)
  rw [decodeChunk, chunkDue_head h]
  refine (if_neg hd').trans ((if_neg (fun hc => hn (hc.trans (chunkDue_window h)))).trans ((if_neg hn).trans ((if_neg hfree).trans ?_)))
  unfold unitTaken
  split
  next hx => rw [hx]
  next x hx => rw [hx]; exact if_pos (ht x hx)

/-- A DECODE chunk whose unit decodes lands it and is done. -/
theorem copyDecode_lands (h : Safety.chunkDue c r 1 k b s) (hd : rkDecode b = true) (hk : 4096 * (k + 1) ≤ recFld b 0x28 4)
    (hheld : ((s.core c).ring r).held = false) (hsteps : s.cur.steps ≠ 0)
    (ht : ∀ x, unitLane (asSide c .ap s) c (BitVec.ofNat 64 (recFld b 0x10 8 + 4096 * k)) = some x → laneTurn (asSide c .ap s) x c r = true) :
    let src := BitVec.ofNat 64 (recFld b 0x10 8 + 4096 * k)
    let dst := BitVec.ofNat 64 (recFld b 0x18 8 + 4096 * k)
    let w := unitTaken c r src (asSide c .ap s)
    spanFault w c dst 4096 .store = none → unitFault91 w c src = none →
    ∀ v ps, unitBytes c src w = (v, .ok (ps, none)) → (∀ p ∈ ps, p.2 = false) → (ps.flatMap (fun p => p.1)).length = 4096 →
    ∃ t, exec (.copyDecode c r k) s = .next t ∧ Safety.chunkDone t s c r k (recFld b 0x28 4 / 4096) 4096 ∧
      (rkRaiseKind b ≠ 2 → Safety.devrelOk c b s → Safety.seen t c dst 4096 = ps.flatMap (fun p => p.1)) := by
  intro src dst w hspan hunit v ps hbytes hclean hlen
  have hw : ProgressKept c r s w := (asSide_progress c r .ap s).trans (unitTaken_progress ..)
  have hread : ReadStep w v := .of_pair hbytes (unitBytes_reads ..)
  have hv : ProgressKept c r s v := hw.trans (.of_mem hread.toMemStep (hw.link.trans h.2.1) c r)
  have hcur : v.cur.steps = s.cur.steps := by
    have hws : w.cur.steps = s.cur.steps := by rw [(unitTaken_reads c r src (asSide c .ap s)).cur]; rfl
    have := congrArg Cur.steps hread.cur
    exact (show v.cur.steps = w.cur.steps from this).trans hws
  have hfar : Safety.devrelOk c b s → rkDevrel b = true → Safety.farLines (dieOf c) v := fun h1 h2 =>
    have hs : Safety.farLines (dieOf c) (asSide c .ap s) := h1 h2
    have hsame := unitTaken_reads c r src (asSide c .ap s)
    (FarRead.of_pair hbytes (unitBytes_far ..)).2 (farLines_mono hsame.maps hs fun x hx =>
      .inl ⟨x, by rw [State.die, hsame.dies] at hx; exact hx, rfl, rfl⟩)
  have hland := writes_land (v := v) (total := recFld b 0x28 4 / 4096) (q := 4096) (dst := dst) (l := ps.flatMap (fun p => p.1)) h
    (by decide) hv (by rw [hlen, hread.sameMaps.spanFault, hspan]) hfar
  rw [hlen] at hland
  refine ⟨_, (copyDecode_due h hd hk hheld ht).trans (congrArg _ ?_), hland⟩
  change decodeUnit c r k _ _ src dst w = _
  rw [decodeUnit, hspan, hunit, hbytes]
  refine (if_neg (by rw [hcur]; exact hsteps)).trans ?_
  rw [writeUnit, markPieces_clean hclean]
  rfl

theorem faulted_hold (k : Core) (r : Nat) (x : BitVec 512) (d : Delivery) : (faulted k r x d).hold = k.hold := by
  unfold faulted
  dsimp only
  split <;> rfl

/-- A unit held at the front of its record whose destination does not translate stops the ring, which keeps it (R143, R144). -/
theorem heldUnit_stops {f : CFault} (h : Safety.chunkDue c r 1 ((s.core c).ring r).chunk b s) (hd : rkDecode b = true)
    (hk : ((s.core c).ring r).chunk < recFld b 0x28 4 / 4096) (hheld : ((s.core c).ring r).held = true) (hnostop : rkNostop b = false)
    (hf : spanFault (asSide c .ap s) c (BitVec.ofNat 64 (recFld b 0x18 8 + 4096 * ((s.core c).ring r).chunk)) 4096 .store = some f) :
    ∃ t, exec (.copyDecode c r ((s.core c).ring r).chunk) s = .next t ∧ t.mem = s.mem ∧ (t.core c).hold = (s.core c).hold ∧
      ((t.core c).ring r).st = .stop ∧ ((t.core c).ring r).fcode = BitVec.ofNat 8 f.code.num ∧ ((t.core c).ring r).held = true ∧
      ((t.core c).ring r).rp = ((s.core c).ring r).rp := by
  obtain ⟨e, he, rfl⟩ := chunkDue_record h
  have hd' : ¬ rkDecode e.bytes = false := by rw [hd]; exact Bool.noConfusion
  have hrep : (!rkNostop (headBytes (((asSide c .ap s).core c).ring r))) = true := by
    rw [headBytes_of_head (show (((asSide c .ap s).core c).ring r).head = some e from he), hnostop]; rfl
  have hexec : exec (.copyDecode c r ((s.core c).ring r).chunk) s =
      .next (faultHead c r ((s.core c).ring r).chunk f true (asSide c .ap s)) := by
    refine congrArg _ ((chunkStep_due h _).trans ?_)
    rw [decodeChunk, chunkDue_head h]
    refine (if_neg hd').trans ((if_neg (not_le.2 hk)).trans ((if_neg (not_le.2 hk)).trans ((if_pos hheld).trans ((if_pos rfl).trans ?_))))
    rw [writeHeld, hf]
    dsimp only
    rw [hrep]
  obtain ⟨hmem, hst, hcode, hrp, -⟩ := faultHead_stops c r ((s.core c).ring r).chunk f (asSide c .ap s)
  refine ⟨_, hexec, hmem, ?_, hst, hcode, ?_, hrp⟩
  · obtain ⟨x, d, hcore, -⟩ := ringFault_core f.code.num_lt c r f.deferred (true || listFull (asSide c .ap s) c) f.index f.addr
      ((s.core c).ring r).chunk (asSide c .ap s)
    change ((State.modRing _ c r (stopRing f.code.num none)).core c).hold = _
    rw [State.modRing, State.core_modCore, hcore]
    exact faulted_hold ..
  · change (((State.modRing _ c r (stopRing f.code.num none)).core c).ring r).held = true
    rw [State.ring_modRing, ringFault_ring]
    exact hheld

end

end Sys2Proof.Machine

namespace Sys2Proof

open Sys2Proof.Machine

/-- Settles O45: a loaded table outlives its record's end, a step of a run commits what it emits, the loop limit retires the record as a
decode error, and a decoded unit lands as any move of bytes does. -/
theorem lanesRunAndDecode : Obligations.LanesRunAndDecode := by
  unfold Obligations.LanesRunAndDecode
  intro s c r k lane b u g
  refine ⟨?_, ?_, ?_, ?_, ?_⟩
  · rintro h rfl hk ht n src hs hp l
    exact ⟨chunkRead_readsAs h.2.1 hs, laneLoad_lands h hk ht hs hp⟩
  · rintro h rfl hfree ht n st hst hturn
    obtain ⟨t, hexec, hrun, hstream⟩ := laneRun_starts h hfree ht hst hturn
    exact ⟨t, _, hexec, hrun, rfl, rfl, rfl, rfl, rfl, rfl, rfl, rfl, _, hstream, rfl, rfl⟩
  · intro y hrun hserved v
    refine ⟨fun hq _ n st hst hholder => ?_, fun hq hsome => ?_⟩
    · have hs : LaneServed s lane y n st := ⟨hrun, hserved, hq, hst, hholder⟩
      exact ⟨fun hc => laneMove_puts hs hc, fun hc => laneBurst_puts hs hc⟩
    · intro b h8 hraise hp ho hl
      obtain ⟨e, he⟩ := Option.isSome_iff_exists.1 hsome
      have hb : b = e.bytes := headBytes_of_head he
      rw [hb] at h8 hraise
      obtain ⟨hnone, hrp, hcode, hindex, hends⟩ := errRun_ends (s := asSide y.core .ap s) (sub := eLoop) hrun he h8 hraise hp ho hl
      refine ⟨_, laneLoopLimit_exec hrun hserved hq, hnone, hrp, hcode, hindex, fun n st hst hholder => hends n st ?_⟩
      change (laneStream s y.dcore y.dport lane).filter _ = _
      rw [hst, Option.filter_some, hholder]
      simp
  · intro h hd hk hheld hsteps src dst ht w hspan hunit v ps hbytes hclean hlen
    obtain ⟨t, hexec, hdone, hseen⟩ := copyDecode_lands h hd hk hheld hsteps ht hspan hunit v ps hbytes hclean hlen
    exact ⟨t, hexec, hdone, fun h1 h2 _ => hseen h1 h2⟩
  · intro h hd hk hheld hnostop f hf
    exact heldUnit_stops h hd hk hheld hnostop hf

end Sys2Proof
